-- ==== Sys2Proof/Word.lean ====
section
/-! DEFINITION. The word types of the SVL-4640 and the names for the widths the spec uses (00 R6, R10, R11). -/

namespace Sys2Proof

/-- A byte of memory; data is little-endian (R6). -/
abbrev Byte := BitVec 8

/-- A 64-bit word: a scalar register, a control register, a doubleword (R11). -/
abbrev Word := BitVec 64

/-- A 32-bit word: one vector lane, one grid element, a pointer register (R10, R11). -/
abbrev Lane := BitVec 32

/-- A vector: 64 lanes, lane 0 first (R10). -/
abbrev Vec := List Lane

/-- A list of 64 zero lanes. -/
def zeroVec : Vec := List.replicate 64 0

/-- Lane `i` of a vector; a lane beyond the list reads 0. -/
def lane (v : Vec) (i : Nat) : Lane := v.getD i 0

end Sys2Proof
end

