-- ==== Sys2Proof/Machine/Sparse.lean ====
section
/-! DEFINITION. Sparse data by number: sorted lists of (index, value) pairs in ONE canonical form,
strictly rising indexes and no entry equal to what an unlisted index reads as. Register files, the grid,
local storage and memory are all held so. -/

namespace Sys2Proof.Machine

/-- Values by number, in canonical form. -/
abbrev Sparse (α : Type) := List (Nat × α)

/-- What index `k` reads as, `d` being what an unlisted index reads as. -/
def spGet {α : Type} (d : α) : Sparse α → Nat → α
  | [], _ => d
  | (j, v) :: m, k => if k = j then v else spGet d m k

/-- Removes what stands at `k`. -/
def spDel {α : Type} (m : Sparse α) (k : Nat) : Sparse α := m.filter (fun p => p.1 ≠ k)

/-- Writes `v` at `k`; the value an unlisted index reads as removes the entry. -/
def spSet {α : Type} [DecidableEq α] (d : α) (m : Sparse α) (k : Nat) (v : α) : Sparse α :=
  match m with
  | [] => if v = d then [] else [(k, v)]
  | (j, w) :: m' =>
    if k < j then (if v = d then (j, w) :: spDel m' k else (k, v) :: (j, w) :: m')
    else if k = j then (if v = d then spDel m' k else (k, v) :: m')
    else (j, w) :: spSet d m' k v

/-- The values of `vs` at `k`, `k + 1`, ..., those that an unlisted index reads as left out. -/
def spRun {α : Type} [DecidableEq α] (d : α) (k : Nat) : List α → Sparse α
  | [] => []
  | v :: vs => if v = d then spRun d (k + 1) vs else (k, v) :: spRun d (k + 1) vs

/-- Writes the values of `vs` at `k`, `k + 1`, ... -/
def spSetRun {α : Type} [DecidableEq α] (d : α) (m : Sparse α) (k : Nat) (vs : List α) : Sparse α :=
  m.filter (fun p => p.1 < k) ++ spRun d k vs ++ m.filter (fun p => k + vs.length ≤ p.1)

/-- The `n` values from `k` on. -/
def spGetRun {α : Type} (d : α) (m : Sparse α) (k n : Nat) : List α :=
  (List.range n).map (fun i => spGet d m (k + i))

/-- The canonical form, as a test: indexes rise strictly from `lo` on and no entry equals `d`. -/
def spWfFrom {α : Type} [DecidableEq α] (d : α) : Nat → Sparse α → Bool
  | _, [] => true
  | lo, (j, v) :: m => decide (lo ≤ j) && !decide (v = d) && spWfFrom d (j + 1) m

/-- The canonical form. -/
def spWf {α : Type} [DecidableEq α] (d : α) (m : Sparse α) : Bool := spWfFrom d 0 m

/-- Removes every entry of an index below `n` (a reset of the first `n` places). -/
def spDropBelow {α : Type} (n : Nat) (m : Sparse α) : Sparse α := m.filter (fun p => n ≤ p.1)

/-- Removes every entry in `[lo, hi)`. -/
def spClear {α : Type} (lo hi : Nat) (m : Sparse α) : Sparse α :=
  m.filter (fun p => p.1 < lo || hi ≤ p.1)

/-- Memory: bytes by address; what an address that nothing has written reads as is 0
(assumption 2). -/
abbrev Memory := Sparse Byte

/-- One byte of memory. -/
def memRead (m : Memory) (a : Nat) : Byte := spGet 0 m a

/-- One byte of memory written. -/
def memWrite (m : Memory) (a : Nat) (b : Byte) : Memory := spSet 0 m a b

/-- The canonical form of a memory. -/
def Memory.wf (m : Memory) : Bool := spWf 0 m

/-- The little-endian number in a list of bytes (R6). -/
def leNat : List Byte → Nat
  | [] => 0
  | b :: bs => b.toNat + 256 * leNat bs

/-- The `n` bytes of a number, least significant first (R6). -/
def leBytes : Nat → Nat → List Byte
  | 0, _ => []
  | n + 1, v => BitVec.ofNat 8 (v % 256) :: leBytes n (v / 256)

/-- `n` bytes from address `a` on. -/
def memBytes (m : Memory) (a n : Nat) : List Byte := spGetRun 0 m a n

/-- The little-endian number in the `n` bytes at `a`. -/
def memNat (m : Memory) (a n : Nat) : Nat := leNat (memBytes m a n)

/-- Bytes written from `a` on. -/
def memPut (m : Memory) (a : Nat) (bs : List Byte) : Memory := spSetRun 0 m a bs

/-- The low `n` bytes of a number written at `a`, little-endian. -/
def memPutNat (m : Memory) (a n v : Nat) : Memory := memPut m a (leBytes n v)

/-- A vector read as 256 bytes. -/
def bytesVec : List Byte → Nat → Vec
  | _, 0 => []
  | bs, n + 1 => BitVec.ofNat 32 (leNat (bs.take 4)) :: bytesVec (bs.drop 4) n

/-- The 256 bytes of a vector (R10: lane 0 at the lowest address). -/
def vecBytes (v : Vec) : List Byte := v.flatMap (fun l => leBytes 4 l.toNat)

/-- Replaces element `i` of a list; beyond the end nothing changes. -/
def setAt {α : Type} : List α → Nat → α → List α
  | [], _, _ => []
  | _ :: xs, 0, v => v :: xs
  | x :: xs, n + 1, v => x :: setAt xs n v

/-- Bits `hi..lo` of a number. -/
def bits (v hi lo : Nat) : Nat := (v / 2 ^ lo) % 2 ^ (hi + 1 - lo)

/-- Bit `i` of a number. -/
def bit (v i : Nat) : Bool := (v / 2 ^ i) % 2 = 1

/-- A number with its bits `hi..lo` replaced by the low bits of `x`. -/
def setBits (v hi lo x : Nat) : Nat :=
  v - bits v hi lo * 2 ^ lo + (x % 2 ^ (hi + 1 - lo)) * 2 ^ lo

/-- A Bool as a bit. -/
def b2n (b : Bool) : Nat := if b then 1 else 0

/-- Two's complement reading of the low `n` bits. -/
def sext (n v : Nat) : Int :=
  let u := v % 2 ^ n
  if 2 * u < 2 ^ n then (u : Int) else (u : Int) - (2 ^ n : Nat)

/-- An integer reduced modulo `2 ^ n`. -/
def wrapN (n : Nat) (i : Int) : Nat := (i % ((2 ^ n : Nat) : Int)).toNat

end Sys2Proof.Machine
end

