-- ==== Sys2Proof/Machine/Num.lean ====
section
/-! DEFINITION. Number formats, the rounding functions, flags and conversions (07 R192 to R202).
Values are exact rationals; each rounding is one named function. -/

namespace Sys2Proof.Machine

/-- Floating-point flags in the bit order of FPSTAT 5..0 (R200): NX 0, UF 1, OF 2, DZ 3, NV 4, SAT 5. -/
abbrev Flags := BitVec 6

def fNone : Flags := 0
def fNX : Flags := 1
def fUF : Flags := 2
def fOF : Flags := 4
def fDZ : Flags := 8
def fNV : Flags := 16
def fSAT : Flags := 32

/-- An exact argument of a rounding: NaN, an infinity by sign, or a rational; `nz` marks a zero that is −0. -/
inductive XR
  | nan
  | inf (neg : Bool)
  | fin (q : Rat) (nz : Bool)
  deriving DecidableEq, Repr

/-- A floating-point format (R192): width, fraction bits, bias, pattern of the largest finite
magnitude, canonical NaN (R197), pattern of infinity where there is one. -/
structure Fmt where
  width : Nat
  frac : Nat
  bias : Nat
  maxPat : Nat
  nanPat : Nat
  infPat : Option Nat
  deriving DecidableEq, Repr

def fmt32 : Fmt := ⟨32, 23, 127, 0x7F7FFFFF, 0x7FC00000, some 0x7F800000⟩
def fmtBf : Fmt := ⟨16, 7, 127, 0x7F7F, 0x7FC0, some 0x7F80⟩
def fmtHf : Fmt := ⟨16, 10, 15, 0x7BFF, 0x7E00, some 0x7C00⟩
def fmtE4 : Fmt := ⟨8, 3, 7, 0x7E, 0x7F, none⟩
def fmtE5 : Fmt := ⟨8, 2, 15, 0x7B, 0x7E, some 0x7C⟩

/-- `2 ^ e` for an integer `e`. -/
def pow2 (e : Int) : Rat :=
  if 0 ≤ e then ((2 ^ e.toNat : Nat) : Rat) else mkRat 1 (2 ^ (-e).toNat)

/-- Exponent of the smallest normal magnitude. -/
def Fmt.emin (f : Fmt) : Int := 1 - (f.bias : Int)

/-- The value of a pattern (R192). -/
def fpVal (f : Fmt) (p : Nat) : XR :=
  let neg := bit p (f.width - 1)
  let m := p % 2 ^ (f.width - 1)
  if f.maxPat < m then
    (if f.infPat = some m then .inf neg else .nan)
  else
    let k := if m < 2 ^ f.frac then m else m % 2 ^ f.frac + 2 ^ f.frac
    let e : Int := if m < 2 ^ f.frac then f.emin else ((m / 2 ^ f.frac : Nat) : Int) - f.bias
    let q := (k : Rat) * pow2 (e - f.frac)
    .fin (if neg then -q else q) (neg && m = 0)

/-- The integer `e` with `2 ^ e ≤ q < 2 ^ (e+1)`, for `q > 0`. -/
def ilog2 (q : Rat) : Int :=
  let l : Int := (Nat.log2 q.num.natAbs : Int) - (Nat.log2 q.den : Int)
  if pow2 l ≤ q then l else l - 1

/-- Rounding directions of R196: nearest (ties to even), toward zero (the z forms), toward +∞. -/
inductive RMode
  | near
  | zero
  | up
  deriving DecidableEq, Repr

/-- `|q|` rounded to a natural number; `neg` is the sign. -/
def roundNat (mode : RMode) (neg : Bool) (q : Rat) : Nat :=
  let n := q.num.natAbs
  let lo := n / q.den
  let r := n % q.den
  match mode with
  | .zero => lo
  | .up => if r = 0 || neg then lo else lo + 1
  | .near => if 2 * r < q.den then lo else if q.den < 2 * r then lo + 1
             else if lo % 2 = 0 then lo else lo + 1

/-- Sets the sign bit of a magnitude pattern. -/
def signed (f : Fmt) (neg : Bool) (m : Nat) : Nat := if neg then m + 2 ^ (f.width - 1) else m

/-- The overflow result of R196. -/
def overflowPat (f : Fmt) (mode : RMode) (sat neg : Bool) : Nat × Flags :=
  match mode with
  | .zero => (signed f neg f.maxPat, fOF ||| fNX)
  | .up =>
    (match f.infPat with
      | some i => if neg then signed f true f.maxPat else i
      | none => signed f neg f.maxPat, fOF ||| fNX)
  | .near =>
    if sat then (signed f neg f.maxPat, fSAT ||| fNX)
    else match f.infPat with
      | some i => (signed f neg i, fOF ||| fNX)
      | none => (f.nanPat, fOF ||| fNX)

/-- A finite non-zero rational rounded into a format (R196); UF is set for an inexact result that is
tiny when rounded to the significand width with an unbounded exponent (R200, assumption 5). -/
def roundFin (f : Fmt) (mode : RMode) (sat : Bool) (q : Rat) : Nat × Flags :=
  let neg := decide (q < 0)
  let a := if q < 0 then -q else q
  let e0 := ilog2 a
  let e := if e0 < f.emin then f.emin else e0
  let k := roundNat mode neg (a / pow2 (e - f.frac))
  let pat := (e - f.emin).toNat * 2 ^ f.frac + k
  if f.maxPat < pat then overflowPat f mode sat neg
  else
    let exact := (k : Rat) * pow2 (e - f.frac) = a
    let ku := roundNat mode neg (a / pow2 (e0 - f.frac))
    let tiny := (ku : Rat) * pow2 (e0 - f.frac) < pow2 f.emin
    (signed f neg pat, if exact then fNone else if tiny then fNX ||| fUF else fNX)

/-- The rounding functions of R196. `sat` is the saturating form (sat_e4, sat_e5). -/
def roundTo (f : Fmt) (mode : RMode) (sat : Bool) : XR → Nat × Flags
  | .nan => (f.nanPat, fNone)
  | .inf neg =>
    if sat then (signed f neg f.maxPat, fSAT)
    else match f.infPat with
      | some i => (signed f neg i, fNone)
      | none => (f.nanPat, fNV)
  | .fin q nz => if q = 0 then (signed f nz 0, fNone) else roundFin f mode sat q

/-- rne32 of R196. -/
def rne32 (x : XR) : Nat × Flags := roundTo fmt32 .near false x

/-- The value of an FP32 pattern. -/
def v32 (p : Nat) : XR := fpVal fmt32 p

/-- A finite value. -/
def xq (q : Rat) : XR := .fin q false

def xIsNan : XR → Bool
  | .nan => true
  | _ => false

def xNeg : XR → XR
  | .nan => .nan
  | .inf s => .inf (!s)
  | .fin q nz => if q = 0 then .fin 0 (!nz) else .fin (-q) false

def xAbs : XR → XR
  | .nan => .nan
  | .inf _ => .inf false
  | .fin q _ => .fin (if q < 0 then -q else q) false

/-- The sign, −0 counted as negative. -/
def xSign : XR → Bool
  | .nan => false
  | .inf s => s
  | .fin q nz => decide (q < 0) || (decide (q = 0) && nz)

/-- Exact sum with the special values of R198: a zero sum is −0 only if both terms are −0. -/
def xAdd (x y : XR) : XR × Flags :=
  match x, y with
  | .nan, _ => (.nan, fNone)
  | _, .nan => (.nan, fNone)
  | .inf a, .inf b => if a = b then (.inf a, fNone) else (.nan, fNV)
  | .inf a, .fin _ _ => (.inf a, fNone)
  | .fin _ _, .inf b => (.inf b, fNone)
  | .fin p a, .fin q b => (.fin (p + q) (decide (p = 0) && decide (q = 0) && a && b), fNone)

def xSub (x y : XR) : XR × Flags := xAdd x (xNeg y)

/-- Exact product (R198); a zero product takes the product of the signs. -/
def xMul (x y : XR) : XR × Flags :=
  match x, y with
  | .nan, _ => (.nan, fNone)
  | _, .nan => (.nan, fNone)
  | .inf a, .inf b => (.inf (xor a b), fNone)
  | .inf a, .fin q nz => if q = 0 then (.nan, fNV) else (.inf (xor a (xSign (.fin q nz))), fNone)
  | .fin q nz, .inf b => if q = 0 then (.nan, fNV) else (.inf (xor b (xSign (.fin q nz))), fNone)
  | .fin p a, .fin q b =>
    (.fin (p * q) (decide (p * q = 0) && xor (xSign (.fin p a)) (xSign (.fin q b))), fNone)

/-- Exact quotient, IEEE 754 special values; a zero divisor gives an infinity with DZ. -/
def xDiv (x y : XR) : XR × Flags :=
  match x, y with
  | .nan, _ => (.nan, fNone)
  | _, .nan => (.nan, fNone)
  | .inf _, .inf _ => (.nan, fNV)
  | .inf a, .fin q nz => (.inf (xor a (xSign (.fin q nz))), fNone)
  | .fin q nz, .inf b => (.fin 0 (xor b (xSign (.fin q nz))), fNone)
  | .fin p a, .fin q b =>
    if q = 0 then (if p = 0 then (.nan, fNV) else (.inf (xor (xSign (.fin p a)) b), fDZ))
    else (.fin (p / q) (decide (p = 0) && xor a (decide (q < 0))), fNone)

/-- Real-number order with −0 equal to +0 (R199); false where a NaN takes part. -/
def xLt (x y : XR) : Bool :=
  match x, y with
  | .nan, _ => false
  | _, .nan => false
  | .inf a, .inf b => a && !b
  | .inf a, .fin _ _ => a
  | .fin _ _, .inf b => !b
  | .fin p _, .fin q _ => decide (p < q)

def xEq (x y : XR) : Bool :=
  match x, y with
  | .nan, _ => false
  | _, .nan => false
  | .inf a, .inf b => a = b
  | .fin p _, .fin q _ => p = q
  | _, _ => false

def xLe (x y : XR) : Bool := xLt x y || xEq x y

/-- The order of minimum and maximum: as `xLt`, and −0 below +0 (R199). -/
def xLtZ (x y : XR) : Bool := xLt x y || (xEq x y && xSign x && !xSign y)

/-- Minimum of two patterns of one format (R199): the non-NaN operand, the canonical NaN for two. -/
def fpMin (f : Fmt) (a b : Nat) : Nat :=
  let x := fpVal f a
  let y := fpVal f b
  if xIsNan x then (if xIsNan y then f.nanPat else b)
  else if xIsNan y then a
  else if xLtZ y x then b else a

/-- Maximum of two patterns of one format (R199). -/
def fpMax (f : Fmt) (a b : Nat) : Nat :=
  let x := fpVal f a
  let y := fpVal f b
  if xIsNan x then (if xIsNan y then f.nanPat else b)
  else if xIsNan y then a
  else if xLtZ x y then b else a

/-- The six relations and UN, by condition code 0 to 6 (R94, R199). -/
def fpRel (c : Nat) (x y : XR) : Bool :=
  match c with
  | 0 => xEq x y
  | 1 => !xEq x y
  | 2 => xLt x y
  | 3 => xLe x y
  | 4 => xLt y x
  | 5 => xLe y x
  | _ => xIsNan x || xIsNan y

/-- The relations on integers; UN gives false (R267). -/
def intRel (c : Nat) (x y : Int) : Bool :=
  match c with
  | 0 => x = y
  | 1 => x ≠ y
  | 2 => decide (x < y)
  | 3 => decide (x ≤ y)
  | 4 => decide (y < x)
  | 5 => decide (y ≤ x)
  | _ => false

/-- x + y rounded once. -/
def fpAdd (f : Fmt) (a b : Nat) : Nat × Flags :=
  let (s, fl) := xAdd (fpVal f a) (fpVal f b)
  let (r, fl') := roundTo f .near false s
  (r, fl ||| fl')

def fpSub (f : Fmt) (a b : Nat) : Nat × Flags :=
  let (s, fl) := xSub (fpVal f a) (fpVal f b)
  let (r, fl') := roundTo f .near false s
  (r, fl ||| fl')

def fpMul (f : Fmt) (a b : Nat) : Nat × Flags :=
  let (s, fl) := xMul (fpVal f a) (fpVal f b)
  let (r, fl') := roundTo f .near false s
  (r, fl ||| fl')

/-- c + x·y (or c − x·y), one rounding; an operand that is NaN gives the canonical NaN and no flag. -/
def fpFma (f : Fmt) (neg : Bool) (a b c : Nat) : Nat × Flags :=
  let x := fpVal f a
  let y := fpVal f b
  let z := fpVal f c
  if xIsNan x || xIsNan y || xIsNan z then (f.nanPat, fNone)
  else
    let (p, fl) := xMul x y
    let (s, fl') := xAdd z (if neg then xNeg p else p)
    let (r, fl'') := roundTo f .near false s
    (r, fl ||| fl' ||| fl'')

/-- The exact sum of a list of terms, none of them NaN. -/
def xSumFin : List XR → XR × Flags
  | [] => (.fin 0 true, fNone)
  | t :: ts =>
    let (s, fl) := xSumFin ts
    let (r, fl') := xAdd t s
    (r, fl ||| fl')

/-- The exact sum of a list of terms with R198's rules: a NaN term gives NaN and no flag. -/
def xSum (ts : List XR) : XR × Flags :=
  if ts.any xIsNan then (.nan, fNone) else xSumFin ts

/-- A group sum: the flags of invalid products and sums, and the exact sum (0 for no term). -/
def groupSum (ts : List (XR × Flags)) : XR × Flags :=
  match ts with
  | [] => (.fin 0 false, fNone)
  | _ :: _ =>
    let (s, fl) := xSum (ts.map (·.1))
    (s, ts.foldl (fun a t => a ||| t.2) fl)

/-- acc := rne32(acc + rne32(s)) for the exact sum s of a group (R207, R347). -/
def accGroup (acc : Nat) (ts : List (XR × Flags)) : Nat × Flags :=
  let (s, f0) := groupSum ts
  let (r, f1) := rne32 s
  let (a, f2) := fpAdd fmt32 acc r
  (a, f0 ||| f1 ||| f2)

/-- The formats a conversion can name: floating or integer by width and sign. -/
inductive CT
  | fp (f : Fmt)
  | int (w : Nat) (sgn : Bool)
  deriving DecidableEq, Repr

def CT.width : CT → Nat
  | .fp f => f.width
  | .int w _ => w

def CT.isInt : CT → Bool
  | .fp _ => false
  | .int _ _ => true

/-- Range of an integer format (R193). -/
def intLo (w : Nat) (sgn : Bool) : Int := if sgn then -((2 ^ (w - 1) : Nat) : Int) else 0
def intHi (w : Nat) (sgn : Bool) : Int :=
  if sgn then ((2 ^ (w - 1) : Nat) : Int) - 1 else ((2 ^ w : Nat) : Int) - 1

/-- The value of an integer pattern. -/
def intVal (w : Nat) (sgn : Bool) (p : Nat) : Int := if sgn then sext w p else ((p % 2 ^ w : Nat) : Int)

/-- The rational rounded to an integer by the mode. -/
def roundInt (mode : RMode) (q : Rat) : Int :=
  let neg := decide (q < 0)
  let n := roundNat mode neg (if q < 0 then -q else q)
  if neg then -(n : Int) else (n : Int)

/-- float → integer (R202). -/
def fpToInt (mode : RMode) (nsat : Bool) (w : Nat) (sgn : Bool) : XR → Nat × Flags
  | .nan => (0, fNV)
  | .inf neg => (wrapN w (if neg then intLo w sgn else intHi w sgn), fSAT)
  | .fin q _ =>
    let n := roundInt mode q
    let nx := if (n : Rat) = q then fNone else fNX
    if nsat then (wrapN w n, nx)
    else if n < intLo w sgn then (wrapN w (intLo w sgn), fSAT ||| fNX)
    else if intHi w sgn < n then (wrapN w (intHi w sgn), fSAT ||| fNX)
    else (wrapN w n, nx)

/-- Every conversion of R201 and R202, from a pattern of `src` to a pattern of `dst`. -/
def convert (src dst : CT) (mode : RMode) (nsat : Bool) (p : Nat) : Nat × Flags :=
  match src, dst with
  | .fp f, .fp g =>
    if f = g then (if xIsNan (fpVal f p) then f.nanPat else p % 2 ^ f.width, fNone)
    else roundTo g mode (decide (g.width = 8) && !nsat) (fpVal f p)
  | .fp f, .int w s => fpToInt mode nsat w s (fpVal f p)
  | .int w s, .fp g =>
    roundTo g mode (decide (g.width = 8) && !nsat) (.fin ((intVal w s p : Int) : Rat) false)
  | .int w s, .int w' s' =>
    if s = s' ∧ w ≤ w' then (wrapN w' (intVal w s p), fNone)
    else if nsat then (wrapN w' (intVal w s p), fNone)
    else
      let v := intVal w s p
      if v < intLo w' s' then (wrapN w' (intLo w' s'), fSAT)
      else if intHi w' s' < v then (wrapN w' (intHi w' s'), fSAT)
      else (wrapN w' v, fNone)

end Sys2Proof.Machine
end

