-- ==== Sys2Proof/Machine/VecOps.lean ====
section
/-! DEFINITION. The arithmetic of the V class on whole vectors (10 R262 to R283, 07 R211): pure
functions from source vectors to the result vector and its flags. -/

namespace Sys2Proof.Machine

/-- The element format of a type code (R86); `nat` selects the natural reading of an integer type. -/
def etCT (t : Nat) (nat : Bool) : CT :=
  match t with
  | 0 => .fp fmt32
  | 1 => .fp fmtBf
  | 2 => .fp fmtHf
  | 3 => .fp fmtE4
  | 4 => .fp fmtE5
  | 5 => .int 32 (!nat)
  | 6 => .int 16 (!nat)
  | _ => .int 8 (!nat)

/-- Width of an element of a type code. -/
def etWidth (t : Nat) : Nat := (etCT t false).width

/-- Elements of width `w` of a vector, lowest-numbered first (R194). -/
def elems (w : Nat) (v : Vec) : List Nat :=
  v.flatMap (fun l => (List.range (32 / w)).map (fun e => (l.toNat / 2 ^ (w * e)) % 2 ^ w))

/-- One lane from its elements. -/
def packLane (w : Nat) : List Nat → Nat
  | [] => 0
  | e :: es => e % 2 ^ w + 2 ^ w * packLane w es

/-- Lanes from elements, `n` lanes. -/
def packLanes (w : Nat) : Nat → List Nat → Vec
  | 0, _ => []
  | n + 1, es => BitVec.ofNat 32 (packLane w (es.take (32 / w))) :: packLanes w n (es.drop (32 / w))

/-- The vector of 64 lanes holding these elements. -/
def packVec (w : Nat) (es : List Nat) : Vec := packLanes w 64 es

/-- Flags of a list of element results joined (R200). -/
def orFlags (l : List (Nat × Flags)) : Flags := l.foldl (fun a p => a ||| p.2) fNone

/-- A vector and its flags from element results. -/
def packRes (w : Nat) (l : List (Nat × Flags)) : Vec × Flags := (packVec w (l.map (·.1)), orFlags l)

/-- An element operation of one source over a vector. -/
def vMap1 (w : Nat) (f : Nat → Nat × Flags) (x : Vec) : Vec × Flags := packRes w ((elems w x).map f)

/-- An element operation of two sources over vectors. -/
def vMap2 (w : Nat) (f : Nat → Nat → Nat × Flags) (x y : Vec) : Vec × Flags :=
  packRes w (List.zipWith f (elems w x) (elems w y))

/-- An element operation of three sources over vectors. -/
def vMap3 (w : Nat) (f : Nat → Nat → Nat → Nat × Flags) (x y z : Vec) : Vec × Flags :=
  packRes w (List.zipWith (fun g c => g c) (List.zipWith f (elems w x) (elems w y)) (elems w z))

/-- The integer results of an operation on two values, modulo `2 ^ w`. -/
def intOp2 (w : Nat) (f : Int → Int → Int) (a b : Nat) : Nat × Flags :=
  (wrapN w (f (sext w a) (sext w b)), fNone)

/-- x + y of one element (R266). -/
def elAdd (t : Nat) (a b : Nat) : Nat × Flags :=
  match etCT t false with
  | .fp f => fpAdd f a b
  | .int w _ => intOp2 w (· + ·) a b

def elSub (t : Nat) (a b : Nat) : Nat × Flags :=
  match etCT t false with
  | .fp f => fpSub f a b
  | .int w _ => intOp2 w (· - ·) a b

def elMul (t : Nat) (a b : Nat) : Nat × Flags :=
  match etCT t false with
  | .fp f => fpMul f a b
  | .int w _ => intOp2 w (· * ·) a b

/-- d + x·y, or d − x·y with `neg` (R266). -/
def elFma (t : Nat) (neg : Bool) (a b d : Nat) : Nat × Flags :=
  match etCT t false with
  | .fp f => fpFma f neg a b d
  | .int w _ =>
    (wrapN w (sext w d + (if neg then -(sext w a * sext w b) else sext w a * sext w b)), fNone)

/-- Minimum and maximum by R199 or as integers of the given reading. -/
def elMin (t : Nat) (nat : Bool) (a b : Nat) : Nat × Flags :=
  match etCT t nat with
  | .fp f => (fpMin f a b, fNone)
  | .int w s => (if intVal w s b < intVal w s a then b else a, fNone)

def elMax (t : Nat) (nat : Bool) (a b : Nat) : Nat × Flags :=
  match etCT t nat with
  | .fp f => (fpMax f a b, fNone)
  | .int w s => (if intVal w s a < intVal w s b then b else a, fNone)

/-- Sign bit cleared; a NaN gives the canonical NaN; −2^(n−1) maps to itself (R266). -/
def elAbs (t : Nat) (a : Nat) : Nat × Flags :=
  match etCT t false with
  | .fp f => (if xIsNan (fpVal f a) then f.nanPat else a % 2 ^ (f.width - 1), fNone)
  | .int w _ => (wrapN w (if sext w a < 0 then -(sext w a) else sext w a), fNone)

def elNeg (t : Nat) (a : Nat) : Nat × Flags :=
  match etCT t false with
  | .fp f =>
    (if xIsNan (fpVal f a) then f.nanPat
     else if bit a (f.width - 1) then a % 2 ^ (f.width - 1) else a % 2 ^ (f.width - 1) + 2 ^ (f.width - 1),
     fNone)
  | .int w _ => (wrapN w (-(sext w a)), fNone)

/-- The relation of one element pair (R267). -/
def elRel (t : Nat) (nat : Bool) (c : Nat) (a b : Nat) : Bool :=
  match etCT t nat with
  | .fp f => fpRel c (fpVal f a) (fpVal f b)
  | .int w s => intRel c (intVal w s a) (intVal w s b)

/-- Shifts of one element by the low bits of the corresponding element (R271). -/
def elShl (w : Nat) (a b : Nat) : Nat × Flags := (a * 2 ^ (b % w) % 2 ^ w, fNone)
def elShr (w : Nat) (a b : Nat) : Nat × Flags := (a / 2 ^ (b % w), fNone)
def elSar (w : Nat) (a b : Nat) : Nat × Flags :=
  (wrapN w ((sext w a).fdiv ((2 ^ (b % w) : Nat) : Int)), fNone)

/-- A bit per lane, lane 0 least significant. -/
def boolsToNat : List Bool → Nat
  | [] => 0
  | b :: bs => b2n b + 2 * boolsToNat bs

/-- VCMP: the new predicate (R267). -/
def vcmpBits (t : Nat) (nat : Bool) (c : Nat) (pred : Word) (x y : Vec) : Word :=
  BitVec.ofNat 64 (boolsToNat ((List.range 64).map (fun i =>
    pred.getLsbD i &&
      ((List.zipWith (elRel t nat c) (elems (etWidth t) [lane x i]) (elems (etWidth t) [lane y i])).all id))))

/-- VSEL: lane by lane by the predicate (R268). -/
def vselVec (pred : Word) (x y : Vec) : Vec :=
  (List.range 64).map (fun i => if pred.getLsbD i then lane x i else lane y i)

/-- The lanes a predicate lets through, the others as they were (R262). -/
def maskVec (pred : Word) (new old : Vec) : Vec := vselVec pred new old

/-- A bitwise operation of the 64 words (R271). -/
def vBit (f : Lane → Lane → Lane) (x y : Vec) : Vec :=
  (List.range 64).map (fun i => f (lane x i) (lane y i))

/-! ### Transcendentals (R272 to R276) -/

/-- RSQT of R272: rne32(1 ÷ √c), c = (1 + (2k + 1) ÷ 64) × (2 if j ≥ 32 else 1), k = j mod 32. -/
def tabRsqt : List Nat := [
  0x3F7E05EC, 0x3F7A33F9, 0x3F768CDC, 0x3F730D8A, 0x3F6FB345, 0x3F6C7B90, 0x3F69642A, 0x3F666B02,
  0x3F638E39, 0x3F60CC16, 0x3F5E2305, 0x3F5B9193, 0x3F59166B, 0x3F56B051, 0x3F545E22, 0x3F521ED0,
  0x3F4FF162, 0x3F4DD4ED, 0x3F4BC89B, 0x3F49CBA2, 0x3F47DD45, 0x3F45FCD6, 0x3F4429AF, 0x3F426337,
  0x3F40A8DE, 0x3F3EFA1C, 0x3F3D5671, 0x3F3BBD67, 0x3F3A2E8C, 0x3F38A975, 0x3F372DBF, 0x3F35BB09,
  0x3F339F19, 0x3F30EB96, 0x3F2E565C, 0x3F2BDD46, 0x3F297E62, 0x3F2737F0, 0x3F250855, 0x3F22EE1D,
  0x3F20E7F5, 0x3F1EF4A4, 0x3F1D130E, 0x3F1B422C, 0x3F19810C, 0x3F17CED0, 0x3F162AA9, 0x3F1493D9,
  0x3F1309AF, 0x3F118B87, 0x3F1018C6, 0x3F0EB0E0, 0x3F0D534F, 0x3F0BFF97, 0x3F0AB544, 0x3F0973E8,
  0x3F083B1E, 0x3F070A87, 0x3F05E1C7, 0x3F04C08B, 0x3F03A682, 0x3F029362, 0x3F0186E2, 0x3F0080C1]

/-- EXPT of R272: rne32(2^(j ÷ 64)). -/
def tabExpt : List Nat := [
  0x3F800000, 0x3F8164D2, 0x3F82CD87, 0x3F843A29, 0x3F85AAC3, 0x3F871F62, 0x3F88980F, 0x3F8A14D5,
  0x3F8B95C2, 0x3F8D1ADF, 0x3F8EA43A, 0x3F9031DC, 0x3F91C3D3, 0x3F935A2B, 0x3F94F4F0, 0x3F96942D,
  0x3F9837F0, 0x3F99E046, 0x3F9B8D3A, 0x3F9D3EDA, 0x3F9EF532, 0x3FA0B051, 0x3FA27043, 0x3FA43516,
  0x3FA5FED7, 0x3FA7CD94, 0x3FA9A15B, 0x3FAB7A3A, 0x3FAD583F, 0x3FAF3B79, 0x3FB123F6, 0x3FB311C4,
  0x3FB504F3, 0x3FB6FD92, 0x3FB8FBAF, 0x3FBAFF5B, 0x3FBD08A4, 0x3FBF179A, 0x3FC12C4D, 0x3FC346CD,
  0x3FC5672A, 0x3FC78D75, 0x3FC9B9BE, 0x3FCBEC15, 0x3FCE248C, 0x3FD06334, 0x3FD2A81E, 0x3FD4F35B,
  0x3FD744FD, 0x3FD99D16, 0x3FDBFBB8, 0x3FDE60F5, 0x3FE0CCDF, 0x3FE33F89, 0x3FE5B907, 0x3FE8396A,
  0x3FEAC0C7, 0x3FED4F30, 0x3FEFE4BA, 0x3FF28177, 0x3FF5257D, 0x3FF7D0DF, 0x3FFA83B3, 0x3FFD3E0C]

/-- LOGT of R272: rne32(log2(1 + j ÷ 64)). -/
def tabLogt : List Nat := [
  0x00000000, 0x3CB73CB4, 0x3D35D69C, 0x3D8759C5, 0x3DB31FB8, 0x3DDE4212, 0x3E0462C4, 0x3E19574F,
  0x3E2E00D2, 0x3E42615F, 0x3E567AF1, 0x3E6A4F72, 0x3E7DE0B6, 0x3E88983F, 0x3E92203D, 0x3E9B8926,
  0x3EA4D3C2, 0x3EAE00D2, 0x3EB7110E, 0x3EC0052B, 0x3EC8DDD4, 0x3ED19BB0, 0x3EDA3F60, 0x3EE2C97D,
  0x3EEB3A9F, 0x3EF39355, 0x3EFBD42B, 0x3F01FED4, 0x3F060828, 0x3F0A0650, 0x3F0DF989, 0x3F11E20F,
  0x3F15C01A, 0x3F1993E3, 0x3F1D5DA0, 0x3F211D84, 0x3F24D3C2, 0x3F28808C, 0x3F2C2411, 0x3F2FBE80,
  0x3F335004, 0x3F36D8CB, 0x3F3A58FF, 0x3F3DD0C8, 0x3F41404F, 0x3F44A7BA, 0x3F480731, 0x3F4B5ED7,
  0x3F4EAED0, 0x3F51F740, 0x3F553848, 0x3F587209, 0x3F5BA4A4, 0x3F5ED039, 0x3F61F4E5, 0x3F6512C7,
  0x3F6829FB, 0x3F6B3A9F, 0x3F6E44CD, 0x3F7148A1, 0x3F744636, 0x3F773DA4, 0x3F7A2F04, 0x3F7D1A71]

/-- RCPT and LINV of R272, each entry one rounding of an exact quotient. -/
def tabRcpt (j : Nat) : Nat := (rne32 (xq (1 / (1 + mkRat (2 * j + 1) 128)))).1
def tabLinv (j : Nat) : Nat := (rne32 (xq (1 / (1 + mkRat j 64)))).1

/-- The constants of R272. -/
def cC1 : Nat := 0x3F317218
def cC2 : Nat := 0x3E75FDF0
def cC3 : Nat := 0x3D635847
def cK1 : Nat := 0x3FB8AA3B
def cK2 : Nat := 0xBF38AA3B
def cK3 : Nat := 0x3EF6384F
def cK4 : Nat := 0xBEB8AA3B
def cT3 : Nat := 0xBEAAAAAB
def cT5 : Nat := 0x3E088889
def cT7 : Nat := 0xBD5D0DD1

/-- The rational value of a finite FP32 pattern (0 for the others). -/
def rv (p : Nat) : Rat :=
  match v32 p with
  | .fin q _ => q
  | _ => 0

/-- An intermediate rounding: only NX (R272). -/
def rnx (q : Rat) : Nat × Flags :=
  let (p, fl) := rne32 (xq q)
  (p, fl &&& fNX)

/-- Exponent E and significand m in [1, 2) of a positive rational. -/
def expOf (q : Rat) : Int := ilog2 q
def sigOf (q : Rat) : Rat := q / pow2 (ilog2 q)

/-- ⌊(m − 1) × 64⌋ of R272. -/
def j6Of (m : Rat) : Nat := roundNat .zero false ((m - 1) * 64)

/-- The Newton steps of VRCP: `n` times e := rne32(1 − m·y); y := rne32(y + y·e). -/
def rcpIter (m : Rat) : Nat → Nat → Flags → Nat × Flags
  | 0, y, fl => (y, fl)
  | n + 1, y, fl =>
    let (e, f1) := rnx (1 - m * rv y)
    let (y', f2) := rnx (rv y + rv y * rv e)
    rcpIter m n y' (fl ||| f1 ||| f2)

/-- The Newton steps of VRSQ. -/
def rsqIter (m2 : Rat) : Nat → Nat → Flags → Nat × Flags
  | 0, y, fl => (y, fl)
  | n + 1, y, fl =>
    let (h, f1) := rnx (m2 * rv y)
    let (e, f2) := rnx (1 - rv h * rv y)
    let (y', f3) := rnx (rv y + rv y * rv e / 2)
    rsqIter m2 n y' (fl ||| f1 ||| f2 ||| f3)

/-- VRCP's finite body on |x| = q, with its final rounding (R273). -/
def rcpBody (neg : Bool) (q : Rat) : Nat × Flags :=
  let m := sigOf q
  let (y, fl) := rcpIter m 2 (tabRcpt (j6Of m)) fNone
  let r := rv y * pow2 (-(expOf q))
  let (d, f2) := rne32 (xq (if neg then -r else r))
  (d, fl ||| f2)

/-- VRCP of an FP32 pattern (R273). -/
def rcp32 (p : Nat) : Nat × Flags :=
  match v32 p with
  | .nan => (fmt32.nanPat, fNone)
  | .inf s => (signed fmt32 s 0, fNone)
  | .fin q nz =>
    if q = 0 then (signed fmt32 nz 0x7F800000, fDZ)
    else rcpBody (decide (q < 0)) (if q < 0 then -q else q)

/-- VRSQ of an FP32 pattern (R273). -/
def rsq32 (p : Nat) : Nat × Flags :=
  match v32 p with
  | .nan => (fmt32.nanPat, fNone)
  | .inf s => if s then (fmt32.nanPat, fNV) else (0, fNone)
  | .fin q nz =>
    if q = 0 then (signed fmt32 nz 0x7F800000, fDZ)
    else if q < 0 then (fmt32.nanPat, fNV)
    else
      let m := sigOf q
      let e := expOf q
      let odd := e % 2 = 1
      let m2 := if odd then 2 * m else m
      let e2 := if odd then e - 1 else e
      let j := (if odd then 32 else 0) + roundNat .zero false ((m - 1) * 32)
      let (y, fl) := rsqIter m2 3 (tabRsqt.getD j 0) fNone
      let (d, f2) := rne32 (xq (rv y * pow2 (-(e2 / 2))))
      (d, fl ||| f2)

/-- VEXP2's finite body (R274) for −150 ≤ x < 128. -/
def exp2Body (x : Rat) : Nat × Flags :=
  let n := x.floor
  let f := x - n
  let j := roundNat .zero false (64 * f)
  let r := f - mkRat j 64
  let (p1, f1) := rnx (rv cC2 + rv cC3 * r)
  let (p2, f2) := rnx (rv cC1 + rv p1 * r)
  let (p3, f3) := rnx (rv p2 * r)
  let t := rv (tabExpt.getD j 0)
  let (d, f4) := rne32 (xq ((t + t * rv p3) * pow2 n))
  (d, f1 ||| f2 ||| f3 ||| f4)

/-- VEXP2 of an FP32 pattern (R274). -/
def exp232 (p : Nat) : Nat × Flags :=
  match v32 p with
  | .nan => (fmt32.nanPat, fNone)
  | .inf s => (if s then 0 else 0x7F800000, fNone)
  | .fin q _ =>
    if 128 ≤ q then (0x7F800000, fOF ||| fNX)
    else if q < -150 then (0, fUF ||| fNX)
    else exp2Body q

/-- VLOG2 of an FP32 pattern (R275). -/
def log232 (p : Nat) : Nat × Flags :=
  match v32 p with
  | .nan => (fmt32.nanPat, fNone)
  | .inf s => if s then (fmt32.nanPat, fNV) else (0x7F800000, fNone)
  | .fin q _ =>
    if q = 0 then (0xFF800000, fDZ)
    else if q < 0 then (fmt32.nanPat, fNV)
    else
      let m := sigOf q
      let j := j6Of m
      let t := m - (1 + mkRat j 64)
      let (r, f0) := rnx (t * rv (tabLinv j))
      let (p1, f1) := rnx (rv cK3 + rv cK4 * rv r)
      let (p2, f2) := rnx (rv cK2 + rv p1 * rv r)
      let (p3, f3) := rnx (rv cK1 + rv p2 * rv r)
      let (d, f4) := rne32 (xq ((expOf q : Rat) + rv (tabLogt.getD j 0) + rv p3 * rv r))
      (d, f0 ||| f1 ||| f2 ||| f3 ||| f4)

/-- VTANH of an FP32 pattern (R276). -/
def tanh32 (p : Nat) : Nat × Flags :=
  match v32 p with
  | .nan => (fmt32.nanPat, fNone)
  | .inf s => (signed fmt32 s 0x3F800000, fNone)
  | .fin q _ =>
    let a := if q < 0 then -q else q
    if a < pow2 (-12) then (p % 2 ^ 32, if q = 0 then fNone else fNX)
    else if a < mkRat 1 8 then
      let (s, f0) := rnx (q * q)
      let (p1, f1) := rnx (rv cT5 + rv cT7 * rv s)
      let (p2, f2) := rnx (rv cT3 + rv p1 * rv s)
      let (z, f3) := rnx (q * rv s)
      let (d, f4) := rne32 (xq (q + rv z * rv p2))
      (d, f0 ||| f1 ||| f2 ||| f3 ||| f4)
    else if a < mkRat 19 2 then
      let (e, f0) := rnx (2 * a * rv cK1)
      let (u, f1) := exp2Body (rv e)
      let (w, f2) := rnx (rv u + 1)
      let (r, f3) := rcpBody false (rv w)
      let (h, f4) := rne32 (xq (1 - 2 * rv r))
      (if q < 0 then signed fmt32 true h else h, f0 ||| (f1 &&& fNX) ||| f2 ||| (f3 &&& fNX) ||| f4)
    else (signed fmt32 (decide (q < 0)) 0x3F800000, fNX)

/-- A transcendental on an element of type .f32 or .bf: the FP32 result, rounded by bf16 for .bf (R272). -/
def elTrans (f : Nat → Nat × Flags) (t : Nat) (a : Nat) : Nat × Flags :=
  if t = 1 then
    let (r, f1) := f (convert (.fp fmtBf) (.fp fmt32) .near false a).1
    let (d, f2) := roundTo fmtBf .near false (v32 r)
    (d, f1 ||| f2)
  else f a

/-! ### Reduction and scan (R277, R278) -/

/-- The working format of a reduction: FP32 for the float types, the integer itself otherwise. -/
def redIn (t : Nat) (a : Nat) : Nat :=
  match etCT t false with
  | .fp f => (convert (.fp f) (.fp fmt32) .near false a).1
  | .int _ _ => a

/-- The combination of two prepared elements: op 0 add, 1 min, 2 max. -/
def redComb (t : Nat) (nat : Bool) (op : Nat) (a b : Nat) : Nat × Flags :=
  let t' := match etCT t nat with
    | .fp _ => 0
    | .int _ _ => t
  match op with
  | 0 => elAdd t' a b
  | 1 => elMin t' nat a b
  | _ => elMax t' nat a b

/-- The identity that replaces a lane the predicate excludes (R277). -/
def redIdent (t : Nat) (nat : Bool) (op : Nat) : Nat :=
  match etCT t nat with
  | .fp _ => match op with
    | 0 => 0x80000000
    | 1 => 0x7F800000
    | _ => 0xFF800000
  | .int w s => match op with
    | 0 => 0
    | 1 => wrapN w (intHi w s)
    | _ => wrapN w (intLo w s)

/-- The final rounding into the element type. -/
def redOut (t : Nat) (a : Nat) : Nat × Flags :=
  match etCT t false with
  | .fp f => if f = fmt32 then (a, fNone) else roundTo f .near false (v32 a)
  | .int _ _ => (a, fNone)

/-- One level of the reduction tree: neighbours combined. -/
def redLevel (c : Nat → Nat → Nat × Flags) : List Nat → List Nat × Flags
  | a :: b :: l =>
    let (r, f) := c a b
    let (rs, fs) := redLevel c l
    (r :: rs, f ||| fs)
  | l => (l, fNone)

/-- The tree of R277: at most `n` levels. -/
def redTree (c : Nat → Nat → Nat × Flags) : Nat → List Nat → Flags → Nat × Flags
  | 0, l, fl => (l.getD 0 0, fl)
  | n + 1, l, fl =>
    let (l', f) := redLevel c l
    redTree c n l' (fl ||| f)

/-- VRED (R277). -/
def vredVec (t : Nat) (nat : Bool) (op : Nat) (pred : Word) (x : Vec) : Vec × Flags :=
  let w := etWidth t
  let r := 32 / w
  let es := (List.range (64 * r)).map (fun e =>
    if pred.getLsbD (e / r) then redIn t ((elems w [lane x (e / r)]).getD (e % r) 0) else redIdent t nat op)
  let (v, f1) := redTree (redComb t nat op) 8 es fNone
  let (d, f2) := redOut t v
  (packVec w (List.replicate (64 * r) d), f1 ||| f2)

/-- One step of the scan at distance `s`: `vs` are (value, head) pairs, `old` the same list shifted by `s`. -/
def scanStep (c : Nat → Nat → Nat × Flags) (s : Nat) (vs : List (Nat × Bool)) : List (Nat × Bool) × Flags :=
  let old := List.replicate s (0, true) ++ vs
  let rs := List.zipWith (fun (cur : Nat × Bool) (prev : Nat × Bool) =>
    if cur.2 then ((cur.1, fNone), cur.2) else (c prev.1 cur.1, prev.2)) vs old
  (rs.map (fun r => (r.1.1, r.2)), rs.foldl (fun a r => a ||| r.1.2) fNone)

/-- The doubling steps of R278. -/
def scanSteps (c : Nat → Nat → Nat × Flags) : Nat → Nat → List (Nat × Bool) → Flags → List (Nat × Bool) × Flags
  | 0, _, vs, fl => (vs, fl)
  | n + 1, s, vs, fl =>
    if vs.length ≤ s then (vs, fl)
    else
      let (vs', f) := scanStep c s vs
      scanSteps c n (2 * s) vs' (fl ||| f)

/-- VSCAN (R278). -/
def vscanVec (t : Nat) (nat : Bool) (op : Nat) (pred : Word) (x : Vec) : Vec × Flags :=
  let w := etWidth t
  let r := 32 / w
  let vs := (List.zip (elems w x) (List.range (64 * r))).map (fun p =>
    (redIn t p.1, decide (p.2 = 0) || (decide (p.2 % r = 0) && !pred.getLsbD (p.2 / r))))
  let (out, f1) := scanSteps (redComb t nat op) 8 1 vs fNone
  let res := out.map (fun p => redOut t p.1)
  let (d, f2) := packRes w res
  (d, f1 ||| f2)

/-! ### Moves, random numbers, width changes -/

/-- VPERM (R279). -/
def vpermVec (t : Nat) (x y : Vec) : Vec :=
  let w := etWidth t
  let xs := elems w x
  packVec w ((elems w y).map (fun k => xs.getD (k % (64 * (32 / w))) 0))

/-- VIOTA (R279). -/
def viotaVec (t : Nat) : Vec :=
  let w := etWidth t
  packVec w ((List.range (64 * (32 / w))).map (fun (e : Nat) =>
    if t = 0 then (rne32 (xq (mkRat (e : Int) 1))).1 else e % 2 ^ w))

/-- The four rounds of VRAND on (value, key), n the round number (R280). -/
def randRounds : Nat → Nat → Nat → Nat → Nat
  | 0, _, v, _ => v
  | m + 1, n, v, k =>
    let v1 := (Nat.xor v k * 0xA53B6F2D) % 2 ^ 32
    let v2 := Nat.xor v1 (v1 / 2 ^ 15)
    randRounds m (n + 1) v2 ((k * 0x7D1C4E93 + n + 1) % 2 ^ 32)

/-- VRAND of one lane (R280). -/
def randLane (t : Nat) (x y : Lane) : Lane :=
  let v := randRounds 4 0 x.toNat y.toNat
  if t = 5 then BitVec.ofNat 32 v
  else BitVec.ofNat 32 (rne32 (xq (mkRat (v / 2 ^ 8) (2 ^ 24)))).1

def vrandVec (t : Nat) (x y : Vec) : Vec := (List.range 64).map (fun i => randLane t (lane x i) (lane y i))

/-- The source and destination formats of VCVT, VPACK, VUNPK from their N bit (R269). -/
def cvtCT (dst src : Nat) (n : Bool) : CT × CT :=
  if (etCT dst false).isInt then (etCT src false, etCT dst n) else (etCT src n, etCT dst false)

/-- VCVT (R269). -/
def vcvtVec (dst src : Nat) (n z ns : Bool) (x : Vec) : Vec × Flags :=
  let (cs, cd) := cvtCT dst src n
  packRes (etWidth dst) ((elems (etWidth src) x).map (convert cs cd (if z then .zero else .near) ns))

/-- VPACK (R281): the source's elements in the low lanes, d's lanes 0 and up above them. -/
def vpackVec (dst src : Nat) (n z ns : Bool) (x d : Vec) : Vec × Flags :=
  let (cs, cd) := cvtCT dst src n
  let k := 64 * etWidth dst / etWidth src
  let rs := (elems (etWidth src) x).map (convert cs cd (if z then .zero else .near) ns)
  (packLanes (etWidth dst) k (rs.map (·.1)) ++ d.take (64 - k), orFlags rs)

/-- VUNPK (R282). -/
def vunpkVec (dst src : Nat) (n z ns : Bool) (x : Vec) : Vec × Flags :=
  let (cs, cd) := cvtCT dst src n
  let e := 64 * (32 / etWidth dst)
  packRes (etWidth dst) (((elems (etWidth src) x).take e).map (convert cs cd (if z then .zero else .near) ns))

/-! ### Requantising (R211, R283) -/

/-- Code `e` of a run of 4-bit codes in bytes (R195). -/
def cb4Code (bs : List Byte) (e : Nat) : Nat := ((bs.getD (e / 2) 0).toNat / 2 ^ (4 * (e % 2))) % 16

/-- The 16-bit number at byte `i`. -/
def half (bs : List Byte) (i : Nat) : Nat := leNat ((bs.drop i).take 2)

/-- The value of element `e` of a block image: code table entry or FP8 value. -/
def blkVal (t : Nat) (cb : List Nat) (bs : List Byte) (e : Nat) : XR :=
  if t = 7 then fpVal fmtBf (cb.getD (cb4Code bs e) 0)
  else fpVal (if t = 3 then fmtE4 else fmtE5) (bs.getD e 0).toNat

/-- The scale of a block image (R283). -/
def blkScale (t : Nat) (bs : List Byte) : XR := fpVal fmtBf (half bs (if t = 7 then 32 else 64))

/-- The greater of two magnitudes, a NaN giving way (R199). -/
def xMaxNN (x y : XR) : XR := if xIsNan x then y else if xIsNan y then x else if xLt x y then y else x

/-- The code whose entry is nearest a rational, lowest on a tie, a NaN or infinite entry never (R211). -/
def nearestCode (cb : List Nat) (q : Rat) : Nat :=
  let step (best : Option (Nat × Rat)) (c : Nat) : Option (Nat × Rat) :=
    match fpVal fmtBf (cb.getD c 0) with
    | .fin v _ =>
      let d := if v < q then q - v else v - q
      (match best with
        | none => some (c, d)
        | some (b, bd) => if d < bd then some (c, d) else some (b, bd))
    | _ => best
  match (List.range 16).foldl step none with
  | some (c, _) => c
  | none => 0

/-- The rational of a finite value. -/
def xRat : XR → Rat
  | .fin q _ => q
  | _ => 0

def xFinite : XR → Bool
  | .fin _ _ => true
  | _ => false

/-- Codes two to a byte. -/
def packCodes : List Nat → List Byte
  | a :: b :: l => BitVec.ofNat 8 (a % 16 + 16 * (b % 16)) :: packCodes l
  | [a] => [BitVec.ofNat 8 (a % 16)]
  | [] => []

/-- The result image of BADDQ from its codes, scale and codebook (R283). -/
def blkImage (t : Nat) (codes : List Nat) (scale : Nat) (cbBytes : List Byte) : List Byte :=
  if t = 7 then
    packCodes codes ++ leBytes 2 scale ++ List.replicate 30 0 ++ cbBytes ++ List.replicate 160 0
  else codes.map (fun c => BitVec.ofNat 8 c) ++ leBytes 2 scale ++ List.replicate 190 0

/-- BADDQ on two block images (R211, R283). Flags: assumption 6. DESIGN CHOICE: an FP8 element whose sum is -0 becomes +0
(assumption 138). -/
def baddq (t : Nat) (x y : List Byte) : List Byte × Flags :=
  let cbBytes := (x.drop 64).take 32
  let cb := (List.range 16).map (fun c => half cbBytes (2 * c))
  let f8 := if t = 3 then fmtE4 else fmtE5
  let sums := (List.range 64).map (fun e =>
    let (pa, f0) := xMul (blkVal t cb x e) (blkScale t x)
    let (pb, f1) := xMul (blkVal t cb y e) (blkScale t y)
    let (a, f2) := rne32 pa
    let (b, f3) := rne32 pb
    let (s, f4) := fpAdd fmt32 a b
    (s, f0 ||| f1 ||| f2 ||| f3 ||| f4))
  let fl := orFlags sums &&& (fNV ||| fOF ||| fNX)
  let vs := sums.map (fun p => v32 p.1)
  let m := vs.foldl (fun a v => xMaxNN a (xAbs v)) (xq 0)
  let c := if t = 7 then cb.foldl (fun a p => xMaxNN a (xAbs (fpVal fmtBf p))) .nan
           else fpVal f8 f8.maxPat
  if vs.any (fun v => !xFinite v) || !xFinite c || xEq c (xq 0) then
    (blkImage t (List.replicate 64 (if t = 7 then 0 else f8.nanPat)) 0x7FC0 cbBytes, fl ||| fNV)
  else if xEq m (xq 0) then
    (blkImage t (List.replicate 64 (if t = 7 then nearestCode cb 0 else 0)) 0 cbBytes, fl)
  else
    let (sc0, fs) := roundTo fmtBf .up false (xq (xRat m / xRat c))
    let sc := if sc0 = 0x7F80 then 0x7F7F else sc0
    let fs' := if sc0 = 0x7F80 then fs &&& fOF else fNone
    let scv := xRat (fpVal fmtBf sc)
    let rs := vs.map (fun v =>
      let q := xRat v / scv
      if t = 7 then
        let k := nearestCode cb q
        (k, if xRat (fpVal fmtBf (cb.getD k 0)) * scv = xRat v then fNone else fNX)
      else
        let (k, fk) := roundTo f8 .near true (xq q)
        (k, (fk &&& fSAT) ||| (if xRat (fpVal f8 k) * scv = xRat v then fNone else fNX)))
    (blkImage t (rs.map (·.1)) sc cbBytes, fl ||| fs' ||| orFlags rs)

end Sys2Proof.Machine
end

