-- ==== Sys2Proof/Machine/DistOps.lean ====
section
/-! DEFINITION. The arithmetic of the distribution unit (13 R323 to R339): points, normal form,
condensation, pairings, moments and quantiles. Pure functions on registers. -/

namespace Sys2Proof.Machine

/-- A distribution register: 16 lanes of eight stored points (value, weight), and the tag (R59, R323). -/
structure QReg where
  lanes : List (List (Lane × Lane))
  tag : BitVec 16
  deriving DecidableEq, Repr

/-- The empty lane: every point (+0, +0). -/
def qLane0 : List (Lane × Lane) := List.replicate 8 (0, 0)

/-- The empty register with tag 0 (R341). -/
def qReg0 : QReg := ⟨List.replicate 16 qLane0, 0⟩

/-- A point taking part in an operation: value, weight, origin index (R325). -/
structure QPt where
  v : Nat
  w : Nat
  o : Nat
  deriving DecidableEq, Repr

/-- What an operation notes beside its result: FPSTAT flags and the QSTAT events (R339, R340). -/
structure QNote where
  fl : Flags
  merges : Nat
  nanv : Bool
  badw : Bool
  empty : Bool
  coupled : Bool
  deriving DecidableEq, Repr

def qNote0 : QNote := ⟨0, 0, false, false, false, false⟩

def QNote.join (a b : QNote) : QNote :=
  ⟨a.fl ||| b.fl, a.merges + b.merges, a.nanv || b.nanv, a.badw || b.badw, a.empty || b.empty,
   a.coupled || b.coupled⟩

def qFl (f : Flags) : QNote := { qNote0 with fl := f }

def fpDiv (a b : Nat) : Nat × Flags :=
  let (s, fl) := xDiv (v32 a) (v32 b)
  let (r, fl') := rne32 s
  (r, fl ||| fl')

/-- A weight as an operation reads it (R324), and whether it was taken as 0 with BADW. -/
def readW (w : Nat) : Nat × Bool :=
  match v32 w with
  | .fin q _ => if q = 0 then (0, false) else if q < 0 then (0, true) else (w, false)
  | _ => (0, true)

/-- The present points of a stored lane with their positions (R324). -/
def readPts (l : List (Lane × Lane)) : List QPt × Bool :=
  let rs := (List.zip l (List.range 8)).map (fun p =>
    (QPt.mk p.1.1.toNat (readW p.1.2.toNat).1 p.2, (readW p.1.2.toNat).2))
  ((rs.map (·.1)).filter (fun p => p.w ≠ 0), rs.any (·.2))

/-- `a` stands before `b` by value: the order of R199, −0 equal to +0, NaN last (R325). -/
def qBefore (a b : QPt) : Bool :=
  let x := v32 a.v
  let y := v32 b.v
  if xIsNan x then xIsNan y && decide (a.o ≤ b.o)
  else if xIsNan y then true
  else xLt x y || (xEq x y && decide (a.o ≤ b.o))

def qInsert (p : QPt) : List QPt → List QPt
  | [] => [p]
  | q :: qs => if qBefore p q then p :: q :: qs else q :: qInsert p qs

/-- Step 2 of R325. -/
def qSort : List QPt → List QPt
  | [] => []
  | p :: ps => qInsert p (qSort ps)

/-- A lane read through R324 and steps 1 and 2 of R325. -/
def readLane (l : List (Lane × Lane)) : List QPt × Bool :=
  let (ps, bad) := readPts l
  (qSort ps, bad)

/-- The cost of merging two neighbours (R335); its roundings set no flag. -/
def mergeCost (a b : QPt) : XR :=
  let p := (fpMul fmt32 a.w b.w).1
  let s := (fpAdd fmt32 a.w b.w).1
  let r := (fpDiv p s).1
  let dv := (fpSub fmt32 b.v a.v).1
  let sq := (fpMul fmt32 dv dv).1
  v32 (fpMul fmt32 r sq).1

/-- Costs compare as reals with NaN greatest (R335). -/
def costLt (a b : XR) : Bool := if xIsNan a then false else if xIsNan b then true else xLt a b

/-- Position of the cheapest pair, the lowest on a tie. -/
def cheapest : List QPt → Nat → Option (Nat × XR) → Option (Nat × XR)
  | a :: b :: l, k, best =>
    let c := mergeCost a b
    let best' := match best with
      | none => some (k, c)
      | some (j, d) => if costLt c d then some (k, c) else some (j, d)
    cheapest (b :: l) (k + 1) best'
  | _, _, best => best

/-- The merged point of a pair (R335) and the flags of its stored sums. -/
def mergePt (a b : QPt) : QPt × Flags :=
  let (s, f0) := fpAdd fmt32 a.w b.w
  let (x, f1) := fpMul fmt32 a.w a.v
  let (y, f2) := fpMul fmt32 b.w b.v
  let (t, f3) := fpAdd fmt32 x y
  let (v, f4) := fpDiv t s
  (⟨v, s, min a.o b.o⟩, f0 ||| f1 ||| f2 ||| f3 ||| f4)

/-- Merges the pair at position `k`. -/
def mergeAt : Nat → List QPt → List QPt × Flags
  | 0, a :: b :: l =>
    let (p, f) := mergePt a b
    (p :: l, f)
  | n + 1, a :: l =>
    let (l', f) := mergeAt n l
    (a :: l', f)
  | _, l => (l, fNone)

/-- Condensation to `n` points, at most `fuel` merges (R335). -/
def condense (n : Nat) : Nat → List QPt → QNote → List QPt × QNote
  | 0, ps, nt => (ps, nt)
  | fuel + 1, ps, nt =>
    if ps.length ≤ n then (ps, nt)
    else match cheapest ps 0 none with
      | none => (ps, nt)
      | some (k, _) =>
        let (ps', f) := mergeAt k ps
        condense n fuel ps' (nt.join { qNote0 with fl := f, merges := 1 })

/-- Points stored from position 0, the rest (+0, +0) (R325 step 4). -/
def storePts (ps : List QPt) : List (Lane × Lane) :=
  (ps.map (fun p => (BitVec.ofNat 32 p.v, BitVec.ofNat 32 p.w)) ++ qLane0).take 8

/-- Normal form with target `n` (R325) and its notes. -/
def normalForm (n : Nat) (ps : List QPt) : List (Lane × Lane) × QNote :=
  let (qs, nt) := condense n 64 (qSort (ps.filter (fun p => p.w ≠ 0))) qNote0
  (storePts qs, { nt with nanv := qs.any (fun p => xIsNan (v32 p.v)) })

/-- One lane of a register. -/
def QReg.lane (q : QReg) (l : Nat) : List (Lane × Lane) := q.lanes.getD l qLane0

/-- The value operation ∘ of R330: + or ×. -/
def qOp (mul : Bool) (a b : Nat) : Nat × Flags := if mul then fpMul fmt32 a b else fpAdd fmt32 a b

/-- All pairings of two read copies (R330). -/
def allPairs (mul : Bool) (xs ys : List QPt) : List QPt × Flags :=
  let rs := (List.zip xs (List.range 8)).flatMap (fun a => (List.zip ys (List.range 8)).map (fun b =>
    let (v, f0) := qOp mul a.1.v b.1.v
    let (w, f1) := fpMul fmt32 a.1.w b.1.w
    (QPt.mk v w (8 * a.2 + b.2), f0 ||| f1)))
  (rs.map (·.1), rs.foldl (fun a r => a ||| r.2) fNone)

/-- Running sums of weights, first to last (R336, R337). -/
def runSums : Nat → List QPt → List Nat × Flags
  | _, [] => ([], fNone)
  | s, p :: ps =>
    let (s', f) := fpAdd fmt32 s p.w
    let (l, f') := runSums s' ps
    (s' :: l, f ||| f')

/-- Normalised cumulative sums, the last 1.0; no flag (R336, R339). -/
def normSums (sums : List Nat) (total : Nat) : List Nat :=
  (sums.dropLast.map (fun p => (fpDiv p total).1)) ++ [0x3F800000]

/-- Breakpoints: distinct values in ascending order (R336). -/
def insertBp (x : Nat) : List Nat → List Nat
  | [] => [x]
  | y :: ys => if xEq (v32 x) (v32 y) then y :: ys else if xLt (v32 x) (v32 y) then x :: y :: ys
               else y :: insertBp x ys

/-- Index of the first number of a list that is at least `b` (or above `b`, with `strict`). -/
def leastK (strict : Bool) (b : Nat) : List Nat → Nat → Nat
  | [], k => k
  | c :: cs, k => if (if strict then xLt (v32 b) (v32 c) else xLe (v32 b) (v32 c)) then k
                  else leastK strict b cs (k + 1)

/-- The segments of the coupling rule (R336), from breakpoint `prev`. -/
def segments (mul : Bool) (xs ys : List QPt) (cx cy : List Nat) (tot : Nat) :
    Nat → Nat → List Nat → List QPt × Flags
  | _, _, [] => ([], fNone)
  | s, prev, b :: bs =>
    let a := leastK false b cx 0
    let e := leastK false b cy 0
    let (v, f0) := qOp mul (xs.getD a ⟨0, 0, 0⟩).v (ys.getD e ⟨0, 0, 0⟩).v
    let (d, f1) := fpSub fmt32 b prev
    let (w, f2) := fpMul fmt32 d tot
    let (l, f3) := segments mul xs ys cx cy tot (s + 1) b bs
    (⟨v, w, s⟩ :: l, f0 ||| f1 ||| f2 ||| f3)

/-- The comonotone coupling of two read copies (R336). -/
def coupled (mul : Bool) (xs ys : List QPt) : List QPt × Flags :=
  let (px, f0) := runSums 0 xs
  let (py, f1) := runSums 0 ys
  let sx := px.getLastD 0
  let sy := py.getLastD 0
  if sx = 0x7F800000 ∨ sy = 0x7F800000 then ([], f0 ||| f1 ||| fNV)
  else
    let cx := normSums px sx
    let cy := normSums py sy
    let (tot, f2) := fpMul fmt32 sx sy
    let bs := (cx ++ cy).foldl (fun l x => insertBp x l) []
    let (ps, f3) := segments mul xs ys cx cy tot 0 0 bs
    (ps, f0 ||| f1 ||| f2 ||| f3)

/-- The result of a lane operation: stored points and notes. -/
abbrev LaneRes := List (Lane × Lane) × QNote

/-- QADD and QMUL of one lane (R330, R336). -/
def qCombLane (mul cpl : Bool) (x y : List (Lane × Lane)) : LaneRes :=
  let (xs, bx) := readLane x
  let (ys, by') := readLane y
  let bad := { qNote0 with badw := bx || by' }
  if xs = [] ∨ ys = [] then (qLane0, bad)
  else
    let (ps, f) := if cpl then coupled mul xs ys else allPairs mul xs ys
    let (l, nt) := normalForm 8 ps
    (l, bad.join (nt.join (qFl f)))

/-- A register from lane results under a predicate: a lane whose bit is 0 keeps its contents (R327). DESIGN CHOICE:
merges and bad weights are noted of every lane, a NaN only of a lane written (assumption 142). -/
def qAssemble (pred : Word) (old : QReg) (tag : BitVec 16) (rs : List LaneRes) : QReg × QNote :=
  let lanes := (List.zip rs (List.range 16)).map (fun r =>
    if pred.getLsbD r.2 then r.1.1 else old.lane r.2)
  let note := (List.zip rs (List.range 16)).foldl (fun a r =>
    a.join { r.1.2 with nanv := r.1.2.nanv && pred.getLsbD r.2 }) qNote0
  (⟨lanes, tag⟩, note)

/-- QADD and QMUL (R330). -/
def qComb (mul : Bool) (pred : Word) (old x y : QReg) : QReg × QNote :=
  let cpl := decide ((x.tag &&& y.tag) ≠ 0)
  let (r, nt) := qAssemble pred old (x.tag ||| y.tag)
    ((List.range 16).map (fun l => qCombLane mul cpl (x.lane l) (y.lane l)))
  (r, { nt with coupled := cpl })

/-- QSET of one lane: the four points of the vectors, plain or .hi (R329). -/
def qSetLane (hi : Bool) (old : List (Lane × Lane)) (l : Nat) (x y : Vec) : LaneRes :=
  let four := (List.range 4).map (fun p => (lane x (16 * p + l), lane y (16 * p + l)))
  let src := if hi then old.take 4 ++ four else four ++ List.replicate 4 (0, 0)
  let (ps, bad) := readPts src
  let (r, nt) := normalForm 8 ps
  (r, { nt with badw := nt.badw || bad })

def qSet (hi : Bool) (pred : Word) (old : QReg) (x y : Vec) : QReg × QNote :=
  qAssemble pred old (if hi then old.tag else 0)
    ((List.range 16).map (fun l => qSetLane hi (old.lane l) l x y))

/-- QSCALE (mul) and QSHIFT of one lane (R331). -/
def qAffLane (mul : Bool) (x : List (Lane × Lane)) (s : Lane) : LaneRes :=
  let (xs, bad) := readLane x
  let rs := (List.zip xs (List.range 8)).map (fun p =>
    let (v, f) := qOp mul p.1.v s.toNat
    (QPt.mk v p.1.w p.2, f))
  let (l, nt) := normalForm 8 (rs.map (·.1))
  (l, (nt.join (qFl (rs.foldl (fun a r => a ||| r.2) fNone))).join { qNote0 with badw := bad })

def qAff (mul : Bool) (pred : Word) (old x : QReg) (y : Vec) : QReg × QNote :=
  qAssemble pred old x.tag ((List.range 16).map (fun l => qAffLane mul (x.lane l) (lane y l)))

/-- α of QMIX clamped to [0, 1] by R199 (R332). -/
def clampUnit (a : Nat) : Nat := fpMin fmt32 (fpMax fmt32 a 0) 0x3F800000

/-- Points with their weights scaled, origins from `base` (R332). -/
def scaleW (base f : Nat) (ps : List QPt) : List QPt × Flags :=
  let rs := (List.zip ps (List.range 8)).map (fun p =>
    let (w, fl) := fpMul fmt32 p.1.w f
    (QPt.mk p.1.v w (base + p.2), fl))
  (rs.map (·.1), rs.foldl (fun a r => a ||| r.2) fNone)

/-- QMIX of one lane (R332); 1 − α counts for the flags where it makes a weight (R339). -/
def qMixLane (d x : List (Lane × Lane)) (a : Lane) : LaneRes :=
  let al := clampUnit a.toNat
  let (be, f0) := fpSub fmt32 0x3F800000 al
  let (ds, bd) := readLane d
  let (xs, bx) := readLane x
  let (p1, f1) := scaleW 0 al ds
  let (p2, f2) := scaleW 8 be xs
  let (l, nt) := normalForm 8 (p1 ++ p2)
  (l, (nt.join (qFl ((if xs.isEmpty then fNone else f0) ||| f1 ||| f2))).join { qNote0 with badw := bd || bx })

def qMix (pred : Word) (d x : QReg) (y : Vec) : QReg × QNote :=
  qAssemble pred d (d.tag ||| x.tag) ((List.range 16).map (fun l => qMixLane (d.lane l) (x.lane l) (lane y l)))

/-- QCOND (R333). -/
def qCondLane (n : Nat) (x : List (Lane × Lane)) : LaneRes :=
  let (xs, bad) := readLane x
  let ps := (List.zip xs (List.range 8)).map (fun p => QPt.mk p.1.v p.1.w p.2)
  let (l, nt) := normalForm n ps
  (l, nt.join { qNote0 with badw := bad })

def qCond (n : Nat) (pred : Word) (old x : QReg) : QReg × QNote :=
  qAssemble pred old x.tag ((List.range 16).map (fun l => qCondLane n (x.lane l)))

/-- A lane result that is a number: pattern and notes. -/
abbrev NumRes := Nat × QNote

/-- A sum over points in order, rne32 at each step, of a term. -/
def sumTerms (t : QPt → Nat × Flags) : Nat → List QPt → Nat × Flags
  | s, [] => (s, fNone)
  | s, p :: ps =>
    let (x, f0) := t p
    let (s', f1) := fpAdd fmt32 s x
    let (r, f2) := sumTerms t s' ps
    (r, f0 ||| f1 ||| f2)

/-- QMOM of one lane: 0 wt, 1 mean, 2 var, 3 m3 (R337). -/
def qMomLane (sel : Nat) (x : List (Lane × Lane)) : NumRes :=
  let (ps, bad) := readPts x
  let nb := { qNote0 with badw := bad }
  let (w, f0) := sumTerms (fun p => (p.w, fNone)) 0 ps
  if w = 0 then (if sel = 0 then 0 else 0x7FC00000, nb.join { qNote0 with empty := true })
  else if w = 0x7F800000 then
    (if sel = 0 then (w, nb.join (qFl f0)) else (0x7FC00000, nb.join (qFl (f0 ||| fNV))))
  else if sel = 0 then (w, nb.join (qFl f0))
  else
    let (s, f1) := sumTerms (fun p => fpMul fmt32 p.w p.v) 0 ps
    let (mean, f2) := fpDiv s w
    if sel = 1 then (mean, nb.join (qFl (f0 ||| f1 ||| f2)))
    else
      let term (p : QPt) : Nat × Flags :=
        let (d, g0) := fpSub fmt32 p.v mean
        let (d2, g1) := fpMul fmt32 d d
        let (dk, g2) := if sel = 2 then (d2, fNone) else fpMul fmt32 d2 d
        let (t, g3) := fpMul fmt32 p.w dk
        (t, g0 ||| g1 ||| g2 ||| g3)
      let (m, f3) := sumTerms term 0 ps
      let (r, f4) := fpDiv m w
      (r, nb.join (qFl (f0 ||| f1 ||| f2 ||| f3 ||| f4)))

/-- QQUANT (`samp` false) and QSAMP of one lane (R338); the sums form no result and set no flag (R339). -/
def qPickLane (samp : Bool) (x : List (Lane × Lane)) (u : Lane) : NumRes :=
  let (ps, bad) := readLane x
  let nb := { qNote0 with badw := bad }
  let sums := (runSums 0 ps).1
  let tot := sums.getLastD 0
  if tot = 0 then (0x7FC00000, nb.join { qNote0 with empty := true })
  else if tot = 0x7F800000 then (0x7FC00000, nb.join (qFl fNV))
  else
    let uv := v32 u.toNat
    let u' := if xIsNan uv || xLe uv (xq 0) then 0
              else if samp && xLe (xq 1) uv then 0x3F7FFFFF else u.toNat
    let k := leastK samp u' (normSums sums tot) 0
    let k' := if k < ps.length then k else ps.length - 1
    ((ps.getD k' ⟨0, 0, 0⟩).v, nb)

/-- A vector whose lane i holds the result of lane i mod 16 (R327). -/
def qVec (rs : List NumRes) : Vec × QNote :=
  ((List.range 64).map (fun i => BitVec.ofNat 32 (rs.getD (i % 16) (0, qNote0)).1),
   rs.foldl (fun a r => a.join r.2) qNote0)

def qMom (sel : Nat) (x : QReg) : Vec × QNote :=
  qVec ((List.range 16).map (fun l => qMomLane sel (x.lane l)))

def qPick (samp : Bool) (x : QReg) (y : Vec) : Vec × QNote :=
  qVec ((List.range 16).map (fun l => qPickLane samp (x.lane l) (lane y l)))

/-- The 1,026-byte image of a register (R59, R120): lane by lane, eight (value, weight) pairs, then the tag. -/
def qImage (q : QReg) : List Byte :=
  (List.range 16).flatMap (fun l => (List.range 8).flatMap (fun k =>
    let p := (q.lane l).getD k (0, 0)
    leBytes 4 p.1.toNat ++ leBytes 4 p.2.toNat))
    ++ leBytes 2 q.tag.toNat

/-- The points of a lane image. -/
def ptsOf : Nat → List Byte → List (Lane × Lane)
  | 0, _ => []
  | n + 1, bs => (BitVec.ofNat 32 (leNat (bs.take 4)), BitVec.ofNat 32 (leNat ((bs.drop 4).take 4)))
                   :: ptsOf n (bs.drop 8)

/-- The register a memory image gives (R120). -/
def qOfImage (bs : List Byte) : QReg :=
  ⟨(List.range 16).map (fun l => ptsOf 8 (bs.drop (64 * l))), BitVec.ofNat 16 (leNat ((bs.drop 1024).take 2))⟩

end Sys2Proof.Machine
end

