-- ==== Sys2Proof/Syntax.lean ====
section
/-! DEFINITION. The instruction set: one constructor per row of the opcode table. The slot operations
(classes I, M, V, K, E, Y: 03 R92 to R97) carry the fields of their encoding, each at its own width; the events
of the part carry the numbers that name the queue, register or value they act on; one that is about a single core,
gateway, stream or context finds its number in the focus of the state. Rows without a field stand last. -/

namespace Sys2Proof

/-- Every operation of the six slot classes and every event of the part. -/
inductive Instr
  /-- ADD (R241): d := x + y modulo 2^64. -/
  | add (d : BitVec 6) (x : BitVec 6) (y : BitVec 6)
  /-- SUB (R241): d := x - y modulo 2^64. -/
  | sub (d : BitVec 6) (x : BitVec 6) (y : BitVec 6)
  /-- ADDI (R241): d := x + sign-extended imm12. -/
  | addi (d : BitVec 6) (x : BitVec 6) (i : BitVec 12)
  /-- ADDSH (R241): d := x shifted left by 0 to 3 plus y. -/
  | addsh (d : BitVec 6) (x : BitVec 6) (y : BitVec 6) (s : BitVec 2)
  /-- MUL (R241): d := low 64 bits of x times y, latency 3. -/
  | mul (d : BitVec 6) (x : BitVec 6) (y : BitVec 6)
  /-- MULH (R241): d := high 64 bits of the signed 128-bit product. -/
  | mulh (d : BitVec 6) (x : BitVec 6) (y : BitVec 6)
  /-- MULHN (R241): d := high 64 bits of the natural 128-bit product. -/
  | mulhn (d : BitVec 6) (x : BitVec 6) (y : BitVec 6)
  /-- DIV (R242): Signed quotient rounded toward zero, all ones for a zero divisor, latency 18. -/
  | div (d : BitVec 6) (x : BitVec 6) (y : BitVec 6)
  /-- DIVN (R242): Natural quotient, all ones for a zero divisor, latency 18. -/
  | divn (d : BitVec 6) (x : BitVec 6) (y : BitVec 6)
  /-- AND (R241): Bitwise AND of x and y. -/
  | and (d : BitVec 6) (x : BitVec 6) (y : BitVec 6)
  /-- OR (R241): Bitwise OR of x and y. -/
  | or (d : BitVec 6) (x : BitVec 6) (y : BitVec 6)
  /-- XOR (R241): Bitwise XOR of x and y. -/
  | xor (d : BitVec 6) (x : BitVec 6) (y : BitVec 6)
  /-- ANDN (R241): d := x AND NOT y. -/
  | andn (d : BitVec 6) (x : BitVec 6) (y : BitVec 6)
  /-- ANDI (R241): x AND zero-extended imm12. -/
  | andi (d : BitVec 6) (x : BitVec 6) (i : BitVec 12)
  /-- ORI (R241): x OR zero-extended imm12. -/
  | ori (d : BitVec 6) (x : BitVec 6) (i : BitVec 12)
  /-- XORI (R241): x XOR zero-extended imm12. -/
  | xori (d : BitVec 6) (x : BitVec 6) (i : BitVec 12)
  /-- SHL (R241): Shift x left by y bits 5..0. -/
  | shl (d : BitVec 6) (x : BitVec 6) (y : BitVec 6)
  /-- SHR (R241): Shift x right with zeros by y bits 5..0. -/
  | shr (d : BitVec 6) (x : BitVec 6) (y : BitVec 6)
  /-- SAR (R241): Shift x right with the sign by y bits 5..0. -/
  | sar (d : BitVec 6) (x : BitVec 6) (y : BitVec 6)
  /-- ROL (R241): Rotate x left by y bits 5..0. -/
  | rol (d : BitVec 6) (x : BitVec 6) (y : BitVec 6)
  /-- SHLI (R241): Shift x left by an immediate 0 to 63. -/
  | shli (d : BitVec 6) (x : BitVec 6) (a : BitVec 6)
  /-- SHRI (R241): Shift x right with zeros by an immediate. -/
  | shri (d : BitVec 6) (x : BitVec 6) (a : BitVec 6)
  /-- SARI (R241): Shift x right with the sign by an immediate. -/
  | sari (d : BitVec 6) (x : BitVec 6) (a : BitVec 6)
  /-- CMP (R241): d := -1, 0 or +1 by comparing x and y, signed or natural. -/
  | cmp (d : BitVec 6) (x : BitVec 6) (y : BitVec 6) (n : BitVec 1)
  /-- CMPI (R241): Signed compare of x with sign-extended imm12. -/
  | cmpi (d : BitVec 6) (x : BitVec 6) (i : BitVec 12)
  /-- MIN (R241): Signed minimum of x and y. -/
  | min (d : BitVec 6) (x : BitVec 6) (y : BitVec 6)
  /-- MAX (R241): Signed maximum of x and y. -/
  | max (d : BitVec 6) (x : BitVec 6) (y : BitVec 6)
  /-- MINN (R241): Natural minimum of x and y. -/
  | minn (d : BitVec 6) (x : BitVec 6) (y : BitVec 6)
  /-- MAXN (R241): Natural maximum of x and y. -/
  | maxn (d : BitVec 6) (x : BitVec 6) (y : BitVec 6)
  /-- SEL (R241): d := x if the register named by fn is non-zero, else y. -/
  | sel (d : BitVec 6) (x : BitVec 6) (y : BitVec 6) (s : BitVec 6)
  /-- MOVI (R241): d := sign-extended imm18. -/
  | movi (d : BitVec 6) (i : BitVec 18)
  /-- LUI (R241): d := d times 2^18 plus zero-extended imm18. -/
  | lui (d : BitVec 6) (i : BitVec 18)
  /-- CLZ (R241): Count leading zeros of x. -/
  | clz (d : BitVec 6) (x : BitVec 6)
  /-- CTZ (R241): Count trailing zeros of x. -/
  | ctz (d : BitVec 6) (x : BitVec 6)
  /-- POPC (R241): Count set bits of x. -/
  | popc (d : BitVec 6) (x : BitVec 6)
  /-- BFX (R241): Extract a zero-extended bit field of x. -/
  | bfx (d : BitVec 6) (x : BitVec 6) (p : BitVec 6) (l : BitVec 6)
  /-- BFI (R241): Insert the low bits of x into a bit field of d. -/
  | bfi (d : BitVec 6) (x : BitVec 6) (p : BitVec 6) (l : BitVec 6)
  /-- ADDA (R243): a[d] := a[x] + sign-extended imm12 modulo 2^32. -/
  | adda (d : BitVec 4) (x : BitVec 4) (i : BitVec 12)
  /-- MVA (R243): a[d] := low 32 bits of s[x]. -/
  | mva (d : BitVec 4) (x : BitVec 6)
  /-- MVS (R243): s[d] := zero-extended a[x]. -/
  | mvs (d : BitVec 6) (x : BitVec 4)
  /-- SPLD (R117): Loads one spill doubleword into an s-register, landing in its issue cycle. -/
  | spld (d : BitVec 6) (o : BitVec 12)
  /-- SPST (R117): Stores an s-register to a spill doubleword, withheld to the next CKPT. -/
  | spst (d : BitVec 6) (o : BitVec 12)
  /-- FADD (R244): Scalar FP32 addition rounded to nearest. -/
  | fadd (d : BitVec 6) (x : BitVec 6) (y : BitVec 6)
  /-- FSUB (R244): Scalar FP32 subtraction rounded to nearest. -/
  | fsub (d : BitVec 6) (x : BitVec 6) (y : BitVec 6)
  /-- FMUL (R244): Scalar FP32 multiplication rounded to nearest. -/
  | fmul (d : BitVec 6) (x : BitVec 6) (y : BitVec 6)
  /-- FMA (R244): Scalar fused multiply-add with one rounding. -/
  | fma (d : BitVec 6) (x : BitVec 6) (y : BitVec 6) (z : BitVec 6)
  /-- FMIN (R244): Scalar FP32 minimum under the NaN rules. -/
  | fmin (d : BitVec 6) (x : BitVec 6) (y : BitVec 6)
  /-- FMAX (R244): Scalar FP32 maximum under the NaN rules. -/
  | fmax (d : BitVec 6) (x : BitVec 6) (y : BitVec 6)
  /-- FCMP (R244): d := 1 if the selected FP32 relation holds, else 0. -/
  | fcmp (d : BitVec 6) (x : BitVec 6) (y : BitVec 6) (c : BitVec 3)
  /-- FCVT (R245): Scalar conversion selected by the fn code and rounding bit. -/
  | fcvt (d : BitVec 6) (x : BitVec 6) (r : BitVec 1) (c : BitVec 5)
  /-- MFC (R246): Reads a control register into d. -/
  | mfc (d : BitVec 6) (n : BitVec 12)
  /-- MTC (R246): Writes a control register from d, at issue or at release. -/
  | mtc (d : BitVec 6) (n : BitVec 12)
  /-- RDT (R249): Reads job time, graticule time or the issue count into d. -/
  | rdt (d : BitVec 6) (f : BitVec 6)
  /-- TAKEM (R250): Returns a mailbox value and clears its presence. -/
  | takem (d : BitVec 6) (m : BitVec 5)
  /-- BR (R252): Branch always or on a predicate test, with a delay slot in the primary. -/
  | br (c : BitVec 2) (p : BitVec 2) (o : BitVec 18)
  /-- BRZ (R252): Branch when x is zero. -/
  | brz (x : BitVec 6) (o : BitVec 18)
  /-- BRNZ (R252): Branch when x is non-zero. -/
  | brnz (x : BitVec 6) (o : BitVec 18)
  /-- JMP (R252): Jump to the bundle index in x, trapping JUMP_RANGE beyond the store. -/
  | jmp (x : BitVec 6)
  /-- CALL (R252): Branch writing the link into s63 or x31. -/
  | call (o : BitVec 18)
  /-- LOOP (R252): Branch while the loop counter is at least 2, decrementing it. -/
  | loop (l : BitVec 2) (o : BitVec 18)
  /-- REP (R254): Starts a repetition of an n-bundle body with rotating grid indices. -/
  | rep (r : BitVec 6) (n : BitVec 4) (c : BitVec 14)
  /-- HALT (R256): Ends the primary or a helper, releasing withheld effects and carrying the retain mask. -/
  | halt (m : BitVec 4)
  /-- START (R223): Starts a helper at an entry bundle with an argument, at release. -/
  | start (d : BitVec 6) (h : BitVec 4) (e : BitVec 14)
  /-- TRAP (R258): Raises a software trap with a cause and a reported register. -/
  | trap (d : BitVec 6) (c : BitVec 8)
  /-- LD (R115): Loads a zero-extended value from the own scratchpad, latency 4. -/
  | ld (d : BitVec 6) (x : BitVec 6) (w : BitVec 2) (i : BitVec 10)
  /-- ST (R115): Stores to the own scratchpad, withheld in the primary. -/
  | st (d : BitVec 6) (x : BitVec 6) (w : BitVec 2) (i : BitVec 10)
  /-- LDACQ (R116): Doubleword load with acquire ordering for a helper. -/
  | ldacq (d : BitVec 6) (x : BitVec 6) (i : BitVec 10)
  /-- STREL (R116): Doubleword store with release ordering for a helper. -/
  | strel (d : BitVec 6) (x : BitVec 6) (i : BitVec 10)
  /-- XLD (R64): Loads from a cluster-window scratchpad, reading at +12 and landing at +23. -/
  | xld (d : BitVec 6) (x : BitVec 6) (w : BitVec 2) (i : BitVec 10)
  /-- XST (R64): Stores to a cluster-window scratchpad, written at +23. -/
  | xst (d : BitVec 6) (x : BitVec 6) (w : BitVec 2) (i : BitVec 10)
  /-- VLD (R118): Loads a 256-byte vector into a grid operand with post-increment. -/
  | vld (g : BitVec 8) (a : BitVec 4) (k : BitVec 3) (d : BitVec 8)
  /-- VST (R118): Stores a grid operand as a 256-byte vector. -/
  | vst (g : BitVec 8) (a : BitVec 4) (k : BitVec 3) (d : BitVec 8)
  /-- VLDX (R119): Gathers 64 words by grid indices, holding all three bank ports for 8 cycles. -/
  | vldx (g : BitVec 8) (a : BitVec 4) (i : BitVec 8)
  /-- VSTX (R119): Scatters 64 words by grid indices, holding all three bank ports. -/
  | vstx (g : BitVec 8) (a : BitVec 4) (i : BitVec 8)
  /-- GLD (R122): Helper global load through translation and the helper cache. -/
  | gld (d : BitVec 6) (x : BitVec 6) (w : BitVec 2) (i : BitVec 10)
  /-- GST (R122): Helper global store into the store buffer. -/
  | gst (d : BitVec 6) (x : BitVec 6) (w : BitVec 2) (i : BitVec 10)
  /-- GATOM (R123): Helper 64-bit atomic performed at the line's home. -/
  | gatom (d : BitVec 6) (x : BitVec 6) (y : BitVec 6) (o : BitVec 2) (f : BitVec 4)
  /-- CINV (R125): Drains, writes back and drops a helper-cache line. -/
  | cinv (x : BitVec 6) (i : BitVec 10)
  /-- CCLEAN (R125): Drains and writes back a helper-cache line, keeping it clean. -/
  | cclean (x : BitVec 6) (i : BitVec 10)
  /-- QLD (R120): Loads a distribution register from a 1,056-byte image. -/
  | qld (r : BitVec 4) (a : BitVec 4) (k : BitVec 3)
  /-- QST (R120): Stores a distribution register as a 1,056-byte image. -/
  | qst (r : BitVec 4) (a : BitVec 4) (k : BitVec 3)
  /-- KLD (R121): Loads a candidate list from a 520-byte image. -/
  | kld (r : BitVec 3) (a : BitVec 4) (k : BitVec 3)
  /-- KST (R121): Stores a candidate list as a 520-byte image. -/
  | kst (r : BitVec 3) (a : BitVec 4) (k : BitVec 3)
  /-- LIFT (R129): Pushes a grid operand into the lift FIFO toward the upper core. -/
  | lift (g : BitVec 8)
  /-- LPOP (R129): Pops the oldest entry of the selected lift FIFO into a grid operand. -/
  | lpop (g : BitVec 8)
  /-- HPUSH (R126): Stores a grid operand to the ring slot at PROD and advances PROD. -/
  | hpush (g : BitVec 8) (h : BitVec 4)
  /-- HPOP (R126): Loads the ring slot at CONS into a grid operand and advances CONS. -/
  | hpop (g : BitVec 8) (h : BitVec 4)
  /-- VADD (R266): Element-wise vector addition. -/
  | vadd (t : BitVec 3) (p : BitVec 2) (d : BitVec 9) (x : BitVec 9) (y : BitVec 9)
  /-- VSUB (R266): Element-wise vector subtraction. -/
  | vsub (t : BitVec 3) (p : BitVec 2) (d : BitVec 9) (x : BitVec 9) (y : BitVec 9)
  /-- VMUL (R266): Element-wise vector multiplication. -/
  | vmul (t : BitVec 3) (p : BitVec 2) (d : BitVec 9) (x : BitVec 9) (y : BitVec 9)
  /-- VFMA (R266): Element-wise d + x times y with one rounding. -/
  | vfma (t : BitVec 3) (p : BitVec 2) (d : BitVec 9) (x : BitVec 9) (y : BitVec 9)
  /-- VFMS (R266): Element-wise d - x times y with one rounding. -/
  | vfms (t : BitVec 3) (p : BitVec 2) (d : BitVec 9) (x : BitVec 9) (y : BitVec 9)
  /-- VMIN (R266): Element-wise minimum. -/
  | vmin (t : BitVec 3) (p : BitVec 2) (d : BitVec 9) (x : BitVec 9) (y : BitVec 9)
  /-- VMAX (R266): Element-wise maximum. -/
  | vmax (t : BitVec 3) (p : BitVec 2) (d : BitVec 9) (x : BitVec 9) (y : BitVec 9)
  /-- VABS (R266): Element-wise absolute value. -/
  | vabs (t : BitVec 3) (p : BitVec 2) (d : BitVec 9) (x : BitVec 9)
  /-- VNEG (R266): Element-wise negation. -/
  | vneg (t : BitVec 3) (p : BitVec 2) (d : BitVec 9) (x : BitVec 9)
  /-- VCMP (R267): Writes a predicate from a per-lane comparison. -/
  | vcmp (t : BitVec 3) (p : BitVec 2) (q : BitVec 2) (c : BitVec 3) (n : BitVec 1) (x : BitVec 9) (y : BitVec 9)
  /-- VSEL (R268): Selects each lane from x or y by the predicate. -/
  | vsel (t : BitVec 3) (p : BitVec 2) (d : BitVec 9) (x : BitVec 9) (y : BitVec 9)
  /-- VCVT (R269): Converts elements between formats of equal width. -/
  | vcvt (t : BitVec 3) (p : BitVec 2) (d : BitVec 9) (x : BitVec 9) (f : BitVec 3) (n : BitVec 1) (z : BitVec 1) (s : BitVec 1)
  /-- VAND (R271): Bitwise AND of 64 words. -/
  | vand (t : BitVec 3) (p : BitVec 2) (d : BitVec 9) (x : BitVec 9) (y : BitVec 9)
  /-- VOR (R271): Bitwise OR of 64 words. -/
  | vor (t : BitVec 3) (p : BitVec 2) (d : BitVec 9) (x : BitVec 9) (y : BitVec 9)
  /-- VXOR (R271): Bitwise XOR of 64 words. -/
  | vxor (t : BitVec 3) (p : BitVec 2) (d : BitVec 9) (x : BitVec 9) (y : BitVec 9)
  /-- VSHL (R271): Element-wise left shift. -/
  | vshl (t : BitVec 3) (p : BitVec 2) (d : BitVec 9) (x : BitVec 9) (y : BitVec 9)
  /-- VSHR (R271): Element-wise right shift with zeros. -/
  | vshr (t : BitVec 3) (p : BitVec 2) (d : BitVec 9) (x : BitVec 9) (y : BitVec 9)
  /-- VSAR (R271): Element-wise right shift with the sign. -/
  | vsar (t : BitVec 3) (p : BitVec 2) (d : BitVec 9) (x : BitVec 9) (y : BitVec 9)
  /-- VRCP (R273): Element-wise reciprocal by table and Newton steps. -/
  | vrcp (t : BitVec 3) (p : BitVec 2) (d : BitVec 9) (x : BitVec 9)
  /-- VRSQ (R273): Element-wise reciprocal square root. -/
  | vrsq (t : BitVec 3) (p : BitVec 2) (d : BitVec 9) (x : BitVec 9)
  /-- VEXP2 (R274): Element-wise 2^x. -/
  | vexp2 (t : BitVec 3) (p : BitVec 2) (d : BitVec 9) (x : BitVec 9)
  /-- VLOG2 (R275): Element-wise log2 x. -/
  | vlog2 (t : BitVec 3) (p : BitVec 2) (d : BitVec 9) (x : BitVec 9)
  /-- VTANH (R276): Element-wise tanh x. -/
  | vtanh (t : BitVec 3) (p : BitVec 2) (d : BitVec 9) (x : BitVec 9)
  /-- VRED (R277): Tree reduction of all elements broadcast into d. -/
  | vred (t : BitVec 3) (p : BitVec 2) (d : BitVec 9) (x : BitVec 9) (o : BitVec 2) (n : BitVec 1)
  /-- VSCAN (R278): Segmented inclusive scan. -/
  | vscan (t : BitVec 3) (p : BitVec 2) (d : BitVec 9) (x : BitVec 9) (o : BitVec 2) (n : BitVec 1)
  /-- VPERM (R279): Permutes elements of x by indices in y. -/
  | vperm (t : BitVec 3) (p : BitVec 2) (d : BitVec 9) (x : BitVec 9) (y : BitVec 9)
  /-- VBC (R279): Broadcasts one lane of x to every lane. -/
  | vbc (t : BitVec 3) (p : BitVec 2) (d : BitVec 9) (x : BitVec 9) (l : BitVec 6)
  /-- VIOTA (R279): Writes each element's own index. -/
  | viota (t : BitVec 3) (p : BitVec 2) (d : BitVec 9)
  /-- VMOV (R279): Copies x to d bit for bit. -/
  | vmov (t : BitVec 3) (p : BitVec 2) (d : BitVec 9) (x : BitVec 9)
  /-- VRAND (R280): Derives counter-based pseudorandom lanes from a counter and key. -/
  | vrand (t : BitVec 3) (p : BitVec 2) (d : BitVec 9) (x : BitVec 9) (y : BitVec 9)
  /-- VCLAMP (R270): Clamps x between d and y per element. -/
  | vclamp (t : BitVec 3) (p : BitVec 2) (d : BitVec 9) (x : BitVec 9) (y : BitVec 9)
  /-- VPACK (R281): Converts to a narrower type and packs into the low lanes of d. -/
  | vpack (t : BitVec 3) (p : BitVec 2) (d : BitVec 9) (x : BitVec 9) (f : BitVec 3) (n : BitVec 1) (z : BitVec 1) (s : BitVec 1)
  /-- VUNPK (R282): Converts the low elements of x to a wider type. -/
  | vunpk (t : BitVec 3) (p : BitVec 2) (d : BitVec 9) (x : BitVec 9) (f : BitVec 3) (n : BitVec 1) (z : BitVec 1) (s : BitVec 1)
  /-- BADDQ (R283): Adds two block images and requantises with a new scale. -/
  | baddq (t : BitVec 3) (p : BitVec 2) (d : BitVec 9) (x : BitVec 9) (y : BitVec 9)
  /-- TAP (R347): Accumulates probe dot products of a row segment at a tap point. -/
  | tap (t : BitVec 3) (p : BitVec 2) (x : BitVec 9) (r : BitVec 6)
  /-- TAPFIN (R348): Finishes a tap point's probes, writing values and acting on crossings. -/
  | tapfin (t : BitVec 3) (p : BitVec 2) (d : BitVec 9) (r : BitVec 6)
  /-- VSTEER (R349): Adds a scaled steering vector to a row segment. -/
  | vsteer (t : BitVec 3) (p : BitVec 2) (d : BitVec 9) (x : BitVec 9) (r : BitVec 6)
  /-- QSET (R329): Makes point masses in a distribution register. -/
  | qset (t : BitVec 3) (p : BitVec 2) (d : BitVec 4) (x : BitVec 9) (y : BitVec 9)
  /-- QADD (R330): Adds two distributions lane by lane. -/
  | qadd (t : BitVec 3) (p : BitVec 2) (d : BitVec 4) (x : BitVec 4) (y : BitVec 4)
  /-- QMUL (R330): Multiplies two distributions lane by lane. -/
  | qmul (t : BitVec 3) (p : BitVec 2) (d : BitVec 4) (x : BitVec 4) (y : BitVec 4)
  /-- QSCALE (R331): Scales each point's value. -/
  | qscale (t : BitVec 3) (p : BitVec 2) (d : BitVec 4) (x : BitVec 4) (y : BitVec 9)
  /-- QSHIFT (R331): Shifts each point's value. -/
  | qshift (t : BitVec 3) (p : BitVec 2) (d : BitVec 4) (x : BitVec 4) (y : BitVec 9)
  /-- QMIX (R332): Blends two distributions by a weight alpha. -/
  | qmix (t : BitVec 3) (p : BitVec 2) (d : BitVec 4) (x : BitVec 4) (y : BitVec 9)
  /-- QCOND (R333): Condenses a distribution to n points. -/
  | qcond (t : BitVec 3) (p : BitVec 2) (d : BitVec 4) (x : BitVec 4) (n : BitVec 3)
  /-- QMOM (R337): Reads weight, mean, variance or third moment per lane. -/
  | qmom (t : BitVec 3) (p : BitVec 2) (d : BitVec 9) (x : BitVec 4) (s : BitVec 2)
  /-- QQUANT (R338): Reads a quantile per lane. -/
  | qquant (t : BitVec 3) (p : BitVec 2) (d : BitVec 9) (x : BitVec 4) (y : BitVec 9)
  /-- QTAG (R334): Sets or ORs the tag mask. -/
  | qtag (t : BitVec 3) (p : BitVec 2) (d : BitVec 4) (m : BitVec 16)
  /-- QSAMP (R338): Draws a sample per lane from a uniform value. -/
  | qsamp (t : BitVec 3) (p : BitVec 2) (d : BitVec 9) (x : BitVec 4) (y : BitVec 9)
  /-- KCLR (R305): Empties a candidate list. -/
  | kclr (c : BitVec 3)
  /-- KMERGE (R306): Merges 64 scored lanes with indices from memory into a list. -/
  | kmerge (c : BitVec 3) (g : BitVec 8) (a : BitVec 4) (m : BitVec 1)
  /-- KMERGEL (R306): Merges 64 scored lanes with linear indices into a list. -/
  | kmergel (c : BitVec 3) (g : BitVec 8) (a : BitVec 4) (m : BitVec 1)
  /-- KSORT (R308): Sorts lanes into a list, or re-sorts the list itself. -/
  | ksort (c : BitVec 3) (g : BitVec 8) (s : BitVec 1)
  /-- KTOP (R309): Writes list scores or indices into a grid operand. -/
  | ktop (c : BitVec 3) (g : BitVec 8) (i : BitVec 1)
  /-- KSAMP (R312): Samples a token from a list under temperature and top-p, writing a record. -/
  | ksamp (c : BitVec 3) (g : BitVec 8) (a : BitVec 4) (p : BitVec 2)
  /-- KMASK (R307): Removes list entries the mask register excludes. -/
  | kmask (c : BitVec 3)
  /-- KSEND (R310): Sends a list to a node of a reduction tree. -/
  | ksend (c : BitVec 3) (a : BitVec 4)
  /-- GSET_LD (R316): Loads an automaton descriptor and resets it to START. -/
  | gsetLd (a : BitVec 4)
  /-- GSET_ST (R316): Stores the automaton's 64-byte image. -/
  | gsetSt (a : BitVec 4)
  /-- GSET_RS (R316): Restores the whole automaton from an image. -/
  | gsetRs (a : BitVec 4)
  /-- GSTEP (R318): Steps the automaton with a token. -/
  | gstep (a : BitVec 4)
  /-- GMASK (R317): Loads a chunk of the mask row into the context's mask register. -/
  | gmask (k : BitVec 3)
  /-- MMUL (R292): Issues a matrix multiply onto the matrix timeline, withheld to CKPT. -/
  | mmul (x : BitVec 6) (y : BitVec 6) (z : BitVec 6) (l : BitVec 1) (b : BitVec 1)
  /-- MDRAIN (R295): Issues a drain of an accumulator bank with conversion and histogram. -/
  | mdrain (x : BitVec 6) (y : BitVec 6) (z : BitVec 6) (b : BitVec 1)
  /-- BFILL (R294): Issues a fill of B-store slices from scratchpad or global memory. -/
  | bfill (x : BitVec 6) (y : BitVec 6) (z : BitVec 6)
  /-- MCODE (R293): Issues a build of the CB4 code table from two codebooks. -/
  | mcode (x : BitVec 6)
  /-- SWAP (R296): Issues a sub-tile exchange with the mirrored partner core. -/
  | swap (x : BitVec 6) (y : BitVec 6) (z : BitVec 6)
  /-- CPY (R150): Issues a copy of LEN bytes on a copy queue. -/
  | cpy (x : BitVec 6) (y : BitVec 6) (z : BitVec 6) (q : BitVec 2)
  /-- CPYT (R152): Issues a clamped tile copy from a command block. -/
  | cpyt (x : BitVec 6) (z : BitVec 6) (q : BitVec 2)
  /-- CGATH (R153): Issues an indexed gather of rows. -/
  | cgath (x : BitVec 6) (z : BitVec 6) (q : BitVec 2)
  /-- CSCAT (R153): Issues an indexed scatter of rows. -/
  | cscat (x : BitVec 6) (z : BitVec 6) (q : BitVec 2)
  /-- CSEAL (R154): Closes the open batch of a queue and returns its number. -/
  | cseal (x : BitVec 6) (q : BitVec 2)
  /-- CTIME (R155): Hands the next command of the queue to the time-sorted buffer for job time T. -/
  | ctime (x : BitVec 6) (q : BitVec 2)
  /-- CNEXT (R156): Attaches an MMUL to the preceding copy command of the queue. -/
  | cnext (x : BitVec 6) (y : BitVec 6) (z : BitVec 6) (q : BitVec 2) (l : BitVec 1) (b : BitVec 1)
  /-- SENDM (R230): Sends a 64-bit value to a mailbox register of a core. -/
  | sendm (x : BitVec 6) (y : BitVec 6) (m : BitVec 5)
  /-- EQRY (R157): Returns a selected item of copy-engine state. -/
  | eqry (x : BitVec 6) (y : BitVec 6)
  /-- FWAIT (R133): Waits until a flag reaches a count and subtracts it. -/
  | fwait (f : BitVec 5) (n : BitVec 13)
  /-- FPOST (R133): Adds a count to an own flag, saturating. -/
  | fpost (f : BitVec 5) (n : BitVec 13)
  /-- FPOSTX (R133): Posts a count to a flag of another core. -/
  | fpostx (f : BitVec 5) (r : BitVec 6) (n : BitVec 7)
  /-- TWAIT (R164): Waits until a timeline reaches n, acquiring batch effects. -/
  | twait (t : BitVec 5) (r : BitVec 6)
  /-- HWAIT (R127): Waits until a ring holds at least n filled slots. -/
  | hwait (h : BitVec 4) (n : BitVec 13)
  /-- HFREE (R127): Waits until a ring holds at least n free slots. -/
  | hfree (h : BitVec 4) (n : BitVec 13)
  /-- HADV (R127): Advances a ring's producer or consumer count, posting to a remote end. -/
  | hadv (h : BitVec 4) (s : BitVec 1) (c : BitVec 12)
  /-- MWAIT (R135): Waits until a mailbox's presence bit is set. -/
  | mwait (m : BitVec 5)
  /-- LWAIT (R129): Waits for free lift slots or filled lift entries. -/
  | lwait (n : BitVec 13)
  /-- CHK (R373): Traps SCHED_MISS if a timeline has not reached N. -/
  | chk (r : BitVec 5)
  /-- BARA (R377): Sends one arrival to a frame barrier. -/
  | bara (b : BitVec 5) (c : BitVec 3)
  /-- HELPER_BUNDLE_ILLEGAL (R90): A helper entering a bundle of illegal form stops with a precise ILLEGAL trap. -/
  | helperBundleIllegal (core h : Nat)
  /-- STORAGE_ERROR (R73): A corrected or uncorrectable storage error is handled by its class. -/
  | storageError (core row : Nat) (unc : Bool) (loc : Nat)
  /-- HCTL_FREE (R225): Writing a FREE bit moves a TRAPPED helper to RELEASED. -/
  | hctlFree (core h : Nat)
  /-- HISTSEL_CLR (R298): Zeroes the 32 bins of a histogram tensor. -/
  | histselClr (core tid : Nat)
  /-- EGRAPH_WRITE (R159): Reads the node table and replaces every dependence-graph node's state. -/
  | egraphWrite (core : Nat) (v : Word)
  /-- BQTAKE (R416): A gateway's read returns the next block index and increments it. -/
  | bqtake (gw d : Nat)
  /-- REGISTER_WRITE (R7): A write to a register without behaviour of its own, honouring field access codes. -/
  | registerWrite (off : Nat) (v : Word)
  /-- HOME_READ (R174): A global read performed at the line's home, filling L2 and decoding format windows. -/
  | homeRead (id : Nat)
  /-- HOME_WRITE (R173): A global write or line write-back performed at its home. -/
  | homeWrite (id : Nat)
  /-- HOME_ATOMIC (R124): An atomic performed indivisibly at its home, on L2, via CXL.cache or as a PCIe AtomicOp. -/
  | homeAtomic (id : Nat)
  /-- GLOBAL_READ_RETURN (R171): Data of a helper miss or engine burst arrives at the core. -/
  | globalReadReturn (id : Nat)
  /-- PAGE_WALK (R32): A walk reads table entries, checks them in order and installs a leaf or faults. -/
  | pageWalk (agent ctx va : Nat) (write atomic : Bool)
  /-- RETRY (R36): Resolves a fault record by re-issuing the operation or resuming from the cursor. -/
  | retry (entry : Nat)
  /-- ABANDON (R36): Resolves a fault record by freeing the helper or ending the launch. -/
  | abandon (entry : Nat)
  /-- TINV_PAGE (R40): Invalidates cached translations of one page. -/
  | tinvPage (ctx va : Nat)
  /-- TINV_CONTEXT (R40): Invalidates all cached translations of one context. -/
  | tinvContext (ctx : Nat)
  /-- FW_CTL_WRITE (R203): Activates or refuses a format window after its checks. -/
  | fwCtlWrite (w : Nat) (v : Word)
  /-- LEGDATA_WRITE (R342): Writes the legend doubleword at OFF and advances OFF. -/
  | legdataWrite (v : Word)
  /-- FLAG_POST_ARRIVAL (R134): A post or completion post lands on a flag of the target core. -/
  | flagPostArrival (src core f n : Nat)
  /-- MAILBOX_ARRIVAL (R231): A message is placed in a mailbox, the inbox or held at the receive port. -/
  | mailboxArrival (src core m : Nat) (v : Word)
  /-- MAILBOX_PORT_WRITE (R235): A write to a core's mailbox port is an arrival or is discarded. -/
  | mailboxPortWrite (src core m : Nat) (v : Word)
  /-- HANDLE_ADVANCE_ARRIVAL (R128): A remote handle advance adds its count to the remote counter. -/
  | handleAdvanceArrival (src core h : Nat) (prod : Bool) (n : Nat)
  /-- CLUSTER_WINDOW_STORE (R64): An XST or remote HPUSH write reaches the target bank at rank 1. -/
  | clusterWindowStore (src core addr : Nat) (data : List Byte)
  /-- GATEWAY_WINDOW_ACCESS (R415): An access to a gateway's local-memory window is served or discarded. -/
  | gatewayWindowAccess (gw off : Nat) (write : Bool) (v : Word)
  /-- COPY_COMMAND_START (R141): A queue starts its next command, reading any command block. -/
  | copyCommandStart (core q : Nat)
  /-- COPY_BURST (R150): A burst of up to 512 bytes moves and advances the cursor. -/
  | copyBurst (core q : Nat)
  /-- COPY_COMMAND_COMPLETE (R142): A copy command completes, sending its post and firing graph successors. -/
  | copyCommandComplete (core q : Nat)
  /-- TIMED_COMMAND_DUE (R155): A timed command starts at the next burst boundary when job time reaches T. -/
  | timedCommandDue (core q : Nat)
  /-- QUEUE_STOP (R145): A failing command reaches the head and its queue stops. -/
  | queueStop (core q : Nat)
  /-- STAGE_RELEASE (R364): After preparation a stage's cores are zeroed, loaded and released. -/
  | stageRelease (launch : Nat)
  /-- LAUNCH_COMPLETE (R361): A launch finishes: after-actions, completion record and DONE advance. -/
  | launchComplete (launch : Nat)
  /-- PREEMPTION_END (R397): All cores of a pre-empted launch are imaged and their clusters freed. -/
  | preemptionEnd (launch : Nat)
  /-- KILL_COMPLETE (R191): A kill completes once all its accesses are done and writes its record. -/
  | killComplete (ctx : Nat)
  /-- REPLAY_PASS (R433): A replay-measurement pass ends, writes its results and starts the next. -/
  | replayPass (launch : Nat)
  /-- SWAP_OUT (R375): The swap engine swaps out a low-priority slot's pages when the pool is low. -/
  | swapOut (ctx slot : Nat)
  /-- SWAP_IN (R375): The swap engine brings an on-host page back and issues RETRY. -/
  | swapIn (entry : Nat)
  /-- BARRIER_ARRIVAL (R378): Arrivals land at a frame barrier and may trigger an encode job. -/
  | barrierArrival (b n : Nat)
  /-- ENCODE_JOB_START (R378): A queued encode job starts after the session's previous job. -/
  | encodeJobStart (e : Nat)
  /-- ENCODE_JOB_COMPLETE (R378): An encode job completes, advancing WPTR and DONE and posting. -/
  | encodeJobComplete (e : Nat)
  /-- HOST_HALT (R425): HALTCTL OP HALT triggers a host halt wave. -/
  | hostHalt (b : Nat) (v : Word)
  /-- RESUME (R424): HALTCTL OP RESUME schedules the job's restart at TICKSET. -/
  | resume (b : Nat) (v : Word)
  /-- JOBSTEP (R424): HALTCTL OP JOBSTEP schedules a k-tick step of the job. -/
  | jobstep (b : Nat) (v : Word)
  /-- CORESTEP (R424): HALTCTL OP CORESTEP schedules a one-cycle step of one core. -/
  | corestep (b : Nat) (v : Word)
  /-- CLEARCAUSE (R425): Zeroes the cause entries and NCAUSE and OVER. -/
  | clearcause (b : Nat) (v : Word)
  /-- SHTRIG (R431): Arms a pod-wide counter shadow latch at tick T. -/
  | shtrig (v : Word)
  /-- FRDATA (R434): Reads a flight-recorder doubleword and advances FRADDR. -/
  | frdata (die : Nat)
  /-- LINK_FLIT_RECEIVE (R401): A flit is received, CRC-checked and resent if bad. -/
  | linkFlitReceive (port : Nat) (good : Bool)
  /-- LINK_DOWN (R402): A link of a port goes down. -/
  | linkDown (port : Nat)
  /-- LINK_UP (R402): A link of a port trains up. -/
  | linkUp (port peer : Nat)
  /-- GRATICULE_DISCIPLINE (R403): A discipline flit steers the chip's graticule counter. -/
  | graticuleDiscipline (port stamp : Nat)
  /-- PLAN (R405): A doorbell write starts a phase plan with descriptor checks and CRC exchange. -/
  | plan (slot : Nat) (v : Word)
  /-- PLAN_LATE (R405): A plan whose schedule is not ready 4,096 ticks before T0 stops LATE. -/
  | planLate (slot : Nat)
  /-- PLAN_PHASE (R407): At T0+S(p) a phase's pairs inject their blocks. -/
  | planPhase (slot phase : Nat)
  /-- PLAN_COMPLETE (R407): A chip's part of the plan finishes, posts and advances DONE. -/
  | planComplete (slot : Nat)
  /-- TREESET (R409): Starts installing and checking a reduction tree. -/
  | treeset (v : Word)
  /-- TREE_NODE_INPUT (R411): A list reaches a tree node and is merged; the round may forward. -/
  | treeNodeInput (tree node : Nat) (data : List (Lane × Lane))
  /-- TREE_ROOT_DELIVERY (R411): A root delivers its list to a core image and flag, or to dispatch. -/
  | treeRootDelivery (tree : Nat)
  /-- DISPATCH_DELIVERY (R413): A logical expert's list reaches a dispatch group; the table is built when all arrive. -/
  | dispatchDelivery (group ex : Nat) (data : List (Lane × Lane))
  /-- STREAM_ENABLE (R439): Setting STR_CTL EN places the stream's polling slots or refuses. -/
  | streamEnable (stream : Nat) (v : Word)
  /-- STREAM_DISABLE (R439): Clearing STR_CTL EN frees the stream's slots at the next frame. -/
  | streamDisable (stream : Nat) (v : Word)
  /-- RESET_RUNG_COMPLETE (R440): A reset rung completes and RESETSTAT DONE advances. -/
  | resetRungComplete (rung : Nat)
  /-- CLUSTER_POWER_UP (R444): Clusters are powered one after another 4,700 cycles apart. -/
  | clusterPowerUp (cluster : Nat)
  /-- ATTREQ (R443): Requests a signed attestation report for a nonce. -/
  | attreq (v : Word)
  /-- THERMAL_TRIP (R446): At trip temperature every launch is killed and stacks powered off. -/
  | thermalTrip (stack : Nat)
  /-- UPDOM_CLOSE (R454): A close request moves an OPEN upper-core domain to CLOSING. -/
  | updomClose (cluster : Nat)
  /-- UPDOM_OPEN (R447): An open request reopens a CLOSING domain or powers a CLOSED one. -/
  | updomOpen (cluster : Nat)
  /-- DOMAIN_CLOSE (R455): A CLOSING domain closes once FIFOs, core and messages are done. -/
  | domainClose (cluster : Nat)
  /-- DOMAIN_OPENED (R447): A powered domain becomes OPEN 4,700 cycles after the request. -/
  | domainOpened (cluster : Nat)
  /-- CXL_CACHE_SNOOP (R183): The host, over CXL.cache, snoops or invalidates a host-window line that the hub home holds under COH 01, so that later device reads made at the home see the host's write. -/
  | cxlCacheSnoop (line : Nat) (inv : Bool)
  /-- NIL_I (R80): Empty I-class slot; no effect, advertised to helpers. -/
  | nilI
  /-- NIL_M (R80): Empty M-class slot; no effect, advertised to helpers. -/
  | nilM
  /-- NIL_V (R80): Empty V-class slot; no effect, never advertised. -/
  | nilV
  /-- NIL_K (R80): Empty K-class slot; no effect, advertised to helpers. -/
  | nilK
  /-- NIL_E (R80): Empty E-class slot; no effect, never advertised. -/
  | nilE
  /-- NIL_Y (R80): Empty Y-class slot; no effect, advertised to helpers. -/
  | nilY
  /-- HOLD_I (R80): Keeps the I slot's port share and power token for the primary; not advertised. -/
  | holdI
  /-- HOLD_M (R80): Keeps the M slot's bank ports free of helper traffic; not advertised. -/
  | holdM
  /-- HOLD_V (R80): Keeps the V slot's power token for the primary. -/
  | holdV
  /-- HOLD_K (R80): Keeps the K slot for the primary; not advertised. -/
  | holdK
  /-- HOLD_E (R80): Keeps the E slot's power token for the primary. -/
  | holdE
  /-- HOLD_Y (R80): Keeps the Y slot for the primary; not advertised. -/
  | holdY
  /-- GSET_FL (R316): Empties the core's mask cache. -/
  | gsetFl
  /-- PHASE (R136): Waits until global writes are performed and the helper cache is written back. -/
  | phase
  /-- FENCE (R137): Waits until the pending writes or the helper's operations complete. -/
  | fence
  /-- CKPT (R381): Checks and releases withheld effects, captures the shadow and opens a region. -/
  | ckpt
  /-- DEFERRED_TRAP (R458): A trap depending on data read after issue is raised in the operation's trap cycle. -/
  | deferredTrap
  /-- ROLLBACK_RESTORE_END (R386): After 16 restore cycles the region re-executes or the trap policy applies. -/
  | rollbackRestoreEnd
  /-- CORE_PART_END (R226): A halted core's part ends once results, helpers, engines and cache are done; retain mask applies. -/
  | corePartEnd
  /-- INBOXPOP (R234): Helper 9's read returns and removes the oldest inbox entry. -/
  | inboxpop
  /-- GWTLINC (R416): A gateway's write adds 1 to its collective count. -/
  | gwtlinc
  /-- STORE_BUFFER_DRAIN (R69): The oldest store-buffer entry drains into the helper cache or to its home. -/
  | storeBufferDrain
  /-- FAULT_RECORD_DEFERRED (R36): A fault held for lack of queue room is recorded once space frees. -/
  | faultRecordDeferred
  /-- TINV_ALL (R40): Invalidates cached translations of all contexts. -/
  | tinvAll
  /-- TINV_COMPLETE (R41): An invalidation completes and DONE increases. -/
  | tinvComplete
  /-- LEGDATA_READ (R342): Reads the legend doubleword at OFF and advances OFF. -/
  | legdataRead
  /-- MMUL_START (R285): An MMUL starts once its conditions and power tokens allow. -/
  | mmulStart
  /-- MMUL_COMPLETE (R292): The final group update lands and the MMUL completes. -/
  | mmulComplete
  /-- MCODE_START (R293): MCODE reads two codebooks and builds the code table. -/
  | mcodeStart
  /-- MCODE_COMPLETE (R293): MCODE completes 16 cycles after its start. -/
  | mcodeComplete
  /-- BFILL_START (R294): BFILL starts reading its source image into the slices. -/
  | bfillStart
  /-- BFILL_COMPLETE (R294): BFILL completes after its last chunk. -/
  | bfillComplete
  /-- MDRAIN_START (R295): MDRAIN starts converting and writing rows and binning histograms. -/
  | mdrainStart
  /-- MDRAIN_COMPLETE (R295): Row 127 lands and the drain sends any barrier arrival. -/
  | mdrainComplete
  /-- SWAP_EXCHANGE_START (R296): The exchange begins once both partners' SWAPs have started. -/
  | swapExchangeStart
  /-- SWAP_COMPLETE (R296): All received bytes land, the own flag is posted and SWAP completes. -/
  | swapComplete
  /-- MATRIX_TIMELINE_STOP (R297): A failing matrix command stops the timeline at its turn. -/
  | matrixTimelineStop
  /-- LAUNCH_PACKET (R359): A TYPE 0 packet is consumed and handled by the launch unit. -/
  | launchPacket
  /-- REPLAY (R371): A TYPE 1 packet inserts a recorded graph's patched packets. -/
  | replay
  /-- KILL (R399): A TYPE 2 packet kills every launch of the context. -/
  | kill
  /-- RECORD (R371): A TYPE 3 packet stores the next k packets into a graph. -/
  | record
  /-- SCHEDULER_WINDOW (R368): A 10 ms window starts and RTUSED returns to 0. -/
  | schedulerWindow
  /-- BREAKPOINT (R418): A fetched bundle matches a breakpoint and starts a halt wave. -/
  | breakpoint
  /-- HALT_FLIT (R420): A halt flit reaches a chip and freezes the job's agents there. -/
  | haltFlit
  /-- STOP_TICK (R422): At tick F+B the job clock stops and traffic is held. -/
  | stopTick
  /-- RESUME_AT_TICK (R424): At tick R the job's agents restart and held messages move. -/
  | resumeAtTick
  /-- JOBSTEP_END (R424): The job freezes again at the end of tick R+k-1. -/
  | jobstepEnd
  /-- CORESTEP_AT_TICK (R424): At TICKSET the named core advances one cycle. -/
  | corestepAtTick
  /-- SURVEY_PULSE (R426): Every core latches its state and each stack writes a compressed record. -/
  | surveyPulse
  /-- SHADOW_TRIGGER (R431): At tick T each chip copies every counter into its shadow. -/
  | shadowTrigger
  /-- DISCIPLINE_SEND (R403): Every 2^16 ticks a master sends a discipline flit. -/
  | disciplineSend
  /-- TREE_CHECK_DONE (R410): The tree check ends, installing the tree or failing it. -/
  | treeCheckDone
  /-- GATEWAY_RUN (R416): GWCTL EN 1 starts the gateway from ENTRY. -/
  | gatewayRun
  /-- GATEWAY_STOP (R416): GWCTL EN 0 stops the gateway at once. -/
  | gatewayStop
  /-- MAJOR_FRAME (R438): A command-processor major frame begins and freed stream slots take effect. -/
  | majorFrame
  /-- STREAM_POLL (R438): In a stream's slot the Eplek core reads TAIL and consumes a packet. -/
  | streamPoll
  /-- HEARTBEAT (R440): Slot 63 of core 0 writes the frame count to the heartbeat word. -/
  | heartbeat
  /-- RESET_STREAM (R440): Rung 1 discards a stream's unconsumed packets. -/
  | resetStream
  /-- FIRMWARE_CORE_RESTART (R440): Rung 2 restarts the Eplek cores and rebuilds slot tables. -/
  | firmwareCoreRestart
  /-- COMMAND_PROCESSOR_RESET (R440): Rung 3 kills every context and discards retained images. -/
  | commandProcessorReset
  /-- FUNCTION_LEVEL_RESET (R440): Rung 4 resets every register and re-verifies firmware. -/
  | functionLevelReset
  /-- SECONDARY_BUS_RESET (R440): Rung 5 acts as power-on with boot ROM and link retraining. -/
  | secondaryBusReset
  /-- POWER_ON (R441): Power-on boots, verifies and measures the firmware. -/
  | powerOn
  /-- ATTESTATION_REPORT (R443): Firmware writes the report and sets ATTSTAT. -/
  | attestationReport
  /-- THERMAL_THROTTLE (R446): Power above 1,950 W lowers the token budget. -/
  | thermalThrottle
  /-- THERMAL_THROTTLE_END (R446): After 10 ms below 1,900 W the budget is raised. -/
  | thermalThrottleEnd
  /-- BREAKPOINT_TAKES_EFFECT (R425): A written breakpoint setting takes effect on each core of the job in a device-chosen cycle up to 2,000 cycles after the write is performed at the hub. -/
  | breakpointTakesEffect
  deriving DecidableEq, Repr

end Sys2Proof
end

