-- ==== Sys2Proof/Machine/CoreState.lean ====
section
/-! DEFINITION. The state of one core (base or upper) and its engines as plain data: registers, grid, local storage,
results in flight, withheld effects, the shadow, helpers, the sort and sample, distribution and tap units, the copy
engine and the matrix engine. Each field names the rule of the spec that gives it. -/

namespace Sys2Proof.Machine

/-- The context that issues an operation (R212; a gateway core has one context, R414). -/
inductive Ctx
  | prim
  | helper (h : Nat)
  | gate
  deriving DecidableEq, Repr

/-- Where an operation stands: core (or gateway) number (for an event: the core, gateway, stream or context it is about), context, slot 0 to 7 in the order of R79, bundle index, the
read beats B of its bundle (R47), and the job time and graticule time at the start of the cycle (R8). -/
structure Focus where
  core : Nat
  ctx : Ctx
  slot : Nat
  bundle : Nat
  beats : Nat
  jobt : Nat
  grat : Nat
  deriving DecidableEq, Repr

/-- A grammar automaton (R314): valid bit, descriptor, depth, state and the eight stack slots. -/
structure Gram where
  valid : Bool
  nstate : Nat
  nchunk : Nat
  nsym : Nat
  nclass : Nat
  start : Nat
  tcls : Nat
  trans : Nat
  mrow : Nat
  mask : Nat
  depth : Nat
  state : Nat
  slots : List Nat
  deriving DecidableEq, Repr

/-- The invalid automaton of a launch (R321). -/
def gram0 : Gram := ⟨false, 0, 0, 0, 0, 0, 0, 0, 0, 0, 0, 0, List.replicate 8 0⟩

/-- A context's mask register: valid bit, chunk number, 512 bits (R307). -/
structure MaskReg where
  valid : Bool
  chunk : Nat
  bits : BitVec 512
  deriving DecidableEq, Repr

def maskReg0 : MaskReg := ⟨false, 0, 0⟩

/-- A candidate list: count and 64 entries (score, index) (R58). -/
structure CandList where
  count : Nat
  ents : List (Lane × Lane)
  deriving DecidableEq, Repr

def candList0 : CandList := ⟨0, List.replicate 64 (0, 0)⟩

/-- The change a list operation makes, applied to the list as it stands when it lands (R304). -/
inductive ListOp
  | clear
  | merge (cand : List (Lane × Lane))
  | sortNew (cand : List (Lane × Lane))
  | sortSelf
  | mask (m : MaskReg)
  | load (l : CandList)
  deriving DecidableEq, Repr

/-- A vector destination: a grid operand (its 8-bit code dd iiiiii) or 256 bytes of the scratchpad (R85). -/
inductive VDst
  | grid (code : Nat)
  | mem (addr : Nat)
  deriving DecidableEq, Repr

/-- An engine command as the primary issues it: opcode, queue, register values at issue, flag bits, bundle. -/
structure Cmd where
  op : Nat
  q : Nat
  x : Word
  y : Word
  z : Word
  fl : Nat
  bundle : Nat
  deriving DecidableEq, Repr

/-- A withheld effect of the primary (R111, R384). -/
inductive Wh
  | store (addr : Nat) (data : List Byte)
  | storeQ (addr : Nat) (data : List Byte)
  | storeK (addr : Nat) (data : List Byte)
  | scatter (n : Nat) (words : List (Nat × Lane))
  | spill (off : Nat) (v : Word)
  | xst (addr : Nat) (data : List Byte)
  | hpush (core h addr : Nat) (data : List Byte)
  | flag (f n : Nat)
  | flagx (core f n : Nat)
  | hadv (core h : Nat) (prod : Bool) (n : Nat)
  | sendm (core m : Nat) (v : Word)
  | bara (b : Nat)
  | ksend (tree node : Nat) (l : CandList)
  | lift (v : Vec)
  | start (h entry : Nat) (arg : Word)
  | takem (m : Nat)
  | mtc (n : Nat) (v : Word)
  | cmd (c : Cmd)
  | tapRec (d0 d1 d2 : Word)
  | seqMask (slot : Nat)
  | xld (core addr len fid : Nat)
  | fault (mb : Nat) (v : Word)
  deriving DecidableEq, Repr

/-- A withhold-buffer entry with its place in program order. -/
structure WhE where
  ord : Nat
  w : Wh
  deriving DecidableEq, Repr

/-- What happens at the end of the cycle in which a result lands. -/
inductive Eff
  | sreg (r : Nat) (v : Word)
  | areg (r : Nat) (v : Lane)
  | lcnt (r : Nat) (v : Lane)
  | preg (r : Nat) (v : Word)
  | xreg (h r : Nat) (v : Word)
  | vec (d : VDst) (v : Vec) (mask : Word)
  | qreg (q : Nat) (v : QReg) (mask : Word)
  | qtag (q : Nat) (v : BitVec 16) (or : Bool)
  | qnote (n : QNote)
  | list (l : Nat) (op : ListOp)
  | flagSub (f n : Nat)
  | flagAdd (f n : Nat)
  | handle (h : Nat) (prod : Bool) (n : Nat)
  | take (m : Nat)
  | mark (m : Nat)
  | liftPush (v : Vec)
  | lpop (k : Nat)
  | liftFall
  | withhold (w : Wh)
  | fpClear (v : Flags)
  | fpClearM (v : Flags)
  | tap (tp seg ty : Nat) (pred : Word) (x : Vec)
  | tapFin (tp : Nat) (word : Word) (d : VDst) (bundle jobt : Nat)
  | gram (g : Gram) (inval : Bool)
  | mask (m : MaskReg)
  | mcFill (key : Nat × Nat × Nat × Nat) (row : Nat) (bits : BitVec 512) (miss : Bool)
  | mcFlush
  | kstat (nan held : Nat) (empty badt : Bool)
  | trap (cause : Nat) (value : Word)
  | seal (q : Nat)
  | mIssue
  | inboxPop (e : Option (Nat × Word))
  | gramNone
  | xback (h r : Nat) (was now : Word)
  | store (addr : Nat) (data : List Byte)
  | spillNow (off : Nat) (v : Word)
  | haltH (h : Nat)
  | trapv (h : Nat) (v : Word)
  deriving DecidableEq, Repr

/-- A result not yet landed (R382): cycles remaining, this one included; program order; bundle and slot of its
operation; FPSTAT flags set when it lands; its effects. -/
structure Pend where
  rem : Nat
  who : Ctx
  ord : Nat
  bundle : Nat
  slot : Nat
  fl : Flags
  effs : List Eff
  deriving DecidableEq, Repr

/-- A grid write group (R49): the operations' writes (grid code, vector, lanes), and for each of the eight banks the
words still to write, and the flags and QSTAT events that its results set when it lands (R200, R340). -/
structure Group where
  who : Ctx
  writes : List (Nat × Vec × Word)
  left : List Nat
  fl : Flags
  notes : List QNote
  deriving DecidableEq, Repr

/-- One part of a scratchpad access, within one bank (R61). -/
structure Part where
  key : Nat
  addr : Nat
  len : Nat
  deriving DecidableEq, Repr

/-- A scratchpad access: field order (R62), whether it takes turns without the port (R317), port cycles still to make
(each with its parts), whether a hold of R113 is in progress, bytes read so far by part; `all` holds every bank. -/
structure Acc where
  fld : Nat
  ghost : Bool
  all : Bool
  steps : List (List Part)
  held : Bool
  got : List (Nat × List Byte)
  deriving DecidableEq, Repr

/-- An operation whose reads still wait for a port, or whose later accesses are still to come (R62, R302). -/
structure Flight where
  ins : Instr
  foc : Focus
  ord : Nat
  seek : Nat
  delay : Nat
  accs : List Acc
  vx : Vec
  vy : Vec
  vd : Vec
  vals : List Word
  pred : Word
  lat : Nat
  stage : Nat
  data : List Byte
  dst : VDst
  qs : List QReg
  mreg : Option MaskReg
  fin : List Eff
  gr : Gram
  deriving DecidableEq, Repr

/-- A cluster-window access waiting at its target's banks (R62 rank 1, R64): arrival order, source core and context,
address, length, data (none: a read), the reader's flight, cycles waited. -/
structure R1 where
  seq : Nat
  src : Nat
  who : Ctx
  addr : Nat
  len : Nat
  data : Option (List Byte)
  fid : Nat
  waited : Nat
  deriving DecidableEq, Repr

/-- A repetition in progress (R254): first body bundle, n, count, rot, step j, b, next ordinary bundle o. -/
structure Rep where
  body : Nat
  n : Nat
  count : Nat
  rot : Nat
  j : Nat
  b : Nat
  o : Nat
  deriving DecidableEq, Repr

/-- The state that belongs to the primary alone and that the shadow holds (R382). -/
structure Prim where
  s : Sparse Word
  a : Sparse Lane
  lc : Sparse Lane
  p : Sparse Word
  grid : Sparse Lane
  pend : List Pend
  groups : List Group
  flights : List Flight
  rep : Option Rep
  xfer : Option Nat
  pc : Nat
  fpstat : Flags
  iss : Nat
  q : Sparse QReg
  qstat : Word
  tacc : Sparse Lane
  gram : Gram
  mask : MaskReg
  sealed : List Nat
  mIssued : Nat
  marks : List Nat
  kBusy : Nat
  vtBusy : Nat
  v1Busy : Nat
  sig : Lane
  /-- the next bundle issues as a delay slot (R251) -/
  slotDue : Bool
  deriving DecidableEq, Repr

/-- Helper states (R222). -/
inductive HState
  | free
  | live
  | faulted
  | trapped
  | halted
  | abandoned
  | released
  deriving DecidableEq, Repr

/-- A helper context (R220, R222, R223). -/
structure Helper where
  st : HState
  cause : Nat
  pc : Nat
  pos : Nat
  x : Sparse Word
  fpstat : Flags
  trapv : Word
  adv : Nat
  iss : Nat
  dport : Nat
  dtok : Nat
  wake : Nat
  gram : Gram
  mask : MaskReg
  kBusy : Nat
  next : Option Nat
  /-- requests outstanding (R175, R224) and the registers they will write -/
  reqs : List Nat
  gdst : List Nat
  /-- destination of an outstanding acquiring load or atomic (R116, R123) -/
  acq : Option Nat
  /-- requests among reqs that hold the helper's next operation: a GST whose translation is under way, the writes of a CINV
  or CCLEAN (R122, R125) -/
  ords : List Nat
  /-- cluster-window stores not yet written at their targets (R116, R224) -/
  xst : Nat
  deriving DecidableEq, Repr

/-- A copy-engine command accepted into a queue (R139 to R163): the command, its failing check, cursor (R161), the block
read at its start, whether it has started, the batch it stands in, cycles before its first burst may begin, the row and
index of the list last read (R153), its place in the order of acceptance (R145, R155). -/
structure CopyCmd where
  c : Cmd
  cause : Option Nat
  cursor : Nat
  blk : List Word
  started : Bool
  batch : Nat
  delay : Nat
  kept : Option (Nat × Nat)
  ord : Nat
  deriving DecidableEq, Repr

/-- A part of a burst within one unit and one row (R150, R152, R153): where its source starts (none: zeros), how many
source bytes, which of them make the destination bytes ([]: all in order), where it goes (none: skipped), how many bytes. -/
structure Seg where
  src : Option Nat
  slen : Nat
  pick : List Nat
  dst : Option Nat
  n : Nat
  deriving DecidableEq, Repr

/-- A burst in progress (R150, R161): its destination bytes, those of its first chunk, bytes read and bytes written so far,
data read and not yet written, the outstanding request of a global side, its parts, the physical ranges of a global
destination (address, coherence mode, length) and the tick at which that translation is at hand (R30, R38); of the chunk
being read what its banks have given, of the chunk being read and the one being written the banks that have served it
(R61). -/
structure Burst where
  n : Nat
  cut : Nat
  rd : Nat
  wr : Nat
  data : List Byte
  req : Option Nat
  segs : List Seg
  dparts : List (Nat × Nat × Nat)
  dAt : Nat
  rgot : List (Nat × List Byte)
  rb : List Nat
  wb : List Nat
  deriving DecidableEq, Repr

/-- A copy queue: commands in order (the head runs), the command completed in the cycle before, timeline and the value
it takes at the end of this cycle, stop by an error (R145), stop by a translation fault (R38), running burst, batches
accepted and batches whose seal has been passed, opcode of the command accepted last and whether it is timed, commands
accepted, the timed command due in this cycle (time, queue, command). -/
structure CopyQ where
  cmds : List CopyCmd
  fin : Option CopyCmd
  tl : Nat
  adv : Nat
  stop : Bool
  fault : Bool
  burst : Option Burst
  acc : Nat
  passed : Nat
  lastOp : Nat
  lastTimed : Bool
  ords : Nat
  due : Option (Nat × Nat × CopyCmd)
  /-- the place in the order of acceptance of the command it stopped at (R145) -/
  stopOrd : Nat
  deriving DecidableEq, Repr

/-- A dependence-graph node: predecessor count (none: not loaded) and successors (R159). -/
structure GNode where
  pred : Option Nat
  succ : List Nat
  deriving DecidableEq, Repr

/-- The copy engine of a core (R139 to R163): queues, time-sorted buffer (time, queue, command), graph nodes, successors
whose count falls at the end of this cycle, EGRAPH and a table load under way, the queue whose turn it is, whether a
burst has read in this cycle, ENGSTAT fields, whether commands end with the burst in progress (a kill, R191). -/
structure CopyEng where
  qs : List CopyQ
  tsb : List (Nat × Nat × CopyCmd)
  nodes : List GNode
  dec : List Nat
  egraph : Word
  /-- address of a table to load, pieces still to read (each half h in a bank b, as 2b + h), whether this is the second
  cycle (R159) -/
  egLoad : Option (Nat × List Nat × Bool)
  turn : Nat
  rd : Bool
  cause : Nat
  eq : Nat
  oor : Nat
  cut : Bool
  deriving DecidableEq, Repr

/-- A command on the matrix timeline (R284 to R297): acceptance number, command, failing check, progress. -/
structure MCmd where
  no : Nat
  c : Cmd
  cause : Option Nat
  started : Bool
  done : Bool
  cursor : Nat
  deriving DecidableEq, Repr

/-- An MMUL under way (R67, R290, R292): its command, array cycles passed, vectors read (by number), the first address and
ring of its A stream as read at the start, the code table standing at its start, the slices as its K-steps read them; of the
vector being read what its banks have given and which have (R61). -/
structure MRun where
  no : Nat
  c : Cmd
  i : Nat
  vecs : List (Nat × List Byte)
  base : Nat
  off : Nat
  size : Nat
  cbA : List Nat
  cbB : List Nat
  bs : Sparse Byte
  rgot : List (Nat × List Byte)
  rb : List Nat
  deriving DecidableEq, Repr

/-- Another unit at work: its command's number, the command, cycles or steps so far, a chunk read and not yet written,
an outstanding request; of the access being made what its banks have given and which have served it (R61). -/
structure MUnit where
  no : Nat
  c : Cmd
  step : Nat
  data : Option (Nat × List Byte)
  req : Option Nat
  rgot : List (Nat × List Byte)
  rb : List Nat
  deriving DecidableEq, Repr

/-- The matrix engine of a base core (R284 to R299). -/
structure Mat where
  cmds : List MCmd
  accN : Nat
  tl : Nat
  advance : Nat
  stopped : Bool
  stopNo : Nat
  fault : Bool
  cause : Nat
  cmdNo : Nat
  code : Bool
  aretry : Nat
  /-- MMULs streaming or landing, oldest first -/
  runs : List MRun
  /-- cycles the array is still busy with an MCODE -/
  mcode : Option MUnit
  fill : Option MUnit
  drain : Option MUnit
  swap : Option MUnit
  tokWait : Bool
  /-- cycles of the start stagger of R287 still to pass -/
  stagger : Nat
  swapAcc : Nat
  /-- SWAPs accepted before this cycle, as the partner sees them (R285) -/
  swapSeen : Nat
  swapDone : Nat
  swapLive : Bool
  swapIn : List (Nat × List Byte)
  swapGot : Nat
  /-- an exchange whose own range is being sent; the SWAP's completion does not wait for it (R296) -/
  swapTx : Option MUnit
  acc : Sparse Lane
  cbA : List Nat
  cbB : List Nat
  hist : Sparse Lane
  tid : Nat
  fpm : Flags
  /-- flags set and bins counted in this cycle: they count after the clears of the same cycle (R200, R298) -/
  fpNew : Flags
  histNew : List Nat
  partner : Nat
  grow : Nat
  gcol : Nat
  deriving DecidableEq, Repr

/-- A helper-cache line: physical line number, bytes, dirty mask, use order (R68, R173), the number of the home read that
brought its bytes (R182). -/
structure CLine where
  line : Nat
  data : List Byte
  dirty : BitVec 64
  lru : Nat
  perf : Nat
  deriving DecidableEq, Repr

/-- A store that a store-buffer entry holds: its helper, the number that stood when it was issued and the one that stood when
it came into the buffer, whether its page bypasses the cache, its bytes of the line (R69, R175). -/
structure SbP where
  h : Nat
  no : Nat
  came : Nat
  coh10 : Bool
  mask : BitVec 64
  data : List Byte
  deriving DecidableEq, Repr

/-- A store-buffer entry: physical line, the stores merged in it, oldest first (R69). -/
structure SbE where
  line : Nat
  parts : List SbP
  deriving DecidableEq, Repr

/-- A cached translation (R31): context, virtual page base and size, frame, COH, RD, WR, DF. -/
structure TlbE where
  ctx : Nat
  va : Nat
  size : Nat
  frame : Nat
  coh : Nat
  rd : Bool
  wr : Bool
  df : Bool
  deriving DecidableEq, Repr

/-- A probe of a tap point (R343): bias, threshold, direction, action, vector of BF16 patterns. -/
structure Probe where
  bias : Nat
  thresh : Nat
  dir : Bool
  action : Nat
  vec : Sparse Nat
  deriving DecidableEq, Repr

/-- A declared tap point as the legend cache holds it (R343, R344). -/
structure TapPt where
  tp : Nat
  sten : Bool
  probes : List Probe
  deriving DecidableEq, Repr

/-- A steering slot of the legend cache (R343). -/
structure Steer where
  slot : Nat
  gain : Nat
  vec : Sparse Nat
  deriving DecidableEq, Repr

/-- The legend cache of a core's cluster (R344). -/
structure Legend where
  dmodel : Nat
  pts : List TapPt
  steers : List Steer
  deriving DecidableEq, Repr

/-- What the primary of a core is doing (R212, R226, R386, R393). -/
inductive RunState
  | idle
  | run
  | wait
  | restore (left : Nat) (soft : Bool) (cause : Nat)
  | halted
  | stopped
  | ended
  deriving DecidableEq, Repr

/-- The bookkeeping of the cycle under way: ports used by transfers, ports that ranks 1 and 2 have taken turns on,
messages injected, slots advertised and used, whether the bundle trapped, whether a CKPT or HALT issued, port writes,
words read per grid bank, power tokens in use. -/
structure Cyc where
  used : List Nat
  turns : List Nat
  inj : Nat
  adv : List Nat
  provisional : Bool
  trapped : Bool
  ckpt : Bool
  halt : Option Nat
  issued : Bool
  portWr : List (Nat × List Byte)
  words : List Nat
  tokens : Nat
  evals : Nat
  /-- target of a transfer taken by this cycle's bundle (R251) -/
  taken : Option Nat
  /-- repetition begun by this cycle's bundle (R254) -/
  repNew : Option Rep
  /-- control registers as they stood at the start of the cycle, where a phase of the cycle changes them (R246) -/
  view : List (Nat × Word)
  /-- messages the core injects this cycle, in order (R218) -/
  out : List (Ctx × Wh)
  /-- cluster-window accesses served this cycle, answered at its end (R64) -/
  served : List (R1 × List Byte)
  /-- ports taken before the bundle's own accesses: turns and transfers (R386: a bundle that traps takes none) -/
  base : List Nat × List Nat
  /-- slots whose picks are withdrawn (R99, R215) -/
  hidden : List Nat
  /-- a HOLD in M keeps every port from the helpers (R80) -/
  hold : Bool
  /-- triggers of a halt wave in this cycle: why, unit, bundle, detail (R417) -/
  trig : List (Nat × Nat × Nat × Nat)
  /-- held mailbox arrivals that enter the inbox at the end of this cycle (R234) -/
  entering : Nat
  /-- sealed and issued counts at the start of the cycle (R164); none: as they stand -/
  seals : List Nat
  /-- the bundle of this cycle holds a transfer (R251) -/
  xferred : Bool
  /-- a cycle of a frozen core: nothing is counted (R429) -/
  still : Bool
  /-- whose wait has been judged met at the start of the cycle: helpers by number, 10 the primary (R132, R216) -/
  met : List Nat
  deriving DecidableEq, Repr

def cyc0 : Cyc :=
  ⟨[], [], 0, [], false, false, false, none, false, [], List.replicate 8 0, 0, 0, none, none, [], [], [], ([], []), [],
   false, [], 0, [], false, false, []⟩

/-- One core bound to a launch. -/
structure Core where
  num : Nat
  upper : Bool
  launch : Nat
  lctx : Nat
  index : Nat
  taskid : Word
  entry : Nat
  inboxEntry : Option Nat
  schk : Bool
  cov : Nat
  /-- scratchpad banks 0 to 2 and B-store (bit 3) fenced as another key's retained elements (R357) -/
  fences : Nat
  /-- cycles since release, for the matrix start stagger (R287) -/
  age : Nat
  run : RunState
  frozen : Bool
  preempt : Bool
  p : Prim
  shadow : Prim
  region : Nat
  retry : Bool
  softcnt : Nat
  /-- cause of the region's first soft failure (R389) -/
  softFirst : Nat
  /-- bytes of dirty helper-cache lines written back since a pre-emption was asked for (R397) -/
  wbBytes : Nat
  trapRec0 : Word
  trapRec1 : Word
  trapRec2 : Word
  since : Nat
  withheld : List WhE
  newWith : List WhE
  cyc : Cyc
  f : Sparse (BitVec 16)
  fTaken : Sparse Nat
  hTaken : List (Nat × Bool × Nat)
  cecnt : Nat
  fidx : Nat
  fovf : Bool
  retmask : Nat
  mb : Sparse (Word × Bool)
  inbox : List (Nat × Word)
  recvHeld : List (Nat × Word)
  wakes : Nat
  tagV : Bool
  tagMb : Nat
  handles : Sparse (BitVec 128)
  lists : Sparse CandList
  listSave : List (Nat × CandList)
  /-- the lists as they stood at the checkpoint (R322) -/
  listCk : Sparse CandList
  sp : Sparse Byte
  spDirty : List Nat
  bstore : Sparse Byte
  bsDirty : List Nat
  spill : Sparse Word
  /-- lift entries on an upper core: base core k, cycles until poppable, vector; oldest first (R129) -/
  lift : List (Nat × Nat × Vec)
  gate : Nat
  liftFree : Nat
  liftRet : List Nat
  liftSrc : Nat
  ktrap : Bool
  kstatV : Word
  kparam : List Word
  mcache : List ((Nat × Nat × Nat × Nat) × (Nat × BitVec 512))
  seqmask : List Word
  tapring : Word
  taphead : Nat
  legend : Legend
  helpers : List Helper
  lastI : Nat
  lastM : Nat
  lastK : Nat
  lastY : Nat
  fnen : Bool
  fnmbx : Nat
  hpend : List Pend
  hgroups : List Group
  hflights : List Flight
  r1 : List R1
  hc : List CLine
  sb : List SbE
  utlbH : List TlbE
  utlbE : List TlbE
  eng : CopyEng
  mat : Mat
  cntcfg : List Word
  cnt : List Nat
  shcnt : List Nat
  phaseWb : Bool
  /-- global writes of the core not yet performed at their homes (R136) -/
  gwOut : Nat
  /-- posted writes to host memory: 0 none, 1 some since the last read on the host port, 2 such a read is out (R184) -/
  hostDirty : Nat
  /-- line requests injected in coming cycles in circuit mode: cycle and number (R170) -/
  injs : List (Nat × Nat)
  /-- the core's token budget, copied from TOKCFG each cycle (R445) -/
  budget : Nat
  /-- fences of the five cores of the cluster, by cluster core (R357) -/
  winFence : List Nat
  /-- counter events of the cycle (R429), by event code and helper (0xF: none) -/
  evs : List (Nat × Nat)
  /-- the primary HALT's retain mask, once it has halted (R256) -/
  retain : Option Nat
  /-- the next bundle to issue matches no breakpoint: the first after a resume or step (R418) -/
  bpSkip : Bool
  /-- the core runs a pass of a replay: its MTCs to CNTCFG are ignored (R433) -/
  replay : Bool
  deriving DecidableEq, Repr

/-- Cluster-relative index of a core: 0 to 3, the upper core 4. -/
def kOf (n : Nat) : Nat := if n % 128 < 96 then n % 4 else 4

def copyQ0 : CopyQ := ⟨[], none, 0, 0, false, false, none, 0, 0, 0, false, 0, none, 0⟩

def copyEng0 : CopyEng :=
  ⟨List.replicate 4 copyQ0, [], List.replicate 64 ⟨none, []⟩, [], 0, none, 0, false, 0, 0, 0, false⟩

def cmd0 : Cmd := ⟨0, 0, 0, 0, 0, 0, 0⟩

def mat0 : Mat :=
  ⟨[], 0, 0, 0, false, 0, false, 0, 0, false, 0, [], none, none, none, none, false, 0, 0, 0, 0, false, [], 0, none, [],
   List.replicate 16 0, List.replicate 16 0, [], 0, 0, 0, [], 0, 0, 0⟩

def helper0 : Helper := ⟨.free, 0, 0, 0, [], 0, 0, 0, 0, 0, 0, 0, gram0, maskReg0, 0, none, [], [], none, [], 0⟩

/-- The primary at release (R44, R74, R382): everything zero, `entry` the first bundle. -/
def prim0 (entry : Nat) : Prim :=
  ⟨[], [], [], [], [], [], [], [], none, none, entry, 0, 0, [], 0, [], gram0, maskReg0, [0, 0, 0, 0], 0, [], 0, 0, 0,
   0xFFFFFFFF, false⟩

/-- A core as the front end leaves it at a stage's release, before the parameter block, handles and data (R44, R74). -/
def coreAtLaunch (num : Nat) (upper : Bool) (launch lctx index : Nat) (taskid : Word) (entry : Nat) : Core :=
  { num := num, upper := upper, launch := launch, lctx := lctx, index := index, taskid := taskid, entry := entry,
    inboxEntry := none, schk := false, cov := 0, fences := 0, age := 0, run := .run, frozen := false, preempt := false,
    p := prim0 entry, shadow := prim0 entry, region := entry, retry := false, softcnt := 0, softFirst := 0, wbBytes := 0,
    trapRec0 := 0, trapRec1 := 0, trapRec2 := 0, since := 0, withheld := [], newWith := [], cyc := cyc0,
    f := [], fTaken := [], hTaken := [], cecnt := 0, fidx := 0, fovf := false, retmask := 0,
    mb := [], inbox := [], recvHeld := [], wakes := 0, tagV := false, tagMb := 0, handles := [],
    lists := [], listSave := [], listCk := [], sp := [], spDirty := [], bstore := [], bsDirty := [], spill := [],
    lift := [], gate := 0, liftFree := if upper then 0 else 16, liftRet := [], liftSrc := 0,
    ktrap := false, kstatV := 0, kparam := List.replicate 4 0x3F8000003F800000, mcache := [],
    seqmask := [0, 0, 0, 0], tapring := 0, taphead := 0, legend := ⟨0, [], []⟩,
    helpers := List.replicate 10 helper0, lastI := 9, lastM := 9, lastK := 9, lastY := 9,
    fnen := false, fnmbx := 0, hpend := [], hgroups := [], hflights := [], r1 := [],
    hc := [], sb := [], utlbH := [], utlbE := [], eng := copyEng0, mat := mat0,
    cntcfg := List.replicate 4 0xF00, cnt := [0, 0, 0, 0], shcnt := [0, 0, 0, 0], phaseWb := false, gwOut := 0,
    hostDirty := 0, injs := [],
    budget := 40, winFence := [0, 0, 0, 0, 0], evs := [], retain := none, bpSkip := false,
    replay := false }

end Sys2Proof.Machine
end

