-- ==== Sys2Proof/Machine/SortOps.lean ====
section
/-! DEFINITION. The sort and sample unit's computations (12 R303 to R318): rank, list operations, the mask test, sampling,
the checks and the step of a grammar automaton. Pure functions. -/

namespace Sys2Proof.Machine

/-- A score as it is admitted: a NaN becomes −∞ (R303). -/
def admitScore (s : Lane) : Lane := if xIsNan (v32 s.toNat) then 0xFF800000 else s

/-- NaN scores among entries. -/
def nanCount (l : List (Lane × Lane)) : Nat := (l.filter (fun e => xIsNan (v32 e.1.toNat))).length

/-- Entry `a` ranks strictly ahead of `b` (R303); equal score and index keep the input order. -/
def ranksAhead (a b : Lane × Lane) : Bool :=
  let sa := v32 (admitScore a.1).toNat
  let sb := v32 (admitScore b.1).toNat
  xLt sb sa || (xEq sa sb && decide (a.2.toNat < b.2.toNat))

/-- Insertion before the first entry that it ranks ahead of or ties with, from the right end of the input. -/
def rankInsert (e : Lane × Lane) : List (Lane × Lane) → List (Lane × Lane)
  | [] => [e]
  | x :: l => if ranksAhead x e then x :: rankInsert e l else e :: x :: l

/-- The stable sort of R303. -/
def rankSort : List (Lane × Lane) → List (Lane × Lane)
  | [] => []
  | e :: l => rankInsert e (rankSort l)

/-- Merge of two ranked lists, the first list's entries ahead on ties. -/
def rankMerge : Nat → List (Lane × Lane) → List (Lane × Lane) → List (Lane × Lane)
  | 0, _, _ => []
  | _ + 1, [], ys => ys
  | _ + 1, xs, [] => xs
  | n + 1, x :: xs, y :: ys => if ranksAhead y x then y :: rankMerge n (x :: xs) ys else x :: rankMerge n xs (y :: ys)

/-- A list of 64 positions from its first entries (R306). -/
def listOf (l : List (Lane × Lane)) : CandList :=
  let k := l.take 64
  ⟨k.length, k.map (fun e => (admitScore e.1, e.2)) ++ List.replicate (64 - k.length) (0, 0)⟩

/-- The entries of a list that count. -/
def CandList.live (l : CandList) : List (Lane × Lane) := l.ents.take l.count

/-- The mask test of R307. -/
def maskPass (m : MaskReg) (t : Nat) : Bool := t / 512 = m.chunk && m.bits.getLsbD (t % 512)

/-- A list operation applied to the list as it stands at its landing; with the NaN scores it admits (R304). -/
def applyList (op : ListOp) (l : CandList) : CandList × Nat :=
  match op with
  | .clear => (candList0, 0)
  | .merge cand =>
    let r := (rankSort (l.live ++ cand)).take 64
    (listOf r, nanCount r)
  | .sortNew cand => (listOf (rankSort cand), nanCount cand)
  | .sortSelf => (listOf (rankSort l.live), nanCount l.live)
  | .mask m =>
    let k := l.live.filter (fun e => e.2.toNat / 512 ≠ m.chunk || m.bits.getLsbD (e.2.toNat % 512))
    (⟨k.length, k ++ List.replicate (64 - k.length) (0, 0)⟩, 0)
  | .load k => (k, 0)

/-- The 520-byte image of a list; positions beyond the count are written as zero (R121). -/
def listImage (l : CandList) : List Byte :=
  leBytes 8 l.count ++ (List.range 64).flatMap (fun p =>
    let e := if p < l.count then l.ents.getD p (0, 0) else (0, 0)
    leBytes 4 e.2.toNat ++ leBytes 4 e.1.toNat)

/-- The list a 520-byte image gives; none: a count above 64 or a non-zero reserved bit (R121). -/
def listOfImage (bs : List Byte) : Option CandList :=
  let n := leNat (bs.take 8)
  if n ≤ 64 then
    some ⟨n, (List.range 64).map (fun p =>
      (BitVec.ofNat 32 (leNat ((bs.drop (8 * p + 12)).take 4)), BitVec.ofNat 32 (leNat ((bs.drop (8 * p + 8)).take 4))))⟩
  else none

/-- KTOP: score or index of each position (R309). -/
def ktopVec (l : CandList) (idx : Bool) : Vec :=
  (List.range 64).map (fun p =>
    if p < l.count then (let e := l.ents.getD p (0, 0); if idx then e.2 else e.1)
    else if idx then 0xFFFFFFFF else 0xFF800000)

/-! ### Sampling (R311 to R313) -/

/-- What a KSAMP gives: position, status, token; NaN scores read; HELD, EMPTY, BADT marks. -/
structure Samp where
  pos : Nat
  status : Nat
  token : Nat
  nan : Nat
  held : Nat
  empty : Bool
  badt : Bool
  deriving DecidableEq, Repr

/-- Running sums P of the weights (R312). -/
def cumSums : Nat → List Nat → List Nat
  | _, [] => []
  | s, w :: ws =>
    let t := (fpAdd fmt32 s w).1
    t :: cumSums t ws

/-- Index of the least element that satisfies a test, else the length. -/
def leastIdx (f : Nat → Bool) : List Nat → Nat
  | [] => 0
  | p :: ps => if f p then 0 else 1 + leastIdx f ps

/-- L2E of R272 is K1's pattern 0x3FB8AA3B. -/
def cL2E : Nat := 0x3FB8AA3B

/-- The weight of a score below the best (R312). -/
def sampWeight (k rs s : Nat) : Nat :=
  let dk := (fpSub fmt32 s rs).1
  if xEq (v32 dk) (xq 0) then 0x3F800000 else (exp232 (fpMul fmt32 dk k).1).1

/-- The record fields of a drawn entry. -/
def sampOk (status nan : Nat) (badt : Bool) (e : Nat × (Lane × Lane)) : Samp :=
  ⟨e.1, status, e.2.2.toNat, nan, 0, false, badt⟩

/-- The draw among candidates with their weights (R312, from P on). -/
def sampDraw (u topp nan : Nat) (badt : Bool) (cs : List (Nat × (Lane × Lane))) (ws : List Nat) : Samp :=
  let ps := cumSums 0 ws
  let ps' := match ws with
    | w :: _ => w :: ps.drop 1
    | [] => ps
  let n := cs.length
  let last := ps'.getLastD 0
  let m := if xIsNan (v32 topp) || xLe (xq 1) (v32 topp) then n
    else if xLe (v32 topp) (xq 0) then 1
    else
      let thr := (fpMul fmt32 topp last).1
      min n (1 + leastIdx (fun p => xLe (v32 thr) (v32 p)) ps')
  let x := (fpMul fmt32 u (ps'.getD (m - 1) 0)).1
  let k0 := leastIdx (fun p => xLt (v32 x) (v32 p)) (ps'.take m)
  let k := if k0 < m then k0
    else ((List.range m).filter (fun j => xLt (xq 0) (v32 (ws.getD j 0)))).getLastD 0
  match cs[k]? with
  | some e => sampOk 0 nan badt e
  | none => ⟨0, 2, 0xFFFFFFFF, nan, 0, true, badt⟩

/-- KSAMP (R312): `held` is the sequence's bit of the trap mask. -/
def ksamp (held : Bool) (l : CandList) (u temp topp : Nat) : Samp :=
  if held then ⟨0, 3, 0xFFFFFFFE, 0, 1, false, false⟩
  else
    let nan := nanCount l.live
    let all := List.zip (List.range 64) (l.live.map (fun e => (admitScore e.1, e.2)))
    let cs := all.filter (fun e => e.2.1 ≠ 0xFF800000)
    match cs with
    | [] => ⟨0, 2, 0xFFFFFFFF, nan, 0, true, false⟩
    | [e] => sampOk 1 nan false e
    | e :: more =>
      let best := more.foldl (fun b x => if xLt (v32 b.2.1.toNat) (v32 x.2.1.toNat) then x else b) e
      let rs := best.2.1.toNat
      let uv := if xIsNan (v32 u) || xLt (v32 u) (xq 0) then 0
        else if xLe (xq 1) (v32 u) then 0x3F7FFFFF else u
      if rs = 0x7F800000 then
        sampDraw uv topp nan false cs (cs.map (fun x => if x.2.1 = 0x7F800000 then 0x3F800000 else 0))
      else if temp = 0x7F800000 then sampOk 0 nan false best
      else
        let bad := xIsNan (v32 temp) || bit temp 31
        let t := if bad then 0 else temp
        let inv := if t = 0 then 0x7F800000 else (fpDiv 0x3F800000 t).1
        let k := (fpMul fmt32 cL2E inv).1
        sampDraw uv topp nan bad cs (cs.map (fun x => sampWeight k rs x.2.1.toNat))

/-- The result doubleword (R313). -/
def sampRec (r : Samp) : Nat :=
  (if r.status ≤ 1 then r.pos else 0) * 2 ^ 36 + r.status * 2 ^ 32 + r.token

/-! ### Grammar automata (R314 to R318) -/

/-- Doubleword `i` of an image. -/
def imgDw (bs : List Byte) (i : Nat) : Nat := leNat ((bs.drop (8 * i)).take 8)

/-- The descriptor's checks (R316): GRAM_TABLE (0x23), MISALIGN (0x11), LOCAL_RANGE (0x10); `out` says whether bytes leave the
own scratchpad or meet a fence (R16, R357). -/
def gramDescCheck (out : Nat → Nat → Bool) (bs : List Byte) : Option (Nat × Nat) :=
  let d0 := imgDw bs 0
  let ns := bits d0 63 48
  let ny := bits d0 31 24
  let nc := bits d0 23 16
  let v := 512 * (bits d0 34 32 + 1)
  let tc := imgDw bs 1
  let tr := imgDw bs 2
  let mr := imgDw bs 3
  let mk := imgDw bs 4
  if bits d0 47 35 ≠ 0 || ns = 0 || ny < 2 || nc = 0 || ns ≤ bits d0 15 0
    || bits tc 63 32 ≠ 0 || bits tr 63 32 ≠ 0 || bits mr 63 32 ≠ 0 || bits mk 63 32 ≠ 0 then some (0x23, 0)
  else if tr % 8 ≠ 0 then some (0x11, tr)
  else if mr % 2 ≠ 0 then some (0x11, mr)
  else if mk % 64 ≠ 0 then some (0x11, mk)
  else if out tc v then some (0x10, tc)
  else if out tr (8 * ns * nc) then some (0x10, tr)
  else if out mr (2 * ns * ny) then some (0x10, mr)
  else none

/-- The automaton a passing descriptor gives on .ld (R316). -/
def gramOfDesc (bs : List Byte) : Gram :=
  let d0 := imgDw bs 0
  { valid := true, nstate := bits d0 63 48, nchunk := bits d0 34 32, nsym := bits d0 31 24, nclass := bits d0 23 16,
    start := bits d0 15 0, tcls := imgDw bs 1, trans := imgDw bs 2, mrow := imgDw bs 3, mask := imgDw bs 4,
    depth := 0, state := bits d0 15 0, slots := List.replicate 8 0 }

/-- Slot `s` of an image. -/
def imgSlot (bs : List Byte) (s : Nat) : Nat := bits (imgDw bs (6 + s / 4)) (16 * (s % 4) + 15) (16 * (s % 4))

/-- GSET.ld: the automaton, or the cause and value of its trap (R316; the order of the checks is assumption 155's). -/
def gsetLd (out : Nat → Nat → Bool) (bs : List Byte) : Except (Nat × Nat) Gram :=
  match gramDescCheck out bs with
  | some e => .error e
  | none => .ok (gramOfDesc bs)

/-- GSET.rs (R316): an all-zero image makes the automaton invalid. DESIGN CHOICE (assumption 155): the order of the checks, those
of .rs alone behind the descriptor's. -/
def gsetRs (out : Nat → Nat → Bool) (bs : List Byte) : Except (Nat × Nat) Gram :=
  if leNat (bs.take 64) = 0 then .ok gram0
  else match gramDescCheck out bs with
    | some e => .error e
    | none =>
      let g := gramOfDesc bs
      let d5 := imgDw bs 5
      let depth := bits d5 19 16
      let slots := (List.range 8).map (imgSlot bs)
      if bits d5 63 20 ≠ 0 || g.nstate ≤ bits d5 15 0 || 8 < depth
        || (List.range 8).any (fun s => if s < depth then slots.getD s 0 = 0 || g.nsym ≤ slots.getD s 0
              else slots.getD s 0 ≠ 0)
      then .error (0x23, 0)
      else .ok { g with depth := depth, state := bits d5 15 0, slots := slots }

/-- The 64-byte image GSET.st writes (R316). -/
def gramImage (g : Gram) : List Byte :=
  if g.valid then
    leBytes 8 (g.nstate * 2 ^ 48 + g.nchunk * 2 ^ 32 + g.nsym * 2 ^ 24 + g.nclass * 2 ^ 16 + g.start)
    ++ leBytes 8 g.tcls ++ leBytes 8 g.trans ++ leBytes 8 g.mrow ++ leBytes 8 g.mask
    ++ leBytes 8 (g.depth * 2 ^ 16 + g.state) ++ g.slots.flatMap (leBytes 2)
  else List.replicate 64 0

/-- The top symbol, 0 of the empty stack (R314). -/
def gramTop (g : Gram) : Nat := if g.depth = 0 then 0 else g.slots.getD (g.depth - 1) 0

/-- The step a transition entry makes, or the cause of its trap (R315, R318). -/
def gramStep (g : Gram) (e : Nat) : Except Nat Gram :=
  let op := bits e 33 32
  let sym := bits e 31 16
  let nx := bits e 15 0
  if bits e 63 34 ≠ 0 || g.nstate ≤ nx then .error 0x23
  else if op = 0 then .ok { g with state := nx }
  else if op = 1 then
    if g.depth = 8 then .error 0x25
    else if sym = 0 || g.nsym ≤ sym then .error 0x23
    else .ok { g with state := nx, slots := setAt g.slots g.depth sym, depth := g.depth + 1 }
  else if op = 2 then
    if g.depth = 0 then .error 0x26
    else if g.slots.getD (g.depth - 1) 0 ≠ sym then .error 0x24
    else .ok { g with state := nx, slots := setAt g.slots (g.depth - 1) 0, depth := g.depth - 1 }
  else .error 0x24

end Sys2Proof.Machine
end

