-- ==== Sys2Proof/WellFormed.lean ====
section
/-! DEFINITION. Well-formed operations: every control code, type and register number that an encoding can hold
and R98 case 4 (with R86, R241, R246, R260, R269, R326, R346) calls undefined or illegal is excluded. What depends
on the context that issues the operation (R98 cases 5 to 7) is `legal`, in Machine/Operands.lean. -/

namespace Sys2Proof

/-- The types of VADD to VFMS: all but the FP8 formats (R260). -/
def tArith (t : BitVec 3) : Bool := t ≠ 3 && t ≠ 4

/-- The integer types .s32, .s16, .s8 (R86). -/
def tInt (t : BitVec 3) : Bool := 5 ≤ t

/-- Width of an element of a type (R86). -/
def tWidth (t : BitVec 3) : Nat :=
  match t.toNat with
  | 0 => 32
  | 1 => 16
  | 2 => 16
  | 3 => 8
  | 4 => 8
  | 5 => 32
  | 6 => 16
  | _ => 8

/-- An FP8 type. -/
def tF8 (t : BitVec 3) : Bool := t = 3 || t = 4

/-- The control-bit rule of VCVT, VPACK and VUNPK: N needs an integer side, .nsat an FP8 or integer destination
(R269). -/
def cvtOk (t f : BitVec 3) (n s : BitVec 1) : Bool :=
  (n = 0 || tInt t || tInt f) && (s = 0 || tF8 t || tInt t)

/-- The control registers MFC may name (R247, R320, R340, R351, R298, R391, R429; BQTAKE of a gateway R416). -/
def mfcOk (n : Nat) : Bool :=
  n ≤ 4 || (0x10 ≤ n && n ≤ 0x13) || (0x18 ≤ n && n ≤ 0x1E) || (0x20 ≤ n && n ≤ 0x22)
  || (0x30 ≤ n && n ≤ 0x39) || (0x40 ≤ n && n ≤ 0x49) || (0x50 ≤ n && n ≤ 0x59) || (0x60 ≤ n && n ≤ 0x69)
  || n = 0x100 || n = 0x101 || (0x110 ≤ n && n ≤ 0x113) || n = 0x200 || (0x300 ≤ n && n ≤ 0x305)
  || (0x400 ≤ n && n ≤ 0x402) || (0x420 ≤ n && n ≤ 0x43F) || (0x500 ≤ n && n ≤ 0x505)
  || n = 0x600 || n = 0x601 || (0x700 ≤ n && n ≤ 0x70B)

/-- The control registers MTC may name: those with a writable field (R246). -/
def mtcOk (n : Nat) : Bool :=
  n = 4 || (0x10 ≤ n && n ≤ 0x13) || n = 0x18 || n = 0x1A || n = 0x1B || n = 0x1C || n = 0x1E || n = 0x20
  || (0x40 ≤ n && n ≤ 0x49) || (0x50 ≤ n && n ≤ 0x59)
  || n = 0x100 || n = 0x101 || (0x110 ≤ n && n ≤ 0x113) || n = 0x200 || (0x300 ≤ n && n ≤ 0x304)
  || n = 0x400 || n = 0x402 || n = 0x501
  || n = 0x601 || (0x700 ≤ n && n ≤ 0x707)

/-- Every control code of the operation is defined. -/
def wf : Instr → Bool
  | .bfx _ _ p l => p.toNat + l.toNat + 1 ≤ 64
  | .bfi _ _ p l => p.toNat + l.toNat + 1 ≤ 64
  | .fcmp _ _ _ c => c ≠ 7
  | .fcvt _ _ _ c => c.toNat < 18
  | .mfc _ n => mfcOk n.toNat
  | .mtc _ n => mtcOk n.toNat
  | .rdt _ f => f.toNat < 3
  | .br c p _ => c ≠ 0 || p = 0
  | .start _ h _ => h.toNat ≤ 8
  | .trap _ c => 0x80 ≤ c.toNat
  | .gatom _ _ _ o f => o ≠ 3 && f.toNat < 10
  | .vadd t _ _ _ _ => tArith t
  | .vsub t _ _ _ _ => tArith t
  | .vmul t _ _ _ _ => tArith t
  | .vfma t _ _ _ _ => tArith t
  | .vfms t _ _ _ _ => tArith t
  | .vmin t _ _ _ _ => tArith t
  | .vmax t _ _ _ _ => tArith t
  | .vabs t _ _ _ => tArith t
  | .vneg t _ _ _ => tArith t
  | .vcmp t _ _ c n _ _ => tArith t && c ≠ 7 && (n = 0 || tInt t)
  | .vsel t _ _ _ _ => t = 5
  | .vcvt t _ _ _ f n _ s => tWidth t = tWidth f && cvtOk t f n s
  | .vand t _ _ _ _ => t = 5
  | .vor t _ _ _ _ => t = 5
  | .vxor t _ _ _ _ => t = 5
  | .vshl t _ _ _ _ => tInt t
  | .vshr t _ _ _ _ => tInt t
  | .vsar t _ _ _ _ => tInt t
  | .vrcp t _ _ _ => t ≤ 1
  | .vrsq t _ _ _ => t ≤ 1
  | .vexp2 t _ _ _ => t ≤ 1
  | .vlog2 t _ _ _ => t ≤ 1
  | .vtanh t _ _ _ => t ≤ 1
  | .vred t _ _ _ o n => tArith t && o ≠ 3 && (n = 0 || tInt t)
  | .vscan t _ _ _ o n => tArith t && o ≠ 3 && (n = 0 || tInt t)
  | .vperm t _ _ _ _ => tInt t
  | .vbc t _ _ _ _ => t = 5
  | .viota t _ _ => t = 0 || tInt t
  | .vmov t _ _ _ => t = 5
  | .vrand t _ _ _ _ => t = 0 || t = 5
  | .vclamp t _ _ _ _ => tArith t
  | .vpack t _ _ _ f n _ s => tWidth t < tWidth f && cvtOk t f n s
  | .vunpk t _ _ _ f n _ s => tWidth f < tWidth t && cvtOk t f n s
  | .baddq t p _ _ _ => (t = 3 || t = 4 || t = 7) && p = 0
  | .tap t _ _ _ => t ≤ 1
  | .tapfin t p _ _ => t = 0 && p = 0
  | .vsteer t _ _ _ _ => t ≤ 1
  | .qset t _ _ _ _ => t ≤ 1
  | .qadd t _ _ _ _ => t = 0
  | .qmul t _ _ _ _ => t = 0
  | .qscale t _ _ _ _ => t = 0
  | .qshift t _ _ _ _ => t = 0
  | .qmix t _ _ _ _ => t = 0
  | .qcond t _ _ _ n => t = 0 && n ≠ 0
  | .qmom t _ _ _ _ => t = 0
  | .qquant t _ _ _ _ => t = 0
  | .qsamp t _ _ _ _ => t = 0
  | .qtag t p _ _ => t ≤ 1 && p = 0
  | .ksort _ g s => s = 0 || g = 0
  | .twait t _ => t.toNat ≤ 4
  | .lwait n => 1 ≤ n.toNat && n.toNat ≤ 16
  | _ => true

end Sys2Proof
end

