-- ==== Sys2Proof/Decode.lean ====
section
/-! DEFINITION. Decoding and encoding (03 R78 to R98). A slot's word is a number, bit 0 least significant.
`decodeSlot` is total: a word that is no operation of its class is rejected by name. `encode` is written from the
same encoding tables. -/

namespace Sys2Proof

/-- Why a word is no operation (R98): an unassigned opcode value (case 1); a bit that the formats mark zero
(case 2), or a register number beyond its class, which the same bits encode (case 3); a control code that is
undefined, or a type, conversion or control register that the operation does not accept (case 4). -/
inductive Reject
  | unassigned
  | reserved
  | badCode
  deriving DecidableEq, Repr

/-- The six slot classes (R78). -/
inductive Cls
  | I
  | M
  | V
  | K
  | E
  | Y
  deriving DecidableEq, Repr

/-- The width of a slot of a class (R78). -/
def Cls.width : Cls → Nat
  | .I => 32
  | .M => 32
  | .V => 40
  | .K => 24
  | .E => 32
  | .Y => 24

/-- The class of slot 0 to 7 in the order I0, I1, M, V0, V1, K, E, Y (R79). -/
def slotCls : Nat → Cls
  | 0 => .I
  | 1 => .I
  | 2 => .M
  | 3 => .V
  | 4 => .V
  | 5 => .K
  | 6 => .E
  | _ => .Y

/-- The lowest bit of slot 0 to 7 in a bundle (R78). -/
def slotLo : Nat → Nat
  | 0 => 0
  | 1 => 32
  | 2 => 64
  | 3 => 96
  | 4 => 136
  | 5 => 176
  | 6 => 200
  | _ => 232

/-- The word in slot `k` of a bundle (R78). -/
def slotWord (bundle k : Nat) : Nat := (bundle / 2 ^ slotLo k) % 2 ^ (slotCls k).width

/-- A bundle with one slot's word and NIL elsewhere. -/
def bundleOf (k w : Nat) : Nat := (w % 2 ^ (slotCls k).width) * 2 ^ slotLo k

/-- The field of `n` bits from bit `lo` on. -/
def fld (n lo w : Nat) : BitVec n := BitVec.ofNat n (w / 2 ^ lo)

/-- An operation whose control codes are all defined, else refused (R98 case 4). -/
def chk (i : Instr) : Except Reject Instr := if wf i then .ok i else .error .badCode

/-- The I-class operation a word holds (R92). -/
def decodeI (w : Nat) : Except Reject Instr :=
  match w / 2 ^ 24 with
  | 0x00 => if w % 16777216 = 0 then chk .nilI else .error .reserved
  | 0x01 => if w % 16777216 = 0 then chk .holdI else .error .reserved
  | 0x10 => if w % 64 = 0 then chk (.add (fld 6 18 w) (fld 6 12 w) (fld 6 6 w)) else .error .reserved
  | 0x11 => if w % 64 = 0 then chk (.sub (fld 6 18 w) (fld 6 12 w) (fld 6 6 w)) else .error .reserved
  | 0x12 => chk (.addi (fld 6 18 w) (fld 6 12 w) (fld 12 0 w))
  | 0x13 => if w / 2 ^ 2 % 16 = 0 then chk (.addsh (fld 6 18 w) (fld 6 12 w) (fld 6 6 w) (fld 2 0 w)) else .error .reserved
  | 0x14 => if w % 64 = 0 then chk (.mul (fld 6 18 w) (fld 6 12 w) (fld 6 6 w)) else .error .reserved
  | 0x15 => if w % 64 = 0 then chk (.mulh (fld 6 18 w) (fld 6 12 w) (fld 6 6 w)) else .error .reserved
  | 0x16 => if w % 64 = 0 then chk (.mulhn (fld 6 18 w) (fld 6 12 w) (fld 6 6 w)) else .error .reserved
  | 0x17 => if w % 64 = 0 then chk (.div (fld 6 18 w) (fld 6 12 w) (fld 6 6 w)) else .error .reserved
  | 0x18 => if w % 64 = 0 then chk (.divn (fld 6 18 w) (fld 6 12 w) (fld 6 6 w)) else .error .reserved
  | 0x20 => if w % 64 = 0 then chk (.and (fld 6 18 w) (fld 6 12 w) (fld 6 6 w)) else .error .reserved
  | 0x21 => if w % 64 = 0 then chk (.or (fld 6 18 w) (fld 6 12 w) (fld 6 6 w)) else .error .reserved
  | 0x22 => if w % 64 = 0 then chk (.xor (fld 6 18 w) (fld 6 12 w) (fld 6 6 w)) else .error .reserved
  | 0x23 => if w % 64 = 0 then chk (.andn (fld 6 18 w) (fld 6 12 w) (fld 6 6 w)) else .error .reserved
  | 0x24 => chk (.andi (fld 6 18 w) (fld 6 12 w) (fld 12 0 w))
  | 0x25 => chk (.ori (fld 6 18 w) (fld 6 12 w) (fld 12 0 w))
  | 0x26 => chk (.xori (fld 6 18 w) (fld 6 12 w) (fld 12 0 w))
  | 0x28 => if w % 64 = 0 then chk (.shl (fld 6 18 w) (fld 6 12 w) (fld 6 6 w)) else .error .reserved
  | 0x29 => if w % 64 = 0 then chk (.shr (fld 6 18 w) (fld 6 12 w) (fld 6 6 w)) else .error .reserved
  | 0x2A => if w % 64 = 0 then chk (.sar (fld 6 18 w) (fld 6 12 w) (fld 6 6 w)) else .error .reserved
  | 0x2B => if w % 64 = 0 then chk (.rol (fld 6 18 w) (fld 6 12 w) (fld 6 6 w)) else .error .reserved
  | 0x2C => if w / 2 ^ 6 % 64 = 0 then chk (.shli (fld 6 18 w) (fld 6 12 w) (fld 6 0 w)) else .error .reserved
  | 0x2D => if w / 2 ^ 6 % 64 = 0 then chk (.shri (fld 6 18 w) (fld 6 12 w) (fld 6 0 w)) else .error .reserved
  | 0x2E => if w / 2 ^ 6 % 64 = 0 then chk (.sari (fld 6 18 w) (fld 6 12 w) (fld 6 0 w)) else .error .reserved
  | 0x30 => if w / 2 ^ 1 % 32 = 0 then chk (.cmp (fld 6 18 w) (fld 6 12 w) (fld 6 6 w) (fld 1 0 w)) else .error .reserved
  | 0x31 => chk (.cmpi (fld 6 18 w) (fld 6 12 w) (fld 12 0 w))
  | 0x32 => if w % 64 = 0 then chk (.min (fld 6 18 w) (fld 6 12 w) (fld 6 6 w)) else .error .reserved
  | 0x33 => if w % 64 = 0 then chk (.max (fld 6 18 w) (fld 6 12 w) (fld 6 6 w)) else .error .reserved
  | 0x34 => if w % 64 = 0 then chk (.minn (fld 6 18 w) (fld 6 12 w) (fld 6 6 w)) else .error .reserved
  | 0x35 => if w % 64 = 0 then chk (.maxn (fld 6 18 w) (fld 6 12 w) (fld 6 6 w)) else .error .reserved
  | 0x36 => chk (.sel (fld 6 18 w) (fld 6 12 w) (fld 6 6 w) (fld 6 0 w))
  | 0x38 => chk (.movi (fld 6 18 w) (fld 18 0 w))
  | 0x39 => chk (.lui (fld 6 18 w) (fld 18 0 w))
  | 0x3A => if w % 4096 = 0 then chk (.clz (fld 6 18 w) (fld 6 12 w)) else .error .reserved
  | 0x3B => if w % 4096 = 0 then chk (.ctz (fld 6 18 w) (fld 6 12 w)) else .error .reserved
  | 0x3C => if w % 4096 = 0 then chk (.popc (fld 6 18 w) (fld 6 12 w)) else .error .reserved
  | 0x3D => chk (.bfx (fld 6 18 w) (fld 6 12 w) (fld 6 6 w) (fld 6 0 w))
  | 0x3E => chk (.bfi (fld 6 18 w) (fld 6 12 w) (fld 6 6 w) (fld 6 0 w))
  | 0x40 => if w / 2 ^ 16 % 4 = 0 ∧ w / 2 ^ 22 % 4 = 0 then chk (.adda (fld 4 18 w) (fld 4 12 w) (fld 12 0 w)) else .error .reserved
  | 0x41 => if w % 4096 = 0 ∧ w / 2 ^ 22 % 4 = 0 then chk (.mva (fld 4 18 w) (fld 6 12 w)) else .error .reserved
  | 0x42 => if w % 4096 = 0 ∧ w / 2 ^ 16 % 4 = 0 then chk (.mvs (fld 6 18 w) (fld 4 12 w)) else .error .reserved
  | 0x44 => if w / 2 ^ 12 % 64 = 0 then chk (.spld (fld 6 18 w) (fld 12 0 w)) else .error .reserved
  | 0x45 => if w / 2 ^ 12 % 64 = 0 then chk (.spst (fld 6 18 w) (fld 12 0 w)) else .error .reserved
  | 0x48 => if w % 64 = 0 then chk (.fadd (fld 6 18 w) (fld 6 12 w) (fld 6 6 w)) else .error .reserved
  | 0x49 => if w % 64 = 0 then chk (.fsub (fld 6 18 w) (fld 6 12 w) (fld 6 6 w)) else .error .reserved
  | 0x4A => if w % 64 = 0 then chk (.fmul (fld 6 18 w) (fld 6 12 w) (fld 6 6 w)) else .error .reserved
  | 0x4B => chk (.fma (fld 6 18 w) (fld 6 12 w) (fld 6 6 w) (fld 6 0 w))
  | 0x4C => if w % 64 = 0 then chk (.fmin (fld 6 18 w) (fld 6 12 w) (fld 6 6 w)) else .error .reserved
  | 0x4D => if w % 64 = 0 then chk (.fmax (fld 6 18 w) (fld 6 12 w) (fld 6 6 w)) else .error .reserved
  | 0x4E => if w / 2 ^ 3 % 8 = 0 then chk (.fcmp (fld 6 18 w) (fld 6 12 w) (fld 6 6 w) (fld 3 0 w)) else .error .reserved
  | 0x4F => if w / 2 ^ 6 % 64 = 0 then chk (.fcvt (fld 6 18 w) (fld 6 12 w) (fld 1 5 w) (fld 5 0 w)) else .error .reserved
  | 0x50 => if w / 2 ^ 12 % 64 = 0 then chk (.mfc (fld 6 18 w) (fld 12 0 w)) else .error .reserved
  | 0x51 => if w / 2 ^ 12 % 64 = 0 then chk (.mtc (fld 6 18 w) (fld 12 0 w)) else .error .reserved
  | 0x52 => if w / 2 ^ 6 % 4096 = 0 then chk (.rdt (fld 6 18 w) (fld 6 0 w)) else .error .reserved
  | 0x53 => if w / 2 ^ 5 % 8192 = 0 then chk (.takem (fld 6 18 w) (fld 5 0 w)) else .error .reserved
  | 0x58 => if w / 2 ^ 18 % 4 = 0 then chk (.br (fld 2 22 w) (fld 2 20 w) (fld 18 0 w)) else .error .reserved
  | 0x59 => chk (.brz (fld 6 18 w) (fld 18 0 w))
  | 0x5A => chk (.brnz (fld 6 18 w) (fld 18 0 w))
  | 0x5B => if w % 4096 = 0 ∧ w / 2 ^ 18 % 64 = 0 then chk (.jmp (fld 6 12 w)) else .error .reserved
  | 0x5C => if w / 2 ^ 18 % 64 = 0 then chk (.call (fld 18 0 w)) else .error .reserved
  | 0x5D => if w / 2 ^ 20 % 16 = 0 then chk (.loop (fld 2 18 w) (fld 18 0 w)) else .error .reserved
  | 0x5E => chk (.rep (fld 6 18 w) (fld 4 14 w) (fld 14 0 w))
  | 0x5F => if w / 2 ^ 4 % 1048576 = 0 then chk (.halt (fld 4 0 w)) else .error .reserved
  | 0x60 => chk (.start (fld 6 18 w) (fld 4 14 w) (fld 14 0 w))
  | 0x61 => if w / 2 ^ 8 % 1024 = 0 then chk (.trap (fld 6 18 w) (fld 8 0 w)) else .error .reserved
  | _ => .error .unassigned

/-- The M-class operation a word holds (R93). -/
def decodeM (w : Nat) : Except Reject Instr :=
  match w / 2 ^ 24 with
  | 0x00 => if w % 16777216 = 0 then chk .nilM else .error .reserved
  | 0x01 => if w % 16777216 = 0 then chk .holdM else .error .reserved
  | 0x10 => chk (.ld (fld 6 18 w) (fld 6 12 w) (fld 2 10 w) (fld 10 0 w))
  | 0x11 => chk (.st (fld 6 18 w) (fld 6 12 w) (fld 2 10 w) (fld 10 0 w))
  | 0x12 => if w / 2 ^ 10 % 4 = 3 then chk (.ldacq (fld 6 18 w) (fld 6 12 w) (fld 10 0 w)) else .error .reserved
  | 0x13 => if w / 2 ^ 10 % 4 = 3 then chk (.strel (fld 6 18 w) (fld 6 12 w) (fld 10 0 w)) else .error .reserved
  | 0x14 => chk (.xld (fld 6 18 w) (fld 6 12 w) (fld 2 10 w) (fld 10 0 w))
  | 0x15 => chk (.xst (fld 6 18 w) (fld 6 12 w) (fld 2 10 w) (fld 10 0 w))
  | 0x18 => if w / 2 ^ 23 % 2 = 0 then chk (.vld (fld 8 15 w) (fld 4 11 w) (fld 3 8 w) (fld 8 0 w)) else .error .reserved
  | 0x19 => if w / 2 ^ 23 % 2 = 0 then chk (.vst (fld 8 15 w) (fld 4 11 w) (fld 3 8 w) (fld 8 0 w)) else .error .reserved
  | 0x1A => if w / 2 ^ 8 % 8 = 0 ∧ w / 2 ^ 23 % 2 = 0 then chk (.vldx (fld 8 15 w) (fld 4 11 w) (fld 8 0 w)) else .error .reserved
  | 0x1B => if w / 2 ^ 8 % 8 = 0 ∧ w / 2 ^ 23 % 2 = 0 then chk (.vstx (fld 8 15 w) (fld 4 11 w) (fld 8 0 w)) else .error .reserved
  | 0x20 => chk (.gld (fld 6 18 w) (fld 6 12 w) (fld 2 10 w) (fld 10 0 w))
  | 0x21 => chk (.gst (fld 6 18 w) (fld 6 12 w) (fld 2 10 w) (fld 10 0 w))
  | 0x22 => chk (.gatom (fld 6 18 w) (fld 6 12 w) (fld 6 6 w) (fld 2 4 w) (fld 4 0 w))
  | 0x23 => if w / 2 ^ 10 % 4 = 3 ∧ w / 2 ^ 18 % 64 = 0 then chk (.cinv (fld 6 12 w) (fld 10 0 w)) else .error .reserved
  | 0x24 => if w / 2 ^ 10 % 4 = 3 ∧ w / 2 ^ 18 % 64 = 0 then chk (.cclean (fld 6 12 w) (fld 10 0 w)) else .error .reserved
  | 0x28 => if w % 2048 = 0 ∧ w / 2 ^ 22 % 4 = 0 then chk (.qld (fld 4 18 w) (fld 4 14 w) (fld 3 11 w)) else .error .reserved
  | 0x29 => if w % 2048 = 0 ∧ w / 2 ^ 22 % 4 = 0 then chk (.qst (fld 4 18 w) (fld 4 14 w) (fld 3 11 w)) else .error .reserved
  | 0x2A => if w % 2048 = 0 ∧ w / 2 ^ 21 % 8 = 0 then chk (.kld (fld 3 18 w) (fld 4 14 w) (fld 3 11 w)) else .error .reserved
  | 0x2B => if w % 2048 = 0 ∧ w / 2 ^ 21 % 8 = 0 then chk (.kst (fld 3 18 w) (fld 4 14 w) (fld 3 11 w)) else .error .reserved
  | 0x30 => if w % 32768 = 0 ∧ w / 2 ^ 23 % 2 = 0 then chk (.lift (fld 8 15 w)) else .error .reserved
  | 0x31 => if w % 32768 = 0 ∧ w / 2 ^ 23 % 2 = 0 then chk (.lpop (fld 8 15 w)) else .error .reserved
  | 0x32 => if w % 2048 = 0 ∧ w / 2 ^ 23 % 2 = 0 then chk (.hpush (fld 8 15 w) (fld 4 11 w)) else .error .reserved
  | 0x33 => if w % 2048 = 0 ∧ w / 2 ^ 23 % 2 = 0 then chk (.hpop (fld 8 15 w) (fld 4 11 w)) else .error .reserved
  | _ => .error .unassigned

/-- The V-class operation a word holds (R94). -/
def decodeV (w : Nat) : Except Reject Instr :=
  match w / 2 ^ 32 with
  | 0x00 => if w % 4294967296 = 0 then chk .nilV else .error .reserved
  | 0x01 => if w % 4294967296 = 0 then chk .holdV else .error .reserved
  | 0x10 => chk (.vadd (fld 3 29 w) (fld 2 27 w) (fld 9 18 w) (fld 9 9 w) (fld 9 0 w))
  | 0x11 => chk (.vsub (fld 3 29 w) (fld 2 27 w) (fld 9 18 w) (fld 9 9 w) (fld 9 0 w))
  | 0x12 => chk (.vmul (fld 3 29 w) (fld 2 27 w) (fld 9 18 w) (fld 9 9 w) (fld 9 0 w))
  | 0x13 => chk (.vfma (fld 3 29 w) (fld 2 27 w) (fld 9 18 w) (fld 9 9 w) (fld 9 0 w))
  | 0x14 => chk (.vfms (fld 3 29 w) (fld 2 27 w) (fld 9 18 w) (fld 9 9 w) (fld 9 0 w))
  | 0x15 => chk (.vmin (fld 3 29 w) (fld 2 27 w) (fld 9 18 w) (fld 9 9 w) (fld 9 0 w))
  | 0x16 => chk (.vmax (fld 3 29 w) (fld 2 27 w) (fld 9 18 w) (fld 9 9 w) (fld 9 0 w))
  | 0x17 => if w % 512 = 0 then chk (.vabs (fld 3 29 w) (fld 2 27 w) (fld 9 18 w) (fld 9 9 w)) else .error .reserved
  | 0x18 => if w % 512 = 0 then chk (.vneg (fld 3 29 w) (fld 2 27 w) (fld 9 18 w) (fld 9 9 w)) else .error .reserved
  | 0x20 => if w / 2 ^ 18 % 8 = 0 then chk (.vcmp (fld 3 29 w) (fld 2 27 w) (fld 2 25 w) (fld 3 22 w) (fld 1 21 w) (fld 9 9 w) (fld 9 0 w)) else .error .reserved
  | 0x21 => chk (.vsel (fld 3 29 w) (fld 2 27 w) (fld 9 18 w) (fld 9 9 w) (fld 9 0 w))
  | 0x22 => if w % 8 = 0 then chk (.vcvt (fld 3 29 w) (fld 2 27 w) (fld 9 18 w) (fld 9 9 w) (fld 3 6 w) (fld 1 5 w) (fld 1 4 w) (fld 1 3 w)) else .error .reserved
  | 0x28 => chk (.vand (fld 3 29 w) (fld 2 27 w) (fld 9 18 w) (fld 9 9 w) (fld 9 0 w))
  | 0x29 => chk (.vor (fld 3 29 w) (fld 2 27 w) (fld 9 18 w) (fld 9 9 w) (fld 9 0 w))
  | 0x2A => chk (.vxor (fld 3 29 w) (fld 2 27 w) (fld 9 18 w) (fld 9 9 w) (fld 9 0 w))
  | 0x2B => chk (.vshl (fld 3 29 w) (fld 2 27 w) (fld 9 18 w) (fld 9 9 w) (fld 9 0 w))
  | 0x2C => chk (.vshr (fld 3 29 w) (fld 2 27 w) (fld 9 18 w) (fld 9 9 w) (fld 9 0 w))
  | 0x2D => chk (.vsar (fld 3 29 w) (fld 2 27 w) (fld 9 18 w) (fld 9 9 w) (fld 9 0 w))
  | 0x30 => if w % 512 = 0 then chk (.vrcp (fld 3 29 w) (fld 2 27 w) (fld 9 18 w) (fld 9 9 w)) else .error .reserved
  | 0x31 => if w % 512 = 0 then chk (.vrsq (fld 3 29 w) (fld 2 27 w) (fld 9 18 w) (fld 9 9 w)) else .error .reserved
  | 0x32 => if w % 512 = 0 then chk (.vexp2 (fld 3 29 w) (fld 2 27 w) (fld 9 18 w) (fld 9 9 w)) else .error .reserved
  | 0x33 => if w % 512 = 0 then chk (.vlog2 (fld 3 29 w) (fld 2 27 w) (fld 9 18 w) (fld 9 9 w)) else .error .reserved
  | 0x34 => if w % 512 = 0 then chk (.vtanh (fld 3 29 w) (fld 2 27 w) (fld 9 18 w) (fld 9 9 w)) else .error .reserved
  | 0x38 => if w % 64 = 0 then chk (.vred (fld 3 29 w) (fld 2 27 w) (fld 9 18 w) (fld 9 9 w) (fld 2 7 w) (fld 1 6 w)) else .error .reserved
  | 0x39 => if w % 64 = 0 then chk (.vscan (fld 3 29 w) (fld 2 27 w) (fld 9 18 w) (fld 9 9 w) (fld 2 7 w) (fld 1 6 w)) else .error .reserved
  | 0x3A => chk (.vperm (fld 3 29 w) (fld 2 27 w) (fld 9 18 w) (fld 9 9 w) (fld 9 0 w))
  | 0x3B => if w / 2 ^ 6 % 8 = 0 then chk (.vbc (fld 3 29 w) (fld 2 27 w) (fld 9 18 w) (fld 9 9 w) (fld 6 0 w)) else .error .reserved
  | 0x3C => if w % 262144 = 0 then chk (.viota (fld 3 29 w) (fld 2 27 w) (fld 9 18 w)) else .error .reserved
  | 0x3D => if w % 512 = 0 then chk (.vmov (fld 3 29 w) (fld 2 27 w) (fld 9 18 w) (fld 9 9 w)) else .error .reserved
  | 0x40 => chk (.vrand (fld 3 29 w) (fld 2 27 w) (fld 9 18 w) (fld 9 9 w) (fld 9 0 w))
  | 0x41 => chk (.vclamp (fld 3 29 w) (fld 2 27 w) (fld 9 18 w) (fld 9 9 w) (fld 9 0 w))
  | 0x48 => if w % 8 = 0 then chk (.vpack (fld 3 29 w) (fld 2 27 w) (fld 9 18 w) (fld 9 9 w) (fld 3 6 w) (fld 1 5 w) (fld 1 4 w) (fld 1 3 w)) else .error .reserved
  | 0x49 => if w % 8 = 0 then chk (.vunpk (fld 3 29 w) (fld 2 27 w) (fld 9 18 w) (fld 9 9 w) (fld 3 6 w) (fld 1 5 w) (fld 1 4 w) (fld 1 3 w)) else .error .reserved
  | 0x4A => chk (.baddq (fld 3 29 w) (fld 2 27 w) (fld 9 18 w) (fld 9 9 w) (fld 9 0 w))
  | 0x50 => if w / 2 ^ 6 % 8 = 0 ∧ w / 2 ^ 18 % 512 = 0 then chk (.tap (fld 3 29 w) (fld 2 27 w) (fld 9 9 w) (fld 6 0 w)) else .error .reserved
  | 0x51 => if w / 2 ^ 6 % 4096 = 0 then chk (.tapfin (fld 3 29 w) (fld 2 27 w) (fld 9 18 w) (fld 6 0 w)) else .error .reserved
  | 0x52 => if w / 2 ^ 6 % 8 = 0 then chk (.vsteer (fld 3 29 w) (fld 2 27 w) (fld 9 18 w) (fld 9 9 w) (fld 6 0 w)) else .error .reserved
  | 0x60 => if w / 2 ^ 22 % 32 = 0 then chk (.qset (fld 3 29 w) (fld 2 27 w) (fld 4 18 w) (fld 9 9 w) (fld 9 0 w)) else .error .reserved
  | 0x61 => if w / 2 ^ 4 % 32 = 0 ∧ w / 2 ^ 13 % 32 = 0 ∧ w / 2 ^ 22 % 32 = 0 then chk (.qadd (fld 3 29 w) (fld 2 27 w) (fld 4 18 w) (fld 4 9 w) (fld 4 0 w)) else .error .reserved
  | 0x62 => if w / 2 ^ 4 % 32 = 0 ∧ w / 2 ^ 13 % 32 = 0 ∧ w / 2 ^ 22 % 32 = 0 then chk (.qmul (fld 3 29 w) (fld 2 27 w) (fld 4 18 w) (fld 4 9 w) (fld 4 0 w)) else .error .reserved
  | 0x63 => if w / 2 ^ 13 % 32 = 0 ∧ w / 2 ^ 22 % 32 = 0 then chk (.qscale (fld 3 29 w) (fld 2 27 w) (fld 4 18 w) (fld 4 9 w) (fld 9 0 w)) else .error .reserved
  | 0x64 => if w / 2 ^ 13 % 32 = 0 ∧ w / 2 ^ 22 % 32 = 0 then chk (.qshift (fld 3 29 w) (fld 2 27 w) (fld 4 18 w) (fld 4 9 w) (fld 9 0 w)) else .error .reserved
  | 0x65 => if w / 2 ^ 13 % 32 = 0 ∧ w / 2 ^ 22 % 32 = 0 then chk (.qmix (fld 3 29 w) (fld 2 27 w) (fld 4 18 w) (fld 4 9 w) (fld 9 0 w)) else .error .reserved
  | 0x66 => if w / 2 ^ 3 % 64 = 0 ∧ w / 2 ^ 13 % 32 = 0 ∧ w / 2 ^ 22 % 32 = 0 then chk (.qcond (fld 3 29 w) (fld 2 27 w) (fld 4 18 w) (fld 4 9 w) (fld 3 0 w)) else .error .reserved
  | 0x67 => if w / 2 ^ 2 % 128 = 0 ∧ w / 2 ^ 13 % 32 = 0 then chk (.qmom (fld 3 29 w) (fld 2 27 w) (fld 9 18 w) (fld 4 9 w) (fld 2 0 w)) else .error .reserved
  | 0x68 => if w / 2 ^ 13 % 32 = 0 then chk (.qquant (fld 3 29 w) (fld 2 27 w) (fld 9 18 w) (fld 4 9 w) (fld 9 0 w)) else .error .reserved
  | 0x69 => if w / 2 ^ 16 % 4 = 0 ∧ w / 2 ^ 22 % 32 = 0 then chk (.qtag (fld 3 29 w) (fld 2 27 w) (fld 4 18 w) (fld 16 0 w)) else .error .reserved
  | 0x6A => if w / 2 ^ 13 % 32 = 0 then chk (.qsamp (fld 3 29 w) (fld 2 27 w) (fld 9 18 w) (fld 4 9 w) (fld 9 0 w)) else .error .reserved
  | _ => .error .unassigned

/-- The K-class operation a word holds (R95). -/
def decodeK (w : Nat) : Except Reject Instr :=
  match w / 2 ^ 18 with
  | 0x00 => if w % 262144 = 0 then chk .nilK else .error .reserved
  | 0x01 => if w % 262144 = 0 then chk .holdK else .error .reserved
  | 0x04 => if w % 32768 = 0 then chk (.kclr (fld 3 15 w)) else .error .reserved
  | 0x05 => if w / 2 ^ 1 % 4 = 0 then chk (.kmerge (fld 3 15 w) (fld 8 7 w) (fld 4 3 w) (fld 1 0 w)) else .error .reserved
  | 0x06 => if w / 2 ^ 1 % 4 = 0 then chk (.kmergel (fld 3 15 w) (fld 8 7 w) (fld 4 3 w) (fld 1 0 w)) else .error .reserved
  | 0x07 => if w / 2 ^ 1 % 64 = 0 then chk (.ksort (fld 3 15 w) (fld 8 7 w) (fld 1 0 w)) else .error .reserved
  | 0x08 => if w / 2 ^ 1 % 64 = 0 then chk (.ktop (fld 3 15 w) (fld 8 7 w) (fld 1 0 w)) else .error .reserved
  | 0x09 => if w / 2 ^ 2 % 2 = 0 then chk (.ksamp (fld 3 15 w) (fld 8 7 w) (fld 4 3 w) (fld 2 0 w)) else .error .reserved
  | 0x0A => if w % 32768 = 0 then chk (.kmask (fld 3 15 w)) else .error .reserved
  | 0x0B => if w % 8 = 0 ∧ w / 2 ^ 7 % 256 = 0 then chk (.ksend (fld 3 15 w) (fld 4 3 w)) else .error .reserved
  | 0x10 =>
    if w % 8 = 0 ∧ w / 2 ^ 7 % 2048 = 0 then chk (.gsetLd (fld 4 3 w))
    else if w % 8 = 1 ∧ w / 2 ^ 7 % 2048 = 0 then chk (.gsetSt (fld 4 3 w))
    else if w % 8 = 2 ∧ w / 2 ^ 7 % 2048 = 0 then chk (.gsetRs (fld 4 3 w))
    else if w % 262144 = 3 then chk .gsetFl
    else if w % 8 ≤ 3 then .error .reserved else .error .badCode
  | 0x11 => if w % 8 = 0 ∧ w / 2 ^ 7 % 2048 = 0 then chk (.gstep (fld 4 3 w)) else .error .reserved
  | 0x12 => if w / 2 ^ 3 % 32768 = 0 then chk (.gmask (fld 3 0 w)) else .error .reserved
  | _ => .error .unassigned

/-- The E-class operation a word holds (R96). -/
def decodeE (w : Nat) : Except Reject Instr :=
  match w / 2 ^ 24 with
  | 0x00 => if w % 16777216 = 0 then chk .nilE else .error .reserved
  | 0x01 => if w % 16777216 = 0 then chk .holdE else .error .reserved
  | 0x10 => if w / 2 ^ 2 % 16 = 0 then chk (.mmul (fld 6 18 w) (fld 6 12 w) (fld 6 6 w) (fld 1 1 w) (fld 1 0 w)) else .error .reserved
  | 0x11 => if w / 2 ^ 1 % 32 = 0 then chk (.mdrain (fld 6 18 w) (fld 6 12 w) (fld 6 6 w) (fld 1 0 w)) else .error .reserved
  | 0x12 => if w % 64 = 0 then chk (.bfill (fld 6 18 w) (fld 6 12 w) (fld 6 6 w)) else .error .reserved
  | 0x13 => if w % 262144 = 0 then chk (.mcode (fld 6 18 w)) else .error .reserved
  | 0x14 => if w % 64 = 0 then chk (.swap (fld 6 18 w) (fld 6 12 w) (fld 6 6 w)) else .error .reserved
  | 0x20 => if w % 16 = 0 then chk (.cpy (fld 6 18 w) (fld 6 12 w) (fld 6 6 w) (fld 2 4 w)) else .error .reserved
  | 0x21 => if w % 16 = 0 ∧ w / 2 ^ 12 % 64 = 0 then chk (.cpyt (fld 6 18 w) (fld 6 6 w) (fld 2 4 w)) else .error .reserved
  | 0x22 => if w % 16 = 0 ∧ w / 2 ^ 12 % 64 = 0 then chk (.cgath (fld 6 18 w) (fld 6 6 w) (fld 2 4 w)) else .error .reserved
  | 0x23 => if w % 16 = 0 ∧ w / 2 ^ 12 % 64 = 0 then chk (.cscat (fld 6 18 w) (fld 6 6 w) (fld 2 4 w)) else .error .reserved
  | 0x24 => if w % 16 = 0 ∧ w / 2 ^ 6 % 4096 = 0 then chk (.cseal (fld 6 18 w) (fld 2 4 w)) else .error .reserved
  | 0x25 => if w % 16 = 0 ∧ w / 2 ^ 6 % 4096 = 0 then chk (.ctime (fld 6 18 w) (fld 2 4 w)) else .error .reserved
  | 0x26 => if w / 2 ^ 2 % 4 = 0 then chk (.cnext (fld 6 18 w) (fld 6 12 w) (fld 6 6 w) (fld 2 4 w) (fld 1 1 w) (fld 1 0 w)) else .error .reserved
  | 0x28 => if w % 64 = 0 ∧ w / 2 ^ 11 % 2 = 0 then chk (.sendm (fld 6 18 w) (fld 6 12 w) (fld 5 6 w)) else .error .reserved
  | 0x29 => if w % 4096 = 0 then chk (.eqry (fld 6 18 w) (fld 6 12 w)) else .error .reserved
  | _ => .error .unassigned

/-- The Y-class operation a word holds (R97). -/
def decodeY (w : Nat) : Except Reject Instr :=
  match w / 2 ^ 18 with
  | 0x00 => if w % 262144 = 0 then chk .nilY else .error .reserved
  | 0x01 => if w % 262144 = 0 then chk .holdY else .error .reserved
  | 0x04 => chk (.fwait (fld 5 13 w) (fld 13 0 w))
  | 0x05 => chk (.fpost (fld 5 13 w) (fld 13 0 w))
  | 0x06 => chk (.fpostx (fld 5 13 w) (fld 6 7 w) (fld 7 0 w))
  | 0x08 => if w % 128 = 0 then chk (.twait (fld 5 13 w) (fld 6 7 w)) else .error .reserved
  | 0x09 => if w / 2 ^ 17 % 2 = 0 then chk (.hwait (fld 4 13 w) (fld 13 0 w)) else .error .reserved
  | 0x0A => if w / 2 ^ 17 % 2 = 0 then chk (.hfree (fld 4 13 w) (fld 13 0 w)) else .error .reserved
  | 0x0B => if w / 2 ^ 17 % 2 = 0 then chk (.hadv (fld 4 13 w) (fld 1 12 w) (fld 12 0 w)) else .error .reserved
  | 0x0C => if w % 8192 = 0 then chk (.mwait (fld 5 13 w)) else .error .reserved
  | 0x0D => if w / 2 ^ 13 % 32 = 0 then chk (.lwait (fld 13 0 w)) else .error .reserved
  | 0x10 => if w % 262144 = 0 then chk .phase else .error .reserved
  | 0x11 => if w % 262144 = 0 then chk .fence else .error .reserved
  | 0x12 => if w % 262144 = 0 then chk .ckpt else .error .reserved
  | 0x13 => if w % 8192 = 0 then chk (.chk (fld 5 13 w)) else .error .reserved
  | 0x14 => if w % 1024 = 0 then chk (.bara (fld 5 13 w) (fld 3 10 w)) else .error .reserved
  | _ => .error .unassigned

/-- The operation in a word of a class; every other word is refused by name. -/
def decodeSlot (c : Cls) (w : Nat) : Except Reject Instr :=
  match c with
  | .I => decodeI w
  | .M => decodeM w
  | .V => decodeV w
  | .K => decodeK w
  | .E => decodeE w
  | .Y => decodeY w

/-- The class of a slot operation; an event of the part has none. -/
def classOf : Instr → Option Cls
  | .nilI => some .I
  | .nilM => some .M
  | .nilV => some .V
  | .nilK => some .K
  | .nilE => some .E
  | .nilY => some .Y
  | .holdI => some .I
  | .holdM => some .M
  | .holdV => some .V
  | .holdK => some .K
  | .holdE => some .E
  | .holdY => some .Y
  | .add _ _ _ => some .I
  | .sub _ _ _ => some .I
  | .addi _ _ _ => some .I
  | .addsh _ _ _ _ => some .I
  | .mul _ _ _ => some .I
  | .mulh _ _ _ => some .I
  | .mulhn _ _ _ => some .I
  | .div _ _ _ => some .I
  | .divn _ _ _ => some .I
  | .and _ _ _ => some .I
  | .or _ _ _ => some .I
  | .xor _ _ _ => some .I
  | .andn _ _ _ => some .I
  | .andi _ _ _ => some .I
  | .ori _ _ _ => some .I
  | .xori _ _ _ => some .I
  | .shl _ _ _ => some .I
  | .shr _ _ _ => some .I
  | .sar _ _ _ => some .I
  | .rol _ _ _ => some .I
  | .shli _ _ _ => some .I
  | .shri _ _ _ => some .I
  | .sari _ _ _ => some .I
  | .cmp _ _ _ _ => some .I
  | .cmpi _ _ _ => some .I
  | .min _ _ _ => some .I
  | .max _ _ _ => some .I
  | .minn _ _ _ => some .I
  | .maxn _ _ _ => some .I
  | .sel _ _ _ _ => some .I
  | .movi _ _ => some .I
  | .lui _ _ => some .I
  | .clz _ _ => some .I
  | .ctz _ _ => some .I
  | .popc _ _ => some .I
  | .bfx _ _ _ _ => some .I
  | .bfi _ _ _ _ => some .I
  | .adda _ _ _ => some .I
  | .mva _ _ => some .I
  | .mvs _ _ => some .I
  | .spld _ _ => some .I
  | .spst _ _ => some .I
  | .fadd _ _ _ => some .I
  | .fsub _ _ _ => some .I
  | .fmul _ _ _ => some .I
  | .fma _ _ _ _ => some .I
  | .fmin _ _ _ => some .I
  | .fmax _ _ _ => some .I
  | .fcmp _ _ _ _ => some .I
  | .fcvt _ _ _ _ => some .I
  | .mfc _ _ => some .I
  | .mtc _ _ => some .I
  | .rdt _ _ => some .I
  | .takem _ _ => some .I
  | .br _ _ _ => some .I
  | .brz _ _ => some .I
  | .brnz _ _ => some .I
  | .jmp _ => some .I
  | .call _ => some .I
  | .loop _ _ => some .I
  | .rep _ _ _ => some .I
  | .halt _ => some .I
  | .start _ _ _ => some .I
  | .trap _ _ => some .I
  | .ld _ _ _ _ => some .M
  | .st _ _ _ _ => some .M
  | .ldacq _ _ _ => some .M
  | .strel _ _ _ => some .M
  | .xld _ _ _ _ => some .M
  | .xst _ _ _ _ => some .M
  | .vld _ _ _ _ => some .M
  | .vst _ _ _ _ => some .M
  | .vldx _ _ _ => some .M
  | .vstx _ _ _ => some .M
  | .gld _ _ _ _ => some .M
  | .gst _ _ _ _ => some .M
  | .gatom _ _ _ _ _ => some .M
  | .cinv _ _ => some .M
  | .cclean _ _ => some .M
  | .qld _ _ _ => some .M
  | .qst _ _ _ => some .M
  | .kld _ _ _ => some .M
  | .kst _ _ _ => some .M
  | .lift _ => some .M
  | .lpop _ => some .M
  | .hpush _ _ => some .M
  | .hpop _ _ => some .M
  | .vadd _ _ _ _ _ => some .V
  | .vsub _ _ _ _ _ => some .V
  | .vmul _ _ _ _ _ => some .V
  | .vfma _ _ _ _ _ => some .V
  | .vfms _ _ _ _ _ => some .V
  | .vmin _ _ _ _ _ => some .V
  | .vmax _ _ _ _ _ => some .V
  | .vabs _ _ _ _ => some .V
  | .vneg _ _ _ _ => some .V
  | .vcmp _ _ _ _ _ _ _ => some .V
  | .vsel _ _ _ _ _ => some .V
  | .vcvt _ _ _ _ _ _ _ _ => some .V
  | .vand _ _ _ _ _ => some .V
  | .vor _ _ _ _ _ => some .V
  | .vxor _ _ _ _ _ => some .V
  | .vshl _ _ _ _ _ => some .V
  | .vshr _ _ _ _ _ => some .V
  | .vsar _ _ _ _ _ => some .V
  | .vrcp _ _ _ _ => some .V
  | .vrsq _ _ _ _ => some .V
  | .vexp2 _ _ _ _ => some .V
  | .vlog2 _ _ _ _ => some .V
  | .vtanh _ _ _ _ => some .V
  | .vred _ _ _ _ _ _ => some .V
  | .vscan _ _ _ _ _ _ => some .V
  | .vperm _ _ _ _ _ => some .V
  | .vbc _ _ _ _ _ => some .V
  | .viota _ _ _ => some .V
  | .vmov _ _ _ _ => some .V
  | .vrand _ _ _ _ _ => some .V
  | .vclamp _ _ _ _ _ => some .V
  | .vpack _ _ _ _ _ _ _ _ => some .V
  | .vunpk _ _ _ _ _ _ _ _ => some .V
  | .baddq _ _ _ _ _ => some .V
  | .tap _ _ _ _ => some .V
  | .tapfin _ _ _ _ => some .V
  | .vsteer _ _ _ _ _ => some .V
  | .qset _ _ _ _ _ => some .V
  | .qadd _ _ _ _ _ => some .V
  | .qmul _ _ _ _ _ => some .V
  | .qscale _ _ _ _ _ => some .V
  | .qshift _ _ _ _ _ => some .V
  | .qmix _ _ _ _ _ => some .V
  | .qcond _ _ _ _ _ => some .V
  | .qmom _ _ _ _ _ => some .V
  | .qquant _ _ _ _ _ => some .V
  | .qtag _ _ _ _ => some .V
  | .qsamp _ _ _ _ _ => some .V
  | .kclr _ => some .K
  | .kmerge _ _ _ _ => some .K
  | .kmergel _ _ _ _ => some .K
  | .ksort _ _ _ => some .K
  | .ktop _ _ _ => some .K
  | .ksamp _ _ _ _ => some .K
  | .kmask _ => some .K
  | .ksend _ _ => some .K
  | .gsetLd _ => some .K
  | .gsetSt _ => some .K
  | .gsetRs _ => some .K
  | .gsetFl => some .K
  | .gstep _ => some .K
  | .gmask _ => some .K
  | .mmul _ _ _ _ _ => some .E
  | .mdrain _ _ _ _ => some .E
  | .bfill _ _ _ => some .E
  | .mcode _ => some .E
  | .swap _ _ _ => some .E
  | .cpy _ _ _ _ => some .E
  | .cpyt _ _ _ => some .E
  | .cgath _ _ _ => some .E
  | .cscat _ _ _ => some .E
  | .cseal _ _ => some .E
  | .ctime _ _ => some .E
  | .cnext _ _ _ _ _ _ => some .E
  | .sendm _ _ _ => some .E
  | .eqry _ _ => some .E
  | .fwait _ _ => some .Y
  | .fpost _ _ => some .Y
  | .fpostx _ _ _ => some .Y
  | .twait _ _ => some .Y
  | .hwait _ _ => some .Y
  | .hfree _ _ => some .Y
  | .hadv _ _ _ => some .Y
  | .mwait _ => some .Y
  | .lwait _ => some .Y
  | .phase => some .Y
  | .fence => some .Y
  | .ckpt => some .Y
  | .chk _ => some .Y
  | .bara _ _ => some .Y
  | _ => none

/-- A field's share of a word: its value from bit `l` on. -/
def put {n : Nat} (l : Nat) (b : BitVec n) : Nat := b.toNat * 2 ^ l

/-- The word of a I-class operation (R92); 0 for the others. -/
def encodeI : Instr → Nat
  | .nilI => 0x00000000
  | .holdI => 0x01000000
  | .add d x y => 0x10000000 + put 18 d + put 12 x + put 6 y
  | .sub d x y => 0x11000000 + put 18 d + put 12 x + put 6 y
  | .addi d x i => 0x12000000 + put 18 d + put 12 x + put 0 i
  | .addsh d x y s => 0x13000000 + put 18 d + put 12 x + put 6 y + put 0 s
  | .mul d x y => 0x14000000 + put 18 d + put 12 x + put 6 y
  | .mulh d x y => 0x15000000 + put 18 d + put 12 x + put 6 y
  | .mulhn d x y => 0x16000000 + put 18 d + put 12 x + put 6 y
  | .div d x y => 0x17000000 + put 18 d + put 12 x + put 6 y
  | .divn d x y => 0x18000000 + put 18 d + put 12 x + put 6 y
  | .and d x y => 0x20000000 + put 18 d + put 12 x + put 6 y
  | .or d x y => 0x21000000 + put 18 d + put 12 x + put 6 y
  | .xor d x y => 0x22000000 + put 18 d + put 12 x + put 6 y
  | .andn d x y => 0x23000000 + put 18 d + put 12 x + put 6 y
  | .andi d x i => 0x24000000 + put 18 d + put 12 x + put 0 i
  | .ori d x i => 0x25000000 + put 18 d + put 12 x + put 0 i
  | .xori d x i => 0x26000000 + put 18 d + put 12 x + put 0 i
  | .shl d x y => 0x28000000 + put 18 d + put 12 x + put 6 y
  | .shr d x y => 0x29000000 + put 18 d + put 12 x + put 6 y
  | .sar d x y => 0x2A000000 + put 18 d + put 12 x + put 6 y
  | .rol d x y => 0x2B000000 + put 18 d + put 12 x + put 6 y
  | .shli d x a => 0x2C000000 + put 18 d + put 12 x + put 0 a
  | .shri d x a => 0x2D000000 + put 18 d + put 12 x + put 0 a
  | .sari d x a => 0x2E000000 + put 18 d + put 12 x + put 0 a
  | .cmp d x y n => 0x30000000 + put 18 d + put 12 x + put 6 y + put 0 n
  | .cmpi d x i => 0x31000000 + put 18 d + put 12 x + put 0 i
  | .min d x y => 0x32000000 + put 18 d + put 12 x + put 6 y
  | .max d x y => 0x33000000 + put 18 d + put 12 x + put 6 y
  | .minn d x y => 0x34000000 + put 18 d + put 12 x + put 6 y
  | .maxn d x y => 0x35000000 + put 18 d + put 12 x + put 6 y
  | .sel d x y s => 0x36000000 + put 18 d + put 12 x + put 6 y + put 0 s
  | .movi d i => 0x38000000 + put 18 d + put 0 i
  | .lui d i => 0x39000000 + put 18 d + put 0 i
  | .clz d x => 0x3A000000 + put 18 d + put 12 x
  | .ctz d x => 0x3B000000 + put 18 d + put 12 x
  | .popc d x => 0x3C000000 + put 18 d + put 12 x
  | .bfx d x p l => 0x3D000000 + put 18 d + put 12 x + put 6 p + put 0 l
  | .bfi d x p l => 0x3E000000 + put 18 d + put 12 x + put 6 p + put 0 l
  | .adda d x i => 0x40000000 + put 18 d + put 12 x + put 0 i
  | .mva d x => 0x41000000 + put 18 d + put 12 x
  | .mvs d x => 0x42000000 + put 18 d + put 12 x
  | .spld d o => 0x44000000 + put 18 d + put 0 o
  | .spst d o => 0x45000000 + put 18 d + put 0 o
  | .fadd d x y => 0x48000000 + put 18 d + put 12 x + put 6 y
  | .fsub d x y => 0x49000000 + put 18 d + put 12 x + put 6 y
  | .fmul d x y => 0x4A000000 + put 18 d + put 12 x + put 6 y
  | .fma d x y z => 0x4B000000 + put 18 d + put 12 x + put 6 y + put 0 z
  | .fmin d x y => 0x4C000000 + put 18 d + put 12 x + put 6 y
  | .fmax d x y => 0x4D000000 + put 18 d + put 12 x + put 6 y
  | .fcmp d x y c => 0x4E000000 + put 18 d + put 12 x + put 6 y + put 0 c
  | .fcvt d x r c => 0x4F000000 + put 18 d + put 12 x + put 5 r + put 0 c
  | .mfc d n => 0x50000000 + put 18 d + put 0 n
  | .mtc d n => 0x51000000 + put 18 d + put 0 n
  | .rdt d f => 0x52000000 + put 18 d + put 0 f
  | .takem d m => 0x53000000 + put 18 d + put 0 m
  | .br c p o => 0x58000000 + put 22 c + put 20 p + put 0 o
  | .brz x o => 0x59000000 + put 18 x + put 0 o
  | .brnz x o => 0x5A000000 + put 18 x + put 0 o
  | .jmp x => 0x5B000000 + put 12 x
  | .call o => 0x5C000000 + put 0 o
  | .loop l o => 0x5D000000 + put 18 l + put 0 o
  | .rep r n c => 0x5E000000 + put 18 r + put 14 n + put 0 c
  | .halt m => 0x5F000000 + put 0 m
  | .start d h e => 0x60000000 + put 18 d + put 14 h + put 0 e
  | .trap d c => 0x61000000 + put 18 d + put 0 c
  | _ => 0

/-- The word of a M-class operation (R93); 0 for the others. -/
def encodeM : Instr → Nat
  | .nilM => 0x00000000
  | .holdM => 0x01000000
  | .ld d x w i => 0x10000000 + put 18 d + put 12 x + put 10 w + put 0 i
  | .st d x w i => 0x11000000 + put 18 d + put 12 x + put 10 w + put 0 i
  | .ldacq d x i => 0x12000C00 + put 18 d + put 12 x + put 0 i
  | .strel d x i => 0x13000C00 + put 18 d + put 12 x + put 0 i
  | .xld d x w i => 0x14000000 + put 18 d + put 12 x + put 10 w + put 0 i
  | .xst d x w i => 0x15000000 + put 18 d + put 12 x + put 10 w + put 0 i
  | .vld g a k d => 0x18000000 + put 15 g + put 11 a + put 8 k + put 0 d
  | .vst g a k d => 0x19000000 + put 15 g + put 11 a + put 8 k + put 0 d
  | .vldx g a i => 0x1A000000 + put 15 g + put 11 a + put 0 i
  | .vstx g a i => 0x1B000000 + put 15 g + put 11 a + put 0 i
  | .gld d x w i => 0x20000000 + put 18 d + put 12 x + put 10 w + put 0 i
  | .gst d x w i => 0x21000000 + put 18 d + put 12 x + put 10 w + put 0 i
  | .gatom d x y o f => 0x22000000 + put 18 d + put 12 x + put 6 y + put 4 o + put 0 f
  | .cinv x i => 0x23000C00 + put 12 x + put 0 i
  | .cclean x i => 0x24000C00 + put 12 x + put 0 i
  | .qld r a k => 0x28000000 + put 18 r + put 14 a + put 11 k
  | .qst r a k => 0x29000000 + put 18 r + put 14 a + put 11 k
  | .kld r a k => 0x2A000000 + put 18 r + put 14 a + put 11 k
  | .kst r a k => 0x2B000000 + put 18 r + put 14 a + put 11 k
  | .lift g => 0x30000000 + put 15 g
  | .lpop g => 0x31000000 + put 15 g
  | .hpush g h => 0x32000000 + put 15 g + put 11 h
  | .hpop g h => 0x33000000 + put 15 g + put 11 h
  | _ => 0

/-- The word of a V-class operation (R94); 0 for the others. -/
def encodeV : Instr → Nat
  | .nilV => 0x0000000000
  | .holdV => 0x0100000000
  | .vadd t p d x y => 0x1000000000 + put 29 t + put 27 p + put 18 d + put 9 x + put 0 y
  | .vsub t p d x y => 0x1100000000 + put 29 t + put 27 p + put 18 d + put 9 x + put 0 y
  | .vmul t p d x y => 0x1200000000 + put 29 t + put 27 p + put 18 d + put 9 x + put 0 y
  | .vfma t p d x y => 0x1300000000 + put 29 t + put 27 p + put 18 d + put 9 x + put 0 y
  | .vfms t p d x y => 0x1400000000 + put 29 t + put 27 p + put 18 d + put 9 x + put 0 y
  | .vmin t p d x y => 0x1500000000 + put 29 t + put 27 p + put 18 d + put 9 x + put 0 y
  | .vmax t p d x y => 0x1600000000 + put 29 t + put 27 p + put 18 d + put 9 x + put 0 y
  | .vabs t p d x => 0x1700000000 + put 29 t + put 27 p + put 18 d + put 9 x
  | .vneg t p d x => 0x1800000000 + put 29 t + put 27 p + put 18 d + put 9 x
  | .vcmp t p q c n x y => 0x2000000000 + put 29 t + put 27 p + put 25 q + put 22 c + put 21 n + put 9 x + put 0 y
  | .vsel t p d x y => 0x2100000000 + put 29 t + put 27 p + put 18 d + put 9 x + put 0 y
  | .vcvt t p d x f n z s => 0x2200000000 + put 29 t + put 27 p + put 18 d + put 9 x + put 6 f + put 5 n + put 4 z + put 3 s
  | .vand t p d x y => 0x2800000000 + put 29 t + put 27 p + put 18 d + put 9 x + put 0 y
  | .vor t p d x y => 0x2900000000 + put 29 t + put 27 p + put 18 d + put 9 x + put 0 y
  | .vxor t p d x y => 0x2A00000000 + put 29 t + put 27 p + put 18 d + put 9 x + put 0 y
  | .vshl t p d x y => 0x2B00000000 + put 29 t + put 27 p + put 18 d + put 9 x + put 0 y
  | .vshr t p d x y => 0x2C00000000 + put 29 t + put 27 p + put 18 d + put 9 x + put 0 y
  | .vsar t p d x y => 0x2D00000000 + put 29 t + put 27 p + put 18 d + put 9 x + put 0 y
  | .vrcp t p d x => 0x3000000000 + put 29 t + put 27 p + put 18 d + put 9 x
  | .vrsq t p d x => 0x3100000000 + put 29 t + put 27 p + put 18 d + put 9 x
  | .vexp2 t p d x => 0x3200000000 + put 29 t + put 27 p + put 18 d + put 9 x
  | .vlog2 t p d x => 0x3300000000 + put 29 t + put 27 p + put 18 d + put 9 x
  | .vtanh t p d x => 0x3400000000 + put 29 t + put 27 p + put 18 d + put 9 x
  | .vred t p d x o n => 0x3800000000 + put 29 t + put 27 p + put 18 d + put 9 x + put 7 o + put 6 n
  | .vscan t p d x o n => 0x3900000000 + put 29 t + put 27 p + put 18 d + put 9 x + put 7 o + put 6 n
  | .vperm t p d x y => 0x3A00000000 + put 29 t + put 27 p + put 18 d + put 9 x + put 0 y
  | .vbc t p d x l => 0x3B00000000 + put 29 t + put 27 p + put 18 d + put 9 x + put 0 l
  | .viota t p d => 0x3C00000000 + put 29 t + put 27 p + put 18 d
  | .vmov t p d x => 0x3D00000000 + put 29 t + put 27 p + put 18 d + put 9 x
  | .vrand t p d x y => 0x4000000000 + put 29 t + put 27 p + put 18 d + put 9 x + put 0 y
  | .vclamp t p d x y => 0x4100000000 + put 29 t + put 27 p + put 18 d + put 9 x + put 0 y
  | .vpack t p d x f n z s => 0x4800000000 + put 29 t + put 27 p + put 18 d + put 9 x + put 6 f + put 5 n + put 4 z + put 3 s
  | .vunpk t p d x f n z s => 0x4900000000 + put 29 t + put 27 p + put 18 d + put 9 x + put 6 f + put 5 n + put 4 z + put 3 s
  | .baddq t p d x y => 0x4A00000000 + put 29 t + put 27 p + put 18 d + put 9 x + put 0 y
  | .tap t p x r => 0x5000000000 + put 29 t + put 27 p + put 9 x + put 0 r
  | .tapfin t p d r => 0x5100000000 + put 29 t + put 27 p + put 18 d + put 0 r
  | .vsteer t p d x r => 0x5200000000 + put 29 t + put 27 p + put 18 d + put 9 x + put 0 r
  | .qset t p d x y => 0x6000000000 + put 29 t + put 27 p + put 18 d + put 9 x + put 0 y
  | .qadd t p d x y => 0x6100000000 + put 29 t + put 27 p + put 18 d + put 9 x + put 0 y
  | .qmul t p d x y => 0x6200000000 + put 29 t + put 27 p + put 18 d + put 9 x + put 0 y
  | .qscale t p d x y => 0x6300000000 + put 29 t + put 27 p + put 18 d + put 9 x + put 0 y
  | .qshift t p d x y => 0x6400000000 + put 29 t + put 27 p + put 18 d + put 9 x + put 0 y
  | .qmix t p d x y => 0x6500000000 + put 29 t + put 27 p + put 18 d + put 9 x + put 0 y
  | .qcond t p d x n => 0x6600000000 + put 29 t + put 27 p + put 18 d + put 9 x + put 0 n
  | .qmom t p d x s => 0x6700000000 + put 29 t + put 27 p + put 18 d + put 9 x + put 0 s
  | .qquant t p d x y => 0x6800000000 + put 29 t + put 27 p + put 18 d + put 9 x + put 0 y
  | .qtag t p d m => 0x6900000000 + put 29 t + put 27 p + put 18 d + put 0 m
  | .qsamp t p d x y => 0x6A00000000 + put 29 t + put 27 p + put 18 d + put 9 x + put 0 y
  | _ => 0

/-- The word of a K-class operation (R95); 0 for the others. -/
def encodeK : Instr → Nat
  | .nilK => 0x000000
  | .holdK => 0x040000
  | .kclr c => 0x100000 + put 15 c
  | .kmerge c g a m => 0x140000 + put 15 c + put 7 g + put 3 a + put 0 m
  | .kmergel c g a m => 0x180000 + put 15 c + put 7 g + put 3 a + put 0 m
  | .ksort c g s => 0x1C0000 + put 15 c + put 7 g + put 0 s
  | .ktop c g i => 0x200000 + put 15 c + put 7 g + put 0 i
  | .ksamp c g a p => 0x240000 + put 15 c + put 7 g + put 3 a + put 0 p
  | .kmask c => 0x280000 + put 15 c
  | .ksend c a => 0x2C0000 + put 15 c + put 3 a
  | .gsetLd a => 0x400000 + put 3 a
  | .gsetSt a => 0x400001 + put 3 a
  | .gsetRs a => 0x400002 + put 3 a
  | .gsetFl => 0x400003
  | .gstep a => 0x440000 + put 3 a
  | .gmask k => 0x480000 + put 0 k
  | _ => 0

/-- The word of a E-class operation (R96); 0 for the others. -/
def encodeE : Instr → Nat
  | .nilE => 0x00000000
  | .holdE => 0x01000000
  | .mmul x y z l b => 0x10000000 + put 18 x + put 12 y + put 6 z + put 1 l + put 0 b
  | .mdrain x y z b => 0x11000000 + put 18 x + put 12 y + put 6 z + put 0 b
  | .bfill x y z => 0x12000000 + put 18 x + put 12 y + put 6 z
  | .mcode x => 0x13000000 + put 18 x
  | .swap x y z => 0x14000000 + put 18 x + put 12 y + put 6 z
  | .cpy x y z q => 0x20000000 + put 18 x + put 12 y + put 6 z + put 4 q
  | .cpyt x z q => 0x21000000 + put 18 x + put 6 z + put 4 q
  | .cgath x z q => 0x22000000 + put 18 x + put 6 z + put 4 q
  | .cscat x z q => 0x23000000 + put 18 x + put 6 z + put 4 q
  | .cseal x q => 0x24000000 + put 18 x + put 4 q
  | .ctime x q => 0x25000000 + put 18 x + put 4 q
  | .cnext x y z q l b => 0x26000000 + put 18 x + put 12 y + put 6 z + put 4 q + put 1 l + put 0 b
  | .sendm x y m => 0x28000000 + put 18 x + put 12 y + put 6 m
  | .eqry x y => 0x29000000 + put 18 x + put 12 y
  | _ => 0

/-- The word of a Y-class operation (R97); 0 for the others. -/
def encodeY : Instr → Nat
  | .nilY => 0x000000
  | .holdY => 0x040000
  | .fwait f n => 0x100000 + put 13 f + put 0 n
  | .fpost f n => 0x140000 + put 13 f + put 0 n
  | .fpostx f r n => 0x180000 + put 13 f + put 7 r + put 0 n
  | .twait t r => 0x200000 + put 13 t + put 7 r
  | .hwait h n => 0x240000 + put 13 h + put 0 n
  | .hfree h n => 0x280000 + put 13 h + put 0 n
  | .hadv h s c => 0x2C0000 + put 13 h + put 12 s + put 0 c
  | .mwait m => 0x300000 + put 13 m
  | .lwait n => 0x340000 + put 0 n
  | .phase => 0x400000
  | .fence => 0x440000
  | .ckpt => 0x480000
  | .chk r => 0x4C0000 + put 13 r
  | .bara b c => 0x500000 + put 13 b + put 10 c
  | _ => 0

/-- The word of a slot operation (R81 to R89, R92 to R97); an event has no encoding. -/
def encode (i : Instr) : Nat :=
  match classOf i with
  | some .I => encodeI i
  | some .M => encodeM i
  | some .V => encodeV i
  | some .K => encodeK i
  | some .E => encodeE i
  | some .Y => encodeY i
  | none => 0

/-- The operation a word of the opcode table's numbering stands for: 32 bits are tried as I, then M, then E; 24 bits
as K, then Y; 40 bits as V (the classes share their numbers: assumption 7). -/
def decodeTableWord (nbits w : Nat) : Option Instr :=
  let try1 (c : Cls) : Option Instr :=
    match decodeSlot c (w % 2 ^ c.width) with
    | .ok i => some i
    | .error _ => none
  if nbits = 32 then (match try1 .I with
    | some i => some i
    | none => match try1 .M with
      | some i => some i
      | none => try1 .E)
  else if nbits = 24 then (match try1 .K with
    | some i => some i
    | none => try1 .Y)
  else if nbits = 40 then try1 .V
  else none

end Sys2Proof
end

