-- ==== Sys2Proof/Machine/Ops.lean ====
section
/-! DEFINITION. The named operations over one core: registers, pending results, withheld effects, local storage with
forwarding, bank ports, and taking a trap with its rollback (02, 04 R109 to R114, 16 R379 to R391). -/

namespace Sys2Proof.Machine

/-! ### Contexts and registers -/

/-- Helper `h` of a core. -/
def Core.helper (c : Core) (h : Nat) : Helper := c.helpers.getD h helper0

/-- A core with helper `h` replaced. -/
def Core.setHelper (c : Core) (h : Nat) (x : Helper) : Core := { c with helpers := setAt c.helpers h x }

/-- The scalar register a field names: s-register of the primary or of a gateway, x-register of a helper; register 0
reads zero (R51, R11). -/
def rdS (fo : Focus) (c : Core) (r : Nat) : Word :=
  if r = 0 then 0
  else match fo.ctx with
    | .helper h => spGet 0 (c.helper h).x r
    | _ => spGet 0 c.p.s r

/-- The pointer register a field names: a-register, or bits 31..0 of the x-register of a helper (R83, R85). -/
def rdA (fo : Focus) (c : Core) (r : Nat) : Lane :=
  match fo.ctx with
  | .helper h => if r = 0 then 0 else (spGet 0 (c.helper h).x r).setWidth 32
  | _ => spGet 0 c.p.a r

/-- A predicate; p0 is all ones (R51). -/
def rdP (c : Core) (p : Nat) : Word := if p = 0 then BitVec.allOnes 64 else spGet 0 c.p.p p

/-- The effect that writes a scalar result of the context (R240). -/
def effS (fo : Focus) (r : Nat) (v : Word) : Eff :=
  match fo.ctx with
  | .helper h => .xreg h r v
  | _ => .sreg r v

/-- The effect that writes a pointer: the wrapped 32-bit value, zero-extended in a helper (R85). -/
def effA (fo : Focus) (r : Nat) (v : Lane) : Eff :=
  match fo.ctx with
  | .helper h => .xreg h r (v.setWidth 64)
  | _ => .areg r v

/-- Program order of an operation: bundles issued before it, then the slot (R111). -/
def ordOf (fo : Focus) (c : Core) : Nat :=
  match fo.ctx with
  | .helper _ => c.age * 8 + fo.slot
  | _ => c.p.iss * 8 + fo.slot

/-- A result of latency `lat` on its way: its effects come about at the end of the cycle `lat - 1` cycles on (R4). -/
def retire (fo : Focus) (lat : Nat) (fl : Flags) (effs : List Eff) (c : Core) : Core :=
  let e : Pend := ⟨lat, fo.ctx, ordOf fo c, fo.bundle, fo.slot, fl, effs⟩
  match fo.ctx with
  | .helper _ => { c with hpend := c.hpend ++ [e] }
  | _ => { c with p := { c.p with pend := c.p.pend ++ [e] } }

/-- A scalar result (R240). -/
def retireS (fo : Focus) (lat : Nat) (fl : Flags) (r : Nat) (v : Word) (c : Core) : Core :=
  retire fo lat fl [effS fo r v] c

/-- An effect of the bundle's own that the primary withholds from the end of its issue cycle (R111). -/
def withholdNow (fo : Focus) (w : Wh) (c : Core) : Core :=
  { c with newWith := c.newWith ++ [⟨ordOf fo c, w⟩] }

/-! ### Withhold buffer accounting (R384) -/

/-- Store entries an effect takes (R111). -/
def whStores : Wh → Nat
  | .store _ _ => 1
  | .storeQ _ _ => 5
  | .storeK _ _ => 3
  | .scatter n _ => n
  | .spill _ _ => 1
  | .xst _ _ => 1
  | .hpush _ _ _ _ => 1
  | .tapRec _ _ _ => 1
  | .seqMask _ => 1
  | _ => 0

/-- Command entries an effect takes: every E-class operation, SENDM too (R96, R230). -/
def whCmds : Wh → Nat
  | .cmd _ => 1
  | .sendm _ _ _ => 1
  | _ => 0

/-- Message entries an effect takes; a remote HPUSH takes one of these too. -/
def whMsgs : Wh → Nat
  | .flag _ _ => 1
  | .flagx _ _ _ => 1
  | .hadv _ _ _ _ => 1
  | .bara _ => 1
  | .ksend _ _ _ => 1
  | .lift _ => 1
  | .start _ _ _ => 1
  | .takem _ => 1
  | .mtc _ _ => 1
  | .hpush _ _ _ _ => 1
  | _ => 0

/-- Probes of a declared tap point (R343). -/
def Core.nprobe (c : Core) (tp : Nat) : Nat :=
  match c.legend.pts.find? (fun t => t.tp = tp) with
  | some t => t.probes.length
  | none => 0

/-- Store entries reserved by an effect still to come (R384). -/
def effStores (c : Core) : Eff → Nat
  | .vec (.mem _) _ _ => 1
  | .withhold w => whStores w
  | .tapFin tp _ d _ _ => 2 * c.nprobe tp + (match d with
    | .mem _ => 1
    | .grid _ => 0)
  | _ => 0

def natSum (l : List Nat) : Nat := l.foldl (· + ·) 0

/-- Does the flight end in a store to the scratchpad (R265)? -/
def flightStores (fl : Flight) : Nat :=
  match fl.dst with
  | .mem _ => 1
  | .grid _ => 0

/-- Store entries in use or reserved (R384; assumption 8). -/
def Core.storeUse (c : Core) : Nat :=
  natSum (c.withheld.map (fun e => whStores e.w)) + natSum (c.newWith.map (fun e => whStores e.w))
  + natSum (c.p.pend.map (fun e => natSum (e.effs.map (effStores c))))
  + natSum (c.p.flights.map flightStores)

def Core.cmdUse (c : Core) : Nat :=
  natSum (c.withheld.map (fun e => whCmds e.w)) + natSum (c.newWith.map (fun e => whCmds e.w))

def Core.msgUse (c : Core) : Nat :=
  natSum (c.withheld.map (fun e => whMsgs e.w)) + natSum (c.newWith.map (fun e => whMsgs e.w))

/-- An effect fits the withhold buffer (R384). -/
def fits (c : Core) (w : Wh) : Bool :=
  c.storeUse + whStores w ≤ 256 && c.cmdUse + whCmds w ≤ 32 && c.msgUse + whMsgs w ≤ 64

/-! ### Local storage with forwarding (R63, R112) -/

/-- The byte of one withheld store at an address, if it covers it. -/
def whByte (a : Nat) : Wh → Option Byte
  | .store b d => if b ≤ a then d[a - b]? else none
  | .storeQ b d => if b ≤ a then d[a - b]? else none
  | .storeK b d => if b ≤ a then d[a - b]? else none
  | .scatter _ ws => ws.foldl (fun r w =>
      if w.1 ≤ a ∧ a < w.1 + 4 then some (BitVec.ofNat 8 (w.2.toNat / 2 ^ (8 * (a - w.1)))) else r) none
  | _ => none

/-- The youngest withheld byte at an address. -/
def fwdByte (a : Nat) (l : List WhE) : Option Byte :=
  l.foldl (fun r e => match whByte a e.w with
    | some b => some b
    | none => r) none

/-- A byte of the own scratchpad as the context reads it: with forwarding in the primary only (R112). -/
def spByte (fo : Focus) (c : Core) (a : Nat) : Byte :=
  match fo.ctx with
  | .prim => (match fwdByte a c.withheld with
    | some b => b
    | none => memRead c.sp a)
  | _ => memRead c.sp a

def spBytes (fo : Focus) (c : Core) (a n : Nat) : List Byte := (List.range n).map (fun i => spByte fo c (a + i))

/-- A doubleword of spill memory with forwarding (R65, R112). -/
def rdSpill (c : Core) (off : Nat) : Word :=
  c.withheld.foldl (fun r e => match e.w with
    | .spill o v => if o = off then v else r
    | _ => r) (spGet 0 c.spill off)

/-- Size of the local storage a context addresses: 1.5 MiB of scratchpad, 64 KiB for a gateway (R16, R17). -/
def spSize (fo : Focus) : Nat :=
  match fo.ctx with
  | .gate => 0x10000
  | _ => 0x180000

/-- An access meets a fenced bank (R357). -/
def meetsFence (fences a n : Nat) : Bool :=
  (List.range 3).any (fun b => bit fences b && decide (n ≠ 0 ∧ a / 0x80000 ≤ b ∧ b ≤ (a + n - 1) / 0x80000))

/-- The range check of R16, with the fences of R357. -/
def inRange (fo : Focus) (c : Core) (a n : Nat) : Bool :=
  a + n ≤ spSize fo && !meetsFence c.fences a n

/-! ### Cause codes (R34, R380) -/

def cLOCALRANGE : Nat := 0x10
def cMISALIGN : Nat := 0x11
def cILLEGAL : Nat := 0x12
def cWITHHOLD : Nat := 0x13
def cPENDING : Nat := 0x14
def cUNITBUSY : Nat := 0x15
def cTWAITAHEAD : Nat := 0x16
def cHELPERBUSY : Nat := 0x17
def cJUMPRANGE : Nat := 0x18
def cPOSTTARGET : Nat := 0x19
def cLISTIMAGE : Nat := 0x1A
def cHANDLEOVER : Nat := 0x1B
def cHANDLEUNDER : Nat := 0x1C
def cHANDLERANGE : Nat := 0x1D
def cHANDLEREMOTE : Nat := 0x1E
def cLIFTFULL : Nat := 0x1F
def cLIFTGATED : Nat := 0x20
def cLIFTEMPTY : Nat := 0x21
def cGRAMNOMASK : Nat := 0x22
def cGRAMTABLE : Nat := 0x23
def cGRAMREJECT : Nat := 0x24
def cGRAMOVER : Nat := 0x25
def cGRAMUNDER : Nat := 0x26
def cKSAMPEMPTY : Nat := 0x27
def cTAPWORD : Nat := 0x28
def cTAPUNDEF : Nat := 0x29
def cSCHEDMISS : Nat := 0x2A
def cENGDESC : Nat := 0x2B
def cENGORDER : Nat := 0x2C
def cGRIDPARITY : Nat := 0x30
def cMEMECC : Nat := 0x31
def cACCECC : Nat := 0x32
def cCODEECC : Nat := 0x33
def cSOFTREPEAT : Nat := 0x34
def cSAVEINTEGRITY : Nat := 0x35
def cLOCALECC : Nat := 0x36
def cDUP : Nat := 0x80

/-! ### Rollback and traps (R386 to R391) -/

/-- A flag increment, saturating, with its overflow note (R53). -/
def flagInc (c : Core) (f n : Nat) : Core :=
  let v := (spGet 0 c.f f).toNat + n
  if v ≤ 0xFFFF then { c with f := spSet 0 c.f f (BitVec.ofNat 16 v) }
  else { c with f := spSet 0 c.f f 0xFFFF, fovf := true, fidx := if c.fovf then c.fidx else f }

/-- The counts taken by the primary's FWAITs since the checkpoint go back, saturating (R133). -/
def giveBack (f : Sparse (BitVec 16)) (taken : Sparse Nat) : Sparse (BitVec 16) :=
  taken.foldl (fun m t => spSet 0 m t.1 (BitVec.ofNat 16 (min ((spGet 0 m t.1).toNat + t.2) 0xFFFF))) f

/-- A handle with `n` added to its producer or consumer count, modulo 2^32 (R56, R128). -/
def handleAdd (d : BitVec 128) (prod : Bool) (n : Int) : BitVec 128 :=
  let v := d.toNat
  if prod then BitVec.ofNat 128 (setBits v 63 32 (wrapN 32 ((bits v 63 32 : Nat) + n)))
  else BitVec.ofNat 128 (setBits v 31 0 (wrapN 32 ((bits v 31 0 : Nat) + n)))

/-- The primary's own handle advances since the checkpoint are subtracted (R128). -/
def undoHandles (m : Sparse (BitVec 128)) (l : List (Nat × Bool × Nat)) : Sparse (BitVec 128) :=
  l.foldl (fun m e => spSet 0 m e.1 (handleAdd (spGet 0 m e.1) e.2.1 (-(e.2.2 : Int)))) m

/-- Withheld LIFTs give their FREE slots back (R129). -/
def liftsHeld (l : List WhE) : Nat :=
  natSum (l.map (fun e => match e.w with
    | .lift _ => 1
    | _ => 0))

/-- LIFTs whose fall of FREE stands at the end of this cycle. -/
def liftsNow (l : List Pend) : Nat :=
  natSum (l.map (fun e => natSum (e.effs.map (fun x => match x with
    | .liftFall => 1
    | _ => 0))))

/-- The rollback of R386: withheld effects and results since the checkpoint are discarded, the shadow restored. -/
def rollback (c : Core) : Core :=
  { c with
    p := c.shadow, since := 0,
    withheld := [], newWith := [],
    liftFree := c.liftFree + liftsHeld c.withheld,
    f := giveBack c.f c.fTaken, fTaken := [],
    handles := undoHandles c.handles c.hTaken, hTaken := [],
    lists := c.listSave.foldl (fun m e => spSet candList0 m e.1 e.2) c.lists, listSave := [] }

/-- The soft causes: an uncorrectable error that calls for rollback, and DUP_MISMATCH (R379). -/
def softCause (cause : Nat) : Bool := cause = cGRIDPARITY || cause = cLOCALECC || cause = cDUP

/-- TRAPREC0 (R391). -/
def trapRecord (cause slot soft bundle region : Nat) : Word :=
  BitVec.ofNat 64 (cause * 2 ^ 56 + slot * 2 ^ 53 + soft * 2 ^ 45 + bundle * 2 ^ 31 + region)

/-- TAKING A TRAP of the primary: rollback, the record, sixteen cycles of restore; a second soft failure of a region is
SOFT_REPEAT (R379, R386, R389, R391). -/
def primTrap (cause slot bundle : Nat) (value : Word) (jobt : Nat) (c : Core) : Core :=
  let rep := softCause cause && c.retry
  let cause' := if rep then cSOFTREPEAT else cause
  let first := if rep then c.softFirst else 0
  let soft := softCause cause && !c.retry
  let r := rollback c
  { r with
    run := .restore 16 soft cause',
    retry := c.retry || softCause cause,
    softcnt := if soft then min (c.softcnt + 1) 0xFFFFFFFF else c.softcnt,
    softFirst := if soft then cause else c.softFirst,
    trapRec0 := trapRecord cause' slot first bundle c.region,
    trapRec1 := value,
    trapRec2 := BitVec.ofNat 64 jobt,
    cyc := { c.cyc with trapped := true } }

/-- TAKING A TRAP of a helper: it stops precisely, its status naming the operation; after the primary has halted it is
released at once (R100, R379, R222, R226). -/
def helperTrap (h cause bundle pos : Nat) (c : Core) : Core :=
  let x := c.helper h
  let d := c.setHelper h { x with
    st := if c.run = .halted then .released else .trapped, cause := cause, pc := bundle, pos := pos, next := none }
  { d with cyc := { d.cyc with trig := d.cyc.trig ++ [(0x39, h, bundle, cause)] } }

/-- Position of a slot in the order I0, I1, M, K, Y (R222). -/
def slotPos (slot : Nat) : Nat :=
  match slot with
  | 0 => 0
  | 1 => 1
  | 2 => 2
  | 5 => 3
  | _ => 4

/-- TAKING A TRAP, whatever the context: rollback in the primary, a precise stop in a helper, a stop of the gateway with
its cause (R379, R100, R17). The one operation every trapping meaning calls. -/
def takeTrap (fo : Focus) (cause : Nat) (value : Word) (c : Core) : Core :=
  match fo.ctx with
  | .prim => primTrap cause fo.slot fo.bundle value fo.jobt c
  | .helper h => helperTrap h cause fo.bundle (slotPos fo.slot) c
  | .gate => { c with
      run := .stopped,
      trapRec0 := trapRecord cause fo.slot 0 fo.bundle c.region,
      trapRec1 := value, trapRec2 := BitVec.ofNat 64 fo.jobt,
      cyc := { c.cyc with trapped := true } }

/-- The return from a trap with rollback: at the end of the restore a soft failure issues the region again from the
restored shadow (R386 step 5); a primary trap waits for the policy of R379. -/
def endRestore (c : Core) : Core :=
  match c.run with
  | .restore _ true _ => { c with run := .run }
  | .restore _ false _ => { c with run := .stopped }
  | _ => c

/-- Withholds an effect, or traps WITHHOLD_OVF at its issue (R384). -/
def withhold (fo : Focus) (w : Wh) (c : Core) : Core :=
  if fits c w then withholdNow fo w c else takeTrap fo cWITHHOLD 0 c

/-! ### Bank ports (R61 to R63, R113) -/

/-- The bank of a scratchpad address (R14). -/
def bankOf (a : Nat) : Nat := a / 0x80000

/-- An access of `n` bytes at `a` as parts, one per bank (R61). -/
def partsOf (a n : Nat) : List Part :=
  if bankOf a = bankOf (a + n - 1) then [⟨0, a, n⟩]
  else
    let n0 := (bankOf a + 1) * 0x80000 - a
    [⟨0, a, n0⟩, ⟨1, a + n0, n - n0⟩]

/-- A plain access of field order `fld`. -/
def mkAcc (fld a n : Nat) : Acc := ⟨fld, false, false, [partsOf a n], false, []⟩

/-- An access of several port cycles, one 256-byte chunk in each (R113: QLD, QST, KLD, KST). -/
def chunkAcc (a n : Nat) : Acc :=
  ⟨0, false, false, (List.range ((n + 255) / 256)).map (fun i =>
    [⟨i, a + 256 * i, min 256 (n - 256 * i)⟩]), false, []⟩

/-- The access of VLDX and VSTX: eight lanes in each of eight port cycles, every bank held (R113, R119). -/
def laneAcc (addrs : List Nat) : Acc :=
  ⟨0, false, true, (List.range 8).map (fun m => (List.range 8).map (fun j =>
    ⟨8 * m + j, addrs.getD (8 * m + j) 0, 4⟩)), false, []⟩

/-- A part's data inserted in key order. -/
def putPart (k : Nat) (d : List Byte) : List (Nat × List Byte) → List (Nat × List Byte)
  | [] => [(k, d)]
  | (j, e) :: l => if k < j then (k, d) :: (j, e) :: l else (j, e) :: putPart k d l

/-- All bytes an access has read, in order. -/
def Acc.bytes (a : Acc) : List Byte := a.got.flatMap (·.2)

/-- The access has made all its port cycles. -/
def Acc.doneB (a : Acc) : Bool := a.steps.isEmpty

/-- Banks an access holds while its hold is in progress (R113). -/
def Acc.holds (a : Acc) : List Nat :=
  if a.held then
    (if a.all then [0, 1, 2] else match a.steps with
      | ps :: _ => ps.map (fun p => bankOf p.addr)
      | [] => [])
  else []

/-- An access to all banks that cannot start in this cycle: as the oldest waiting it has the ports that are free, so no younger
access and no lower rank gets them (R62; assumption 20). -/
def waitAll (a : Acc) (y : Cyc) : Cyc :=
  if a.all && !a.held then
    let free := [0, 1, 2].filter (fun b => !y.turns.contains b)
    { y with turns := y.turns ++ free, used := y.used ++ free }
  else y

/-- One cycle of an access against the banks of which `cyc.turns` are taken: parts whose bank is free transfer; a hold
needs all its banks at once. -/
def stepAcc (fo : Focus) (c : Core) (a : Acc) : Acc × Cyc :=
  match a.steps with
  | [] => (a, c.cyc)
  | [ps] =>
    if a.all || a.held then
      let bs := if a.all then [0, 1, 2] else ps.map (fun p => bankOf p.addr)
      if bs.all (fun b => !c.cyc.turns.contains b) then
        ({ a with steps := [], held := false,
                  got := ps.foldl (fun g p => putPart p.key (spBytes fo c p.addr p.len) g) a.got },
         { c.cyc with turns := c.cyc.turns ++ bs, used := c.cyc.used ++ bs })
      else (a, waitAll a c.cyc)
    else
      let free := ps.filter (fun p => !c.cyc.turns.contains (bankOf p.addr))
      let rest := ps.filter (fun p => c.cyc.turns.contains (bankOf p.addr))
      let bs := free.map (fun p => bankOf p.addr)
      ({ a with steps := if rest = [] then [] else [rest],
                got := free.foldl (fun g p => putPart p.key (spBytes fo c p.addr p.len) g) a.got },
       { c.cyc with turns := c.cyc.turns ++ bs, used := if a.ghost then c.cyc.used else c.cyc.used ++ bs })
  | ps :: more =>
    let bs := if a.all then [0, 1, 2] else ps.map (fun p => bankOf p.addr)
    if bs.all (fun b => !c.cyc.turns.contains b) then
      ({ a with steps := more, held := true,
                got := ps.foldl (fun g p => putPart p.key (spBytes fo c p.addr p.len) g) a.got },
       { c.cyc with turns := c.cyc.turns ++ bs, used := c.cyc.used ++ bs })
    else (a, waitAll a c.cyc)

/-- One cycle of several accesses of one operation, in field order (R62). -/
def stepAccs (fo : Focus) (c : Core) : List Acc → List Acc × Cyc
  | [] => ([], c.cyc)
  | a :: l =>
    let (a', cy) := stepAcc fo c a
    let (l', cy') := stepAccs fo { c with cyc := cy } l
    (a' :: l', cy')

end Sys2Proof.Machine
end

