-- ==== Sys2Proof/Machine/Operands.lean ====
section
/-! DEFINITION. Operand forms: grid operands and their beats (02 R45 to R50), stream and handle operands and
post-increments (R52, R57, R85), which registers an operation reads and writes (R51, R216), and which operations a
context may issue where (R90, R91, R98, R108, R414). -/

namespace Sys2Proof.Machine

/-! ### The grid file -/

/-- Row and column of lane `i` of the grid operand with code dd iiiiii (R45, R85). -/
def gridElem (code i : Nat) : Nat × Nat :=
  let n := code % 64
  match code / 64 with
  | 0 => (n, i)
  | 1 => (i, n)
  | 2 => ((n + i) % 64, i)
  | _ => ((n + 64 - i) % 64, i)

/-- Where an element stands in the sparse grid. -/
def gridKey (code i : Nat) : Nat := (gridElem code i).1 * 64 + (gridElem code i).2

/-- A grid operand's vector (R45). -/
def rdGrid (c : Core) (code : Nat) : Vec := (List.range 64).map (fun i => spGet 0 c.p.grid (gridKey code i))

/-- Writes the lanes of a grid operand that `mask` names (R45, R262). -/
def wrGrid (g : Sparse Lane) (code : Nat) (v : Vec) (mask : Word) : Sparse Lane :=
  (List.range 64).foldl (fun m i => if mask.getLsbD i then spSet 0 m (gridKey code i) (lane v i) else m) g

/-- Words a grid operand uses in each of the eight banks (R46). -/
def gridWords (code : Nat) : List Nat :=
  let n := code % 64
  (List.range 8).map (fun b =>
    match code / 64 with
    | 0 => 8
    | 1 => 8
    | 2 => if b = n % 8 || b = (n + 4) % 8 then 32 else 0
    | _ => if b % 2 = n % 2 then 16 else 0)

def addWords (a b : List Nat) : List Nat := List.zipWith (· + ·) a b

/-- The words per bank of several operands. -/
def wordsOf (codes : List Nat) : List Nat :=
  codes.foldl (fun a k => addWords a (gridWords k)) (List.replicate 8 0)

/-- The read beats B of a bundle (R47). DEDUCED: a bundle that reads no grid operand has B = 1, so that a helper's read that
needs one beat leaves B unchanged (R50; assumption 21). -/
def beatsOf (words : List Nat) : Nat := words.foldl (fun m w => max m ((w + 15) / 16)) 1

/-! ### Nine-bit operand fields (R85) -/

/-- The grid code of a field of the grid kind. -/
def fGrid (f : BitVec 9) : List Nat := if f.toNat < 256 then [f.toNat] else []

/-- Is the field a stream operand? -/
def fStream (f : BitVec 9) : Bool := bits f.toNat 8 7 = 2

/-- The step of a post-increment code; code 7 takes the other register of the pair as a signed stride (R52, R85). -/
def stepOf (fo : Focus) (c : Core) (a k : Nat) : Int :=
  match k with
  | 0 => 0
  | 1 => 256
  | 2 => 512
  | 3 => -256
  | 4 => 64
  | 5 => 128
  | 6 => 32
  | _ => sext 32 (rdA fo c (Nat.xor a 1)).toNat

/-- The pointer after its step, wrapped modulo 2^32. -/
def bumped (fo : Focus) (c : Core) (a k : Nat) : Lane :=
  BitVec.ofNat 32 (wrapN 32 (((rdA fo c a).toNat : Int) + stepOf fo c a k))

/-- The post-increment of pointer `a` by code `k` (R85, R118). DESIGN CHOICE (assumption 151): code 0, a step of 0, is no write of
the pointer. -/
def bumpEff (fo : Focus) (c : Core) (a k : Nat) : List Eff := if k = 0 then [] else [effA fo a (bumped fo c a k)]

/-- Fields of a ring handle (R56). -/
def hProd (d : BitVec 128) : Nat := bits d.toNat 63 32
def hCons (d : BitVec 128) : Nat := bits d.toNat 31 0
def hRv (d : BitVec 128) : Bool := bit d.toNat 127
def hRcore (d : BitVec 128) : Nat := bits d.toNat 126 118
def hRh (d : BitVec 128) : Nat := bits d.toNat 117 114
def hLog (d : BitVec 128) : Nat := bits d.toNat 99 96
def hSlot (d : BitVec 128) : Nat := if bits d.toNat 95 90 = 0 then 64 else bits d.toNat 95 90
def hBase (d : BitVec 128) : Nat := bits d.toNat 89 77 * 256
def hFilled (d : BitVec 128) : Nat := wrapN 32 ((hProd d : Int) - hCons d)
def hSlots (d : BitVec 128) : Nat := 2 ^ hLog d

/-- A descriptor that R56 accepts. -/
def hOk (d : BitVec 128) : Bool :=
  hLog d ≤ 8 && bits d.toNat 113 100 = 0 && bits d.toNat 76 64 = 0
  && hBase d + hSlots d * hSlot d * 256 ≤ 0x180000

/-- Address of the slot at count `p` plus offset `o` (R57). -/
def hAddr (d : BitVec 128) (p o : Nat) : Nat := hBase d + ((p + o) % hSlots d) * hSlot d * 256

def rdHandle (c : Core) (h : Nat) : BitVec 128 := spGet 0 c.handles h

/-- The scratchpad address of a stream or handle field; a handle is read at CONS and written at PROD (R57, R85). -/
def fAddr (fo : Focus) (c : Core) (f : BitVec 9) (wr : Bool) : Option Nat :=
  let n := f.toNat
  if n < 256 then none
  else if n < 384 then some (rdA fo c (bits n 6 3)).toNat
  else
    let d := rdHandle c (bits n 6 3)
    some (hAddr d (if wr then hProd d else hCons d) (bits n 2 0))

/-- The post-increment a field makes. -/
def fBump (fo : Focus) (c : Core) (f : BitVec 9) : List Eff :=
  if fStream f then bumpEff fo c (bits f.toNat 6 3) (bits f.toNat 2 0) else []

/-- The pointer a field post-increments, if it does. -/
def fPtr (f : BitVec 9) : List Nat :=
  if fStream f && bits f.toNat 2 0 ≠ 0 then [bits f.toNat 6 3] else []

/-- The destination a field names at issue. -/
def fDst (fo : Focus) (c : Core) (f : BitVec 9) : VDst :=
  match fAddr fo c f true with
  | none => .grid f.toNat
  | some a => .mem a

/-! ### What an operation reads and writes -/

/-- The V-class operand fields of an operation: those read, and the one written (R259, R326). -/
def vFields : Instr → List (BitVec 9) × List (BitVec 9)
  | .vadd _ _ d x y => ([x, y], [d])
  | .vsub _ _ d x y => ([x, y], [d])
  | .vmul _ _ d x y => ([x, y], [d])
  | .vfma _ _ d x y => ([x, y, d], [d])
  | .vfms _ _ d x y => ([x, y, d], [d])
  | .vmin _ _ d x y => ([x, y], [d])
  | .vmax _ _ d x y => ([x, y], [d])
  | .vabs _ _ d x => ([x], [d])
  | .vneg _ _ d x => ([x], [d])
  | .vcmp _ _ _ _ _ x y => ([x, y], [])
  | .vsel _ _ d x y => ([x, y], [d])
  | .vcvt _ _ d x _ _ _ _ => ([x], [d])
  | .vand _ _ d x y => ([x, y], [d])
  | .vor _ _ d x y => ([x, y], [d])
  | .vxor _ _ d x y => ([x, y], [d])
  | .vshl _ _ d x y => ([x, y], [d])
  | .vshr _ _ d x y => ([x, y], [d])
  | .vsar _ _ d x y => ([x, y], [d])
  | .vrcp _ _ d x => ([x], [d])
  | .vrsq _ _ d x => ([x], [d])
  | .vexp2 _ _ d x => ([x], [d])
  | .vlog2 _ _ d x => ([x], [d])
  | .vtanh _ _ d x => ([x], [d])
  | .vred _ _ d x _ _ => ([x], [d])
  | .vscan _ _ d x _ _ => ([x], [d])
  | .vperm _ _ d x y => ([x, y], [d])
  | .vbc _ _ d x _ => ([x], [d])
  | .viota _ _ d => ([], [d])
  | .vmov _ _ d x => ([x], [d])
  | .vrand _ _ d x y => ([x, y], [d])
  | .vclamp _ _ d x y => ([x, y, d], [d])
  | .vpack _ _ d x _ _ _ _ => ([x, d], [d])
  | .vunpk _ _ d x _ _ _ _ => ([x], [d])
  | .baddq _ _ d x y => ([x, y], [d])
  | .tap _ _ x _ => ([x], [])
  | .tapfin _ _ d _ => ([], [d])
  | .vsteer _ _ d x _ => ([x], [d])
  | .qset _ _ _ x y => ([x, y], [])
  | .qscale _ _ _ _ y => ([y], [])
  | .qshift _ _ _ _ y => ([y], [])
  | .qmix _ _ _ _ y => ([y], [])
  | .qmom _ _ d _ _ => ([], [d])
  | .qquant _ _ d _ y => ([y], [d])
  | .qsamp _ _ d _ y => ([y], [d])
  | _ => ([], [])

/-- The grid operands an operation reads (R47). -/
def gridReads (i : Instr) : List Nat :=
  match i with
  | .vst g _ _ _ => [g.toNat]
  | .vldx _ _ i => [i.toNat]
  | .vstx g _ i => [g.toNat, i.toNat]
  | .lift g => [g.toNat]
  | .hpush g _ => [g.toNat]
  | .kmerge _ g _ _ => [g.toNat]
  | .kmergel _ g _ _ => [g.toNat]
  | .ksort _ g s => if s = 0 then [g.toNat] else []
  | .ksamp _ g _ _ => [g.toNat]
  | i => (vFields i).1.flatMap fGrid

/-- The grid operands an operation writes (R49). -/
def gridWrites (i : Instr) : List Nat :=
  match i with
  | .vld g _ _ _ => [g.toNat]
  | .vldx g _ _ => [g.toNat]
  | .lpop g => [g.toNat]
  | .hpop g _ => [g.toNat]
  | .ktop _ g _ => [g.toNat]
  | i => (vFields i).2.flatMap fGrid

/-- Operations of the transcendental, distribution and tap units, in V1 only (R94, R260, R326, R346). -/
def v1Only : Instr → Bool
  | .vrcp _ _ _ _ => true
  | .vrsq _ _ _ _ => true
  | .vexp2 _ _ _ _ => true
  | .vlog2 _ _ _ _ => true
  | .vtanh _ _ _ _ => true
  | .tap _ _ _ _ => true
  | .tapfin _ _ _ _ => true
  | .vsteer _ _ _ _ _ => true
  | .qset _ _ _ _ _ => true
  | .qadd _ _ _ _ _ => true
  | .qmul _ _ _ _ _ => true
  | .qscale _ _ _ _ _ => true
  | .qshift _ _ _ _ _ => true
  | .qmix _ _ _ _ _ => true
  | .qcond _ _ _ _ _ => true
  | .qmom _ _ _ _ _ => true
  | .qquant _ _ _ _ _ => true
  | .qtag _ _ _ _ => true
  | .qsamp _ _ _ _ _ => true
  | _ => false

/-- Signed branch offset (R82). -/
def offOf (o : BitVec 18) : Int := sext 18 o.toNat

/-- The branch offset of a transfer that has one (R82). -/
def brOff : Instr → Option Int
  | .br _ _ o => some (offOf o)
  | .brz _ o => some (offOf o)
  | .brnz _ o => some (offOf o)
  | .call o => some (offOf o)
  | .loop _ o => some (offOf o)
  | _ => none

/-- The transfers (R251). -/
def isTransfer : Instr → Bool
  | .br _ _ _ => true
  | .brz _ _ => true
  | .brnz _ _ => true
  | .jmp _ => true
  | .call _ => true
  | .loop _ _ => true
  | _ => false

/-- What may not stand in a delay slot or a repetition: transfers, REP, HALT (R251, R255). -/
def noDelay : Instr → Bool
  | .rep _ _ _ => true
  | .halt _ => true
  | i => isTransfer i

/-- The control-flow operations, 0x58 to 0x61 (R92). -/
def isControl : Instr → Bool
  | .start _ _ _ => true
  | .trap _ _ => true
  | i => noDelay i

/-- NIL and HOLD of any class (R80). -/
def isNil : Instr → Bool
  | .nilI => true
  | .nilM => true
  | .nilV => true
  | .nilK => true
  | .nilE => true
  | .nilY => true
  | _ => false

def isHold : Instr → Bool
  | .holdI => true
  | .holdM => true
  | .holdV => true
  | .holdK => true
  | .holdE => true
  | .holdY => true
  | _ => false

/-- Operations legal only in the primary (R98 case 6). -/
def primOnly : Instr → Bool
  | .adda _ _ _ => true
  | .mva _ _ => true
  | .mvs _ _ => true
  | .spld _ _ => true
  | .spst _ _ => true
  | .loop _ _ => true
  | .rep _ _ _ => true
  | .start _ _ _ => true
  | .mtc _ _ => true
  | .qld _ _ _ => true
  | .qst _ _ _ => true
  | .ckpt => true
  | .chk _ => true
  | .halt m => m ≠ 0
  | .br c _ _ => c ≠ 0
  | _ => false

/-- Operations legal only in helpers (and, but for CINV and CCLEAN, in gateways) (R98 case 6, R414). -/
def helperOnly : Instr → Bool
  | .gld _ _ _ _ => true
  | .gst _ _ _ _ => true
  | .gatom _ _ _ _ _ => true
  | .cinv _ _ => true
  | .cclean _ _ => true
  | _ => false

/-- The matrix commands and CNEXT, illegal on an upper core (R288, R149). -/
def baseOnly : Instr → Bool
  | .mmul _ _ _ _ _ => true
  | .mdrain _ _ _ _ => true
  | .bfill _ _ _ => true
  | .mcode _ => true
  | .swap _ _ _ => true
  | .cnext _ _ _ _ _ _ => true
  | .lift _ => true
  | _ => false

/-- Scalar registers an operation reads, by field (R240, R115). -/
def srcs : Instr → List Nat
  | .add _ x y => [x.toNat, y.toNat]
  | .sub _ x y => [x.toNat, y.toNat]
  | .addi _ x _ => [x.toNat]
  | .addsh _ x y _ => [x.toNat, y.toNat]
  | .mul _ x y => [x.toNat, y.toNat]
  | .mulh _ x y => [x.toNat, y.toNat]
  | .mulhn _ x y => [x.toNat, y.toNat]
  | .div _ x y => [x.toNat, y.toNat]
  | .divn _ x y => [x.toNat, y.toNat]
  | .and _ x y => [x.toNat, y.toNat]
  | .or _ x y => [x.toNat, y.toNat]
  | .xor _ x y => [x.toNat, y.toNat]
  | .andn _ x y => [x.toNat, y.toNat]
  | .andi _ x _ => [x.toNat]
  | .ori _ x _ => [x.toNat]
  | .xori _ x _ => [x.toNat]
  | .shl _ x y => [x.toNat, y.toNat]
  | .shr _ x y => [x.toNat, y.toNat]
  | .sar _ x y => [x.toNat, y.toNat]
  | .rol _ x y => [x.toNat, y.toNat]
  | .shli _ x _ => [x.toNat]
  | .shri _ x _ => [x.toNat]
  | .sari _ x _ => [x.toNat]
  | .cmp _ x y _ => [x.toNat, y.toNat]
  | .cmpi _ x _ => [x.toNat]
  | .min _ x y => [x.toNat, y.toNat]
  | .max _ x y => [x.toNat, y.toNat]
  | .minn _ x y => [x.toNat, y.toNat]
  | .maxn _ x y => [x.toNat, y.toNat]
  | .sel _ x y s => [x.toNat, y.toNat, s.toNat]
  | .lui d _ => [d.toNat]
  | .clz _ x => [x.toNat]
  | .ctz _ x => [x.toNat]
  | .popc _ x => [x.toNat]
  | .bfx _ x _ _ => [x.toNat]
  | .bfi d x _ _ => [d.toNat, x.toNat]
  | .fadd _ x y => [x.toNat, y.toNat]
  | .fsub _ x y => [x.toNat, y.toNat]
  | .fmul _ x y => [x.toNat, y.toNat]
  | .fma _ x y z => [x.toNat, y.toNat, z.toNat]
  | .fmin _ x y => [x.toNat, y.toNat]
  | .fmax _ x y => [x.toNat, y.toNat]
  | .fcmp _ x y _ => [x.toNat, y.toNat]
  | .fcvt _ x _ _ => [x.toNat]
  | .brz x _ => [x.toNat]
  | .brnz x _ => [x.toNat]
  | .jmp x => [x.toNat]
  | .trap d _ => [d.toNat]
  | .ld _ x _ _ => [x.toNat]
  | .st d x _ _ => [d.toNat, x.toNat]
  | .ldacq _ x _ => [x.toNat]
  | .strel d x _ => [d.toNat, x.toNat]
  | .xld _ x _ _ => [x.toNat]
  | .xst d x _ _ => [d.toNat, x.toNat]
  | .vld _ a k _ => if k = 7 then [a.toNat, Nat.xor a.toNat 1] else [a.toNat]
  | .vst _ a k _ => if k = 7 then [a.toNat, Nat.xor a.toNat 1] else [a.toNat]
  | .vldx _ a _ => [a.toNat]
  | .vstx _ a _ => [a.toNat]
  | .kld _ a k => if k = 7 then [a.toNat, Nat.xor a.toNat 1] else [a.toNat]
  | .kst _ a k => if k = 7 then [a.toNat, Nat.xor a.toNat 1] else [a.toNat]
  | .gld _ x _ _ => [x.toNat]
  | .gst d x _ _ => [d.toNat, x.toNat]
  | .gatom d x y _ _ => [d.toNat, x.toNat, y.toNat]
  | .cinv x _ => [x.toNat]
  | .cclean x _ => [x.toNat]
  | .kmerge _ _ a _ => [a.toNat]
  | .kmergel _ _ a _ => [a.toNat]
  | .ksamp _ _ a _ => [a.toNat]
  | .ksend _ a => [a.toNat]
  | .gsetLd a => [a.toNat]
  | .gsetSt a => [a.toNat]
  | .gsetRs a => [a.toNat]
  | .gstep a => [a.toNat]
  | .fpostx _ r _ => [r.toNat]
  | .twait _ r => [r.toNat]
  | _ => []

/-- Scalar registers an operation writes, by field. A gateway's and the primary's CALL writes s63, a helper's x31. -/
def dsts (fo : Focus) : Instr → List Nat
  | .add d _ _ => [d.toNat]
  | .sub d _ _ => [d.toNat]
  | .addi d _ _ => [d.toNat]
  | .addsh d _ _ _ => [d.toNat]
  | .mul d _ _ => [d.toNat]
  | .mulh d _ _ => [d.toNat]
  | .mulhn d _ _ => [d.toNat]
  | .div d _ _ => [d.toNat]
  | .divn d _ _ => [d.toNat]
  | .and d _ _ => [d.toNat]
  | .or d _ _ => [d.toNat]
  | .xor d _ _ => [d.toNat]
  | .andn d _ _ => [d.toNat]
  | .andi d _ _ => [d.toNat]
  | .ori d _ _ => [d.toNat]
  | .xori d _ _ => [d.toNat]
  | .shl d _ _ => [d.toNat]
  | .shr d _ _ => [d.toNat]
  | .sar d _ _ => [d.toNat]
  | .rol d _ _ => [d.toNat]
  | .shli d _ _ => [d.toNat]
  | .shri d _ _ => [d.toNat]
  | .sari d _ _ => [d.toNat]
  | .cmp d _ _ _ => [d.toNat]
  | .cmpi d _ _ => [d.toNat]
  | .min d _ _ => [d.toNat]
  | .max d _ _ => [d.toNat]
  | .minn d _ _ => [d.toNat]
  | .maxn d _ _ => [d.toNat]
  | .sel d _ _ _ => [d.toNat]
  | .movi d _ => [d.toNat]
  | .lui d _ => [d.toNat]
  | .clz d _ => [d.toNat]
  | .ctz d _ => [d.toNat]
  | .popc d _ => [d.toNat]
  | .bfx d _ _ _ => [d.toNat]
  | .bfi d _ _ _ => [d.toNat]
  | .mvs d _ => [d.toNat]
  | .spld d _ => [d.toNat]
  | .fadd d _ _ => [d.toNat]
  | .fsub d _ _ => [d.toNat]
  | .fmul d _ _ => [d.toNat]
  | .fma d _ _ _ => [d.toNat]
  | .fmin d _ _ => [d.toNat]
  | .fmax d _ _ => [d.toNat]
  | .fcmp d _ _ _ => [d.toNat]
  | .fcvt d _ _ _ => [d.toNat]
  | .mfc d _ => [d.toNat]
  | .rdt d _ => [d.toNat]
  | .takem d _ => [d.toNat]
  | .call _ => match fo.ctx with
    | .helper _ => [31]
    | _ => [63]
  | .ld d _ _ _ => [d.toNat]
  | .ldacq d _ _ => [d.toNat]
  | .xld d _ _ _ => [d.toNat]
  | .gld d _ _ _ => [d.toNat]
  | .gatom d _ _ _ _ => [d.toNat]
  | .eqry x _ => [x.toNat]
  | .cseal x _ => [x.toNat]
  | .vld _ a k _ => match fo.ctx with
    | .helper _ => if k = 0 then [] else [a.toNat]
    | _ => []
  | .vst _ a k _ => match fo.ctx with
    | .helper _ => if k = 0 then [] else [a.toNat]
    | _ => []
  | .kld _ a k => match fo.ctx with
    | .helper _ => if k = 0 then [] else [a.toNat]
    | _ => []
  | .kst _ a k => match fo.ctx with
    | .helper _ => if k = 0 then [] else [a.toNat]
    | _ => []
  | .kmerge _ _ a _ => match fo.ctx with
    | .helper _ => [a.toNat]
    | _ => []
  | .kmergel _ _ a _ => match fo.ctx with
    | .helper _ => [a.toNat]
    | _ => []
  | _ => []

/-- The base latency with which a scalar result lands (R101, R241 to R249, R154, R157). -/
def latS : Instr → Nat
  | .mul _ _ _ => 3
  | .mulh _ _ _ => 3
  | .mulhn _ _ _ => 3
  | .div _ _ _ => 18
  | .divn _ _ _ => 18
  | .fadd _ _ _ => 4
  | .fsub _ _ _ => 4
  | .fmul _ _ _ => 4
  | .fma _ _ _ _ => 4
  | .fcvt _ _ _ _ => 2
  | .ld _ _ _ _ => 4
  | .ldacq _ _ _ => 4
  | .xld _ _ _ _ => 24
  | .eqry _ _ => 2
  | _ => 1

/-- The operations the Y class waits with (R132): FWAIT, TWAIT, HWAIT, HFREE, MWAIT, LWAIT, PHASE, FENCE. -/
def isWait : Instr → Bool
  | .fwait _ _ => true
  | .twait _ _ => true
  | .hwait _ _ => true
  | .hfree _ _ => true
  | .mwait _ => true
  | .lwait _ => true
  | .phase => true
  | .fence => true
  | _ => false

/-- Control registers of the gateway alone (R414, R416). -/
def gateReg (n : Nat) : Bool := n = 0x600 || n = 0x601

/-- What a gateway accepts, by slot: I0, M, V0 and Y (R414). -/
def gateOk (fo : Focus) : Instr → Bool
  | .mfc _ n => fo.slot = 0 && (n.toNat = 4 || gateReg n.toNat)
  | .mtc _ n => fo.slot = 0 && (n.toNat = 4 || n.toNat = 0x601)
  | .halt m => fo.slot = 0 && m = 0
  | .spld _ _ => false
  | .spst _ _ => false
  | .takem _ _ => false
  | .start _ _ _ => false
  | .rep _ _ _ => false
  | .ld _ _ _ _ => fo.slot = 2
  | .st _ _ _ _ => fo.slot = 2
  | .ldacq _ _ _ => fo.slot = 2
  | .strel _ _ _ => fo.slot = 2
  | .vld _ _ _ _ => fo.slot = 2
  | .vst _ _ _ _ => fo.slot = 2
  | .vldx _ _ _ => fo.slot = 2
  | .vstx _ _ _ => fo.slot = 2
  | .gld _ _ _ _ => fo.slot = 2
  | .gst _ _ _ _ => fo.slot = 2
  | .gatom _ _ _ _ _ => fo.slot = 2
  | .fpostx _ _ _ => fo.slot = 7
  | .phase => fo.slot = 7
  | .fence => fo.slot = 7
  | i => match classOf i with
    | some .I => fo.slot = 0
    | some .V => fo.slot = 3 && !v1Only i
    | _ => false

/-- The operation may be issued here by this context (R90, R91, R98 cases 4 to 6, R108, R251, R255, R414). DESIGN CHOICE: HOLD,
which R414's list does not name, is accepted in the slots of a gateway bundle that take operations (assumption 22). -/
def legal (fo : Focus) (c : Core) (i : Instr) : Bool :=
  wf i && classOf i = some (slotCls fo.slot)
  && (match brOff i with
      | none => true
      | some o => decide (0 ≤ (fo.bundle : Int) + o ∧ (fo.bundle : Int) + o < (match fo.ctx with
        | .gate => 2048
        | _ => 16384)))
  && (isNil i || isHold i && (match fo.ctx with
      | .helper _ => false
      | .gate => fo.slot = 0 || fo.slot = 2 || fo.slot = 3 || fo.slot = 7
      | .prim => true)
    || (!isNil i && !isHold i && (match fo.ctx with
      | .gate => gateOk fo i && !(noDelay i && c.p.slotDue)
      | .prim =>
        !helperOnly i && (!isControl i || fo.slot = 1) && (!v1Only i || fo.slot = 4)
        && !(c.upper && baseOnly i) && !(!c.upper && (match i with
          | .lpop _ => true
          | _ => false))
        && !(noDelay i && (c.p.slotDue || c.p.rep.isSome))
        && (match i with
          | .chk _ => c.schk
          | .mfc _ n => !gateReg n.toNat
          | .mtc _ n => !gateReg n.toNat
          | _ => true)
      | .helper _ =>
        !primOnly i && !(c.upper && baseOnly i) && !(!c.upper && (match i with
          | .lpop _ => true
          | _ => false))
        && (match classOf i with
          | some .V => false
          | some .E => false
          | _ => true)
        && (match i with
          | .mfc _ n => !gateReg n.toNat
          | _ => true)
        && (srcs i ++ dsts fo i).all (fun r => r < 32))))

end Sys2Proof.Machine
end

