-- ==== Sys2Proof/Machine/Flags.lean ====
section
/-! DEFINITION. Flag and status computations: FPSTAT (07 R200), QSTAT (13 R340), KSTAT (12 R320), STORESTAT (02 R54),
ENGSTAT (05 R163), MATSTAT (11 R298), CKSTAT (16 R391), LIFTSTAT (04 R130), HSTAT (08 R222), the inbox registers
(08 R234) and what clearing and setting do. -/

namespace Sys2Proof.Machine

/-- FPSTAT as a context reads it: its own bits 5..0, and in the primary the matrix-path field (R200). -/
def fpstatOf (fo : Focus) (c : Core) : Word :=
  match fo.ctx with
  | .helper h => (c.helper h).fpstat.setWidth 64
  | .prim => c.p.fpstat.setWidth 64 ||| ((c.mat.fpm &&& 0x37).setWidth 64 <<< 8)
  | .gate => c.p.fpstat.setWidth 64

/-- A saturating 16-bit counter (R196 sat16). -/
def sat16 (n : Nat) : Nat := min n 0xFFFF

/-- QSTAT after an operation's notes (R340). -/
def qstatNote (q : Word) (n : QNote) : Word :=
  let v := q.toNat
  let m := sat16 (bits v 31 16 + n.merges)
  let b := setBits v 31 16 m
  BitVec.ofNat 64 b ||| (if n.nanv then 8 else 0) ||| (if n.badw then 4 else 0)
    ||| (if n.empty then 2 else 0) ||| (if n.coupled then 1 else 0)

/-- KSTAT after counts and marks (R320). -/
def kstatNote (k : Word) (nan held mcmiss : Nat) (empty badt : Bool) : Word :=
  let v := k.toNat
  let v1 := setBits v 15 0 (sat16 (bits v 15 0 + nan))
  let v2 := setBits v1 31 16 (sat16 (bits v1 31 16 + held))
  let v3 := setBits v2 63 48 (sat16 (bits v2 63 48 + mcmiss))
  BitVec.ofNat 64 v3 ||| (if empty then 0x100000000 else 0) ||| (if badt then 0x200000000 else 0)

/-- STORESTAT (R54). -/
def storestatOf (c : Core) : Word :=
  BitVec.ofNat 64 (c.cecnt * 2 ^ 16 + c.fidx * 2 ^ 9 + b2n c.fovf * 2 ^ 8 + c.retmask)

/-- ENGSTAT (R163). -/
def engstatOf (c : Core) : Word :=
  let st (q : Nat) : Nat := b2n ((c.eng.qs.getD q copyQ0).stop)
  BitVec.ofNat 64 (c.eng.cause * 2 ^ 40 + c.eng.eq * 2 ^ 38
    + (st 3 * 8 + st 2 * 4 + st 1 * 2 + st 0) * 2 ^ 32 + c.eng.tsb.length * 2 ^ 16 + c.eng.oor)

/-- Commands on the matrix timeline not yet counted (R298 PEND). -/
def matPend (m : Mat) : Nat := m.cmds.length

/-- MATSTAT (R298). -/
def matstatOf (c : Core) : Word :=
  BitVec.ofNat 64 (c.mat.cause * 2 ^ 40 + c.mat.cmdNo * 2 ^ 37 + b2n c.mat.stopped * 2 ^ 36
    + matPend c.mat * 2 ^ 24 + b2n c.mat.code * 2 ^ 16 + c.mat.aretry)

/-- CKSTAT (R391). -/
def ckstatOf (c : Core) : Word :=
  BitVec.ofNat 64 (c.region * 2 ^ 50 + c.cmdUse * 2 ^ 33 + c.msgUse * 2 ^ 25 + c.storeUse * 2 ^ 16 + b2n c.retry)

/-- Entries of base core k that an upper core may pop (R129). -/
def liftFill (c : Core) (k : Nat) : Nat := (c.lift.filter (fun e => e.1 = k && e.2.1 = 0)).length

/-- LIFTSTAT (R130). -/
def liftstatOf (c : Core) : Word :=
  BitVec.ofNat 64 (c.gate * 2 ^ 32 + (if c.upper then
    liftFill c 3 * 2 ^ 15 + liftFill c 2 * 2 ^ 10 + liftFill c 1 * 2 ^ 5 + liftFill c 0
    else c.liftFree * 2 ^ 20))

/-- HSTATn's WAIT field and SUM are computed from readiness, which the cycle knows; `w` is the WAIT code (R222). -/
def hstatOf (x : Helper) (w : Nat) : Word :=
  let st := match x.st with
    | .free => 0
    | .live => 1
    | .faulted => 2
    | .trapped => 3
    | .halted => 4
    | .abandoned => 5
    | .released => 6
  let sum := match x.st with
    | .live => if w = 0 then 1 else 2
    | .faulted => 3
    | .trapped => 3
    | _ => 0
  BitVec.ofNat 64 (x.cause * 2 ^ 32 + x.pc * 2 ^ 18 + x.pos * 2 ^ 15
    + (if x.st = .live then w else 0) * 2 ^ 5 + st * 4 + sum)

/-- INBOXSTAT (R234). -/
def inboxstatOf (c : Core) : Word :=
  let old := match c.inbox with
    | e :: _ => e.1
    | [] => 0
  BitVec.ofNat 64 (c.wakes * 2 ^ 32 + min c.recvHeld.length 255 * 2 ^ 16 + old * 2 ^ 8 + c.inbox.length)

/-- BARREL (R217). -/
def barrelOf (c : Core) : Word :=
  BitVec.ofNat 64 (c.lastY * 2 ^ 12 + c.lastK * 2 ^ 8 + c.lastM * 2 ^ 4 + c.lastI)

/-- Flags a landing sets in the context that issued the operation (R200). -/
def setFlags (who : Ctx) (fl : Flags) (c : Core) : Core :=
  match who with
  | .helper h => c.setHelper h { c.helper h with fpstat := (c.helper h).fpstat ||| fl }
  | _ => { c with p := { c.p with fpstat := c.p.fpstat ||| fl } }

/-- Flags an MTC of FPSTAT clears (W1C, R200). -/
def clearFlags (who : Ctx) (fl : Flags) (c : Core) : Core :=
  match who with
  | .helper h => c.setHelper h { c.helper h with fpstat := (c.helper h).fpstat &&& ~~~ fl }
  | _ => { c with p := { c.p with fpstat := c.p.fpstat &&& ~~~ fl } }

end Sys2Proof.Machine
end

