-- ==== Sys2Proof/Machine/ControlFlow.lean ====
section
/-! DEFINITION. Control flow (09 R249 to R258): clocks and mailboxes read, transfers with their delay slot, repetition,
HALT, START and TRAP, each as a change of the core that issues it. -/

namespace Sys2Proof.Machine

/-- Bundles the code store of the context holds (R71, R414). -/
def codeSize (fo : Focus) : Nat :=
  match fo.ctx with
  | .gate => 2048
  | _ => 16384

/-- A taken transfer: after the delay slot in a primary or gateway, at once in a helper (R251, R253). -/
def goTo (fo : Focus) (target : Nat) (c : Core) : Core :=
  match fo.ctx with
  | .helper h => c.setHelper h { c.helper h with next := some target }
  | _ => { c with cyc := { c.cyc with taken := some target } }

/-- The bundle a signed offset names (R82). -/
def offTo (fo : Focus) (o : BitVec 18) : Nat := ((fo.bundle : Int) + offOf o).toNat

/-- BR's condition (R252). -/
def brCond (c : Core) (k p : Nat) : Bool :=
  match k with
  | 0 => true
  | 1 => rdP c p ≠ 0
  | 2 => rdP c p = BitVec.allOnes 64
  | _ => rdP c p = 0

def opBr (k p : BitVec 2) (o : BitVec 18) (fo : Focus) (c : Core) : Core :=
  if brCond c k.toNat p.toNat then goTo fo (offTo fo o) c else c

def opBrz (x : BitVec 6) (o : BitVec 18) (fo : Focus) (c : Core) : Core :=
  if rdS fo c x.toNat = 0 then goTo fo (offTo fo o) c else c

def opBrnz (x : BitVec 6) (o : BitVec 18) (fo : Focus) (c : Core) : Core :=
  if rdS fo c x.toNat ≠ 0 then goTo fo (offTo fo o) c else c

/-- JMP traps JUMP_RANGE beyond the code store (R252, R414). -/
def opJmp (x : BitVec 6) (fo : Focus) (c : Core) : Core :=
  let t := (rdS fo c x.toNat).toNat
  if t < codeSize fo then goTo fo t c else takeTrap fo cJUMPRANGE 0 c

/-- CALL links s63 := P + 2, in a helper x31 := P + 1 (R252, R253). -/
def opCall (o : BitVec 18) (fo : Focus) (c : Core) : Core :=
  match fo.ctx with
  | .helper _ => goTo fo (offTo fo o) (retireS fo 1 0 31 (BitVec.ofNat 64 (fo.bundle + 1)) c)
  | _ => goTo fo (offTo fo o) (retireS fo 1 0 63 (BitVec.ofNat 64 (fo.bundle + 2)) c)

/-- LOOP (R252): taken when the counter is at least 2; a non-zero counter falls by 1. -/
def opLoop (l : BitVec 2) (o : BitVec 18) (fo : Focus) (c : Core) : Core :=
  let v := spGet 0 c.p.lc l.toNat
  let c1 := if v ≠ 0 then retire fo 1 0 [.lcnt l.toNat (v - 1)] c else c
  if 2 ≤ v.toNat then goTo fo (offTo fo o) c1 else c1

/-- REP (R254): the n bundles after it are the body; the ordinary stream goes on after them. -/
def opRep (r : BitVec 6) (n : BitVec 4) (k : BitVec 14) (fo : Focus) (c : Core) : Core :=
  { c with cyc := { c.cyc with
      repNew := some ⟨fo.bundle + 1, n.toNat + 1, k.toNat + 1, r.toNat, 0, 0, fo.bundle + 2 + n.toNat⟩ } }

/-- HALT (R256, R224, R226): a primary's or gateway's stands until the end of the cycle; a helper becomes HALTED at the
end of the cycle. -/
def opHalt (m : BitVec 4) (fo : Focus) (c : Core) : Core :=
  match fo.ctx with
  | .helper h => retire fo 1 0 [.haltH h] c
  | _ => { c with cyc := { c.cyc with halt := some m.toNat } }

/-- A helper context may be started (R222, R223). -/
def freeState (x : Helper) : Bool :=
  x.st = .free || x.st = .halted || x.st = .abandoned || x.st = .released

/-- A withheld START of the open region names helper `h` (R223). -/
def startHeld (h : Nat) (l : List WhE) : Bool := l.any (fun e => match e.w with
  | .start k _ _ => k = h
  | _ => false)

/-- START (R223, R257): withheld; HELPER_BUSY when the helper is not free. -/
def opStart (d : BitVec 6) (h : BitVec 4) (e : BitVec 14) (fo : Focus) (c : Core) : Core :=
  if freeState (c.helper h.toNat) && !startHeld h.toNat (c.withheld ++ c.newWith) then
    withhold fo (.start h.toNat e.toNat (rdS fo c d.toNat)) c
  else takeTrap fo cHELPERBUSY 0 c

/-- TRAP (R258): the register's value is reported, in HTRAPV for a helper. -/
def opTrap (d : BitVec 6) (k : BitVec 8) (fo : Focus) (c : Core) : Core :=
  let v := rdS fo c d.toNat
  let c1 := takeTrap fo k.toNat v c
  match fo.ctx with
  | .helper h => c1.setHelper h { c1.helper h with trapv := v }
  | _ => c1

/-- RDT (R249). -/
def opRdt (d f : BitVec 6) (fo : Focus) (c : Core) : Core :=
  let v := match f.toNat with
    | 0 => fo.jobt
    | 1 => fo.grat
    | _ => match fo.ctx with
      | .helper h => (c.helper h).iss % 2 ^ 32
      | _ => c.p.iss
  retireS fo 1 0 d.toNat (BitVec.ofNat 64 v) c

/-- Another TAKEM of this cycle already takes the mailbox (R55: nothing falls between its read and its clear). -/
def takenNow (c : Core) (m : Nat) : Bool :=
  c.hpend.any (fun e => e.effs.any (fun x => x = .take m))

/-- Presence as a context sees it (R55, R232). -/
def mbPresent (c : Core) (m : Nat) : Bool :=
  (spGet ((0 : Word), false) c.mb m).2 && !c.p.marks.contains m && !takenNow c m

/-- TAKEM (R250, R232): the primary's clear is withheld and the mailbox marked taken; a helper's clears at the end of
the cycle; of an absent value it returns 0 and changes nothing. -/
def opTakem (d : BitVec 6) (m : BitVec 5) (fo : Focus) (c : Core) : Core :=
  let k := m.toNat
  if mbPresent c k then
    let v := (spGet ((0 : Word), false) c.mb k).1
    let c1 := retireS fo 1 0 d.toNat v c
    match fo.ctx with
    | .helper _ => retire fo 1 0 [.take k] c1
    | _ => if fits c (.takem k) then
        withholdNow fo (.takem k) { c1 with p := { c1.p with marks := c1.p.marks ++ [k] } }
      else takeTrap fo cWITHHOLD 0 c
  else retireS fo 1 0 d.toNat 0 c

end Sys2Proof.Machine
end

