-- ==== Sys2Proof/Machine/System.lean ====
section
/-! DEFINITION. The control registers: what MFC reads and MTC writes (09 R246 to R248 and the maps it names), and when
an MTC takes effect. -/

namespace Sys2Proof.Machine

/-- HADVn and HDENn (R220). -/
def hadvOf (x : Helper) : Word := BitVec.ofNat 64 (x.adv % 2 ^ 32 * 2 ^ 32 + x.iss % 2 ^ 32)
def hdenOf (x : Helper) : Word := BitVec.ofNat 64 (x.dport % 2 ^ 32 * 2 ^ 32 + x.dtok % 2 ^ 32)

/-- HID (R248): 0xF in the primary. -/
def hidOf (fo : Focus) : Word :=
  match fo.ctx with
  | .helper h => BitVec.ofNat 64 h
  | _ => 15

/-- A control register as it stands in the core (R247); HSTATn with the readiness code the cycle keeps in `view`. -/
def ctrlOf (fo : Focus) (c : Core) (n : Nat) : Word :=
  if n = 0 then c.taskid
  else if n = 1 then BitVec.ofNat 64 c.num
  else if n = 2 then BitVec.ofNat 64 c.lctx
  else if n = 3 then hidOf fo
  else if n = 4 then fpstatOf fo c
  else if 0x10 ≤ n ∧ n ≤ 0x13 then (spGet 0 c.p.lc (n - 0x10)).setWidth 64
  else if n = 0x18 then storestatOf c
  else if n = 0x19 then liftstatOf c
  else if n = 0x1A then BitVec.ofNat 64 (if c.upper then c.liftSrc else 0)
  else if n = 0x1B then engstatOf c
  else if n = 0x1C then c.eng.egraph
  else if n = 0x1D then barrelOf c
  else if n = 0x1E then BitVec.ofNat 64 (b2n c.fnen * 2 ^ 15 + c.fnmbx * 2 ^ 10)
  else if n = 0x20 then inboxstatOf c
  else if n = 0x21 then (match c.inbox, fo.ctx with
    | e :: _, .helper 9 => e.2
    | _, _ => 0)
  else if n = 0x22 then BitVec.ofNat 64 (b2n c.tagV * 2 ^ 63 + c.tagMb)
  else if 0x30 ≤ n ∧ n ≤ 0x39 then hstatOf (c.helper (n - 0x30)) 0
  else if 0x40 ≤ n ∧ n ≤ 0x49 then hadvOf (c.helper (n - 0x40))
  else if 0x50 ≤ n ∧ n ≤ 0x59 then hdenOf (c.helper (n - 0x50))
  else if 0x60 ≤ n ∧ n ≤ 0x69 then (c.helper (n - 0x60)).trapv
  else if n = 0x100 then BitVec.ofNat 64 (b2n c.ktrap)
  else if n = 0x101 then c.kstatV
  else if 0x110 ≤ n ∧ n ≤ 0x113 then c.kparam.getD (n - 0x110) 0
  else if n = 0x200 then c.p.qstat
  else if 0x300 ≤ n ∧ n ≤ 0x303 then c.seqmask.getD (n - 0x300) 0
  else if n = 0x304 then c.tapring
  else if n = 0x305 then BitVec.ofNat 64 (c.taphead % 2 ^ 32)
  else if n = 0x400 then matstatOf c
  else if n = 0x401 then BitVec.ofNat 64 (c.mat.partner * 2 ^ 16 + c.mat.grow * 2 ^ 8 + c.mat.gcol)
  else if n = 0x402 then BitVec.ofNat 64 c.mat.tid
  else if 0x420 ≤ n ∧ n ≤ 0x43F then (spGet 0 c.mat.hist (c.mat.tid * 32 + (n - 0x420))).setWidth 64
  else if n = 0x500 then ckstatOf c
  else if n = 0x501 then BitVec.ofNat 64 c.softcnt
  else if n = 0x502 then c.trapRec0
  else if n = 0x503 then c.trapRec1
  else if n = 0x504 then c.trapRec2
  else if n = 0x505 then BitVec.ofNat 64 c.cov
  else if 0x700 ≤ n ∧ n ≤ 0x703 then c.cntcfg.getD (n - 0x700) 0
  else if 0x704 ≤ n ∧ n ≤ 0x707 then BitVec.ofNat 64 (c.cnt.getD (n - 0x704) 0)
  else if 0x708 ≤ n ∧ n ≤ 0x70B then BitVec.ofNat 64 (c.shcnt.getD (n - 0x708) 0)
  else 0

/-- The value at the start of the cycle (R246): what the cycle set aside, else the register as it stands. -/
def mfcVal (fo : Focus) (c : Core) (n : Nat) : Word :=
  match c.cyc.view.find? (fun e => e.1 = n) with
  | some e => e.2
  | none => ctrlOf fo c n

/-- MFC (R246); at the end of the cycle helper 9's read of INBOXPOP removes the entry it has read, a read by another context
none (R234). -/
def opMfc (d : BitVec 6) (n : BitVec 12) (fo : Focus) (c : Core) : Core :=
  let c1 := retireS fo 1 0 d.toNat (mfcVal fo c n.toNat) c
  if n.toNat = 0x21 then retire fo 1 0 [.inboxPop (if fo.ctx = .helper 9 then c.inbox.head? else none)] c1 else c1

/-- The inbox entry read is removed and INBOXTAG set; a read that removes none clears INBOXTAG.V (R234). -/
def inboxRemove (o : Option (Nat × Word)) (c : Core) : Core :=
  match o with
  | some e => { c with inbox := c.inbox.erase e, tagV := true, tagMb := e.1 }
  | none => { c with tagV := false }

/-- HCTL's FREE bit of helper h: TRAPPED to RELEASED, any other state kept (R225). DESIGN CHOICE: results of the
helper still on their way land all the same (assumption 141). -/
def freeHelper (h : Nat) (c : Core) : Core :=
  if (c.helper h).st = .trapped then c.setHelper h { c.helper h with st := .released } else c

/-- HISTSEL's CLR: the 32 bins of a tensor become 0 (R298). -/
def clearHist (tid : Nat) (c : Core) : Core :=
  { c with mat := { c.mat with hist := spClear (32 * tid) (32 * tid + 32) c.mat.hist } }

/-- TAPRING after a write; LOG values 11 to 15 leave that field (R351). -/
def tapringWrite (old v : Word) : Word :=
  let w := v.toNat
  let lg := if bits w 35 32 ≤ 10 then bits w 35 32 else bits old.toNat 35 32
  BitVec.ofNat 64 (b2n (bit w 63) * 2 ^ 63 + lg * 2 ^ 32 + bits w 31 5 * 32)

/-- The pieces of a node table at `a`: each half in each bank it lies in (R61, R159), half h in bank b as 2b + h. -/
def graphPieces (a : Nat) : List Nat :=
  [0, 1].flatMap (fun h => (((partsOf (a + 256 * h) 256).map (fun p => bankOf p.addr)).eraseDups).map (fun b => 2 * b + h))

/-- What an MTC does when it takes effect (R246, by the map of each register). -/
def applyMtc (n : Nat) (v : Word) (c : Core) : Core :=
  let w := v.toNat
  if n = 0x18 then
    { c with cecnt := bits w 31 16, fovf := c.fovf && !bit w 8 }
  else if n = 0x1A then (if c.upper then { c with liftSrc := w % 4 } else c)
  else if n = 0x1B then { c with eng := { c.eng with oor := bits w 15 0 } }
  else if n = 0x1C then
    let a := BitVec.ofNat 64 (bits w 31 6 * 64)
    { c with eng := { c.eng with egraph := a, egLoad := some (a.toNat, graphPieces a.toNat, false) } }
  else if n = 0x1E then
    (List.range 10).foldl (fun k h => if bit w h then freeHelper h k else k)
      { c with fnen := bit w 15, fnmbx := bits w 14 10 }
  else if n = 0x20 then { c with wakes := bits w 47 32 }
  else if 0x40 ≤ n ∧ n ≤ 0x49 then
    let h := n - 0x40
    c.setHelper h { c.helper h with adv := bits w 63 32, iss := bits w 31 0 }
  else if 0x50 ≤ n ∧ n ≤ 0x59 then
    let h := n - 0x50
    c.setHelper h { c.helper h with dport := bits w 63 32, dtok := bits w 31 0 }
  else if n = 0x100 then { c with ktrap := bit w 0 }
  else if n = 0x101 then
    { c with kstatV := (v &&& 0xFFFF0000FFFFFFFF) ||| (c.kstatV &&& 0x300000000 &&& ~~~ v) }
  else if 0x110 ≤ n ∧ n ≤ 0x113 then { c with kparam := setAt c.kparam (n - 0x110) v }
  else if n = 0x200 then
    { c with p := { c.p with qstat := (v &&& 0xFFFF0000) ||| (c.p.qstat &&& 0xF &&& ~~~ v) } }
  else if 0x300 ≤ n ∧ n ≤ 0x303 then
    { c with seqmask := setAt c.seqmask (n - 0x300) (c.seqmask.getD (n - 0x300) 0 &&& ~~~ v) }
  else if n = 0x304 then { c with tapring := tapringWrite c.tapring v }
  else if n = 0x400 then { c with mat := { c.mat with aretry := bits w 15 0 } }
  else if n = 0x402 then
    let c1 := { c with mat := { c.mat with tid := bits w 3 0 } }
    if bit w 8 then clearHist (bits w 3 0) c1 else c1
  else if n = 0x501 then { c with softcnt := bits w 31 0 }
  else if 0x700 ≤ n ∧ n ≤ 0x703 then
    if c.replay then c else { c with cntcfg := setAt c.cntcfg (n - 0x700) (v &&& 0x8000000000000FFF) }
  else if 0x704 ≤ n ∧ n ≤ 0x707 then { c with cnt := setAt c.cnt (n - 0x704) (bits w 47 0) }
  else c

/-- MTC (R246): LCNT and FPSTAT at the end of the issue cycle, every other one withheld; a gateway's at issue. -/
def opMtc (d : BitVec 6) (n : BitVec 12) (fo : Focus) (c : Core) : Core :=
  let v := rdS fo c d.toNat
  let k := n.toNat
  if k = 4 then retire fo 1 0 [.fpClear (v.setWidth 6), .fpClearM ((v >>> 8).setWidth 6)] c
  else if 0x10 ≤ k ∧ k ≤ 0x13 then retire fo 1 0 [.lcnt (k - 0x10) (v.setWidth 32)] c
  else withhold fo (.mtc k v) c

end Sys2Proof.Machine
end

