-- ==== Sys2Proof/Machine/VecExec.lean ====
section
/-! DEFINITION. What each operation that reads vectors makes of them: latency, unit occupancy, result and the effects of
its landing (10 R259 to R283, 13 R326 to R339, 14 R345 to R349). -/

namespace Sys2Proof.Machine

/-- Latency of a V-class operation before read beats (R101, R260, R326, R346). -/
def latV : Instr → Nat
  | .vadd t _ _ _ _ => if t = 0 || t = 2 then 4 else if t = 1 then 3 else 2
  | .vsub t _ _ _ _ => if t = 0 || t = 2 then 4 else if t = 1 then 3 else 2
  | .vmul t _ _ _ _ => if t = 0 || t = 2 then 4 else 3
  | .vfma t _ _ _ _ => if t = 0 || t = 2 then 4 else 3
  | .vfms t _ _ _ _ => if t = 0 || t = 2 then 4 else 3
  | .vcvt _ _ _ _ _ _ _ _ => 4
  | .vpack _ _ _ _ _ _ _ _ => 4
  | .vunpk _ _ _ _ _ _ _ _ => 4
  | .vrcp t _ _ _ => if t = 1 then 7 else 6
  | .vrsq t _ _ _ => if t = 1 then 7 else 6
  | .vexp2 t _ _ _ => if t = 1 then 9 else 8
  | .vlog2 t _ _ _ => if t = 1 then 9 else 8
  | .vtanh t _ _ _ => if t = 1 then 9 else 8
  | .vred _ _ _ _ _ _ => 6
  | .vscan _ _ _ _ _ _ => 8
  | .vperm _ _ _ _ _ => 3
  | .vrand _ _ _ _ _ => 4
  | .baddq _ _ _ _ _ => 10
  | .tap _ _ _ _ => 6
  | .tapfin _ _ _ _ => 8
  | .vsteer _ _ _ _ _ => 4
  | .qset _ _ _ _ _ => 4
  | .qadd _ _ _ _ _ => 88
  | .qmul _ _ _ _ _ => 88
  | .qscale _ _ _ _ _ => 24
  | .qshift _ _ _ _ _ => 24
  | .qmix _ _ _ _ _ => 40
  | .qcond _ _ _ _ _ => 40
  | .qmom _ _ _ _ _ => 12
  | .qquant _ _ _ _ _ => 16
  | .qsamp _ _ _ _ _ => 16
  | .qtag _ _ _ _ => 1
  | _ => 2

/-- V1 occupancy in bundles of a distribution operation (R326, R328). -/
def v1BusyOf : Instr → Nat
  | .qadd _ _ _ _ _ => 16
  | .qmul _ _ _ _ _ => 16
  | .qscale _ _ _ _ _ => 4
  | .qshift _ _ _ _ _ => 4
  | .qmix _ _ _ _ _ => 8
  | .qcond _ _ _ _ _ => 8
  | .qmom _ _ _ _ _ => 2
  | .qquant _ _ _ _ _ => 2
  | .qsamp _ _ _ _ _ => 2
  | _ => 1

/-- The transcendental operations and whether they are of type .bf (R260). -/
def transBf : Instr → Option Bool
  | .vrcp t _ _ _ => some (t = 1)
  | .vrsq t _ _ _ => some (t = 1)
  | .vexp2 t _ _ _ => some (t = 1)
  | .vlog2 t _ _ _ => some (t = 1)
  | .vtanh t _ _ _ => some (t = 1)
  | _ => none

/-- Does the operation read d as well as x and y (R265)? -/
def readsD : Instr → Bool
  | .vfma _ _ _ _ _ => true
  | .vfms _ _ _ _ _ => true
  | .vclamp _ _ _ _ _ => true
  | .vpack _ _ _ _ _ _ _ _ => true
  | _ => false

/-- The fields read as x, y and d. -/
def vXYD (i : Instr) : Option (BitVec 9) × Option (BitVec 9) × Option (BitVec 9) :=
  match i with
  | .vpack _ _ d x _ _ _ _ => (some x, none, some d)
  | .qscale _ _ _ _ y => (none, some y, none)
  | .qshift _ _ _ _ y => (none, some y, none)
  | .qmix _ _ _ _ y => (none, some y, none)
  | .qquant _ _ _ _ y => (none, some y, none)
  | .qsamp _ _ _ _ y => (none, some y, none)
  | i => match (vFields i).1 with
    | [x] => (some x, none, none)
    | [x, y] => (some x, some y, none)
    | [x, y, d] => (some x, some y, some d)
    | _ => (none, none, none)

/-- The predicate register a V-class operation names. -/
def vPred : Instr → Nat
  | .vadd _ p _ _ _ => p.toNat
  | .vsub _ p _ _ _ => p.toNat
  | .vmul _ p _ _ _ => p.toNat
  | .vfma _ p _ _ _ => p.toNat
  | .vfms _ p _ _ _ => p.toNat
  | .vmin _ p _ _ _ => p.toNat
  | .vmax _ p _ _ _ => p.toNat
  | .vabs _ p _ _ => p.toNat
  | .vneg _ p _ _ => p.toNat
  | .vcmp _ p _ _ _ _ _ => p.toNat
  | .vsel _ p _ _ _ => p.toNat
  | .vcvt _ p _ _ _ _ _ _ => p.toNat
  | .vand _ p _ _ _ => p.toNat
  | .vor _ p _ _ _ => p.toNat
  | .vxor _ p _ _ _ => p.toNat
  | .vshl _ p _ _ _ => p.toNat
  | .vshr _ p _ _ _ => p.toNat
  | .vsar _ p _ _ _ => p.toNat
  | .vrcp _ p _ _ => p.toNat
  | .vrsq _ p _ _ => p.toNat
  | .vexp2 _ p _ _ => p.toNat
  | .vlog2 _ p _ _ => p.toNat
  | .vtanh _ p _ _ => p.toNat
  | .vred _ p _ _ _ _ => p.toNat
  | .vscan _ p _ _ _ _ => p.toNat
  | .vperm _ p _ _ _ => p.toNat
  | .vbc _ p _ _ _ => p.toNat
  | .viota _ p _ => p.toNat
  | .vmov _ p _ _ => p.toNat
  | .vrand _ p _ _ _ => p.toNat
  | .vclamp _ p _ _ _ => p.toNat
  | .vpack _ p _ _ _ _ _ _ => p.toNat
  | .vunpk _ p _ _ _ _ _ _ => p.toNat
  | .baddq _ p _ _ _ => p.toNat
  | .tap _ p _ _ => p.toNat
  | .tapfin _ p _ _ => p.toNat
  | .vsteer _ p _ _ _ => p.toNat
  | .qset _ p _ _ _ => p.toNat
  | .qadd _ p _ _ _ => p.toNat
  | .qmul _ p _ _ _ => p.toNat
  | .qscale _ p _ _ _ => p.toNat
  | .qshift _ p _ _ _ => p.toNat
  | .qmix _ p _ _ _ => p.toNat
  | .qcond _ p _ _ _ => p.toNat
  | .qmom _ p _ _ _ => p.toNat
  | .qquant _ p _ _ _ => p.toNat
  | .qtag _ p _ _ => p.toNat
  | .qsamp _ p _ _ _ => p.toNat
  | _ => 0

/-- All 64 lanes. -/
def allLanes : Word := BitVec.allOnes 64

/-- A type code as a number. -/
def tN (t : BitVec 3) : Nat := t.toNat

/-- A result with no flag. -/
def noFl (v : Vec) : Vec × Flags := (v, 0)

/-- The vector result of a V-class operation with a vector destination: vector, flags, lanes written (R262 to R283). -/
def vecRes (i : Instr) (p : Word) (x y d : Vec) : Option ((Vec × Flags) × Word) :=
  match i with
  | .vadd t _ _ _ _ => some (vMap2 (etWidth (tN t)) (elAdd (tN t)) x y, p)
  | .vsub t _ _ _ _ => some (vMap2 (etWidth (tN t)) (elSub (tN t)) x y, p)
  | .vmul t _ _ _ _ => some (vMap2 (etWidth (tN t)) (elMul (tN t)) x y, p)
  | .vfma t _ _ _ _ => some (vMap3 (etWidth (tN t)) (elFma (tN t) false) x y d, p)
  | .vfms t _ _ _ _ => some (vMap3 (etWidth (tN t)) (elFma (tN t) true) x y d, p)
  | .vmin t _ _ _ _ => some (vMap2 (etWidth (tN t)) (elMin (tN t) false) x y, p)
  | .vmax t _ _ _ _ => some (vMap2 (etWidth (tN t)) (elMax (tN t) false) x y, p)
  | .vabs t _ _ _ => some (vMap1 (etWidth (tN t)) (elAbs (tN t)) x, p)
  | .vneg t _ _ _ => some (vMap1 (etWidth (tN t)) (elNeg (tN t)) x, p)
  | .vsel _ _ _ _ _ => some (noFl (vselVec p x y), allLanes)
  | .vcvt t _ _ _ f n z s => some (vcvtVec (tN t) (tN f) (n = 1) (z = 1) (s = 1) x, p)
  | .vand _ _ _ _ _ => some (noFl (vBit (· &&& ·) x y), p)
  | .vor _ _ _ _ _ => some (noFl (vBit (· ||| ·) x y), p)
  | .vxor _ _ _ _ _ => some (noFl (vBit (· ^^^ ·) x y), p)
  | .vshl t _ _ _ _ => some (vMap2 (etWidth (tN t)) (elShl (etWidth (tN t))) x y, p)
  | .vshr t _ _ _ _ => some (vMap2 (etWidth (tN t)) (elShr (etWidth (tN t))) x y, p)
  | .vsar t _ _ _ _ => some (vMap2 (etWidth (tN t)) (elSar (etWidth (tN t))) x y, p)
  | .vrcp t _ _ _ => some (vMap1 (etWidth (tN t)) (elTrans rcp32 (tN t)) x, p)
  | .vrsq t _ _ _ => some (vMap1 (etWidth (tN t)) (elTrans rsq32 (tN t)) x, p)
  | .vexp2 t _ _ _ => some (vMap1 (etWidth (tN t)) (elTrans exp232 (tN t)) x, p)
  | .vlog2 t _ _ _ => some (vMap1 (etWidth (tN t)) (elTrans log232 (tN t)) x, p)
  | .vtanh t _ _ _ => some (vMap1 (etWidth (tN t)) (elTrans tanh32 (tN t)) x, p)
  | .vred t _ _ _ o n => some (vredVec (tN t) (n = 1) o.toNat p x, allLanes)
  | .vscan t _ _ _ o n => some (vscanVec (tN t) (n = 1) o.toNat p x, allLanes)
  | .vperm t _ _ _ _ => some (noFl (vpermVec (tN t) x y), p)
  | .vbc _ _ _ _ l => some (noFl (List.replicate 64 (lane x l.toNat)), p)
  | .viota t _ _ => some (noFl (viotaVec (tN t)), p)
  | .vmov _ _ _ _ => some (noFl x, p)
  | .vrand t _ _ _ _ => some (noFl (vrandVec (tN t) x y), p)
  | .vclamp t _ _ _ _ => some (vMap3 (etWidth (tN t)) (fun a b l =>
      elMin (tN t) false (elMax (tN t) false a l).1 b) x y d, p)
  | .vpack t _ _ _ f n z s => some (vpackVec (tN t) (tN f) (n = 1) (z = 1) (s = 1) x d, p)
  | .vunpk t _ _ _ f n z s => some (vunpkVec (tN t) (tN f) (n = 1) (z = 1) (s = 1) x, p)
  | .baddq t _ _ _ _ =>
    let r := baddq (tN t) (vecBytes x) (vecBytes y)
    some ((bytesVec r.1 64, r.2), allLanes)
  | _ => none

/-! ### Tap words and the legend (R343 to R349) -/

def twTp (w : Word) : Nat := bits w.toNat 29 24
def twSeg (w : Word) : Nat := bits w.toNat 23 16
def twNoseq (w : Word) : Bool := bit w.toNat 8
def twSlot (w : Word) : Nat := bits w.toNat 7 0
def twRow (w : Word) : Nat := bits w.toNat 63 32

/-- The declared tap point of a tap word. -/
def Core.tapPt (c : Core) (tp : Nat) : Option TapPt := c.legend.pts.find? (fun t => t.tp = tp)

/-- TAP_WORD or TAP_UNDEF (R345). -/
def tapCheck (c : Core) (w : Word) : Option Nat :=
  if bits w.toNat 31 30 ≠ 0 || bits w.toNat 15 9 ≠ 0 then some cTAPWORD
  else if (c.tapPt (twTp w)).isNone then some cTAPUNDEF
  else none

/-- Elements of a segment of type .f32 (0) or .bf (1): numbers of elements, their values exactly. -/
def segElems (ty : Nat) (x : Vec) : List Nat := elems (etWidth ty) x

/-- Value of an element of type .f32 or .bf. -/
def elVal (ty p : Nat) : XR := if ty = 0 then v32 p else fpVal fmtBf p

/-- TAP on one accumulator (R347): groups of eight, the exact sum of each rounded once. -/
def tapAcc (dmodel seg ty : Nat) (pred : Word) (pr : Probe) (x : Vec) (acc : Nat) : Nat × Flags :=
  let e := if ty = 0 then 64 else 128
  let r := e / 64
  let es := segElems ty x
  if dmodel ≤ seg * e then (acc, 0)
  else (List.range (e / 8)).foldl (fun a g =>
    let ks := ((List.range 8).map (fun k => 8 * g + k)).filter (fun k =>
      decide (seg * e + k < dmodel) && pred.getLsbD (k / r))
    let ts := ks.map (fun k => xMul (fpVal fmtBf (spGet 0 pr.vec (seg * e + k))) (elVal ty (es.getD k 0)))
    let res := accGroup a.1 ts
    (res.1, a.2 ||| res.2)) (acc, 0)

/-- VSTEER (R349): GAIN times the steering vector added, rounded once; other elements copied bit for bit. -/
def steerVec (lg : Legend) (w : Word) (ty : Nat) (x : Vec) : Vec × Flags :=
  let e := if ty = 0 then 64 else 128
  let sten := match lg.pts.find? (fun t => t.tp = twTp w) with
    | some t => t.sten
    | none => false
  match lg.steers.find? (fun s => s.slot = twSlot w) with
  | some sv =>
    if twNoseq w || !sten then (x, 0)
    else packRes (etWidth ty) ((List.zip (List.range e) (segElems ty x)).map (fun k =>
      let n := twSeg w * e + k.1
      if n < lg.dmodel then
        let (p, f0) := xMul (v32 sv.gain) (fpVal fmtBf (spGet 0 sv.vec n))
        let (s, f1) := xAdd (elVal ty k.2) p
        let (r, f2) := if ty = 0 then rne32 s else roundTo fmtBf .near false s
        (r, f0 ||| f1 ||| f2)
      else (k.2, fNone)))
  | none => (x, 0)

/-! ### Landings of vector operations -/

/-- The effects and flags with which a V-class operation lands, from its sources (`qs`: the q registers it reads, d
first where d is read). -/
def vecEffs (c : Core) (i : Instr) (dst : VDst) (p : Word) (w : Word) (jobt bundle : Nat) (qs : List QReg)
    (x y d : Vec) : Flags × List Eff :=
  let q0 := qs.getD 0 qReg0
  let q1 := qs.getD 1 qReg0
  let q2 := qs.getD 2 qReg0
  let qres (k : BitVec 4) (r : QReg × QNote) : Flags × List Eff := (r.2.fl, [.qreg k.toNat r.1 p, .qnote r.2])
  let qvec (r : Vec × QNote) : Flags × List Eff := (r.2.fl, [.vec dst r.1 p, .qnote r.2])
  match i with
  | .vcmp t _ q k n _ _ => (0, [.preg q.toNat (vcmpBits (tN t) (n = 1) k.toNat p x y)])
  | .qset t _ k _ _ => qres k (qSet (t = 1) p q0 x y)
  | .qadd _ _ k _ _ => qres k (qComb false p q0 q1 q2)
  | .qmul _ _ k _ _ => qres k (qComb true p q0 q1 q2)
  | .qscale _ _ k _ _ => qres k (qAff true p q0 q1 y)
  | .qshift _ _ k _ _ => qres k (qAff false p q0 q1 y)
  | .qmix _ _ k _ _ => qres k (qMix p q0 q1 y)
  | .qcond _ _ k _ n => qres k (qCond n.toNat p q0 q1)
  | .qmom _ _ _ _ s => qvec (qMom s.toNat q1)
  | .qquant _ _ _ _ _ => qvec (qPick false q1 y)
  | .qsamp _ _ _ _ _ => qvec (qPick true q1 y)
  | .qtag t _ k m => (0, [.qtag k.toNat m (t = 1)])
  | .tap t _ _ _ => (0, [.tap (twTp w) (twSeg w) (tN t) p x])
  | .tapfin _ _ _ _ => (0, [.tapFin (twTp w) w dst bundle jobt])
  | .vsteer t _ _ _ _ =>
    let r := steerVec c.legend w (tN t) x
    (r.2, [.vec dst r.1 p])
  | i => match vecRes i p x y d with
    | some r => (r.1.2, [.vec dst r.1.1 r.2])
    | none => (0, [])

end Sys2Proof.Machine
end

