-- ==== Sys2Proof/Machine/Flights.lean ====
section
/-! DEFINITION. Operations with scratchpad accesses on their way (02 R62, 04 R109 to R121, 12 R302): seeking ports cycle by
cycle, later accesses, and what each does when its last access has transferred. -/

namespace Sys2Proof.Machine

/-- Cycle-and-slot order in which accesses seek a port (R62). -/
def seekOf (fo : Focus) (c : Core) : Nat := c.age * 8 + fo.slot

/-- A flight of an operation with its accesses. -/
def mkFlight (i : Instr) (fo : Focus) (c : Core) (accs : List Acc) (lat : Nat) : Flight :=
  { ins := i, foc := fo, ord := ordOf fo c, seek := seekOf fo c, delay := 0, accs := accs, vx := [], vy := [], vd := [],
    vals := [], pred := allLanes, lat := lat, stage := 0, data := [], dst := .grid 0, qs := [], mreg := none, fin := [], gr := gram0 }

/-- Adds a flight to its context's list. -/
def addFlight (fl : Flight) (c : Core) : Core :=
  match fl.foc.ctx with
  | .helper _ => { c with hflights := c.hflights ++ [fl] }
  | _ => { c with p := { c.p with flights := c.p.flights ++ [fl] } }

/-- The result of a flight on its way: `rem` cycles from this one on. -/
def retireF (fl : Flight) (rem : Nat) (flg : Flags) (effs : List Eff) (c : Core) : Core :=
  let e : Pend := ⟨rem, fl.foc.ctx, fl.ord, fl.foc.bundle, fl.foc.slot, flg, effs⟩
  match fl.foc.ctx with
  | .helper _ => { c with hpend := c.hpend ++ [e] }
  | _ => { c with p := { c.p with pend := c.p.pend ++ [e] } }

/-- A flight that writes the scratchpad through the port: a helper's stores (R109). -/
def writes (fl : Flight) : Bool :=
  match fl.foc.ctx with
  | .helper _ => match fl.ins with
    | .st _ _ _ _ => true
    | .strel _ _ _ => true
    | .vst _ _ _ _ => true
    | .kst _ _ _ => true
    | .hpush _ _ => true
    | .ksamp _ _ _ _ => true
    | .gsetSt _ => true
    | _ => false
  | _ => false

/-- A flight of the primary that writes no destination: a store that holds ports while its data is withheld (R113, R383). -/
def holdOnly (fl : Flight) : Bool :=
  match fl.ins with
  | .vstx _ _ _ => true
  | .qst _ _ _ => true
  | .kst _ _ _ => true
  | _ => false

/-- The port writes a step of a storing flight makes: the parts newly transferred (R109). -/
def newWrites (fl : Flight) (old new : List Acc) : List (Nat × List Byte) :=
  let base := match fl.vals with
    | a :: _ => a.toNat
    | [] => 0
  (List.zip old new).flatMap (fun p =>
    let before := p.1.steps.flatMap id
    let after := p.2.steps.flatMap id
    (before.filter (fun q => !after.contains q)).map (fun q => (q.addr, (fl.data.drop (q.addr - base)).take q.len)))

/-- A flight's fields of order x, y, d filled from its accesses. -/
def fillVecs (fl : Flight) : Flight :=
  fl.accs.foldl (fun f a =>
    match a.fld with
    | 0 => { f with vx := bytesVec a.bytes 64 }
    | 1 => { f with vy := bytesVec a.bytes 64 }
    | _ => { f with vd := bytesVec a.bytes 64 }) fl

/-- The bytes of a flight's first access. -/
def Flight.bytes (fl : Flight) : List Byte :=
  match fl.accs with
  | a :: _ => a.bytes
  | [] => []

/-- The automaton and mask register of a context (R300). -/
def gramOf (fo : Focus) (c : Core) : Gram :=
  match fo.ctx with
  | .helper h => (c.helper h).gram
  | _ => c.p.gram

def maskOf (fo : Focus) (c : Core) : MaskReg :=
  match fo.ctx with
  | .helper h => (c.helper h).mask
  | _ => c.p.mask

/-- A trap raised in the trap cycle (R458). -/
def lateTrap (fl : Flight) (rem cause value : Nat) (c : Core) : Core :=
  retireF fl rem 0 [.trap cause (BitVec.ofNat 64 value)] c

/-- An access that only takes its turns, when `b` (R317). -/
def ghostIf (b : Bool) (a : Acc) : Acc := { a with ghost := b }

/-- What a flight does in the cycle its last access has transferred: its result on its way, or its next stage. -/
def complete (fl : Flight) (c : Core) : Option Flight × Core :=
  let fo := fl.foc
  let bs := fl.bytes
  match fl.ins with
  | .ld d _ _ _ => (none, retireF fl fl.lat 0 [effS fo d.toNat (BitVec.ofNat 64 (leNat bs))] c)
  | .ldacq d _ _ => (none, retireF fl fl.lat 0 [effS fo d.toNat (BitVec.ofNat 64 (leNat bs))] c)
  | .vld g _ _ _ => (none, retireF fl fl.lat 0 [.vec (.grid g.toNat) (bytesVec bs 64) allLanes] c)
  | .hpop g _ => (none, retireF fl fl.lat 0 [.vec (.grid g.toNat) (bytesVec bs 64) allLanes] c)
  | .vldx g _ _ => (none, retireF fl fl.lat 0 [.vec (.grid g.toNat) (bytesVec bs 64) allLanes] c)
  | .vstx _ _ _ => (match fo.ctx with
    | .helper _ =>
      let ws := (List.range 64).map (fun i => ((lane fl.vy i).toNat, leBytes 4 (lane fl.vx i).toNat))
      (none, { c with cyc := { c.cyc with portWr := c.cyc.portWr ++ ws } })
    | .gate => (none, retireF fl 1 0 fl.fin c)
    | .prim => (none, c))
  | .qld r _ _ => (none, retireF fl fl.lat 0 [.qreg r.toNat (qOfImage bs) allLanes] c)
  | .kld r _ _ => (match listOfImage bs with
    | some l => (none, retireF fl fl.lat 0 [.list r.toNat (.load l)] c)
    | none => (none, retireF fl fl.lat 0 (fl.fin ++ [.trap cLISTIMAGE 0]) c))
  | .kmerge r _ _ m =>
    let cand := List.zip fl.vx (bytesVec bs 64)
    let keep := match fl.mreg with
      | some k => if m = 1 then cand.filter (fun e => maskPass k e.2.toNat) else cand
      | none => cand
    (none, retireF fl fl.lat 0 [.list r.toNat (.merge keep)] c)
  | .gsetLd _ => (match gsetLd (fun a n => !inRange fo c a n) bs with
    | .ok g => (none, retireF fl fl.lat 0 [.gram g true] c)
    | .error e => (none, lateTrap fl fl.lat e.1 e.2 c))
  | .gsetRs _ => (match gsetRs (fun a n => !inRange fo c a n) bs with
    | .ok g => (none, retireF fl fl.lat 0 [.gram g true] c)
    | .error e => (none, lateTrap fl fl.lat e.1 e.2 c))
  | .gstep _ =>
    let g := fl.gr
    if fl.stage = 0 then
      let k := leNat bs
      if g.nclass ≤ k then (none, lateTrap fl 5 cGRAMTABLE 0 c)
      else (some { fl with stage := 1, delay := 2, accs := [(mkAcc 0 (g.trans + 8 * (g.state * g.nclass + k)) 8)] }, c)
    else match gramStep g (leNat bs) with
      | .ok g' => (none, retireF fl 3 0 [.gram g' true] c)
      | .error e => (none, lateTrap fl 3 e 0 c)
  | .gmask k =>
    let g := fl.gr
    let hit := !fl.fin.isEmpty
    if fl.stage = 0 then
      let n := if hit then (fl.vals.headD 0).toNat else leNat bs
      let a := g.mask + 64 * (n * (g.nchunk + 1) + k.toNat)
      if !hit && !inRange fo c a 64 then (none, lateTrap fl 5 cLOCALRANGE a c)
      else
        (some { fl with stage := 1, delay := 2, vals := [BitVec.ofNat 64 n], accs := [ghostIf hit (mkAcc 0 a 64)] }, c)
    else
      let b := BitVec.ofNat 512 (leNat bs)
      (none, retireF fl 3 0 (if hit then fl.fin else [.mask ⟨true, k.toNat, b⟩,
        .mcFill (g.mask, g.state, gramTop g, k.toNat) (fl.vals.headD 0).toNat b true]) c)
  | i => if writes fl then (none, retireF fl 1 0 fl.fin c)
    else match i with
      | .qst _ _ _ => (none, c)
      | .kst _ _ _ => (none, c)
      | _ =>
        let f := fillVecs fl
        let r := vecEffs c i fl.dst fl.pred (fl.vals.headD 0) fo.jobt fo.bundle fl.qs f.vx f.vy f.vd
        (none, retireF fl fl.lat r.1 r.2 c)

/-- One cycle of a flight: its accesses seek their ports; when all have transferred it completes. -/
def pump (fl : Flight) (c : Core) : Option Flight × Core :=
  let r := stepAccs fl.foc c fl.accs
  let wr := if writes fl then newWrites fl fl.accs r.1 else []
  let c1 := { c with cyc := { r.2 with portWr := r.2.portWr ++ wr } }
  if r.1.all Acc.doneB then complete { fl with accs := r.1 } c1
  else (some { fl with accs := r.1 }, c1)

/-- An operation's flight in its issue cycle. -/
def launch (fl : Flight) (c : Core) : Core :=
  match pump fl c with
  | (none, c1) => c1
  | (some f, c1) => addFlight f c1

/-- MISALIGN, then LOCAL_RANGE, of one access (R110). -/
def addrTrap (fo : Focus) (c : Core) (a n al : Nat) : Option (Nat × Nat) :=
  if a % al ≠ 0 then some (cMISALIGN, a)
  else if !inRange fo c a n then some (cLOCALRANGE, a)
  else none

/-- The first trap among accesses, in order. -/
def firstTrap (fo : Focus) (c : Core) : List (Nat × Nat × Nat) → Option (Nat × Nat)
  | [] => none
  | e :: l => match addrTrap fo c e.1 e.2.1 e.2.2 with
    | some t => some t
    | none => firstTrap fo c l

end Sys2Proof.Machine
end

