-- ==== Sys2Proof/Machine/Scalar.lean ====
section
/-! DEFINITION. The I-class computations: integer, pointer, scalar floating point and spill operations
(09 R240 to R245, 04 R117), each as a change of the core that issues it. -/

namespace Sys2Proof.Machine

/-! ### Values (R241, R242) -/

/-- The signed quotient rounded toward zero; a zero divisor gives all ones; the most negative over −1 wraps (R242). -/
def divS (x y : Word) : Word :=
  if y = 0 then BitVec.allOnes 64 else BitVec.ofInt 64 (x.toInt.tdiv y.toInt)

/-- The natural quotient; a zero divisor gives all ones (R242). -/
def divN (x y : Word) : Word :=
  if y = 0 then BitVec.allOnes 64 else BitVec.ofNat 64 (x.toNat / y.toNat)

/-- Bits 127..64 of the signed product. -/
def mulHi (x y : Word) : Word := BitVec.ofInt 64 ((x.toInt * y.toInt).fdiv (2 ^ 64))

/-- Bits 127..64 of the natural product. -/
def mulHiN (x y : Word) : Word := BitVec.ofNat 64 (x.toNat * y.toNat / 2 ^ 64)

/-- Shift amount: bits 5..0 of y. -/
def shAmt (y : Word) : Nat := y.toNat % 64

/-- −1, 0 or +1 (R241 CMP). -/
def cmpW (lt eq : Bool) : Word := if lt then BitVec.allOnes 64 else if eq then 0 else 1

/-- Zeros above the highest set bit among the low `n` bits. -/
def clzN : Nat → Nat → Nat
  | 0, _ => 0
  | n + 1, v => if bit v n then 0 else 1 + clzN n v

/-- Zeros below the lowest set bit among `n` bits. -/
def ctzN : Nat → Nat → Nat
  | 0, _ => 0
  | n + 1, v => if v % 2 = 1 then 0 else 1 + ctzN n (v / 2)

/-- Set bits among the low `n` bits. -/
def popN : Nat → Nat → Nat
  | 0, _ => 0
  | n + 1, v => v % 2 + popN n (v / 2)

/-- Bits pos + len − 1..pos, zero-extended (R241 BFX). -/
def bfxW (x : Word) (pos len : Nat) : Word := BitVec.ofNat 64 (x.toNat / 2 ^ pos % 2 ^ len)

/-- d with bits pos + len − 1..pos replaced by x's low bits (R241 BFI). -/
def bfiW (d x : Word) (pos len : Nat) : Word := BitVec.ofNat 64 (setBits d.toNat (pos + len - 1) pos x.toNat)

/-- Bits 31..0 of a register (R244). -/
def lo32 (w : Word) : Nat := w.toNat % 2 ^ 32

/-- The conversion a code of FCVT names: source format, target format, saturating or not (R245). -/
def fcvtCT (code : Nat) : CT × CT × Bool :=
  match code with
  | 0 => (.fp fmt32, .int 32 true, false)
  | 1 => (.fp fmt32, .int 32 false, false)
  | 2 => (.fp fmt32, .int 64 true, false)
  | 3 => (.fp fmt32, .int 64 false, false)
  | 4 => (.int 32 true, .fp fmt32, false)
  | 5 => (.int 32 false, .fp fmt32, false)
  | 6 => (.int 64 true, .fp fmt32, false)
  | 7 => (.int 64 false, .fp fmt32, false)
  | 8 => (.fp fmt32, .fp fmtBf, false)
  | 9 => (.fp fmtBf, .fp fmt32, false)
  | 10 => (.fp fmt32, .fp fmtHf, false)
  | 11 => (.fp fmtHf, .fp fmt32, false)
  | 12 => (.fp fmt32, .fp fmtE4, false)
  | 13 => (.fp fmt32, .fp fmtE5, false)
  | 14 => (.fp fmtE4, .fp fmt32, false)
  | 15 => (.fp fmtE5, .fp fmt32, false)
  | 16 => (.fp fmt32, .fp fmtE4, true)
  | _ => (.fp fmt32, .fp fmtE5, true)

/-- FCVT's result, extended to 64 bits by sign for signed targets, else by zeros (R245). -/
def fcvtW (z : Bool) (code : Nat) (x : Word) : Word × Flags :=
  let (src, dst, ns) := fcvtCT code
  let (p, fl) := convert src dst (if z then .zero else .near) ns (x.toNat % 2 ^ src.width)
  (match dst with
    | .int w true => BitVec.ofNat 64 (wrapN 64 (sext w p))
    | _ => BitVec.ofNat 64 p, fl)

/-- A 12-bit immediate, sign-extended to 64 bits. -/
def imm12 (i : BitVec 12) : Word := i.signExtend 64

/-! ### Operations on a core -/

/-- A one-cycle integer operation of two registers. -/
def alu2 (f : Word → Word → Word) (lat : Nat) (d x y : BitVec 6) (fo : Focus) (c : Core) : Core :=
  retireS fo lat 0 d.toNat (f (rdS fo c x.toNat) (rdS fo c y.toNat)) c

/-- A one-cycle integer operation of one register. -/
def alu1 (f : Word → Word) (d x : BitVec 6) (fo : Focus) (c : Core) : Core :=
  retireS fo 1 0 d.toNat (f (rdS fo c x.toNat)) c

/-- A scalar FP32 operation of two registers (R244). -/
def fop2 (f : Nat → Nat → Nat × Flags) (lat : Nat) (d x y : BitVec 6) (fo : Focus) (c : Core) : Core :=
  let r := f (lo32 (rdS fo c x.toNat)) (lo32 (rdS fo c y.toNat))
  retireS fo lat r.2 d.toNat (BitVec.ofNat 64 r.1) c

def opSel (d x y z : BitVec 6) (fo : Focus) (c : Core) : Core :=
  retireS fo 1 0 d.toNat (if rdS fo c z.toNat ≠ 0 then rdS fo c x.toNat else rdS fo c y.toNat) c

def opMovi (d : BitVec 6) (i : BitVec 18) (fo : Focus) (c : Core) : Core :=
  retireS fo 1 0 d.toNat (i.signExtend 64) c

/-- d := (d × 2^18 + imm18) mod 2^64 (R241). -/
def opLui (d : BitVec 6) (i : BitVec 18) (fo : Focus) (c : Core) : Core :=
  retireS fo 1 0 d.toNat ((rdS fo c d.toNat <<< 18) ||| i.setWidth 64) c

def opBfi (d x p l : BitVec 6) (fo : Focus) (c : Core) : Core :=
  retireS fo 1 0 d.toNat (bfiW (rdS fo c d.toNat) (rdS fo c x.toNat) p.toNat (l.toNat + 1)) c

def opFma (d x y z : BitVec 6) (fo : Focus) (c : Core) : Core :=
  let r := fpFma fmt32 false (lo32 (rdS fo c x.toNat)) (lo32 (rdS fo c y.toNat)) (lo32 (rdS fo c z.toNat))
  retireS fo 4 r.2 d.toNat (BitVec.ofNat 64 r.1) c

def opFcmp (d x y : BitVec 6) (k : BitVec 3) (fo : Focus) (c : Core) : Core :=
  retireS fo 1 0 d.toNat
    (if fpRel k.toNat (v32 (lo32 (rdS fo c x.toNat))) (v32 (lo32 (rdS fo c y.toNat))) then 1 else 0) c

def opFcvt (d x : BitVec 6) (r : BitVec 1) (k : BitVec 5) (fo : Focus) (c : Core) : Core :=
  let v := fcvtW (r = 1) k.toNat (rdS fo c x.toNat)
  retireS fo 2 v.2 d.toNat v.1 c

/-- a[d] := (a[x] + sext(imm12)) mod 2^32 (R243). -/
def opAdda (d x : BitVec 4) (i : BitVec 12) (fo : Focus) (c : Core) : Core :=
  retire fo 1 0 [.areg d.toNat (rdA fo c x.toNat + i.signExtend 32)] c

def opMva (d : BitVec 4) (x : BitVec 6) (fo : Focus) (c : Core) : Core :=
  retire fo 1 0 [.areg d.toNat ((rdS fo c x.toNat).setWidth 32)] c

def opMvs (d : BitVec 6) (x : BitVec 4) (fo : Focus) (c : Core) : Core :=
  retireS fo 1 0 d.toNat ((rdA fo c x.toNat).setWidth 64) c

/-- SPLD returns the doubleword with forwarding (R117, R112). -/
def opSpld (d : BitVec 6) (o : BitVec 12) (fo : Focus) (c : Core) : Core :=
  retireS fo 1 0 d.toNat (rdSpill c o.toNat) c

/-- SPST is withheld (R117, R63). -/
def opSpst (d : BitVec 6) (o : BitVec 12) (fo : Focus) (c : Core) : Core :=
  withhold fo (.spill o.toNat (rdS fo c d.toNat)) c

end Sys2Proof.Machine
end

