-- ==== Sys2Proof/Machine/Mem.lean ====
section
/-! DEFINITION. The M-class operations on the own scratchpad, the cluster window, register images, ring handles and the
lift FIFO (04 R109 to R131), each as a change of the core that issues it. -/

namespace Sys2Proof.Machine

/-- Bytes of a width code (R115). -/
def widthOf (w : Nat) : Nat := 2 ^ w

/-- The address of a scalar access: (x<31..0> + imm10 × width) mod 2^32 (R115). -/
def localAddr (fo : Focus) (c : Core) (x : BitVec 6) (w : Nat) (i : BitVec 10) : Nat :=
  wrapN 32 ((lo32 (rdS fo c x.toNat) : Int) + sext 10 i.toNat * (widthOf w : Int))

/-- The address of a vector access: (aN + 32 × disp8) mod 2^32 (R118). -/
def vecAddr (fo : Focus) (c : Core) (a : BitVec 4) (d : BitVec 8) : Nat :=
  wrapN 32 (((rdA fo c a.toNat).toNat : Int) + 32 * sext 8 d.toNat)

/-- A gateway's access takes its one port in its issue cycle (R414). -/
def gatePort (c : Core) : Core := { c with cyc := { c.cyc with turns := c.cyc.turns ++ [0], used := c.cyc.used ++ [0] } }

/-- A store of the context: withheld in the primary, through the port in a helper, at once in a gateway (R109, R111,
R414). -/
def storeBy (fo : Focus) (i : Instr) (a : Nat) (data : List Byte) (c : Core) : Core :=
  match fo.ctx with
  | .prim => withhold fo (.store a data) c
  | .helper _ => launch { mkFlight i fo c [mkAcc 0 a data.length] 1 with vals := [BitVec.ofNat 64 a], data := data } c
  | .gate => retire fo 1 0 [.store a data] (gatePort c)

/-- LD and LDACQ (R115, R116). -/
def opLoad (ins : Instr) (x : BitVec 6) (w : Nat) (i : BitVec 10) (fo : Focus) (c : Core) : Core :=
  let a := localAddr fo c x w i
  match addrTrap fo c a (widthOf w) (widthOf w) with
  | some t => takeTrap fo t.1 (BitVec.ofNat 64 t.2) c
  | none => launch (mkFlight ins fo c [mkAcc 0 a (widthOf w)] 4) c

/-- ST and STREL (R115, R116). -/
def opStore (ins : Instr) (d x : BitVec 6) (w : Nat) (i : BitVec 10) (fo : Focus) (c : Core) : Core :=
  let a := localAddr fo c x w i
  match addrTrap fo c a (widthOf w) (widthOf w) with
  | some t => takeTrap fo t.1 (BitVec.ofNat 64 t.2) c
  | none => storeBy fo ins a (leBytes (widthOf w) (rdS fo c d.toNat).toNat) c

/-! ### The cluster window (R14, R64) -/

/-- Cluster of a core number within its stack (R134). -/
def clusterOf (num : Nat) : Nat := if num % 128 < 96 then num % 128 / 4 else num % 128 - 96

/-- Cluster core k of a core's cluster. -/
def siblingOf (num k : Nat) : Nat :=
  num / 128 * 128 + (if k < 4 then 4 * clusterOf num + k else 96 + clusterOf num)

/-- Two cores of one cluster of one stack. -/
def sameCluster (a b : Nat) : Bool := a / 128 = b / 128 && clusterOf a = clusterOf b

/-- Core k and offset of a window address (R14). -/
def windowOf (a : Nat) : Nat × Nat := (bits a 23 21, bits a 20 0)

/-- MISALIGN, then LOCAL_RANGE, of a window access (R16). -/
def windowTrap (c : Core) (a n : Nat) : Option (Nat × Nat) :=
  if a % n ≠ 0 then some (cMISALIGN, a)
  else if bits a 31 25 ≠ 0 || !bit a 24 || 4 < (windowOf a).1 || 0x180000 < (windowOf a).2 + n
      || meetsFence (c.winFence.getD (windowOf a).1 0) (windowOf a).2 n then some (cLOCALRANGE, a)
  else none

/-- A message the context injects at once. -/
def sendOut (fo : Focus) (w : Wh) (c : Core) : Core := { c with cyc := { c.cyc with out := c.cyc.out ++ [(fo.ctx, w)] } }

/-- An externally visible effect: withheld in the primary, at once elsewhere (R111, R414). -/
def emit (fo : Focus) (w : Wh) (c : Core) : Core :=
  match fo.ctx with
  | .prim => withhold fo w c
  | _ => sendOut fo w c

/-- XLD (R64, R115): the request reaches the target bank 12 cycles after issue, the value lands 23 after. -/
def opXld (ins : Instr) (x : BitVec 6) (w : Nat) (i : BitVec 10) (fo : Focus) (c : Core) : Core :=
  let a := localAddr fo c x w i
  match windowTrap c a (widthOf w) with
  | some t => takeTrap fo t.1 (BitVec.ofNat 64 t.2) c
  | none =>
    let k := windowOf a
    addFlight { mkFlight ins fo c [] 24 with delay := 24, stage := 9 }
      (sendOut fo (.xld (siblingOf c.num k.1) k.2 (widthOf w) (seekOf fo c)) c)

/-- XST (R64, R115). -/
def opXst (d x : BitVec 6) (w : Nat) (i : BitVec 10) (fo : Focus) (c : Core) : Core :=
  let a := localAddr fo c x w i
  match windowTrap c a (widthOf w) with
  | some t => takeTrap fo t.1 (BitVec.ofNat 64 t.2) c
  | none =>
    let c1 := emit fo (.xst a (leBytes (widthOf w) (rdS fo c d.toNat).toNat)) c
    match fo.ctx with
    | .helper h => c1.setHelper h { c1.helper h with xst := (c1.helper h).xst + 1 }
    | _ => c1

/-! ### Vector loads and stores (R118, R119) -/

/-- The pointer's post-increment retired with the issue cycle (R85). -/
def bump (fo : Focus) (a k : Nat) (c : Core) : Core :=
  if k = 0 then c else retire fo 1 0 (bumpEff fo c a k) c

def opVld (ins : Instr) (a : BitVec 4) (k : BitVec 3) (d : BitVec 8) (fo : Focus) (c : Core) : Core :=
  let ad := vecAddr fo c a d
  match addrTrap fo c ad 256 4 with
  | some t => takeTrap fo t.1 (BitVec.ofNat 64 t.2) c
  | none => launch (mkFlight ins fo c [mkAcc 0 ad 256] 5) (bump fo a.toNat k.toNat c)

/-- VST: a helper seeks its port from the cycle after its last read beat (R118). -/
def opVst (ins : Instr) (g : BitVec 8) (a : BitVec 4) (k : BitVec 3) (d : BitVec 8) (fo : Focus) (c : Core) : Core :=
  let ad := vecAddr fo c a d
  match addrTrap fo c ad 256 4 with
  | some t => takeTrap fo t.1 (BitVec.ofNat 64 t.2) c
  | none =>
    let data := vecBytes (rdGrid c g.toNat)
    let c1 := bump fo a.toNat k.toNat c
    match fo.ctx with
    | .helper _ =>
      addFlight { mkFlight ins fo c [mkAcc 0 ad 256] 1 with
                    vals := [BitVec.ofNat 64 ad], data := data, delay := fo.beats } c1
    | .prim => if fits c (.store ad data) then withholdNow fo (.store ad data) c1 else takeTrap fo cWITHHOLD 0 c
    | .gate => retire fo 1 0 [.store ad data] (gatePort c1)

/-- The 64 lane addresses of VLDX and VSTX (R119). -/
def laneAddrs (fo : Focus) (c : Core) (a : BitVec 4) (i : BitVec 8) : List Nat :=
  let idx := rdGrid c i.toNat
  (List.range 64).map (fun j => ((rdA fo c a.toNat).toNat + 4 * (lane idx j).toNat) % 2 ^ 32)

/-- The trap of the first failing lane (R119). -/
def lanesTrap (fo : Focus) (c : Core) (l : List Nat) : Option (Nat × Nat) := firstTrap fo c (l.map (fun a => (a, 4, 4)))

def opVldx (ins : Instr) (a : BitVec 4) (i : BitVec 8) (fo : Focus) (c : Core) : Core :=
  let l := laneAddrs fo c a i
  match lanesTrap fo c l with
  | some t => takeTrap fo t.1 (BitVec.ofNat 64 t.2) c
  | none => launch (mkFlight ins fo c [laneAcc l] (6 + (fo.beats - 1))) c

def opVstx (ins : Instr) (g : BitVec 8) (a : BitVec 4) (i : BitVec 8) (fo : Focus) (c : Core) : Core :=
  let l := laneAddrs fo c a i
  let v := rdGrid c g.toNat
  let ws := List.zip l v
  match lanesTrap fo c l with
  | some t => takeTrap fo t.1 (BitVec.ofNat 64 t.2) c
  | none =>
    let fl := { mkFlight ins fo c [laneAcc l] 1 with vx := v, vy := l.map (fun a => BitVec.ofNat 32 a) }
    match fo.ctx with
    | .helper _ => launch fl c
    | .prim => if fits c (.scatter 64 ws) then launch fl (withholdNow fo (.scatter 64 ws) c)
               else takeTrap fo cWITHHOLD 0 c
    | .gate => launch { fl with fin := ws.map (fun w => Eff.store w.1 (leBytes 4 w.2.toNat)) } c

/-! ### Register images (R120, R121) -/

/-- The address a pointer register holds. -/
def ptrAddr (fo : Focus) (c : Core) (a : BitVec 4) : Nat := (rdA fo c a.toNat).toNat

def opQld (ins : Instr) (a : BitVec 4) (k : BitVec 3) (fo : Focus) (c : Core) : Core :=
  let ad := ptrAddr fo c a
  match addrTrap fo c ad 1056 256 with
  | some t => takeTrap fo t.1 (BitVec.ofNat 64 t.2) c
  | none => launch (mkFlight ins fo c [chunkAcc ad 1056] 5) (bump fo a.toNat k.toNat c)

/-- A store of several port cycles: the primary's data is withheld while its hold goes on (R61, R113). -/
def bigStore (ins : Instr) (fo : Focus) (a : BitVec 4) (k : BitVec 3) (data : List Byte) (w : Wh) (c : Core) : Core :=
  let ad := ptrAddr fo c a
  match addrTrap fo c ad data.length 256 with
  | some t => takeTrap fo t.1 (BitVec.ofNat 64 t.2) c
  | none =>
    let c1 := bump fo a.toNat k.toNat c
    let fl := { mkFlight ins fo c [chunkAcc ad data.length] 1 with vals := [BitVec.ofNat 64 ad], data := data }
    match fo.ctx with
    | .helper _ => launch fl c1
    | _ => if fits c w then launch fl (withholdNow fo w c1) else takeTrap fo cWITHHOLD 0 c

/-- QST: the register as it stands at issue, the rest of the image zero. -/
def opQst (ins : Instr) (r a : BitVec 4) (k : BitVec 3) (fo : Focus) (c : Core) : Core :=
  let data := qImage (spGet qReg0 c.p.q r.toNat) ++ List.replicate 30 0
  bigStore ins fo a k data (.storeQ (ptrAddr fo c a) data) c

/-- A helper's pointer as it was, should the operation trap after its post-increment (R138, R458). -/
def unbump (fo : Focus) (c : Core) (a k : Nat) : List Eff :=
  match fo.ctx with
  | .helper h => if k = 0 then [] else
      [.xback h a (spGet 0 (c.helper h).x a) ((bumped fo c a k).setWidth 64)]
  | _ => []

/-- KLD (R121): with a bad image it has no effect. -/
def opKld (ins : Instr) (a : BitVec 4) (k : BitVec 3) (fo : Focus) (c : Core) : Core :=
  let ad := ptrAddr fo c a
  match addrTrap fo c ad 520 256 with
  | some t => takeTrap fo t.1 (BitVec.ofNat 64 t.2) c
  | none => launch { mkFlight ins fo c [chunkAcc ad 520] 5 with fin := unbump fo c a.toNat k.toNat } (bump fo a.toNat k.toNat c)

def opKst (ins : Instr) (r : BitVec 3) (a : BitVec 4) (k : BitVec 3) (fo : Focus) (c : Core) : Core :=
  let data := listImage (spGet candList0 c.lists r.toNat)
  bigStore ins fo a k data (.storeK (ptrAddr fo c a) data) c

/-! ### Ring handles (R126) -/

/-- The remote advance a handle with RV = 1 posts (R127, R128). -/
def remoteAdv (d : BitVec 128) (prod : Bool) (n : Nat) : Option Wh :=
  if hRv d then some (.hadv (hRcore d) (hRh d) prod n) else none

/-- HPUSH (R126): a full ring is HANDLE_OVER; a remote end outside the cluster HANDLE_REMOTE. DESIGN CHOICE: where both
conditions hold the first is raised (assumption 23). A slot of a fenced bank, here or at the remote end,
is LOCAL_RANGE (R357). -/
def opHpush (ins : Instr) (g : BitVec 8) (h : BitVec 4) (fo : Focus) (c : Core) : Core :=
  let d := rdHandle c h.toNat
  let data := vecBytes (rdGrid c g.toNat)
  let ad := hAddr d (hProd d) 0
  if hSlots d ≤ hFilled d then takeTrap fo cHANDLEOVER 0 c
  else if hRv d then
    if sameCluster c.num (hRcore d) then
      let w := Wh.hpush (hRcore d) (hRh d) ad data
      if meetsFence (c.winFence.getD (kOf (hRcore d)) 0) ad 256 then takeTrap fo cLOCALRANGE (BitVec.ofNat 64 ad) c
      else match fo.ctx with
      | .helper k =>
        retire fo 1 0 [.handle h.toNat true 1]
          (let c1 := sendOut fo w c
           c1.setHelper k { c1.helper k with xst := (c1.helper k).xst + 1 })
      | _ => if fits c w then retire fo 1 0 [.handle h.toNat true 1] (withholdNow fo w c) else takeTrap fo cWITHHOLD 0 c
    else takeTrap fo cHANDLEREMOTE 0 c
  else if meetsFence c.fences ad 256 then takeTrap fo cLOCALRANGE (BitVec.ofNat 64 ad) c
  else
    match fo.ctx with
    | .helper _ =>
      retire fo 1 0 [.handle h.toNat true 1]
        (launch { mkFlight ins fo c [mkAcc 0 ad 256] 1 with vals := [BitVec.ofNat 64 ad], data := data } c)
    | _ => if fits c (.store ad data) then
        retire fo 1 0 [.handle h.toNat true 1] (withholdNow fo (.store ad data) c)
      else takeTrap fo cWITHHOLD 0 c

/-- HPOP (R126): an empty ring is HANDLE_UNDER. -/
def opHpop (ins : Instr) (h : BitVec 4) (fo : Focus) (c : Core) : Core :=
  let d := rdHandle c h.toNat
  let ad := hAddr d (hCons d) 0
  if hFilled d = 0 then takeTrap fo cHANDLEUNDER 0 c
  else if meetsFence c.fences ad 256 then takeTrap fo cLOCALRANGE (BitVec.ofNat 64 ad) c
  else
    let go (c1 : Core) : Core :=
      launch (mkFlight ins fo c [mkAcc 0 ad 256] 5) (retire fo 1 0 [.handle h.toNat false 1] c1)
    match remoteAdv d false 1 with
    | none => go c
    | some w => match fo.ctx with
      | .helper _ => go (sendOut fo w c)
      | _ => if fits c w then go (withholdNow fo w c) else takeTrap fo cWITHHOLD 0 c

/-! ### The lift FIFO (R129) -/

/-- LIFT: LIFT_GATED before LIFT_FULL; FREE falls at issue, the push is withheld in the primary. -/
def opLift (g : BitVec 8) (fo : Focus) (c : Core) : Core :=
  if c.gate ≠ 0 then takeTrap fo cLIFTGATED 0 c
  else if c.liftFree = 0 then takeTrap fo cLIFTFULL 0 c
  else
    let w := Wh.lift (rdGrid c g.toNat)
    match fo.ctx with
    | .helper _ => retire fo 1 0 [.liftFall] (sendOut fo w c)
    | _ => if fits c w then retire fo 1 0 [.liftFall] (withholdNow fo w c) else takeTrap fo cWITHHOLD 0 c

/-- The oldest poppable entry from base core k. -/
def liftHead (c : Core) (k : Nat) : Option Vec :=
  (c.lift.find? (fun e => e.1 = k && e.2.1 = 0)).map (·.2.2)

/-- LPOP (R129). -/
def opLpop (g : BitVec 8) (fo : Focus) (c : Core) : Core :=
  match liftHead c c.liftSrc with
  | none => takeTrap fo cLIFTEMPTY 0 c
  | some v => retire fo 5 0 [.vec (.grid g.toNat) v allLanes] (retire fo 1 0 [.lpop c.liftSrc] c)

end Sys2Proof.Machine
end

