-- ==== Sys2Proof/Machine/Sort.lean ====
section
/-! DEFINITION. Issue of the K-class operations: candidate lists, sampling, grammar automata (12 R300 to R319). -/

namespace Sys2Proof.Machine

/-- Cycles a K operation occupies its context's lane (R301). -/
def kOcc : Instr → Nat
  | .ksort _ _ _ => 2
  | .ksamp _ _ _ _ => 4
  | .gsetLd _ => 3
  | .gsetRs _ => 3
  | .gmask _ => 4
  | .gstep _ => 3
  | _ => 1

/-- The lane of the context taken by the operation, or UNIT_BUSY in the primary (R301). -/
def kLane (i : Instr) (fo : Focus) (f : Core → Core) (c : Core) : Core :=
  match fo.ctx with
  | .helper h => f (c.setHelper h { c.helper h with kBusy := kOcc i })
  | _ => if 0 < c.p.kBusy then takeTrap fo cUNITBUSY 0 c else f { c with p := { c.p with kBusy := kOcc i } }

/-- Added latency of an operation that reads the grid (R47). -/
def beatAdd (fo : Focus) : Nat := fo.beats - 1

def opKclr (r : BitVec 3) (fo : Focus) (c : Core) : Core := retire fo 1 0 [.list r.toNat .clear] c

/-- KMERGE (R306): the indices come from the scratchpad; the pointer advances by 256. -/
def opKmerge (ins : Instr) (g : BitVec 8) (a : BitVec 4) (m : BitVec 1) (fo : Focus) (c : Core) : Core :=
  let ad := ptrAddr fo c a
  if m = 1 && !(maskOf fo c).valid then takeTrap fo cGRAMNOMASK 0 c
  else match addrTrap fo c ad 256 4 with
    | some t => takeTrap fo t.1 (BitVec.ofNat 64 t.2) c
    | none =>
      launch { mkFlight ins fo c [mkAcc 0 ad 256] (6 + beatAdd fo) with
                 vx := rdGrid c g.toNat, mreg := if m = 1 then some (maskOf fo c) else none }
        (retire fo 1 0 [effA fo a.toNat (rdA fo c a.toNat + 256)] c)

/-- KMERGEL (R306): indices count up from the register; it advances by 64. -/
def opKmergel (r : BitVec 3) (g : BitVec 8) (a : BitVec 4) (m : BitVec 1) (fo : Focus) (c : Core) : Core :=
  let base := rdA fo c a.toNat
  let k := maskOf fo c
  if m = 1 && !k.valid then takeTrap fo cGRAMNOMASK 0 c
  else
    let cand := List.zip (rdGrid c g.toNat) ((List.range 64).map (fun i => base + BitVec.ofNat 32 i))
    let keep := if m = 1 then cand.filter (fun e => maskPass k e.2.toNat) else cand
    retire fo (6 + beatAdd fo) 0 [.list r.toNat (.merge keep)]
      (retire fo 1 0 [effA fo a.toNat (base + 64)] c)

/-- KSORT (R308). -/
def opKsort (r : BitVec 3) (g : BitVec 8) (s : BitVec 1) (fo : Focus) (c : Core) : Core :=
  if s = 1 then retire fo 6 0 [.list r.toNat .sortSelf] c
  else retire fo (6 + beatAdd fo) 0
    [.list r.toNat (.sortNew (List.zip (rdGrid c g.toNat) ((List.range 64).map (fun i => BitVec.ofNat 32 i))))] c

/-- KTOP (R309). -/
def opKtop (r : BitVec 3) (g : BitVec 8) (i : BitVec 1) (fo : Focus) (c : Core) : Core :=
  retire fo 3 0 [.vec (.grid g.toNat) (ktopVec (spGet candList0 c.lists r.toNat) (i = 1)) allLanes] c

/-- What KSAMP draws, from the list and the registers as they stand at issue (R311, R312). -/
def sampOf (r : BitVec 3) (g : BitVec 8) (p : BitVec 2) (c : Core) : Samp :=
  let v := rdGrid c g.toNat
  let slot := (lane v 1).toNat
  let held := slot < 256 && (c.seqmask.getD (slot / 64) 0).getLsbD (slot % 64)
  let k := (c.kparam.getD p.toNat 0).toNat
  ksamp held (spGet candList0 c.lists r.toNat) (lane v 0).toNat (bits k 31 0) (bits k 63 32)

/-- KSAMP (R311 to R313, R302): the record is a store of its landing cycle. -/
def opKsamp (ins : Instr) (r : BitVec 3) (g : BitVec 8) (a : BitVec 4) (p : BitVec 2) (fo : Focus) (c : Core) : Core :=
  let ad := ptrAddr fo c a
  let sm := sampOf r g p c
  match addrTrap fo c ad 8 8 with
  | some t => takeTrap fo t.1 (BitVec.ofNat 64 t.2) c
  | none =>
    if sm.empty && c.ktrap then takeTrap fo cKSAMPEMPTY 0 c
    else
      let data := leBytes 8 (sampRec sm)
      let st := Eff.kstat sm.nan sm.held sm.empty sm.badt
      match fo.ctx with
      | .helper _ =>
        addFlight { mkFlight ins fo c [mkAcc 0 ad 8] 1 with
                      vals := [BitVec.ofNat 64 ad], data := data, delay := 11 + beatAdd fo, fin := [st] } c
      | _ => if 256 < c.storeUse + 1 then takeTrap fo cWITHHOLD 0 c
             else retire fo (12 + beatAdd fo) 0 [.withhold (.store ad data), st] c

/-- KMASK (R307). -/
def opKmask (r : BitVec 3) (fo : Focus) (c : Core) : Core :=
  let k := maskOf fo c
  if k.valid then retire fo 4 0 [.list r.toNat (.mask k)] c else takeTrap fo cGRAMNOMASK 0 c

/-- KSEND (R310): bits 31..16 of the route word must be 0. -/
def opKsend (r : BitVec 3) (a : BitVec 4) (fo : Focus) (c : Core) : Core :=
  let w := (rdA fo c a.toNat).toNat
  if bits w 31 16 ≠ 0 then takeTrap fo cPOSTTARGET 0 c
  else emit fo (.ksend (bits w 7 0) (bits w 15 8) (spGet candList0 c.lists r.toNat)) c

/-- GSET.ld and GSET.rs (R316): the image is read at issue, checked as read. -/
def opGsetRead (ins : Instr) (a : BitVec 4) (fo : Focus) (c : Core) : Core :=
  let ad := ptrAddr fo c a
  match addrTrap fo c ad 64 64 with
  | some t => takeTrap fo t.1 (BitVec.ofNat 64 t.2) c
  | none => launch (mkFlight ins fo c [mkAcc 0 ad 64] 3) c

/-- GSET.st (R316): the automaton as it stands at issue. -/
def opGsetSt (ins : Instr) (a : BitVec 4) (fo : Focus) (c : Core) : Core :=
  let ad := ptrAddr fo c a
  let data := gramImage (gramOf fo c)
  match addrTrap fo c ad 64 64 with
  | some t => takeTrap fo t.1 (BitVec.ofNat 64 t.2) c
  | none => match fo.ctx with
    | .helper _ =>
      launch { mkFlight ins fo c [mkAcc 0 ad 64] 1 with vals := [BitVec.ofNat 64 ad], data := data } c
    | _ => if 256 < c.storeUse + 1 then takeTrap fo cWITHHOLD 0 c
           else retire fo 1 0 [.withhold (.store ad data)] c

def opGsetFl (fo : Focus) (c : Core) : Core := retire fo 1 0 [.mcFlush] c

/-- GMASK (R317): a hit in the mask cache makes no access, but keeps its rank places in the primary. -/
def opGmask (ins : Instr) (k : BitVec 3) (fo : Focus) (c : Core) : Core :=
  let g := gramOf fo c
  let key := (g.mask, g.state, gramTop g, k.toNat)
  if !g.valid || g.nchunk < k.toNat then takeTrap fo cGRAMTABLE 0 c
  else
    let ra := g.mrow + 2 * (g.state * g.nsym + gramTop g)
    match c.mcache.find? (fun e => e.1 = key) with
    | some e =>
      let fin := [Eff.mask ⟨true, k.toNat, e.2.2⟩, Eff.mcFill key e.2.1 e.2.2 false]
      (match fo.ctx with
      | .helper _ => retire fo 6 0 fin c
      | _ => addFlight { mkFlight ins fo c [ghostIf true (mkAcc 0 ra 2)] 6 with
                           delay := 1, vals := [BitVec.ofNat 64 e.2.1], fin := fin, gr := g } c)
    | none => addFlight { mkFlight ins fo c [mkAcc 0 ra 2] 6 with delay := 1, gr := g } c

/-- GSTEP (R318): every trap of it in its trap cycle. -/
def opGstep (ins : Instr) (a : BitVec 4) (fo : Focus) (c : Core) : Core :=
  let g := gramOf fo c
  let t := (rdA fo c a.toNat).toNat
  if 0xFFFFFFFE ≤ t then retire fo 5 0 [.gramNone] c
  else if !g.valid then retire fo 5 0 [.trap cGRAMTABLE 0] c
  else if 512 * (g.nchunk + 1) ≤ t then retire fo 5 0 [.trap cGRAMREJECT 0] c
  else launch { mkFlight ins fo c [mkAcc 0 (g.tcls + t) 1] 5 with gr := g } c

end Sys2Proof.Machine
end

