-- ==== Sys2Proof/Machine/Sync.lean ====
section
/-! DEFINITION. Waits, posts and phases (04 R132 to R137, 05 R164, 08 R230 to R232, 15 R373, R377, 16 R381): when a wait
is met, and each operation as a change of the core that issues it. -/

namespace Sys2Proof.Machine

/-- Timeline `t`: tl0 to tl3, then the matrix timeline (R164). -/
def timeline (c : Core) (t : Nat) : Nat :=
  if t < 4 then (c.eng.qs.getD t copyQ0).tl else if c.upper then 0 else c.mat.tl

/-- Sealed count of a queue, or matrix commands issued (R144, R164). -/
def sealedOf (c : Core) (t : Nat) : Nat := if t < 4 then c.p.sealed.getD t 0 else if c.upper then 0 else c.p.mIssued

/-- The same as a bundle sees it: at the start of its cycle (R164). -/
def sealedAt (c : Core) (t : Nat) : Nat := (c.cyc.seals[t]?).getD (sealedOf c t)

/-- Subtractions from a flag already made by FWAITs of this cycle (R133). -/
def flagTaken (c : Core) (f : Nat) : Nat :=
  natSum ((c.p.pend ++ c.hpend).map (fun e => natSum (e.effs.map (fun x => match x with
    | .flagSub g n => if g = f then n else 0
    | _ => 0))))

/-- The pending-write queue of the primary is empty (R137, R383): an operation that only holds ports is not in it. -/
def primQuiet (c : Core) : Bool :=
  c.p.pend.all (fun e => e.effs = []) && c.p.flights.all (fun f => holdOnly f) && c.p.groups.isEmpty

/-- Nothing of helper `h` is on its way: results, accesses, global reads, window stores, stores in the buffer (R137,
R224). -/
def helperQuiet (h : Nat) (c : Core) : Bool :=
  !c.hpend.any (fun e => e.who = .helper h) && !c.hflights.any (fun e => e.foc.ctx = .helper h)
  && !c.hgroups.any (fun g => g.who = .helper h) && (c.helper h).reqs.isEmpty && (c.helper h).xst = 0

/-- No store of helper `h` stands in the store buffer (R137). -/
def noStores (h : Nat) (c : Core) : Bool := !c.sb.any (fun e => e.parts.any (fun p => p.h = h))

/-- An accepted copy command that still writes, or may write, global memory (R136, R146). -/
def toGlobal (k : CopyCmd) : Bool :=
  match k.c.op with
  | 0x20 => !bit k.c.x.toNat 63
  | 0x21 => !k.started || !bit (k.blk.getD 1 0).toNat 63
  | 0x22 => !k.started || !bit (k.blk.getD 1 0).toNat 63
  | 0x23 => !k.started || !bit (k.blk.getD 0 0).toNat 63
  | _ => false

/-- Every global write of the core has been performed at its home, and the helper cache written back and invalidated. -/
def writesDone (c : Core) : Bool :=
  c.sb.isEmpty && c.hc.isEmpty && c.gwOut = 0
  && !(c.eng.qs.flatMap (fun q => q.cmds) ++ c.eng.tsb.map (fun e => e.2.2)).any toGlobal

/-- The condition of PHASE (R136, R184): the writes performed, those posted to the host flushed by a read on its port. -/
def phaseDone (c : Core) : Bool := writesDone c && c.hostDirty = 0

/-- What a wait's evaluation says: it traps, is met, or is unmet (R132). -/
inductive WaitRes
  | trap (cause : Nat)
  | met
  | unmet
  deriving DecidableEq, Repr

def waitIf (b : Bool) : WaitRes := if b then .met else .unmet

/-- A wait evaluated at the state given (R127, R129, R132 to R137, R164, R232). -/
def waitEval (fo : Focus) (c : Core) : Instr → WaitRes
  | .fwait f n => waitIf (n.toNat + flagTaken c f.toNat ≤ (spGet 0 c.f f.toNat).toNat)
  | .twait t r =>
    let n := (rdS fo c r.toNat).toNat
    (match fo.ctx with
    | .helper _ => waitIf (n ≤ timeline c t.toNat)
    | _ => if sealedAt c t.toNat < n then .trap cTWAITAHEAD else waitIf (n ≤ timeline c t.toNat))
  | .hwait h n =>
    let d := rdHandle c h.toNat
    if hSlots d < n.toNat then .trap cHANDLERANGE else waitIf (n.toNat ≤ hFilled d)
  | .hfree h n =>
    let d := rdHandle c h.toNat
    if hSlots d < n.toNat then .trap cHANDLERANGE else waitIf (hFilled d + n.toNat ≤ hSlots d)
  | .mwait m => waitIf (mbPresent c m.toNat)
  | .lwait n => waitIf (n.toNat ≤ (if c.upper then liftFill c c.liftSrc else c.liftFree))
  | .phase => waitIf (phaseDone c)
  | .fence => (match fo.ctx with
    | .helper h => waitIf (helperQuiet h c && noStores h c)
    | _ => waitIf (primQuiet c))
  | _ => .met

/-- The bundle or helper goes on waiting: nothing of the operation comes about; a PHASE has the helper cache written
back (R132, R136). -/
def stayWaiting (i : Instr) (fo : Focus) (c : Core) : Core :=
  let c1 := if i = .phase then { c with phaseWb := true } else c
  match fo.ctx with
  | .helper _ => c1
  | _ => { c1 with run := .wait }

/-- The wait was met at the start of the cycle, and what others do in the cycle does not change that (R132, R216); a helper's
FWAIT alone is judged again, on what the flag has left (R133). -/
def metBefore (fo : Focus) (c : Core) (i : Instr) : Bool :=
  match fo.ctx, i with
  | .helper _, .fwait _ _ => false
  | .helper h, _ => c.cyc.met.contains h
  | _, _ => c.cyc.met.contains 10

/-- A wait: its trap, its effect when met, or another cycle of waiting. A PHASE that is met keeps the fills under way from the
cache (R178). -/
def waitOp (i : Instr) (fo : Focus) (f : Core → Core) (c : Core) : Core :=
  let done := f (if i = .phase then { c with phaseWb := true } else c)
  match waitEval fo c i with
  | .trap e => takeTrap fo e 0 c
  | .unmet => if metBefore fo c i then done else stayWaiting i fo c
  | .met => done

/-- FWAIT subtracts at the end of its issue cycle (R133). -/
def opFwait (f : BitVec 5) (n : BitVec 13) (fo : Focus) (c : Core) : Core :=
  waitOp (.fwait f n) fo (retire fo 1 0 [.flagSub f.toNat n.toNat]) c

/-- FPOST (R133): the primary's is withheld. -/
def opFpost (f : BitVec 5) (n : BitVec 13) (fo : Focus) (c : Core) : Core :=
  match fo.ctx with
  | .prim => withhold fo (.flag f.toNat n.toNat) c
  | _ => retire fo 1 0 [.flagAdd f.toNat n.toNat] c

/-- The form of a core number (R134). -/
def coreForm (v : Word) : Bool := v.toNat < 512 && v.toNat % 128 < 120

def opFpostx (f : BitVec 5) (r : BitVec 6) (n : BitVec 7) (fo : Focus) (c : Core) : Core :=
  let t := rdS fo c r.toNat
  if coreForm t then emit fo (.flagx t.toNat f.toNat n.toNat) c else takeTrap fo cPOSTTARGET 0 c

/-- HADV (R127): an advance past the ring's limits traps and changes nothing. -/
def opHadv (h : BitVec 4) (s : BitVec 1) (n : BitVec 12) (fo : Focus) (c : Core) : Core :=
  let d := rdHandle c h.toNat
  let k := n.toNat
  if s = 1 && hSlots d < hFilled d + k then takeTrap fo cHANDLEOVER 0 c
  else if s = 0 && hFilled d < k then takeTrap fo cHANDLEUNDER 0 c
  else
    let go (c1 : Core) : Core := retire fo 1 0 [.handle h.toNat (s = 1) k] c1
    match remoteAdv d (s = 1) k with
    | none => go c
    | some w => match fo.ctx with
      | .prim => if fits c w then go (withholdNow fo w c) else takeTrap fo cWITHHOLD 0 c
      | _ => go (sendOut fo w c)

/-- CKPT (R381): what it releases and captures comes about at the end of the cycle. -/
def opCkpt (c : Core) : Core := { c with cyc := { c.cyc with ckpt := true } }

/-- CHK (R373): SCHED_MISS unless the named timeline has reached N. -/
def opChk (r : BitVec 5) (fo : Focus) (c : Core) : Core :=
  let v := (rdS fo c r.toNat).toNat
  let tl := bits v 63 61
  if tl < 5 && bits v 60 0 ≤ timeline c tl then c else takeTrap fo cSCHEDMISS 0 c

/-- BARA (R377). -/
def opBara (b : BitVec 5) (k : BitVec 3) (fo : Focus) (c : Core) : Core := emit fo (.bara (b.toNat * 8 + k.toNat)) c

/-! ### E-class issue (05 R143 to R157, 08 R230, 11 R284) -/

/-- An engine command issued by the primary: withheld with its register values (R143, R284). -/
def engCmd (op q : Nat) (x y z : Word) (fl : Nat) (fo : Focus) (c : Core) : Core :=
  withhold fo (.cmd ⟨op, q, x, y, z, fl, fo.bundle⟩) c

/-- A matrix command: the issued count advances at issue (R164). -/
def matCmd (op : Nat) (x y z : Word) (fl : Nat) (fo : Focus) (c : Core) : Core :=
  if fits c (.cmd ⟨op, 0, x, y, z, fl, fo.bundle⟩) then
    engCmd op 0 x y z fl fo { c with p := { c.p with mIssued := c.p.mIssued + 1 } }
  else takeTrap fo cWITHHOLD 0 c

/-- CNEXT counts its MMUL as issued (R284). -/
def opCnext (q : Nat) (x y z : Word) (fl : Nat) (fo : Focus) (c : Core) : Core :=
  if fits c (.cmd ⟨0x26, q, x, y, z, fl, fo.bundle⟩) then
    engCmd 0x26 q x y z fl fo { c with p := { c.p with mIssued := c.p.mIssued + 1 } }
  else takeTrap fo cWITHHOLD 0 c

/-- CSEAL (R144, R154): the sealed count advances at issue and is written to s[x]. -/
def opCseal (x : BitVec 6) (q : BitVec 2) (fo : Focus) (c : Core) : Core :=
  let n := (c.p.sealed.getD q.toNat 0 + 1) % 2 ^ 64
  let w : Wh := .cmd ⟨0x24, q.toNat, 0, 0, 0, 0, fo.bundle⟩
  if fits c w then
    retireS fo 1 0 x.toNat (BitVec.ofNat 64 n)
      (withholdNow fo w { c with p := { c.p with sealed := setAt c.p.sealed q.toNat n } })
  else takeTrap fo cWITHHOLD 0 c

/-- SENDM (R230). -/
def opSendm (x y : BitVec 6) (m : BitVec 5) (fo : Focus) (c : Core) : Core :=
  let t := rdS fo c x.toNat
  if coreForm t then withhold fo (.sendm t.toNat m.toNat (rdS fo c y.toNat)) c else takeTrap fo cPOSTTARGET 0 c

/-- Commands of a queue accepted and not completed, its timed ones and seals included (R149, R157). -/
def queueLen (c : Core) (q : Nat) : Nat :=
  (c.eng.qs.getD q copyQ0).cmds.length
  + (c.eng.tsb.filter (fun e => e.2.1 = q)).length

/-- EQRY's value (R157). -/
def eqryVal (c : Core) (sel : Word) : Word :=
  let v := sel.toNat
  let q := bits v 1 0
  let it := bits v 5 2
  if bits v 63 12 ≠ 0 || 7 < it then BitVec.allOnes 64
  else BitVec.ofNat 64 (match it with
    | 0 => timeline c q
    | 1 => sealedOf c q
    | 2 => queueLen c q
    | 3 => (match (c.eng.qs.getD q copyQ0).cmds with
      | k :: _ => if k.started then k.cursor else 0
      | [] => 0)
    | 4 => timeline c 4
    | 5 => c.eng.tsb.length
    | 6 => (engstatOf c).toNat
    | _ => (match (c.eng.nodes.getD (bits v 11 6) ⟨none, []⟩).pred with
      | some n => n
      | none => 0x7F))

def opEqry (x y : BitVec 6) (fo : Focus) (c : Core) : Core :=
  retireS fo 2 0 x.toNat (eqryVal c (rdS fo c y.toNat)) c

end Sys2Proof.Machine
end

