-- ==== Sys2Proof/Config.lean ====
section
/-! DEFINITION. What an implementation fixes and the values the spec leaves open: constants without a body, so that no
proof can rest on any value of them. -/

namespace Sys2Proof

/-- Free value number n: every latency the spec gives only as a range, and every value it leaves open, is one of these
(assumption 4). -/
opaque Config.draw : Nat → BitVec 64

/-- Free value number n of a grid, vector or memory byte, for contents the spec leaves open (assumption 4). -/
opaque Config.drawByte : Nat → BitVec 8

/-- The digest function the spec names SHA3-512 without defining it (19 R441, R443; 15 R353). -/
opaque Config.sha3 : List Byte → BitVec 512

/-- Whether an ML-DSA-87 signature of a digest holds under a public key; the spec names the scheme without defining it
(15 R353, R355; 19 R441). -/
opaque Config.sigHolds : List Byte → List Byte → BitVec 512 → Bool

/-- The signature of the device identity key over a report (19 R443). -/
opaque Config.deviceSig : List Byte → List Byte

/-- Installed capacity of the second tier in GiB (01 R27, 19 R436). -/
opaque Config.ddrGiB : Nat

/-- Whether a chip of the pod answers (01 R28). -/
opaque Config.chipPresent : Nat → Bool

/-- Whether some link from one chip to another was up at a tick: hops of a route past this chip's own ports (01 R28, 17
R400). -/
opaque Config.farLink : Nat → Nat → Nat → Bool

/-- Whether the firmware image passes its check at boot number n (19 R441). -/
opaque Config.imageGood : Nat → Bool

/-- The digest of the firmware stage verified at boot number n (19 R441). -/
opaque Config.imageDigest : Nat → BitVec 512

/-- Serial number, silicon revision and firmware version (19 R443). -/
opaque Config.identity : Nat → BitVec 64

/-- Columns of the logical core grid the front end lays a launch of n base cores out in (11 R296, R298: MGRID is "set at
launch"). -/
opaque Config.gridCols : Nat → Nat

/-- The partner that MGRID names for a core whose mirrored position lies outside the grid (11 R296 names none). -/
opaque Config.noPartner : Nat → BitVec 9

/-- Whether the board has video encoders (19 R437). -/
opaque Config.encoders : Bool

/-- The bitstream an encode job writes (15 R378 describes its transport, not the codec): byte i of job number n, and the
number of bytes. -/
opaque Config.streamByte : Nat → Nat → BitVec 8
opaque Config.streamLen : Nat → Nat

/-- The internal layout of a control block (16 R394): byte i of image number n. -/
opaque Config.sealedByte : Nat → Nat → BitVec 8

end Sys2Proof
end

