-- ==== Sys2Proof/Machine/HubState.lean ====
section
/-! DEFINITION. The state outside the cores as plain data: requests to memory homes, messages under way, L2 lines,
translations, clusters, launches, halt-wave jobs, trees, plans, encode jobs and retained images. Each record names the
rule of the spec that gives it. -/

namespace Sys2Proof.Machine

/-- The agent a request to a home belongs to (R29, R35). -/
inductive Agent
  | helper (h : Nat)
  | queue (q : Nat)
  | fill
  | gateway
  | hubAgent
  deriving DecidableEq, Repr

/-- What a request asks of the home (R168, R173, R174, R123). -/
inductive ReqOp
  | read
  | write
  | atomic (fn : Nat) (old y : Word)
  /-- a GST whose translation is under way (R30, R122) -/
  | put
  /-- CINV (dropping the line) or CCLEAN before its drain (R125) -/
  | clean (drop : Bool)
  deriving DecidableEq, Repr

/-- A request on its way to a home or its data on its way back (R171): core (or gateway) number, agent, kind, launch
context, physical address, length, bytes to write (none: byte not written), cycles until it is performed, cycles from
then until the data is at the core, data read; a helper's destination register and the offset and width of its bytes;
whether the line is asked for whole for the helper cache (R122), whether it has not been sent yet (its translation, R30, or
store-buffer entries, R69, R70, are waited for), whether an atomic releases (R123), whether the line is not to be cached when
it comes back (a drain or a PHASE has come since, R70, R125, R136), the number that stood when an atomic's drain left (0: not
yet, R70), the number that stood when a read was performed (R182). -/
structure Req where
  id : Nat
  core : Nat
  agent : Agent
  op : ReqOp
  lctx : Nat
  pa : Nat
  len : Nat
  data : List (Option Byte)
  home : Nat
  ret : Nat
  got : Option (List Byte)
  dst : Nat
  off : Nat
  fill : Bool
  look : Bool
  order : Bool
  stale : Bool
  mark : Nat
  perf : Nat
  deriving DecidableEq, Repr

/-- What a message carries. -/
inductive Body
  | wh (who : Ctx) (w : Wh)
  | post (core f n : Nat)
  | swapData (core off : Nat) (data : List Byte)
  | treeIn (tree node : Nat) (data : List (Lane × Lane))
  | treeOut (core addr f : Nat) (l : CandList)
  | toDispatch (group ex : Nat) (data : List (Lane × Lane))
  | arrival (b n : Nat)
  | freeBack (core : Nat)
  /-- the merge at a tree's root, whose list then goes out (R411) -/
  | treeRoot (tree : Nat)
  deriving DecidableEq, Repr

/-- What a flit brings to a port of this chip: an access of a peer (launch context, coherence mode, physical address, length,
operation, bytes) on its context's channel; on channel 16 a halt wave's trigger (context, F, cause entry), a RESUME or JOBSTEP
(context, tick, cycles), the end of a phase plan by a fault elsewhere (context), a shadow latch's tick (R401, R407, R420, R424,
R431). -/
inductive Flit
  | access (ctx coh pa len : Nat) (op : ReqOp) (data : List (Option Byte))
  | halt (ctx f : Nat) (e : Word × Word)
  | resume (ctx r : Nat) (k : Option Nat)
  | planFault (ctx : Nat)
  | shadow (t : Nat)
  deriving DecidableEq, Repr

/-- A message under way (R134, R172, R421): cycles until it lands (this one included), its source core and context, the
launch context it belongs to, its order of sending. -/
structure Msg where
  due : Nat
  src : Nat
  lctx : Nat
  seq : Nat
  body : Body
  deriving DecidableEq, Repr

/-- A line held at its home in L2 (R168, R169): line number, bytes, dirty bytes, use order, whether a format window
decoded it (R204), whether it is held under CXL.cache (R183). -/
structure L2Line where
  line : Nat
  data : List Byte
  dirty : Bool
  lru : Nat
  view : Bool
  cxl : Bool
  deriving DecidableEq, Repr

/-- A pointer entry held in a walk cache (R29, R31): context, level, the address bits that select it, the table it names. -/
structure WalkE where
  ctx : Nat
  level : Nat
  va : Nat
  next : Nat
  deriving DecidableEq, Repr

/-- A cluster: powered (R444), code store (R71), shared TLB (R29), upper-core domain (R447), router counters (R430). -/
structure Cluster where
  powered : Bool
  code : Sparse (BitVec 256)
  tlb : List TlbE
  gate : Nat
  deriving DecidableEq, Repr

def cluster0 : Cluster := ⟨false, [], [], 0⟩

/-- A fault record outstanding (R35 to R37): its entry number, what faulted, an address in the faulting page, whether it
still waits for room in the queue; the four doublewords. -/
structure FaultE where
  entry : Nat
  core : Nat
  agent : Agent
  ctx : Nat
  cause : Nat
  page : Nat
  written : Bool
  dws : List Word
  deriving DecidableEq, Repr

/-- A stage record of a PLV header (R353). -/
structure Stage where
  wcet : Nat
  entry : Nat
  inbox : Nat
  cov : Nat
  retain : Nat
  circ : Bool
  schk : Bool
  nbundle : Nat
  useb : Bool
  deriving DecidableEq, Repr

/-- A section of a PLV container (R353): type, stage, LOAD, ADDR, offset, length. -/
structure Sect where
  ty : Nat
  stage : Nat
  load : Nat
  addr : Nat
  off : Nat
  len : Nat
  deriving DecidableEq, Repr

/-- Where a launch stands (R358, R370, R393, R399). -/
inductive LState
  | waiting
  | late
  | reserved
  | preparing
  | running
  | preempting
  | preempted
  | killing
  | finished
  deriving DecidableEq, Repr

/-- The image of a core of a pre-empted launch (R394, R395), by launch-relative index. -/
structure Image where
  index : Nat
  core : Core
  deriving DecidableEq, Repr

/-- A launch from its packet's consumption to its finishing (R359 to R370): stream, sequence number, class, context, the
packet's doublewords after patching, the container, its sections, stages, state, flags of its record (INFEAS, PRE),
clusters bound by launch-relative number and clusters reserved for it; the tick of its dispatch, whether its images are to
be restored, stages released since the dispatch, the cycle r0 of the first; job time of release; cores whose part goes on;
order of dispatch; need, W, S, charge and the window of the charge; record fields; images of a pre-empted launch; clusters
first bound (R398); replay: pass, passes, plan and capture addresses, job time at the first release, results of the cores'
parts, signatures of pass 0 (R432, R433); whether its buffer list's actions are done (R187), the legend its taps use as checked
and read at consumption (R344), the launch its stream consumed before it (its id + 1, 0: none; R358), the order of its
pre-emption (R370). -/
structure Launch where
  id : Nat
  stream : Nat
  seq : Nat
  cls : Nat
  ctx : Nat
  pkt : List Word
  plv : Memory
  secs : List Sect
  stages : List Stage
  state : LState
  infeas : Bool
  pre : Bool
  clusters : List Nat
  reserved : List Nat
  dispT : Nat
  resume : Bool
  nrel : Nat
  r0 : Nat
  relJob : Nat
  left : List Nat
  order : Nat
  need : Nat
  w : Nat
  s : Nat
  charge : Nat
  window : Nat
  status : Nat
  cause : Nat
  discarded : Nat
  skipped : Nat
  images : List Image
  home : List Nat
  pass : Nat
  passes : Nat
  rplan : Nat
  rcap : Nat
  jobBack : Nat
  relTick : Nat
  parts : List (Nat × List Word)
  sigs : List (Nat × Word)
  acted : Bool
  legend : Legend
  prev : Nat
  preOrd : Nat
  deriving DecidableEq, Repr

/-- A retained image (R75, R366): context, key, launch-relative core index, cluster and core it stays on (none:
evicted), total clusters and backing of its launch, retain mask, the banks and the B-store. -/
structure Retained where
  ctx : Nat
  key : Word
  index : Nat
  num : Option Nat
  need : Nat
  backing : Nat
  mask : Nat
  sp : Sparse Byte
  bs : Sparse Byte
  deriving DecidableEq, Repr

/-- A launch context as a job of halt waves (R417 to R425): state (0 RUNNING, 1 HALTING, 2 FROZEN, 3 RESUMING), the stop
tick, the tick of the resume or step asked for, the step's length, core steps asked for (core, tick, the tick from which it runs), a host
halt held, cause entries
recorded (their two doublewords, oldest first in the order of R423), whether the stop under way ends a wave, ticks that its
job time has stood still for a pre-emption or been set back by a replay (R398, R433). -/
structure Job where
  state : Nat
  stop : Option Nat
  resume : Option Nat
  step : Option Nat
  core : List (Nat × Nat × Option Nat)
  hostHeld : Bool
  wave : Bool
  causes : List (Word × Word)
  away : Nat
  deriving DecidableEq, Repr

def job0 : Job := ⟨0, none, none, none, [], false, false, [], 0⟩

/-- A reduction tree (R409 to R411): context, list length, target doubleword, nodes (parent, inputs, stack, cluster). -/
structure Tree where
  ctx : Nat
  k : Nat
  target : Word
  nodes : List (Nat × Nat × Nat × Nat)
  got : List (Nat × List (Lane × Lane))
  deriving DecidableEq, Repr

/-- The head of a plan's descriptor and its tables: the 64 bytes, counts, sources, destinations (R405). -/
structure PlanDesc where
  head : List Nat
  n : Nat
  mode : Nat
  counts : List Nat
  src : List Nat
  dst : List Nat
  deriving DecidableEq, Repr

/-- A phase plan in progress (R404 to R407): context, descriptor as read at the doorbell, start, phases with their start
offset, length and destinations, the next phase, completion post, whether a fault has been met, blocks injected and not yet
performed with their bytes, the tick at which the schedule is ready. -/
structure PlanE where
  ctx : Nat
  desc : PlanDesc
  t0 : Nat
  phases : List (Nat × Nat × List (Option Nat))
  next : Nat
  post : Word
  fault : Bool
  fly : List (Nat × List Byte)
  ready : Nat
  deriving DecidableEq, Repr

/-- An encode job (R378): barrier, encoder session (8 × ENC + SESS), the frame and ring it captured, running or queued. -/
structure EncJob where
  bar : Nat
  sess : Nat
  frame : Word
  ring : Word
  running : Bool
  deriving DecidableEq, Repr

/-- A polling slot table of one Eplek core (R439): for each of 64 positions the stream, or none. -/
abbrev SlotTab := List (Option Nat)

end Sys2Proof.Machine
end

