-- ==== Sys2Proof/Machine/State.lean ====
section
/-! DEFINITION. The state of the machine as plain data, its faults and refusals, and the state right after reset. -/

namespace Sys2Proof.Machine

/-- What a step can stop on for want of any state the spec gives. -/
inductive Fault
  /-- Raised by every slot operation when the focus names no core that runs a launch: the spec gives operations no meaning
  outside a core's launch (08 R212, 15 R364). Safe: nothing is claimed of such an execution. -/
  | noCore
  deriving DecidableEq, Repr

/-- What this model declines, by name. -/
inductive Refusal
  /-- Raised by no meaning; an arm of `exec` that has none yet answers it. Safe: the machine stops. -/
  | notModelled (mnemonic : String)
  deriving DecidableEq, Repr

/-- A piece of work of the cycle under way, done one a step (00 R4, 02 R62): the start of a core's cycle, an operation in
a slot, the later accesses of the sort and sample unit, the engines, the helpers' turn and the later accesses of their K operations, the end of the core's cycle; the
parts of the end of the part's cycle; an event, with the core, gateway (512 + g), stream or context it is about. -/
inductive Work
  | beginCore (key : Nat)
  | slot (key : Nat) (who : Ctx) (slot : Nat)
  | ports (key : Nat)
  | matrix (key : Nat)
  | matrixRun (key : Nat)
  | copy (key : Nat)
  | pick (key : Nat)
  | lateK (key : Nat)
  | endCore (key : Nat)
  | endCycle
  | settle
  | nextTick
  | event (unit : Nat) (i : Instr)
  deriving DecidableEq, Repr

structure State where
  /-- the graticule counter of the chip (R8, R403) -/
  tick : Nat
  /-- the operation being executed (the model's own) -/
  focus : Focus
  /-- work of the cycle still to do (the model's own) -/
  agenda : List Work
  /-- actions of outside agents: tick, what each is about, the event (the model's own) -/
  inputs : List (Nat × Nat × Instr)
  /-- events the part has set for the end of a later tick -/
  timers : List (Nat × Nat × Instr)
  /-- free values drawn so far (the model's own; R171 and every other value the spec leaves open) -/
  draws : Nat
  /-- requests and messages numbered so far (the model's own) -/
  seq : Nat
  /-- cores bound to launches, by number (R134), and gateways, at 512 + g (R414) -/
  cores : List (Nat × Core)
  /-- clusters, by number 24 × stack + cluster (R71, R444, R447) -/
  clusters : Sparse Cluster
  /-- code stores of the gateways, bundle i of gateway g at 2048 g + i (R414) -/
  gcode : Sparse (BitVec 256)
  /-- memory of the physical space (R26, R27) -/
  mem : Memory
  /-- lines held in L2 (R169) -/
  l2 : List L2Line
  reqs : List Req
  msgs : List Msg
  /-- messages that reached a frozen core (R421) -/
  parked : List Msg
  hubTlb : List TlbE
  /-- walk caches of the four stacks and of the hub (R29): stack 0 to 3, hub 4 -/
  walks : List (Nat × WalkE)
  /-- hub registers by offset: each held as its difference from its reset value (R7) -/
  regs : Sparse Word
  faults : List FaultE
  /-- invalidations queued and in progress (R40); of the one in progress, once its entries are gone, the frames of what it
  removed with their sizes, the number that stood then and the tick by which every walk then under way has ended (R41) -/
  tinv : List Word
  tinvRun : Option (List (Nat × Nat) × Nat × Nat)
  /-- walks under way: walkers' place (stack 0 to 3, hub 4), the tick each ends (R29, R30) -/
  walkers : List (Nat × Nat)
  /-- fault interrupts raised (R36) -/
  faultIrqs : Nat
  /-- doublewords of memory that hold an uncorrectable error, by physical address (R32) -/
  poison : List Nat
  /-- scale and codebook lines in the decode caches of the memory controllers, the newest first (R206) -/
  decode : List (Nat × Nat)
  /-- launches consumed and not finished, in order of consumption -/
  launches : List Launch
  /-- sequence numbers finished beyond STR_DONE, by stream (R358) -/
  finished : List (Nat × Nat)
  /-- BULK credits by stream (R370) -/
  credits : Sparse Int
  /-- graph slots: graph and the packet's doublewords (R371) -/
  graphs : List (Nat × List Word)
  /-- recordings in progress: stream, graph, packets still to store, sequence number, record address (R371) -/
  recording : List (Nat × Nat × Nat × Nat × Nat)
  /-- packets that replays have inserted, by stream, modulo 2^32: HEAD counts them and the ring does not (R371) -/
  extra : Sparse Nat
  /-- the launch each stream consumed last: its id + 1 (R358) -/
  lastOf : Sparse Nat
  /-- the launch unit decides at the end of this tick (R370) -/
  deciding : Bool
  /-- TYPE 2 kills under way: stream, sequence number, context, record address (R399) -/
  kills : List (Nat × Nat × Nat × Nat)
  retained : List Retained
  jobs : List Job
  /-- breakpoint settings as each core sees them: core, sixteen (task, control) pairs (R425) -/
  bps : List (Nat × List (Word × Word))
  trees : List (Nat × Tree)
  plans : List PlanE
  /-- lists delivered to dispatch groups: group, logical expert, list (R413) -/
  dispatched : List (Nat × Nat × List (Lane × Lane))
  enc : List EncJob
  slots : List SlotTab
  /-- streams whose slots are freed at the next frame (R439) -/
  freeing : List Nat
  frames : Nat
  /-- flight-recorder entries of die d, entry i at 4096 d + i (R434) -/
  frec : Sparse (Word × Word)
  survPulses : Nat
  meas : BitVec 512
  bootFail : Bool
  fwBusy : Bool
  /-- the rung of the reset ladder whose power-up is under way, 0: none (R440, R444) -/
  rungUp : Nat
  /-- BUDGET before the firmware lowered it, 0: not lowered (R446) -/
  budgetWas : Nat
  /-- SRAM of the Eplek cores, byte a of core c at 262144 c + a (R438): the firmware's own, of which the spec lays out nothing -/
  sram : Sparse Byte
  /-- times the flit now awaited at a port has been resent (R401) -/
  linkRetry : Sparse Nat
  /-- flits that other chips have put on the links, by port, in the order sent on each channel (the model's own) -/
  wire : List (Nat × Flit)
  /-- a frozen job's flits in the buffers of the ports, by port (R421) -/
  portHeld : List (Nat × Flit)
  /-- L2 events of this cycle: the router of the slice, the event (R169, R430) -/
  l2evs : List (Nat × Nat)
  /-- entries of the flight recorder's input queues not yet taken, by die (R434) -/
  frq : Sparse Nat
  /-- offset from the master still to steer, cycles until the counter may be steered again, ticks within bound (0: out of
  it) (R403) -/
  gratOff : Int
  gratWait : Nat
  gratIn : Nat
  /-- pages of the swap area in use; the slot being swapped out and the next entry of its list; slots swapped out since the
  pool last fell below LOWWM; context and page of the SWAPPED faults met since the slot's turn began (R375) -/
  swapUsed : List Nat
  swapAct : Option (Nat × Nat)
  swapGone : List Nat
  swapFaults : List (Nat × Nat)
  deriving DecidableEq, Repr

def focus0 : Focus := ⟨0, .prim, 0, 0, 1, 0, 0⟩

/-- The machine right after reset (01 to 19, each register's reset value; assumptions 2, 3 and 4). -/
def State.reset : State :=
  { tick := 0, focus := focus0, agenda := [], inputs := [], timers := [], draws := 0, seq := 0, cores := [],
    clusters := [], gcode := [], mem := [], l2 := [], reqs := [], msgs := [], parked := [], hubTlb := [], walks := [],
    regs := [], faults := [], tinv := [], tinvRun := none, walkers := [], faultIrqs := 0, poison := [], decode := [],
    launches := [], finished := [], credits := [], graphs := [], recording := [],
    extra := [], lastOf := [], deciding := false, kills := [], retained := [], jobs := List.replicate 16 job0, bps := [], trees := [], plans := [],
    dispatched := [], enc := [], slots := List.replicate 4 (List.replicate 64 none), freeing := [], frames := 0,
    frec := [], survPulses := 0, meas := 0, bootFail := false, fwBusy := false, rungUp := 0, budgetWas := 0, sram := [],
    linkRetry := [], wire := [], portHeld := [], l2evs := [], frq := [], gratOff := 0, gratWait := 0, gratIn := 0, swapUsed := [], swapAct := none, swapGone := [],
    swapFaults := [] }

end Sys2Proof.Machine
end

