-- ==== Sys2Proof/Machine/Home.lean ====
section
/-! DEFINITION. The part outside the cores: finding a core, free values, hub registers, the flight recorder, memory homes
with L2 and format windows (01 R26 to R28, 06 R168 to R174, 07 R203 to R206, 18 R434). -/

namespace Sys2Proof.Machine

/-! ### Cores by number -/

/-- The core (or gateway, at 512 + g) with a number, if one is bound. -/
def lookCore : List (Nat × Core) → Nat → Option Core
  | [], _ => none
  | (k, c) :: l, n => if k = n then some c else lookCore l n

/-- The list with the core of a number replaced; an absent number changes nothing. -/
def putCore : List (Nat × Core) → Nat → Core → List (Nat × Core)
  | [], _, _ => []
  | (k, c) :: l, n, d => if k = n then (k, d) :: l else (k, c) :: putCore l n d

/-- The list with a core added or replaced, numbers rising. -/
def insCore : List (Nat × Core) → Nat → Core → List (Nat × Core)
  | [], n, d => [(n, d)]
  | (k, c) :: l, n, d => if n < k then (n, d) :: (k, c) :: l else if k = n then (k, d) :: l else (k, c) :: insCore l n d

def State.core (s : State) (n : Nat) : Option Core := lookCore s.cores n

def State.setCore (s : State) (n : Nat) (c : Core) : State := { s with cores := putCore s.cores n c }

/-- A change of one core; of none when the number is not bound. -/
def State.modCore (s : State) (n : Nat) (f : Core → Core) : State :=
  match lookCore s.cores n with
  | some c => s.setCore n (f c)
  | none => s

/-- A change of every bound core. -/
def State.mapCores (s : State) (f : Nat → Core → Core) : State :=
  { s with cores := s.cores.map (fun e => (e.1, f e.1 e.2)) }

/-! ### Clusters, launches, and the numbers of a launch's first binding (R229, R398) -/

/-- Cluster number 24 × stack + cluster of a core. -/
def clusterNo (n : Nat) : Nat := n / 128 * 24 + (if n % 128 < 96 then n % 128 / 4 else n % 128 - 96)

/-- The core of a cluster with a cluster-relative index. -/
def coreIn (cl k : Nat) : Nat := cl / 24 * 128 + (if k < 4 then cl % 24 * 4 + k else 96 + cl % 24)

def State.launchOf (s : State) (id : Nat) : Option Launch := s.launches.find? (fun l => l.id = id)

def State.modLaunch (s : State) (id : Nat) (f : Launch → Launch) : State :=
  { s with launches := s.launches.map (fun l => if l.id = id then f l else l) }

/-- The core a number names now: numbers of a launch are those of its first binding (R398). -/
def nowIn (l : Launch) (v : Nat) : Nat :=
  match l.home.findIdx? (· = clusterNo v) with
  | some j => (match l.clusters[j]? with
    | some cl => coreIn cl (kOf v)
    | none => v)
  | none => v

def State.nowCore (s : State) (id v : Nat) : Nat :=
  match s.launchOf id with
  | some l => nowIn l v
  | none => v

/-- The same for a number that a tree of a context names. -/
def State.nowCtx (s : State) (ctx v : Nat) : Nat :=
  match s.launches.find? (fun l => l.ctx = ctx && l.clusters ≠ [] && l.home.contains (clusterNo v)) with
  | some l => nowIn l v
  | none => v

/-! ### Free values and numbering -/

/-- A free number of cycles without a bound (assumption 4). -/
def State.drawAny (s : State) : Nat × State := ((Config.draw s.draws).toNat, { s with draws := s.draws + 1 })

/-- A free value in a range (assumption 4). -/
def State.drawIn (s : State) (lo hi : Nat) : Nat × State :=
  (lo + (Config.draw s.draws).toNat % (hi - lo + 1), { s with draws := s.draws + 1 })

/-- Puts events about a unit at the front of the cycle's work. -/
def State.soon (s : State) (unit : Nat) (l : List Instr) : State := { s with agenda := l.map (Work.event unit) ++ s.agenda }

/-- An event set for a later tick, behind those set before for it. -/
def insTimer (t u : Nat) (i : Instr) : List (Nat × Nat × Instr) → List (Nat × Nat × Instr)
  | [] => [(t, u, i)]
  | e :: l => if t < e.1 then (t, u, i) :: e :: l else e :: insTimer t u i l

def State.later (s : State) (t unit : Nat) (i : Instr) : State := { s with timers := insTimer t unit i s.timers }

/-- Sends a message that lands at the end of the cycle `due - 1` cycles on. -/
def State.send (s : State) (due src lctx : Nat) (b : Body) : State :=
  { s with msgs := s.msgs ++ [⟨due, src, lctx, s.seq, b⟩], seq := s.seq + 1 }

/-! ### Hub registers (R7) -/

/-- Reset values of the hub registers that are not 0 (each register's map). -/
def regReset (off : Nat) : Word :=
  if off = 0x128 then 40
  else if off = 0x1108 then 6
  else if off = 0x1400 then 0x5A00000000006000
  else if off = 0x8000 then 16
  else if 0x2000 ≤ off ∧ off < 0x3000 ∧ off % 64 = 8 then 0x2000820000000004
  else if 0x3000000 ≤ off ∧ off < 0x3004000 ∧ off % 64 = 0 then 1
  else 0

/-- A hub register as it stands. -/
def State.reg (s : State) (off : Nat) : Nat := (spGet 0 s.regs off ^^^ regReset off).toNat

/-- A hub register set whole. -/
def State.setReg (s : State) (off v : Nat) : State :=
  { s with regs := spSet 0 s.regs off (BitVec.ofNat 64 v ^^^ regReset off) }

/-- Bits hi..lo of a hub register. -/
def State.fld (s : State) (off hi lo : Nat) : Nat := bits (s.reg off) hi lo

/-- Bits hi..lo of a hub register replaced. -/
def State.setFld (s : State) (off hi lo v : Nat) : State := s.setReg off (setBits (s.reg off) hi lo v)

/-- A field that counts, saturating at its largest value. -/
def State.countSat (s : State) (off hi lo n : Nat) : State :=
  s.setFld off hi lo (min (s.fld off hi lo + n) (2 ^ (hi + 1 - lo) - 1))

/-- A field that counts modulo its size. -/
def State.countMod (s : State) (off hi lo n : Nat) : State := s.setFld off hi lo (s.fld off hi lo + n)

def State.chip (s : State) : Nat := s.fld 0x120 6 0

/-- HOSTMODE.MODE: the host link has been trained as CXL with CXL.cache (R435). -/
def State.cxlMode (s : State) : Bool := s.fld 0x100 1 0 = 1

/-- Job time of a context (R8, R398, R422, R433): graticule time less the frozen ticks, those of its pre-emptions and those a
replay has set it back by; at the stop tick it stands still. -/
def State.jobTime (s : State) (ctx : Nat) : Nat :=
  let j := s.jobs.getD ctx job0
  let now := match j.stop with
    | some t => min s.tick t
    | none => s.tick
  now - s.reg (0x6018 + 0x200 * ctx) - j.away

/-! ### The flight recorder (R434) -/

/-- An entry of die d: kind, cause, context, core (0x1FF: none), detail; the graticule tick. It takes a place in the die's input
queue of 32; an event that finds the queue full is lost and counted. -/
def State.note (s : State) (die kind cause ctx core detail : Nat) : State :=
  let full := 32 ≤ spGet 0 s.frq die
  let i := s.fld (0x8200 + 32 * die) 31 0
  let w := kind * 2 ^ 56 + cause * 2 ^ 48 + ctx % 16 * 2 ^ 44 + core % 512 * 2 ^ 35 + detail % 2 ^ 32
  { s with
    frec := if full then s.frec
            else spSet (0, 0) s.frec (4096 * die + i % 4096) (BitVec.ofNat 64 w, BitVec.ofNat 64 s.tick),
    frq := if full then s.frq else spSet 0 s.frq die (spGet 0 s.frq die + 1),
    regs := (if full then s.countSat (0x8208 + 32 * die) 63 0 1 else s.countMod (0x8200 + 32 * die) 31 0 1).regs }

/-- The recorder's writes of a cycle: each queue that holds entries gives up some; how many, the spec does not say
(assumption 129). -/
def State.takeNotes (s : State) : State :=
  s.frq.foldl (fun st e =>
    let d := st.drawIn 1 e.2
    { d.2 with frq := spSet 0 d.2.frq e.1 (e.2 - d.1) }) s

/-- The base die of a core, the hub for a gateway. -/
def dieOf (n : Nat) : Nat := if n < 512 then n / 128 else 4

/-! ### Physical space (R26 to R28) -/

inductive Region
  | hbm
  | ddr
  | host
  | regs
  | none
  deriving DecidableEq, Repr

def chipOf (pa : Nat) : Nat := pa / 2 ^ 45
def localOf (pa : Nat) : Nat := pa % 2 ^ 45

/-- What a local address names (R27). DESIGN CHOICE (assumption 147): a peer chip has as much DDR-5 as this one; the spec gives
no peer's capacity. -/
def regionOf (la : Nat) : Region :=
  if la < 0x8000000000 then .hbm
  else if 0x10000000000 ≤ la ∧ la < 0x10000000000 + min Config.ddrGiB 2048 * 2 ^ 30 then .ddr
  else if 0x100000000000 ≤ la ∧ la < 0x1F0000000000 then .host
  else if 0x1F0000000000 ≤ la then .regs
  else .none

/-- The offset in the register region. -/
def regOff (pa : Nat) : Nat := localOf pa - 0x1F0000000000

/-- The legend carve-out: the top SIZE GiB of HBM (R342). -/
def State.carveLo (s : State) : Nat := 0x8000000000 - s.fld 0x1380 2 0 * 2 ^ 30

def State.inCarve (s : State) (pa : Nat) : Bool :=
  chipOf pa = s.chip && localOf pa < 0x8000000000 && s.carveLo ≤ localOf pa

/-- A port of the chip is up (R402). -/
def State.portUp (s : State) (p : Nat) : Bool := bit (s.reg (0x1700 + 8 * p)) 63

/-- The k-th peer among three, leaving out the chip's own position. -/
def peerPos (own other : Nat) : Nat := if other < own then other else other - 1

/-- The chips a flow visits from chip `a` to chip `b`, one hop each: the uplink to the other drove, the row hop, the column
hop (R28, R400). -/
def routeTo (a b : Nat) : List Nat :=
  let d := b / 16 * 16
  (if a / 16 ≠ b / 16 then [d + a % 16] else [])
  ++ (if a % 4 ≠ b % 4 then [d + a % 16 / 4 * 4 + b % 4] else [])
  ++ (if a % 16 / 4 ≠ b % 16 / 4 then [b] else [])

/-- The ports of this chip that lead to a chip one hop away (R400). -/
def firstPorts (me nb : Nat) : List Nat :=
  if me / 16 ≠ nb / 16 then [12 + nb / 16 % 4]
  else if me % 4 ≠ nb % 4 then (let k := peerPos (me % 4) (nb % 4); [2 * k, 2 * k + 1])
  else (let k := peerPos (me / 4 % 4) (nb / 4 % 4); [6 + 2 * k, 7 + 2 * k])

/-- Every hop past the first is up: those links are other chips' (R28). -/
def farUp (tick : Nat) : List Nat → Bool
  | a :: b :: l => Config.farLink a b tick && farUp tick (b :: l)
  | _ => true

/-- The route to a chip is up, hop by hop (R28, R400). -/
def State.routeUp (s : State) (chip : Nat) : Bool :=
  match routeTo s.chip chip with
  | [] => true
  | a :: l => (firstPorts s.chip a).any s.portUp && farUp s.tick (a :: l)

/-- A peer that answers over a route that is up (R28). -/
def State.peerThere (s : State) (chip : Nat) : Bool := Config.chipPresent chip && s.routeUp chip

/-! ### Homes, slices and distances (R134, R168, R169, R171) -/

def xorAll (l : List Nat) : Nat := l.foldl Nat.xor 0

/-- The slice of a line (R169). -/
def sliceOf (line : Nat) : Nat :=
  128 * (line / 128 % 3)
  + xorAll [bits line 6 0, bits line 13 7, bits line 20 14, bits line 27 21, bits line 34 28, bits line 41 35,
            bits line 45 42] % 128

/-- The base die whose L2 holds a line's one cached copy (R168). -/
def dieOfLine (pa : Nat) : Nat :=
  let la := localOf pa
  match regionOf la with
  | .hbm => (Nat.xor (bits la 14 12) (bits la 17 15)) / 2
  | _ => pa / 64 % 4

/-- Hops between two cluster routers of one die (R134). -/
def hops (a b : Nat) : Nat :=
  let d (x y : Nat) : Nat := if x ≤ y then y - x else x - y
  d (a % 6) (b % 6) + d (a / 6) (b / 6)

/-- The place of a line in L2: die, slice, set. -/
def l2Set (line : Nat) : Nat := (dieOfLine (64 * line) * 384 + sliceOf line) * 512 + line / 128 % 512

/-- Is a line with coherence mode `coh` held in L2 (R25, R168)? -/
def State.cached (s : State) (coh pa : Nat) : Bool :=
  chipOf pa = s.chip && (match regionOf (localOf pa) with
    | .hbm => true
    | .ddr => true
    | .host => coh ≠ 2
    | _ => false)

/-! ### Format windows (R203 to R206) -/

def fwReg (w k : Nat) : Nat := 0x4000 + 64 * w + 8 * k

/-- An active window whose view holds the address, expand or carry. -/
def State.viewOf (s : State) (pa w : Nat) : Bool :=
  let ctl := s.reg (fwReg w 0)
  let lo := bits ctl 51 12 * 4096
  bit ctl 63 && lo ≤ pa && pa < lo + s.fld (fwReg w 1) 31 0 * 4096

/-- The expand window that decodes an address: the lowest-numbered active window whose view holds it, if that one expands; a
carry window decodes nothing (R204, R205). -/
def State.window (s : State) (pa : Nat) : Option Nat :=
  match (List.range 64).find? (s.viewOf pa) with
  | some w => if bit (s.reg (fwReg w 0)) 62 then none else some w
  | none => none

/-- A decoded element of a view, from its sources as memory behind L2 holds them (R204; DESIGN CHOICE, assumption 136). -/
def State.viewElem (s : State) (w e : Nat) : Nat :=
  let ctl := s.reg (fwReg w 0)
  let store := s.fld (fwReg w 2) 51 5 * 32
  let scale := fpVal fmtBf (memNat s.mem (s.fld (fwReg w 3) 51 5 * 32 + 2 * (e / 64)) 2)
  let cb := s.fld (fwReg w 4) 51 5 * 32
  let fmt := bits ctl 61 59
  let v := if fmt = 0 then
      let b := memNat s.mem (store + e / 2) 1
      (xMul (fpVal fmtBf (memNat s.mem (cb + 2 * (b / 16 ^ (e % 2) % 16)) 2)) scale).1
    else
      let x := fpVal (if fmt = 1 then fmtE4 else fmtE5) (memNat s.mem (store + e) 1)
      if bit ctl 58 then (xMul x scale).1 else x
  (roundTo fmtBf .near false v).1

/-- A line decoded on fill (R204). -/
def State.viewLine (s : State) (w pa : Nat) : List Byte :=
  let e0 := (pa - bits (s.reg (fwReg w 0)) 51 12 * 4096) / 2
  (List.range 32).flatMap (fun i => leBytes 2 (s.viewElem w (e0 + i)))

/-! ### L2 and accesses performed at homes (R168 to R174) -/

def l2Find (l : List L2Line) (line : Nat) : Option L2Line := l.find? (fun e => e.line = line)

/-- The router a line's slice sits at: 24 × die + ⌊slice ÷ 16⌋ (R168, R169). -/
def routerOf (line : Nat) : Nat := 24 * dieOfLine (64 * line) + sliceOf line / 16

/-- An L2 event of a line: 3 a hit, 4 a miss, 5 a write-back (R430). -/
def State.l2Event (s : State) (line ev : Nat) : State := { s with l2evs := (routerOf line, ev) :: s.l2evs }

/-- Writes a line back to memory if it is dirty; decoded lines are never written back (R205). -/
def State.writeBack (s : State) (e : L2Line) : State :=
  if e.dirty && !e.view then { s with mem := memPut s.mem (64 * e.line) e.data }.l2Event e.line 5 else s

/-- The least recently used line of a set. -/
def oldest : List L2Line → Option L2Line
  | [] => none
  | e :: l => match oldest l with
    | none => some e
    | some f => if e.lru ≤ f.lru then some e else some f

/-- Makes room in a set of 16 ways (R169). -/
def State.l2Room (s : State) (line : Nat) : State :=
  let set := s.l2.filter (fun e => l2Set e.line = l2Set line)
  if set.length < 16 then s
  else match oldest set with
    | none => s
    | some v => { s.writeBack v with l2 := s.l2.filter (fun e => e.line ≠ v.line) }

/-- The line at its home: a hit, or a fill from memory through any format window (R174, R204); an access with COH 01 holds a
line of the host window under CXL.cache (R183). -/
def State.fillLine (s : State) (coh line : Nat) : L2Line × State :=
  let cxl := regionOf (localOf (64 * line)) = .host && coh = 1
  match l2Find s.l2 line with
  | some e =>
    let e' := { e with lru := s.seq, cxl := e.cxl || cxl }
    (e', ({ s with l2 := s.l2.map (fun f => if f.line = line then e' else f), seq := s.seq + 1 } : State).l2Event line 3)
  | none =>
    let w := s.window (64 * line)
    let d := match w with
      | some k => s.viewLine k (64 * line)
      | none => memBytes s.mem (64 * line) 64
    let e : L2Line := ⟨line, d, false, s.seq, w.isSome, cxl⟩
    let s1 := s.l2Room line
    (e, { s1 with l2 := s1.l2 ++ [e], seq := s.seq + 1 }.l2Event line 4)

/-- `n` bytes of one line as a read at the home returns them. -/
def State.homeLine (s : State) (coh pa n : Nat) : List Byte × State :=
  if s.cached coh pa then
    let r := s.fillLine coh (pa / 64)
    ((r.1.data.drop (pa % 64)).take n, r.2)
  else (memBytes s.mem pa n, s)

/-- A read of `n` bytes performed at the homes of its lines, in ascending order. -/
def State.homeRead (s : State) (coh pa : Nat) : Nat → Nat → List Byte × State
  | 0, _ => ([], s)
  | k + 1, n =>
    let m := min n (64 - pa % 64)
    let r := s.homeLine coh pa m
    if n ≤ m then r
    else
      let t := State.homeRead r.2 coh (pa + m) k (n - m)
      (r.1 ++ t.1, t.2)

/-- Bytes written over old ones; none leaves the byte. -/
def overlay : List Byte → List (Option Byte) → List Byte
  | _ :: bs, some d :: ds => d :: overlay bs ds
  | b :: bs, none :: ds => b :: overlay bs ds
  | bs, [] => bs
  | [], _ => []

/-- Doublewords that a write covers whole: an error they held is gone. -/
def State.heal (s : State) (pa : Nat) (data : List (Option Byte)) : State :=
  { s with poison := s.poison.filter (fun a =>
      !(pa ≤ a && a + 8 ≤ pa + data.length && ((data.drop (a - pa)).take 8).all Option.isSome)) }

/-- A write within one line performed at its home; a write to an expand view is discarded and counted (R205). A line decoded
through a window that is off by now is memory's own again once it is written. -/
def State.homePut (s0 : State) (coh pa : Nat) (data : List (Option Byte)) : State :=
  let s := s0.heal pa data
  match (if chipOf pa = s.chip then s.window (pa / 64 * 64) else none) with
  | some w => s.countSat (fwReg w 5) 31 0 1
  | none =>
    if s.cached coh pa then
      let r := s.fillLine coh (pa / 64)
      let d := r.1.data.take (pa % 64) ++ overlay (r.1.data.drop (pa % 64)) data
      { r.2 with l2 := r.2.l2.map (fun f => if f.line = pa / 64 then { f with data := d, dirty := true, view := false } else f) }
    else { s with mem := memPut s.mem pa (overlay (memBytes s.mem pa data.length) data) }

/-- A write performed at the homes of its lines, line by line. DESIGN CHOICE (assumption 152): each 64-byte line that a format
window discards counts one write in WERR (R205). -/
def State.homeWrite (s : State) (coh pa : Nat) : Nat → List (Option Byte) → State
  | 0, _ => s
  | k + 1, data =>
    let m := min data.length (64 - pa % 64)
    let s1 := s.homePut coh pa (data.take m)
    if data.length ≤ m then s1 else State.homeWrite s1 coh (pa + m) k (data.drop m)

/-- Fills under way when a window is written have started with the windows as they stood (R206): their lines are decoded, or
read as plain memory, as of now. DESIGN CHOICE (assumption 146): a fill has started once its request has left its agent, be it
a read, a write or an atomic, and be it still on its way to the home. -/
def State.startFills (s : State) : State :=
  (s.reqs.filter (fun r => !r.look && r.got.isNone && s.cached (r.off / 64) r.pa && (l2Find s.l2 (r.pa / 64)).isNone)).foldl
    (fun st r => (st.fillLine (r.off / 64) (r.pa / 64)).2) s

/-- Reads of the hub at physical addresses. -/
def State.physRead (s : State) (pa n : Nat) : List Byte × State := s.homeRead 0 pa (n / 64 + 2) n

def State.physNat (s : State) (pa n : Nat) : Nat := leNat (s.physRead pa n).1

/-- Writes of the hub at physical addresses. -/
def State.physWrite (s : State) (pa : Nat) (bs : List Byte) : State :=
  s.homeWrite 0 pa (bs.length / 64 + 2) (bs.map some)

/-- The lines of a range in L2 that satisfy a test, written back; dropped when `drop` (R187). -/
def State.cleanLines (s : State) (drop : Bool) (p : L2Line → Bool) : State :=
  let hit := s.l2.filter p
  let s1 := hit.foldl State.writeBack s
  { s1 with l2 := if drop then s1.l2.filter (fun e => !p e)
                  else s1.l2.map (fun e => if p e then { e with dirty := false } else e) }

/-! ### Times (R170 to R172) -/

/-- The hub edge of a die sits at cluster 0; distance of a cluster to it. -/
def edgeHops (cl : Nat) : Nat := hops cl 0

/-- A die is in circuit mode (R170). -/
def State.circuit (s : State) (die : Nat) : Bool := bit (s.reg (0x1200 + 8 * die)) 0

/-- Cycles until the first cycle congruent to n modulo m, from cycle t. -/
def untilMod (m n t : Nat) : Nat := (n + m - t % m) % m

/-- The cluster of a core on its die. -/
def clOf (n : Nat) : Nat := if n % 128 < 96 then n % 128 / 4 else n % 128 - 96

/-- The first injection cycle from `t` on, five cycles apart, with fewer than eight requests (R170). -/
def freeSlot (l : List (Nat × Nat)) : Nat → Nat → Nat
  | 0, t => t
  | k + 1, t => if l.any (fun e => e.1 = t && 8 ≤ e.2) then freeSlot l k (t + 5) else t

/-- A request of a core takes a place in the first injection cycle after `c` that its die's mode allows (R170). -/
def State.inject (s : State) (num c : Nat) : Nat × State :=
  match s.core num with
  | some k =>
    if num < 512 && s.circuit (num / 128) then
      let l := k.injs.filter (fun e => s.tick ≤ e.1)
      let t := freeSlot l (l.length + 1) (c + 1 + untilMod 5 (kOf num) (c + 1))
      let n := ((l.find? (fun e => e.1 = t)).map (·.2)).getD 0
      (t, s.setCore num { k with injs := (t, n + 1) :: l.filter (fun e => e.1 ≠ t) })
    else (c + 1, s)
  | none => (c + 1, s)

/-- The memory controller of a line: its HBM stack, or 8 for DDR-5 (R168, R203). -/
def controllerOf (pa : Nat) : Nat :=
  match regionOf (localOf pa) with
  | .hbm => Nat.xor (bits (localOf pa) 14 12) (bits (localOf pa) 17 15)
  | _ => 8

/-- Cycles of a miss to memory: HBM, DDR-5, or the host, which has no bound (R171). -/
def State.missTime (s : State) (pa : Nat) : Nat × State :=
  match regionOf (localOf pa) with
  | .hbm => s.drawIn 150 520
  | .ddr => s.drawIn 240 1100
  | _ => s.drawAny

/-- One further access of the fill of a view line where the controller's decode cache of 16 lines does not hold `line`, at the
figures of that line's own memory (R206); which line leaves is the model's choice: the oldest (assumption 9). -/
def State.decodeLine (s : State) (ctl line : Nat) : Nat × State :=
  if s.decode.contains (ctl, line) then (0, s)
  else
    let mine := (s.decode.filter (fun e => e.1 = ctl)).take 15
    { s with decode := (ctl, line) :: (mine ++ s.decode.filter (fun (e : Nat × Nat) => e.1 ≠ ctl)) }.missTime (64 * line)

/-- What decoding adds to the fill of a line: 12 cycles and the lines of scale and codebook that are not at hand (R206),
one access for each of the two (DESIGN CHOICE, assumption 137). -/
def State.decodeTime (s : State) (pa : Nat) : Nat × State :=
  match s.window (pa / 64 * 64) with
  | none => (0, s)
  | some w =>
    let ctl := s.reg (fwReg w 0)
    let e0 := (pa / 64 * 64 - bits ctl 51 12 * 4096) / 2
    let scale := s.fld (fwReg w 3) 51 5 * 32 + 2 * (e0 / 64)
    let book := s.fld (fwReg w 4) 51 5 * 32
    let k := controllerOf pa
    let a := if bits ctl 61 59 = 0 || bit ctl 58 then s.decodeLine k (scale / 64) else (0, s)
    let b := if bits ctl 61 59 = 0 then a.2.decodeLine k (book / 64) else (0, a.2)
    (12 + a.1 + b.1, b.2)

/-- T of R171 without misses for a request of a core injected in cycle `t`, counted from cycle `c`; a gateway's and a hub
agent's at hub-homed times (R414). Where only one of two dies is in circuit mode, the packet bounds hold (assumption 13). -/
def State.hitTime (s : State) (num coh pa c t : Nat) : Nat × State :=
  let la := localOf pa
  let die := dieOfLine pa
  let sl := sliceOf (pa / 64) / 16
  let cl := clOf num
  let a := t - (c + 1)
  if chipOf pa ≠ s.chip then
    let n := (routeTo s.chip (chipOf pa)).length
    let l := s.drawIn (360 * n) (1200 * n)
    let own := match regionOf la with
      | .hbm => (let h := edgeHops cl + edgeHops sl; l.2.drawIn (50 + 4 * h) (370 + 4 * h + 520))
      | .ddr => l.2.drawIn 70 (420 + 1100)
      | .host => (let x := l.2.drawAny; (70 + x.1, x.2))
      | _ => l.2.drawIn 70 420
    (l.1 + own.1, own.2)
  else match regionOf la with
    | .hbm =>
      if num < 512 && num / 128 = die then
        let h := hops cl sl
        if s.circuit die then (10 + 4 * h + a + untilMod 32 cl (t + 2 * h), s)
        else s.drawIn (10 + 4 * h) (170 + 4 * h)
      else if num < 512 then
        let h := edgeHops cl + edgeHops sl
        if s.circuit die && s.circuit (num / 128) then
          let x := (t + 20 + 2 * h) % 32
          (50 + 4 * h + a + (if 24 ≤ x then 0 else 24 - x), s)
        else s.drawIn (50 + 4 * h) (370 + 4 * h)
      else s.drawIn 70 420
    | .ddr => s.drawIn 70 420
    | .host => if coh = 2 then (let x := s.drawAny; (70 + x.1, x.2)) else s.drawIn 70 420
    | _ => s.drawIn 70 420

/-- T of R171 for an access made in cycle `c` and injected in cycle `t`: a miss adds the memory's figures and decoding. -/
def State.timeFrom (s : State) (num coh pa c t : Nat) : Nat × State :=
  let base := s.hitTime num coh pa c t
  if (l2Find s.l2 (pa / 64)).isSome || !s.cached coh pa then base
  else
    let m := base.2.missTime pa
    let d := m.2.decodeTime pa
    (base.1 + m.1 + d.1, d.2)

/-- T of R171 for a request of a core made in cycle `c`. -/
def State.readTime (s : State) (num coh pa c : Nat) : Nat × State :=
  let i := s.inject num c
  i.2.timeFrom num coh pa c i.1

/-- T of a walker's read of a table entry in cycle `c`, at the times of the core it walks for (R30; assumption 13). -/
def State.walkRead (s : State) (num pa c : Nat) : Nat × State :=
  s.timeFrom num 0 pa c (c + 1 + (if num < 512 && s.circuit (num / 128) then untilMod 5 (kOf num) (c + 1) else 0))

/-- Every die on the way of an access is in circuit mode: its times are exact (R170, R171). -/
def State.exactTime (s : State) (num pa : Nat) : Bool :=
  chipOf pa = s.chip && regionOf (localOf pa) = .hbm && num < 512 && s.circuit (dieOfLine pa) && s.circuit (num / 128)

/-- P of R171 for an access of total time T: exact in circuit mode, otherwise open within T. -/
def State.performTime (s : State) (num pa T : Nat) : Nat × State :=
  let die := dieOfLine pa
  let sl := sliceOf (pa / 64) / 16
  let cl := clOf num
  if s.exactTime num pa then
    (if num / 128 = die then T - 2 * hops cl sl - 1 else T - 20 - 2 * (edgeHops cl + edgeHops sl), s)
  else s.drawIn 2 (max 2 (T - 1))

/-- The cores' part of the cycle is still going on. -/
def State.inCores (s : State) : Bool := s.agenda.any (fun w => w = Work.settle || w = Work.endCycle)

/-- Passes of the request list until the last request of the core to the line that has left for the home is performed. -/
def State.lineAfter (s : State) (num line : Nat) : Nat :=
  s.reqs.foldl (fun m q => if q.core = num && !q.look && q.got.isNone && q.pa / 64 = line then max m q.home else m) 0

/-- The longest T of R171 for an access that hits. -/
def hitMax (num pa : Nat) : Nat :=
  match regionOf (localOf pa) with
  | .hbm =>
    let die := dieOfLine pa
    let sl := sliceOf (pa / 64) / 16
    if num < 512 && num / 128 = die then 170 + 4 * hops (clOf num) sl
    else if num < 512 then 370 + 4 * (edgeHops (clOf num) + edgeHops sl)
    else 420
  | _ => 420

/-- Times of a request made `lat` cycles from now: passes of the request list until it is performed and from then until its
data is at the core (R171). A request made in the cores' part of a cycle is passed in the same cycle. Where its time is the
model's to draw it is performed no earlier than the core's earlier requests to its line, as far as its own bounds let it; in
circuit mode a hit's time is fixed by its issue cycle (R170). -/
def State.reqTimes (s : State) (num coh pa lat : Nat) : (Nat × Nat) × State :=
  let t := s.readTime num coh pa (s.tick + lat)
  let p := t.2.performTime num pa t.1
  let now := if s.inCores then 0 else 1
  let own := lat + (p.1 - now)
  let hit := s.cached coh pa && (l2Find s.l2 (pa / 64)).isSome
  let after := s.lineAfter num (pa / 64)
  let due := if hit then (if s.exactTime num pa then own else max own (min after (lat + (hitMax num pa - 1 - now))))
             else max own after
  let back := t.1 - p.1
  ((due, if s.exactTime num pa then back else max (min 1 back) (back - (due - own))), p.2)

/-- Cycles until a post from core `src` lands at core `dst`, counted from this cycle (R134, R172). -/
def State.postTime (s : State) (src dst : Nat) : Nat × State :=
  if 512 ≤ src then s.drawIn (44 + edgeHops (clOf dst)) (108 + 2 * edgeHops (clOf dst))
  else if src / 128 = dst / 128 then
    (if clOf src = clOf dst then 12 else 20 + 2 * hops (clOf src) (clOf dst), s)
  else
    let h := edgeHops (clOf src) + edgeHops (clOf dst)
    s.drawIn (44 + 2 * h) (108 + 2 * h)

/-- Cycles until an arrival of a core lands at a frame barrier (R377). -/
def State.barTime (s : State) (src : Nat) : Nat × State :=
  let cl := if src % 128 < 96 then src % 128 / 4 else src % 128 - 96
  let h := if src < 512 then edgeHops cl else 0
  s.drawIn (40 + 2 * h) (100 + 2 * h)

end Sys2Proof.Machine
end

