-- ==== Sys2Proof/Machine/Xlate.lean ====
section
/-! DEFINITION. Translation and its faults (01 R18 to R43): TLBs, walk caches, page walks with accessed and dirty flags,
the fault queue, resolutions and invalidations. -/

namespace Sys2Proof.Machine

/-- Kind of a translated access: read, write, atomic (with its operation), cleaning of a line (R125). -/
inductive Acces
  | read
  | write
  | atomic (fn : Nat)
  | clean
  deriving DecidableEq, Repr

def Acces.writes : Acces → Bool
  | .write => true
  | .atomic _ => true
  | _ => false

/-! ### Translation structures (R29, R31) -/

/-- A cached leaf covers a virtual address of a context. -/
def tlbHit (ctx va : Nat) (e : TlbE) : Bool := e.ctx = ctx && e.va ≤ va && va < e.va + e.size

/-- The first level of an agent: the helpers' or the engines' micro-TLB, or the hub TLB. -/
def State.firstTlb (s : State) (num : Nat) (ag : Agent) : List TlbE :=
  match ag with
  | .helper _ => (match s.core num with
    | some c => c.utlbH
    | none => [])
  | .queue _ => (match s.core num with
    | some c => c.utlbE
    | none => [])
  | .fill => (match s.core num with
    | some c => c.utlbE
    | none => [])
  | _ => s.hubTlb

def State.clTlb (s : State) (num : Nat) : List TlbE := (spGet cluster0 s.clusters (clusterNo num)).tlb

/-- Adds an entry to a structure of `n` entries, the newest first (the replacement order is the model's: assumption 9). -/
def tlbAdd (n : Nat) (e : TlbE) (l : List TlbE) : List TlbE :=
  (e :: l.filter (fun f => !(f.ctx = e.ctx && f.va = e.va))).take n

/-- Adds an entry to the cluster TLB: 256 sets of 8 ways (R29), the set chosen by the low bits of the number of the page's
first 64 KiB (the index is the model's: assumption 9). -/
def tlbAddSet (e : TlbE) (l : List TlbE) : List TlbE :=
  let same (f : TlbE) : Bool := f.va / 0x10000 % 256 = e.va / 0x10000 % 256
  tlbAdd 8 e (l.filter same) ++ l.filter (fun f => !same f)

def isHubAgent : Agent → Bool
  | .gateway => true
  | .hubAgent => true
  | _ => false

/-- A fill writes the first level and the shared TLB together (R30). -/
def State.tlbFill (s : State) (num : Nat) (ag : Agent) (e : TlbE) : State :=
  let s1 := match ag with
    | .helper _ => s.modCore num (fun c => { c with utlbH := tlbAdd 64 e c.utlbH })
    | .queue _ => s.modCore num (fun c => { c with utlbE := tlbAdd 128 e c.utlbE })
    | .fill => s.modCore num (fun c => { c with utlbE := tlbAdd 128 e c.utlbE })
    | _ => { s with hubTlb := tlbAdd 256 e s.hubTlb }
  if isHubAgent ag then s1
  else
    let k := clusterNo num
    let cl := spGet cluster0 s1.clusters k
    { s1 with clusters := spSet cluster0 s1.clusters k { cl with tlb := tlbAddSet e cl.tlb } }

/-- Removes the cached leaves that cover an address from an agent's own structures (R42). -/
def State.tlbDrop (s : State) (num : Nat) (ag : Agent) (ctx va : Nat) : State :=
  let f (l : List TlbE) : List TlbE := l.filter (fun e => !tlbHit ctx va e)
  let s1 := match ag with
    | .helper _ => s.modCore num (fun c => { c with utlbH := f c.utlbH })
    | .queue _ => s.modCore num (fun c => { c with utlbE := f c.utlbE })
    | .fill => s.modCore num (fun c => { c with utlbE := f c.utlbE })
    | _ => { s with hubTlb := f s.hubTlb }
  if isHubAgent ag then s1
  else
    let k := clusterNo num
    let cl := spGet cluster0 s1.clusters k
    { s1 with clusters := spSet cluster0 s1.clusters k { cl with tlb := f cl.tlb } }

/-- The walk cache an agent's walker uses: its stack's, or the hub's (R29). -/
def walkerOf (num : Nat) (ag : Agent) : Nat := if isHubAgent ag || 512 ≤ num then 4 else num / 128

/-- Adds a pointer entry to a walk cache of 512 (hub: 128) entries. -/
def State.walkAdd (s : State) (wk : Nat) (e : WalkE) : State :=
  let mine := (s.walks.filter (fun x => x.1 = wk && x.2 ≠ e)).map (·.2)
  let rest := s.walks.filter (fun x => x.1 ≠ wk)
  { s with walks := rest ++ ((e :: mine).take (if wk = 4 then 128 else 512)).map (fun x => (wk, x)) }

/-! ### Page walks (R19 to R25, R32, R33) -/

/-- The bits of a virtual address above level `l`'s index, with it: what selects a pointer entry. -/
def vaTag (va l : Nat) : Nat := va / 2 ^ (16 + 9 * l)

/-- The index into a level-`l` table (R19). -/
def vaIdx (va l : Nat) : Nat := va / 2 ^ (16 + 9 * l) % 512

/-- Page size by SIZE code (R20). -/
def pageSize (z : Nat) : Nat := if z = 0 then 0x10000 else if z = 1 then 0x200000 else 0x40000000

/-- Fields of a leaf (R23). -/
def leafFrame (v : Nat) : Nat := bits v 51 16 * 0x10000
def leafCoh (v : Nat) : Nat := bits v 57 56
def leafSwap (v : Nat) : Nat := bits v 59 58
def leafSize (v : Nat) : Nat := bits v 61 60

/-- A coherence mode is permitted for a frame's region (R25); host-coherent pages need CXL when accessed. -/
def cohOk (coh size frame : Nat) : Bool :=
  match regionOf (localOf frame) with
  | .hbm => coh = 0
  | .ddr => coh = 0
  | .host => true
  | .regs => coh = 2 && size = 0
  | .none => true

/-- The checks of R24 on the entry at level `l`. -/
def badFormat (l v : Nat) : Bool :=
  if bit v 62 then
    bits v 14 12 ≠ 0 || bits v 3 0 ≠ 0 || 2 ≤ l || leafSize v = 3 || (leafSize v = 2 && l = 0)
    || (leafSize v ≠ 2 && l = 1) || (!bit v 54 && bit v 53) || leafSwap v = 3 || leafCoh v = 3
    || (leafSwap v ≠ 2 && (leafFrame v % pageSize (leafSize v) ≠ 0 || !cohOk (leafCoh v) (leafSize v) (leafFrame v)))
  else bits v 61 52 ≠ 0 || bits v 11 0 ≠ 0 || l = 0

/-- A table lies in the local HBM (R19, R24). -/
def State.tableOk (s : State) (t : Nat) : Bool := chipOf t = s.chip && regionOf (localOf t) = .hbm

/-- What a walk found: the leaf's address, value and level, or the cause and the level of a failing check; the addresses of
the entries it read, in order, and the pointer entries among them. -/
structure Walked where
  res : Except (Nat × Nat) (Nat × Nat × Nat)
  reads : List Nat
  ptrs : List WalkE

/-- A walk from the table at level `l` down (R19, R24, R32): each entry read as one doubleword at its home. -/
def State.descend (s : State) (ctx va : Nat) : Nat → Nat → Walked × State
  | l, t =>
    let a := t + 8 * vaIdx va l
    if !s.tableOk t then (⟨.error (0x0A, l), [], []⟩, s)
    else
      let r := s.physRead a 8
      let v := leNat r.1
      if s.poison.contains a then (⟨.error (0x0D, l), [a], []⟩, r.2)
      else if !bit v 63 then (⟨.error (0x01, l), [a], []⟩, r.2)
      else if badFormat l v then (⟨.error (0x02, l), [a], []⟩, r.2)
      else if bit v 62 then (⟨.ok (a, v, l), [a], []⟩, r.2)
      else
        let next := bits v 51 12 * 4096
        match l with
        | 0 => (⟨.error (0x02, 0), [a], []⟩, r.2)
        | k + 1 =>
          let w := State.descend r.2 ctx va k next
          (⟨w.1.res, a :: w.1.reads, ⟨ctx, l, vaTag va l, next⟩ :: w.1.ptrs⟩, w.2)

/-- The deepest pointer entry a walk cache holds for an address: the level below it and the table. -/
def State.walkHit (s : State) (wk ctx va : Nat) : Option (Nat × Nat) :=
  let at_ (l : Nat) : Option Nat :=
    (s.walks.find? (fun x => x.1 = wk && x.2.ctx = ctx && x.2.level = l && x.2.va = vaTag va l)).map (·.2.next)
  match at_ 1, at_ 2, at_ 3 with
  | some t, _, _ => some (0, t)
  | none, some t, _ => some (1, t)
  | none, none, some t => some (2, t)
  | none, none, none => none

/-- A walk (R32): through the walk cache, or from the root. -/
def State.walk (s : State) (num : Nat) (ag : Agent) (ctx va : Nat) : Walked × State :=
  let root := s.reg (0x1000 + 8 * ctx)
  match s.walkHit (walkerOf num ag) ctx va with
  | some h => s.descend ctx va h.1 h.2
  | none => s.descend ctx va 3 (bits root 51 12 * 4096)

/-- The checks on a leaf, in the order of R32, from SWAPPED on: the cause, if one fails. DESIGN CHOICE (assumption 147): what
a peer has installed, and whether its host takes AtomicOps, is taken from this chip's own configuration and HOSTMODE. -/
def State.leafCheck (s : State) (k : Acces) (coh swap : Nat) (rd wr : Bool) (pa : Nat) : Option Nat :=
  if swap = 1 || swap = 2 then some 0x06
  else if !rd && (match k with
    | .read => true
    | .atomic _ => true
    | _ => false) then some 0x03
  else if !wr && k.writes then some 0x04
  else if !wr && !rd && k = .clean then some 0x04
  else if coh = 1 && !s.cxlMode then some 0x07
  else if regionOf (localOf pa) = .none || s.inCarve pa then some 0x08
  else if chipOf pa ≠ s.chip && !s.peerThere (chipOf pa) then some 0x09
  else match k with
    | .atomic fn =>
      if regionOf (localOf pa) = .host && coh = 2 && (!bit (s.reg 0x100) 2 || !(fn = 0 || fn = 8 || fn = 9)) then some 0x0C
      else none
    | _ => none

/-- The TLB entry of a leaf at `va`. -/
def leafEntry (ctx va v : Nat) : TlbE :=
  let z := pageSize (leafSize v)
  ⟨ctx, va / z * z, z, leafFrame v, leafCoh v, bit v 54, bit v 53, bit v 15⟩

/-- An atomic OR of a leaf at its home (R33). -/
def State.leafOr (s : State) (at_ m : Nat) : State :=
  s.physWrite at_ (leBytes 8 (Nat.lor (s.physNat at_ 8) m))

def bitAF : Nat := 2 ^ 52
def bitDF : Nat := 2 ^ 15

/-- What a translation gives: physical address, coherence mode, cycles added (R30). -/
structure Xl where
  pa : Nat
  coh : Nat
  lat : Nat
  deriving DecidableEq, Repr

/-- The n-th smallest of a list of ticks, counted from 0. -/
def nthTick (l : List Nat) (n : Nat) : Nat := (l.foldl (fun m x => (m.filter (· ≤ x)) ++ x :: m.filter (x < ·)) []).getD n 0

/-- Cycles until a walker is free: 64 a stack, 16 on the hub die (R29). -/
def State.walkerWait (s : State) (wk : Nat) : Nat :=
  let busy := (s.walkers.filter (fun e => e.1 = wk && s.tick < e.2)).map (·.2)
  let n := if wk = 4 then 16 else 64
  if busy.length < n then 0 else nthTick busy (busy.length - n) - s.tick

/-- Cycles of a walk (R30): the wait for a walker, two a level from 3 to the last one looked at, one L2 read after the other
for the entries not in the walk cache. What the reads find in L2 is as `l2` stands. The walker is busy so long. -/
def State.walkTime (s : State) (num : Nat) (ag : Agent) (reads : List Nat) (last : Nat) (l2 : List L2Line) : Nat × State :=
  let wk := walkerOf num ag
  let who := if isHubAgent ag then 512 else num
  let w := s.walkerWait wk
  let r := reads.foldl (fun (x : Nat × State) a =>
    let y := x.2.walkRead who a (s.tick + x.1)
    (x.1 + y.1, y.2)) (w + 2 * (4 - last), { s with l2 := l2 })
  (r.1, { r.2 with l2 := s.l2, walkers := (wk, s.tick + r.1) :: r.2.walkers.filter (fun e => s.tick < e.2) })

/-- A page walk for an access: installs the leaf and the pointers and sets AF, and DF for a write, or says the failing check
and its level and holds nothing of the walk (R31, R32, R33, R42). A write that hits an entry without DF comes here too: R33
has the leaf re-read, whatever the entry's WR (DESIGN CHOICE: R42's fault on a narrower entry is for entries with DF;
assumption 14). -/
def State.walkFor (s : State) (num : Nat) (ag : Agent) (ctx va : Nat) (k : Acces) :
    (Except (Nat × Nat) Xl) × State :=
  if !bit (s.reg (0x1000 + 8 * ctx)) 63 then (.error (0x0B, 7), s)
  else
    let w := s.walk num ag ctx va
    let timed (last : Nat) (t : State) : Nat × State := t.walkTime num ag w.1.reads last s.l2
    match w.1.res with
    | .error e => (.error e, (timed e.2 w.2).2)
    | .ok (at_, v, lvl) =>
      let s1 := timed lvl w.2
      let e := leafEntry ctx va v
      let pa := e.frame + (va - e.va)
      match s1.2.leafCheck k e.coh (leafSwap v) e.rd e.wr pa with
      | some c => (.error (c, 7), s1.2.tlbDrop num ag ctx va)
      | none =>
        let set := if k.writes then bitAF + bitDF else bitAF
        let s2 := if Nat.land v set = set then s1.2 else s1.2.leafOr at_ set
        let s3 := w.1.ptrs.foldl (fun t p => t.walkAdd (walkerOf num ag) p) s2
        (.ok ⟨pa, e.coh, s1.1⟩, s3.tlbFill num ag { e with df := e.df || k.writes })

/-- Translation of an access of an agent (R29 to R33). -/
def State.xlate (s : State) (num : Nat) (ag : Agent) (ctx va : Nat) (k : Acces) : (Except (Nat × Nat) Xl) × State :=
  if 2 ^ 52 ≤ va then (.error (0x05, 7), s)
  else
    let use (e : TlbE) (lat : Nat) (s1 : State) : (Except (Nat × Nat) Xl) × State :=
      let pa := e.frame + (va - e.va)
      if k.writes && !e.df then s1.walkFor num ag ctx va k
      else match s1.leafCheck k e.coh 0 e.rd e.wr pa with
        | some c => (.error (c, 7), s1.tlbDrop num ag ctx va)
        | none => (.ok ⟨pa, e.coh, lat⟩, s1)
    match (s.firstTlb num ag).find? (tlbHit ctx va) with
    | some e => use e 0 s
    | none =>
      let s0 := s.modCore num (fun c => { c with evs := c.evs ++ [(0x10, 15)] })
      match (if isHubAgent ag then none else (s0.clTlb num).find? (tlbHit ctx va)) with
      | some e => use e 4 (s0.tlbFill num ag e)
      | none => s0.walkFor num ag ctx va k

/-! ### The fault queue (R35 to R38) -/

def State.fqFree (s : State) : Bool :=
  (wrapN 32 ((s.fld 0x1110 31 0 : Int) - s.fld 0x1118 31 0)) < 2 ^ s.fld 0x1108 3 0

/-- The record of a fault (R35). -/
def faultDws (num : Nat) (ag : Agent) (ctx cause va : Nat) (write atom : Bool) (level jobt cursor pc : Nat) : List Word :=
  let kind := match ag with
    | .helper _ => 0
    | .queue _ => 1
    | .fill => 2
    | .gateway => 3
    | .hubAgent => 4
  let unit := match ag with
    | .helper h => h
    | .queue q => q
    | _ => 0
  let stack := if num < 512 then num / 128 else 0
  let core := if num < 512 then num % 128 else num - 512
  [BitVec.ofNat 64 (ctx * 2 ^ 60 + cause * 2 ^ 52 + va % 2 ^ 52),
   BitVec.ofNat 64 (kind * 2 ^ 61 + stack * 2 ^ 56 + core * 2 ^ 49 + unit * 2 ^ 45 + b2n write * 2 ^ 44
     + b2n atom * 2 ^ 43 + level * 2 ^ 40),
   BitVec.ofNat 64 jobt, BitVec.ofNat 64 (cursor % 2 ^ 32 * 2 ^ 32 + pc)]

/-- The start of slot 63 of a frame to come, in which the firmware serves the fault queue and the requests for swaps; how many
frames later is free (R438; DEDUCED, assumption 145). -/
def State.slot63 (s : State) (n : Nat) : Nat :=
  let t := s.tick / 30080 * 30080 + 63 * 470
  (if s.tick < t then t else t + 30080) + 30080 * n

/-- Writes a record into the ring and raises the interrupt that FQ_CTL asks for (R36); a SWAPPED fault is the swap engine's to
resolve: it is taken up in a slot 63 (R39, R375, R438). -/
def State.fqWrite (s : State) (e : FaultE) : State :=
  let head := s.fld 0x1110 31 0
  let at_ := s.fld 0x1100 51 12 * 4096 + 32 * (head % 2 ^ s.fld 0x1108 3 0)
  let s1 := s.physWrite at_ (e.dws.flatMap (fun w => leBytes 8 w.toNat))
  let s2 := { s1 with faults := s1.faults ++ [{ e with entry := head, written := true }],
                      faultIrqs := s1.faultIrqs + b2n (bit (s1.reg 0x1108) 62) }.countMod 0x1110 31 0 1
  if e.cause = 0x06 then
    let d := s2.drawIn 0 0xFFFF
    d.2.later (d.2.slot63 d.1) 0 (.swapIn head)
  else s2

/-- The swap engine hears of a SWAPPED fault while it swaps a slot out (R375). -/
def State.swapHears (s : State) (ctx cause page : Nat) : State :=
  if cause = 0x06 && s.swapAct.isSome then { s with swapFaults := s.swapFaults ++ [(ctx, page)] } else s

/-- A fault of a global access at `va`, met in the page of `page`: recorded now, or held while the queue is off or full
(R35, R36). -/
def State.faultRecord (s0 : State) (num : Nat) (ag : Agent) (ctx cause va page : Nat) (write atom : Bool)
    (level cursor pc : Nat) : State :=
  let s := s0.swapHears ctx cause page
  let e : FaultE := ⟨0, num, ag, ctx, cause, page, false,
    faultDws num ag ctx cause va write atom level (s.jobTime ctx) cursor pc⟩
  if bit (s.reg 0x1108) 63 && s.fqFree then s.fqWrite e
  else { s with faults := s.faults ++ [e] }

/-- Held faults are recorded, the first first, as long as the queue has room (R36). -/
def State.faultsHeld (s : State) : Nat → State
  | 0 => s
  | n + 1 =>
    if bit (s.reg 0x1108) 63 && s.fqFree then
      match s.faults.find? (fun e => !e.written) with
      | some e => State.faultsHeld ({ s with faults := s.faults.erase e }.fqWrite e) n
      | none => s
    else s

def State.faultDeferred (s : State) : State := s.faultsHeld s.faults.length

/-- A helper stops at a faulting operation, before any effect (R37); doubleword 0 of its record goes to the core's own
mailbox as a SENDM of the helper. DESIGN CHOICE: it leaves at once, even where the record is still held (assumption 15). -/
def State.helperFault (s : State) (num h ctx cause level va : Nat) (write atom : Bool) (bundle pos : Nat) : State :=
  let s1 := s.faultRecord num (.helper h) ctx cause va va write atom level 0 bundle
  let d0 := (faultDws num (.helper h) ctx cause va write atom level (s.jobTime ctx) 0 bundle).headD 0
  s1.modCore num (fun c =>
    let c1 := c.setHelper h { c.helper h with st := .faulted, cause := cause, pc := bundle, pos := pos, next := none }
    if c.fnen then { c1 with cyc := { c1.cyc with out := c1.cyc.out ++ [(.helper h, .fault c.fnmbx d0)] } } else c1)

/-- An agent of a core goes on after RETRY: a helper re-issues its operation, an engine resumes from its cursor (R36 to
R38). -/
def agentGoes (a : Agent) (c : Core) : Core :=
  match a with
  | .helper h => c.setHelper h { c.helper h with st := .live, cause := 0 }
  | .queue q => { c with eng := { c.eng with qs := setAt c.eng.qs q { c.eng.qs.getD q copyQ0 with fault := false } } }
  | .fill => { c with mat := { c.mat with fault := false } }
  | .gateway => { c with run := .run, trapRec0 := 0 }
  | .hubAgent => c

/-- A core of a pre-empted launch as a fault names it: launch and launch-relative index (R39). -/
def imageCode (id index : Nat) : Nat := 0x10000 + 512 * id + index

/-- A change of the core a fault names: bound, or the image of a pre-empted launch (R39). -/
def State.modAgent (s : State) (code : Nat) (f : Core → Core) : State :=
  if code < 0x10000 then s.modCore code f
  else s.modLaunch ((code - 0x10000) / 512) (fun l => { l with
    images := l.images.map (fun (im : Image) => if im.index = code % 512 then { im with core := f im.core } else im) })

/-- Encode jobs under way of a faulting encoder are tried again. -/
def State.encAgain (s : State) (enc : Nat) : State :=
  (s.enc.filter (fun (e : EncJob) => e.running && e.sess / 8 = enc)).foldl (fun st e =>
    st.later (st.tick + 1) 0 (.encodeJobComplete e.sess)) s

/-- The faulting agent goes on (R36 to R39). -/
def State.resumeAgent (s : State) (e : FaultE) : State :=
  match e.agent with
  | .hubAgent => s.encAgain (e.core - 512)
  | a => s.modAgent e.core (agentGoes a)

/-- RETRY of an entry (R36): ignored unless it is written and unresolved. -/
def State.retryEntry (s : State) (entry : Nat) : State :=
  match s.faults.find? (fun e => e.written && e.entry = entry) with
  | some e => { s with faults := s.faults.erase e }.resumeAgent e
  | none => s

/-! ### Invalidation (R40 to R43) -/

/-- What an invalidation removes: scope 0 the page at VA of context CTX, 1 a context, 2 all. -/
def inScope (scope ctx va : Nat) (e : TlbE) : Bool :=
  scope = 2 || (e.ctx = ctx && (scope = 1 || (e.va ≤ va && va < e.va + e.size)))

def walkInScope (scope ctx va : Nat) (e : WalkE) : Bool :=
  scope = 2 || (e.ctx = ctx && (scope = 1 || e.va = vaTag va e.level))

/-- Every TLB and walk cache of the chip loses its entries in scope (R41). -/
def State.invalidate (s : State) (scope ctx va : Nat) : State :=
  let f (l : List TlbE) : List TlbE := l.filter (fun e => !inScope scope ctx va e)
  { s with
    cores := s.cores.map (fun k => (k.1, { k.2 with utlbH := f k.2.utlbH, utlbE := f k.2.utlbE })),
    clusters := s.clusters.filterMap (fun k =>
      if { k.2 with tlb := f k.2.tlb } = cluster0 then none else some (k.1, { k.2 with tlb := f k.2.tlb })),
    hubTlb := f s.hubTlb,
    walks := s.walks.filter (fun x => !walkInScope scope ctx va x.2) }

/-- A TINV write is taken (R40): one in progress and up to eight queued; further writes are ignored. It completes within
free time once every access that used a removed entry has been performed (R41). -/
def State.tinvPush (s : State) (w : Word) : State :=
  if s.tinv.length < 9 then
    let s1 := { s with tinv := s.tinv ++ [w] }.setFld 0x1148 63 63 1
    if s.tinv.isEmpty then
      let r := s1.drawIn 1 64
      r.2.later (s.tick + r.1) 0 .tinvComplete
    else s1
  else s

/-- Frames of the cached leaves that an invalidation removes, with their sizes. -/
def State.framesIn (s : State) (scope ctx va : Nat) : List (Nat × Nat) :=
  let f (l : List TlbE) : List (Nat × Nat) := (l.filter (inScope scope ctx va)).map (fun e => (e.frame, e.size))
  s.cores.flatMap (fun k => f k.2.utlbH ++ f k.2.utlbE) ++ s.clusters.flatMap (fun k => f k.2.tlb) ++ f s.hubTlb

/-- The tick by which every walk now under way has ended. -/
def State.walksEnd (s : State) : Nat := s.walkers.foldl (fun m e => max m e.2) s.tick

/-- Starts an invalidation: the entries go at once; what used them, and walks under way, are waited for (R41). -/
def State.tinvStart (s : State) (w : Word) : State :=
  let sc := bits w.toNat 63 62
  let ctx := bits w.toNat 55 52
  let va := bits w.toNat 51 16 * 0x10000
  { s.invalidate sc ctx va with
    tinvRun := some (s.framesIn sc ctx va, s.seq, s.walksEnd) }

/-- A physical address lies in one of the frames. -/
def inFrames (l : List (Nat × Nat)) (pa : Nat) : Bool := l.any (fun f => f.1 ≤ pa && pa < f.1 + f.2)

/-- Accesses to the frames may still be under way: requests, entries of store buffers, dirty lines of helper caches; those
numbered from `seq` on came later. So did a burst whose translation was at hand after `walks`, the tick by which the walks
under way had ended, and the four cycles of a hit in the cluster TLB (R41). -/
def State.framesBusy (s : State) (l : List (Nat × Nat)) (seq walks : Nat) : Bool :=
  s.reqs.any (fun r => inFrames l r.pa && (r.id < seq || r.op = .write))
  || s.cores.any (fun k => k.2.eng.qs.any (fun q => match q.burst with
    | some b => b.dAt ≤ walks + 4 && b.dparts.any (fun p => inFrames l p.1)
    | none => false))
  || s.cores.any (fun k => k.2.sb.any (fun e => e.parts.any (fun p => p.no < seq) && inFrames l (64 * e.line))
    || k.2.hc.any (fun e => e.dirty ≠ 0 && inFrames l (64 * e.line)))

/-- What the invalidation in progress still waits for (R41). -/
def State.accessesUnder (s : State) : Bool :=
  match s.tinvRun with
  | some x => s.framesBusy x.1 x.2.1 x.2.2 || s.tick < x.2.2
  | none => true

end Sys2Proof.Machine
end

