-- ==== Sys2Proof/Machine/Global.lean ====
section
/-! DEFINITION. Global memory as helpers and gateways reach it: GLD, GST, GATOM, CINV, CCLEAN, the store buffer, the
helper cache and requests to homes (02 R68 to R70, 04 R116, R122 to R125, 06 R171 to R176). -/

namespace Sys2Proof.Machine

/-! ### The helper cache (R68) -/

def hcFind (c : Core) (line : Nat) : Option CLine := c.hc.find? (fun e => e.line = line)

/-- The least recently used line of a set. -/
def hcOldest : List CLine → Option CLine
  | [] => none
  | e :: l => match hcOldest l with
    | none => some e
    | some f => if e.lru ≤ f.lru then some e else some f

/-- The line that leaves when `line` enters its set of 4 ways. -/
def hcVictim (c : Core) (line : Nat) : Option CLine :=
  let set := c.hc.filter (fun e => e.line % 128 = line % 128)
  if set.length < 4 then none else hcOldest set

def hcDrop (line : Nat) (c : Core) : Core := { c with hc := c.hc.filter (fun e => e.line ≠ line) }

/-- Bytes of a line that a mask names, for a write to the home. -/
def maskBytes (mask : BitVec 64) (d : List Byte) : List (Option Byte) :=
  (List.range 64).map (fun i => if mask.getLsbD i then some (d.getD i 0) else none)

/-- Bytes merged into a line under a mask. -/
def mergeLine (old new : List Byte) (mask : BitVec 64) : List Byte :=
  (List.range 64).map (fun i => if mask.getLsbD i then new.getD i 0 else old.getD i 0)

/-- The mask of `n` bytes from offset `o`. -/
def byteMask (o n : Nat) : BitVec 64 := BitVec.ofNat 64 ((2 ^ n - 1) * 2 ^ o)

/-! ### Requests (R171) -/

def req0 : Req := ⟨0, 0, .gateway, .read, 0, 0, 0, [], 0, 0, none, 0, 0, false, false, false, false, 0, 0⟩

/-- Adds a request, numbered. -/
def State.addReq (s : State) (r : Req) : State :=
  { s with reqs := s.reqs ++ [{ r with id := s.seq }], seq := s.seq + 1 }

def State.putReq (s : State) (id : Nat) (f : Req → Req) : State :=
  { s with reqs := s.reqs.map (fun r => if r.id = id then f r else r) }

def State.dropReq (s : State) (id : Nat) : State := { s with reqs := s.reqs.filter (fun r => r.id ≠ id) }

/-- Coherence mode code kept with a request, in `off`'s upper part. -/
def reqCoh (r : Req) : Nat := r.off / 64

/-- A request whose drain or store comes first: an atomic, CINV, CCLEAN (R70, R125). -/
def drains : ReqOp → Bool
  | .atomic _ _ _ => true
  | .clean _ => true
  | _ => false

/-- A request has not been performed at its home. -/
def undone (r : Req) : Bool := r.got.isNone

/-- An atomic of the core on the line has had it drained and dropped and has not left for its home yet (R70). -/
def State.atomPends (s : State) (num line : Nat) : Bool :=
  s.reqs.any (fun q => q.core = num && q.look && q.mark ≠ 0 && drains q.op && q.pa / 64 = line)

/-- Passes until the last atomic of the core on the line that has left for its home is performed: what comes after it is
performed after it (R70). -/
def State.atomAfter (s : State) (num line : Nat) : Nat :=
  s.reqs.foldl (fun m q => match q.op with
    | .atomic _ _ _ => if q.core = num && !q.look && undone q && q.pa / 64 = line then max m q.home else m
    | _ => m) 0

/-- A write of bytes of one line to its home (R173); `order`: the helper waits for it (R125). Where it would be performed
before an atomic of the core on the line that has left before, it leaves later. -/
def State.lineWrite (s : State) (num h lctx coh pa : Nat) (data : List (Option Byte)) (order : Bool) : State :=
  let t := s.reqTimes num coh pa 0
  let s1 := t.2.modCore num (fun c =>
    let c1 := { c with gwOut := c.gwOut + 1 }
    if order then c1.setHelper h { c1.helper h with reqs := (c1.helper h).reqs ++ [t.2.seq],
                                                    ords := (c1.helper h).ords ++ [t.2.seq] }
    else c1)
  let early := decide (t.1.1 < s.atomAfter num (pa / 64))
  s1.addReq { req0 with core := num, agent := .helper h, op := .write, lctx := lctx, pa := pa, len := data.length,
                        data := data, home := if early then 0 else t.1.1, off := 64 * coh, look := early }

/-- Writes a dirty line of the helper cache to its home (R173). -/
def State.evict (s : State) (num h lctx : Nat) (e : CLine) : State :=
  if e.dirty = 0 then s
  else
    let s1 := s.modCore num (fun c => { c with evs := if c.frozen then c.evs else c.evs ++ [(0x0F, 15)] })
    s1.lineWrite num h lctx 0 (64 * e.line) (maskBytes e.dirty e.data) false

/-- A use of a line changes it and makes it the most recently used (R68). -/
def State.hcUse (s : State) (num line : Nat) (f : CLine → CLine) : State :=
  { s.modCore num (fun k => { k with hc := k.hc.map (fun x => if x.line = line then { f x with lru := s.seq } else x) }) with
    seq := s.seq + 1 }

/-- Fills of a line under way give their values but are not cached (R70, R125, R178). -/
def State.staleFills (s : State) (num line : Nat) : State :=
  { s with reqs := s.reqs.map (fun r => if r.core = num && r.fill && r.pa / 64 = line then { r with stale := true } else r) }

/-- A line leaves the helper cache, written back if dirty; fills of it under way are not cached (R68, R182). -/
def State.hcLeave (s : State) (num lctx : Nat) (v : CLine) : State :=
  ((s.evict num 0 lctx v).modCore num (hcDrop v.line)).staleFills num v.line

/-- A line filled, by the home read numbered `perf`, enters the helper cache, and the least recently used of its set leaves
(R68). Where the cache holds the line from an earlier home read, the later one's bytes replace those not written since
(R182). -/
def State.hcInsert (s : State) (num lctx line perf : Nat) (d : List Byte) : State :=
  match s.core num with
  | none => s
  | some c =>
    match hcFind c line with
    | some e => if e.perf < perf then s.hcUse num line (fun x => { x with data := mergeLine d x.data x.dirty, perf := perf }) else s
    | none =>
      let s1 := match hcVictim c line with
        | some v => s.hcLeave num lctx v
        | none => s
      { s1.modCore num (fun k => { k with hc := k.hc ++ [⟨line, d, 0, s1.seq, perf⟩] }) with seq := s1.seq + 1 }

/-- A line that comes back and is not to be cached: one held from an earlier home read leaves, so that no later load of its
reader finds older bytes there (R182). -/
def State.hcPass (s : State) (num lctx line perf : Nat) : State :=
  match (s.core num).bind (fun c => hcFind c line) with
  | some e => if e.perf < perf then s.hcLeave num lctx e else s
  | none => s

/-! ### The store buffer (R69) -/

/-- The launch context of a core. -/
def State.ctxOf (s : State) (num : Nat) : Nat :=
  match s.core num with
  | some c => c.lctx
  | none => 0

/-- A request of a helper that is outstanding (R175). -/
def reqLive (c : Core) (h : Nat) (r : Req) : Bool := r.agent = .helper h && (c.helper h).reqs.contains r.id

/-- A store at line `line` merges into the youngest entry: one of that line (R69). -/
def sbMerges (c : Core) (line : Nat) : Bool :=
  match c.sb.getLast? with
  | some e => e.line = line
  | none => false

/-- A store enters the buffer: into the youngest entry, when that is of its line, or as a new entry (R69). -/
def sbStore (line : Nat) (p : SbP) (c : Core) : Core :=
  match c.sb.getLast? with
  | some e => if e.line = line then { c with sb := c.sb.dropLast ++ [{ e with parts := e.parts ++ [p] }] }
              else { c with sb := c.sb ++ [⟨line, [p]⟩] }
  | none => { c with sb := [⟨line, [p]⟩] }

/-- A store's bytes at their places in the line. -/
def sbPart (h no came off : Nat) (bs : List Byte) (coh10 : Bool) : SbP :=
  ⟨h, no, came, coh10, byteMask off bs.length, List.replicate off 0 ++ bs ++ List.replicate (64 - off - bs.length) 0⟩

/-- GST's data enters the store buffer, numbered as its operation was (R69, R122). -/
def State.sbPut (s : State) (num h pa : Nat) (bs : List Byte) (coh10 : Bool) (no : Nat) : State :=
  s.modCore num (sbStore (pa / 64) (sbPart h no s.seq (pa % 64) bs coh10))

/-- The bytes of stores, the later over the earlier. -/
def sbSum (l : List SbP) (x : List Byte × BitVec 64) : List Byte × BitVec 64 :=
  l.foldl (fun a p => (mergeLine a.1 p.data p.mask, a.2 ||| p.mask)) x

/-- The bytes of stores, as one write of the line has them. -/
def sbBytes (l : List SbP) : List (Option Byte) :=
  let x := sbSum l (List.replicate 64 0, 0)
  maskBytes x.2 x.1

/-- The byte of the youngest store that covers it, among those in the buffer when the reader was issued. -/
def sbByte (c : Core) (upto line i : Nat) : Option Byte :=
  ((c.sb.filter (fun e => e.line = line)).flatMap (·.parts)).foldl
    (fun r p => if p.came ≤ upto && p.mask.getLsbD i then some (p.data.getD i 0) else r) none

/-- An earlier global load of the helper has not returned (R175). -/
def loadsOut (s : State) (num h : Nat) : Bool :=
  match s.core num with
  | some c => s.reqs.any (fun r => r.core = num && r.op = .read && reqLive c h r)
  | none => false

/-- A store may not drain yet: a load of its helper that came before it has not returned (R175), or a drain of the line that
came before it has not left (R70). -/
def State.sbHeld (s : State) (num : Nat) (c : Core) (line : Nat) (p : SbP) : Bool :=
  s.reqs.any (fun r => r.core = num && reqLive c p.h r && r.id < p.no
    && (r.op = .read || (drains r.op && r.look && r.pa / 64 = line)))

/-- A load or atomic of the core waits for the entries of a line to drain (R69, R70). -/
def State.sbAwaited (s : State) (num line : Nat) : Bool :=
  s.reqs.any (fun r => r.core = num && r.look && r.op ≠ .put && r.pa / 64 = line)

/-- The stores of an entry that may drain now: all, when none is held. Of an entry that a load or atomic waits for, those ahead
of the first that is held for that very access; the entry keeps the others (assumption 16). -/
def State.sbFree (s : State) (num : Nat) (c : Core) (e : SbE) : List SbP :=
  let l := e.parts.takeWhile (fun p => !s.sbHeld num c e.line p)
  if l.length = e.parts.length || s.sbAwaited num e.line then l.takeWhile (fun p => some p.coh10 = l.head?.map (·.coh10))
  else []

/-- The front entry without its first `n` stores; with none left it is gone. -/
def sbLess (n : Nat) (c : Core) : Core :=
  match c.sb with
  | e :: l => if e.parts.length ≤ n then { c with sb := l } else { c with sb := { e with parts := e.parts.drop n } :: l }
  | [] => c

/-- A fill of the line for the core is under way. -/
def fillOut (s : State) (num line : Nat) : Bool :=
  s.reqs.any (fun r => r.core = num && r.fill && !r.look && !r.stale && r.pa / 64 = line)

/-- The oldest entry drains (R69, R175): into the line if the cache holds it, filling it first if not; to its home when
its page bypasses the cache. -/
def State.sbDrain (s : State) (num : Nat) : State :=
  match s.core num with
  | none => s
  | some c => match c.sb with
    | [] => s
    | e :: _ => match s.sbFree num c e with
      | [] => s
      | p :: l =>
        let out := s.modCore num (sbLess (l.length + 1))
        if p.coh10 then out.lineWrite num p.h c.lctx 2 (64 * e.line) (sbBytes (p :: l)) false
        else match hcFind c e.line with
          | some _ => out.hcUse num e.line (fun x =>
              { x with data := (sbSum (p :: l) (x.data, x.dirty)).1, dirty := (sbSum (p :: l) (x.data, x.dirty)).2 })
          | none =>
            if fillOut s num e.line || s.atomPends num e.line then s
            else
              let t := (s.modCore num (fun k => { k with evs := k.evs ++ [(0x0E, p.h)] })).reqTimes num 0 (64 * e.line) 0
              t.2.addReq { req0 with core := num, agent := .helper p.h, op := .read, lctx := c.lctx, pa := 64 * e.line,
                                     len := 64, home := t.1.1, ret := t.1.2, fill := true }

/-- A fill that a store asked for: it is not of a load, and its store is merged as it comes. -/
def storeFill (r : Req) : Bool := r.fill && r.len = 64

/-- Stores of a line in the buffer that are no younger than `upto`. -/
def sbUpto (c : Core) (line upto : Nat) : List SbP :=
  ((c.sb.filter (fun e => e.line = line)).flatMap (·.parts)).filter (fun p => p.came ≤ upto)

/-- The buffer without them. -/
def sbWithout (line upto : Nat) (l : List SbE) : List SbE :=
  (l.map (fun e => if e.line = line then { e with parts := e.parts.filter (fun p => upto < p.came) } else e)).filter
    (fun e => e.parts ≠ [])

/-- Stores of a line in the buffer that are no younger than `upto` and its dirty line leave for the home together, the stores'
bytes over the line's, oldest first: one write of the line, and one for the stores of pages that bypass the cache (R70, R125,
R173; assumption 16). Fills of the line under way are not cached. -/
def State.flushLine (s : State) (num h line upto : Nat) (drop order : Bool) : State :=
  match s.core num with
  | none => s
  | some c =>
    let mine := sbUpto c line upto
    let was : List Byte × BitVec 64 := match hcFind c line with
      | some e => (e.data, e.dirty)
      | none => (List.replicate 64 0, 0)
    let x := sbSum (mine.filter (fun p => !p.coh10)) was
    let by_ := mine.filter (·.coh10)
    let s1 := s.modCore num (fun k => { k with
      sb := sbWithout line upto k.sb,
      hc := if drop then k.hc.filter (fun e => e.line ≠ line)
            else k.hc.map (fun e => if e.line = line then { e with dirty := 0, data := x.1 } else e),
      evs := if was.2 = 0 then k.evs else k.evs ++ [(0x0F, 15)] })
    let s2 := s1.staleFills num line
    let s3 := if x.2 = 0 then s2 else s2.lineWrite num h c.lctx 0 (64 * line) (maskBytes x.2 x.1) order
    match by_ with
    | [] => s3
    | _ :: _ => s3.lineWrite num h c.lctx 2 (64 * line) (sbBytes by_) order

/-- The lines a releasing atomic sends home: every one with a store of the core (R123, R173). -/
def storedLines (c : Core) (upto : Nat) : List Nat :=
  ((c.hc.filter (fun e => e.dirty ≠ 0)).map (·.line)
    ++ (c.sb.filter (fun e => e.parts.any (fun p => p.came ≤ upto))).map (·.line)).eraseDups

/-! ### Issue of the global operations (R122 to R125) -/

/-- The agent a focus is. -/
def agentOf (fo : Focus) : Agent :=
  match fo.ctx with
  | .helper h => .helper h
  | _ => .gateway

/-- The helper whose requests a context's are kept under: a gateway's stand with number 0. -/
def helperOf (fo : Focus) : Nat :=
  match fo.ctx with
  | .helper h => h
  | _ => 0

/-- A fault of the issuing context (R37, R414). -/
def State.opFault (s : State) (fo : Focus) (cause level va : Nat) (write atom : Bool) : State :=
  match fo.ctx with
  | .helper h => s.helperFault fo.core h (s.ctxOf fo.core) cause level va write atom fo.bundle (slotPos fo.slot)
  | _ => (s.faultRecord fo.core .gateway (s.ctxOf fo.core) cause va va write atom level 0 0).modCore fo.core (fun c =>
      { c with run := .stopped, trapRec0 := trapRecord cause fo.slot 0 fo.bundle 1, cyc := { c.cyc with trapped := true } })

/-- The 64-bit address x + imm10 × width (R122). -/
def globalAddr (fo : Focus) (c : Core) (x : BitVec 6) (w : Nat) (i : BitVec 10) : Nat :=
  wrapN 64 (((rdS fo c x.toNat).toNat : Int) + sext 10 i.toNat * (widthOf w : Int))

/-- Marks a request of a helper outstanding, with the register it will write. -/
def outReq (h id d : Nat) (c : Core) : Core :=
  c.setHelper h { c.helper h with reqs := (c.helper h).reqs ++ [id], gdst := (c.helper h).gdst ++ [d] }

/-- Marks a request of a helper that its next operation waits for (R122, R125). -/
def holdReq (h id : Nat) (c : Core) : Core :=
  c.setHelper h { c.helper h with reqs := (c.helper h).reqs ++ [id], ords := (c.helper h).ords ++ [id] }

/-- GLD: the request waits for its translation, then looks in the store buffer and the cache (R69, R122). -/
def State.gld (s : State) (fo : Focus) (d x : BitVec 6) (w : Nat) (i : BitVec 10) (c : Core) : State :=
  let va := globalAddr fo c x w i
  if va % widthOf w ≠ 0 then s.modCore fo.core (takeTrap fo cMISALIGN (BitVec.ofNat 64 va))
  else match s.xlate fo.core (agentOf fo) c.lctx va .read with
    | (.error e, s1) => s1.opFault fo e.1 e.2 va false false
    | (.ok t, s1) =>
      (s1.modCore fo.core (outReq (helperOf fo) s1.seq d.toNat)).addReq
        { req0 with core := fo.core, agent := agentOf fo, op := .read, lctx := c.lctx, pa := t.pa,
                    len := widthOf w, home := t.lat, dst := d.toNat, off := 64 * t.coh, look := true,
                    fill := t.coh ≠ 2 && fo.ctx ≠ .gate }

/-- GST: the data enters the store buffer, once its translation is at hand where that takes cycles; a gateway's goes to its
home (R30, R122, R414). -/
def State.gst (s : State) (fo : Focus) (d x : BitVec 6) (w : Nat) (i : BitVec 10) (c : Core) : State :=
  let va := globalAddr fo c x w i
  let bs := leBytes (widthOf w) (rdS fo c d.toNat).toNat
  if va % widthOf w ≠ 0 then s.modCore fo.core (takeTrap fo cMISALIGN (BitVec.ofNat 64 va))
  else match s.xlate fo.core (agentOf fo) c.lctx va .write with
    | (.error e, s1) => s1.opFault fo e.1 e.2 va true false
    | (.ok t, s1) => match fo.ctx with
      | .helper h =>
        if t.lat = 0 then s1.sbPut fo.core h t.pa bs (t.coh = 2) s1.seq
        else (s1.modCore fo.core (fun k => holdReq h s1.seq { k with gwOut := k.gwOut + 1 })).addReq
          { req0 with core := fo.core, agent := .helper h, op := .put, lctx := c.lctx, pa := t.pa, len := bs.length,
                      data := bs.map some, home := t.lat, off := 64 * t.coh, look := true }
      | _ =>
        if t.lat = 0 then s1.lineWrite fo.core 0 c.lctx t.coh t.pa (bs.map some) false
        else (s1.modCore fo.core (fun k => { k with gwOut := k.gwOut + 1 })).addReq
          { req0 with core := fo.core, agent := .helper 0, op := .write, lctx := c.lctx, pa := t.pa, len := bs.length,
                      data := bs.map some, home := t.lat, off := 64 * t.coh, look := true }

/-- GATOM (R70, R123): `o` bit 1 releases, bit 0 acquires. Its drain leaves once the translation is at hand. -/
def State.gatom (s : State) (fo : Focus) (d x y : BitVec 6) (o : Nat) (fn : Nat) (c : Core) : State :=
  let va := (rdS fo c x.toNat).toNat
  if va % 8 ≠ 0 then s.modCore fo.core (takeTrap fo cMISALIGN (BitVec.ofNat 64 va))
  else match s.xlate fo.core (agentOf fo) c.lctx va (.atomic fn) with
    | (.error e, s1) => s1.opFault fo e.1 e.2 va true true
    | (.ok t, s1) =>
      let h := helperOf fo
      (s1.modCore fo.core (fun k =>
        let k1 := outReq h s1.seq d.toNat { k with gwOut := k.gwOut + 1 }
        if o % 2 = 1 then k1.setHelper h { k1.helper h with acq := some d.toNat } else k1)).addReq
        { req0 with core := fo.core, agent := agentOf fo, op := .atomic fn (rdS fo c d.toNat) (rdS fo c y.toNat),
                    lctx := c.lctx, pa := t.pa, len := 8, home := t.lat, dst := d.toNat, off := 64 * t.coh, look := true,
                    order := o / 2 % 2 = 1 }

/-- CINV and CCLEAN (R125): the helper goes on once their writes have been performed. -/
def State.cacheLine (s : State) (fo : Focus) (x : BitVec 6) (i : BitVec 10) (drop : Bool) (c : Core) : State :=
  let va := globalAddr fo c x 3 i
  if va % 8 ≠ 0 then s.modCore fo.core (takeTrap fo cMISALIGN (BitVec.ofNat 64 va))
  else match s.xlate fo.core (agentOf fo) c.lctx va .clean with
    | (.error e, s1) => s1.opFault fo e.1 e.2 va true false
    | (.ok t, s1) =>
      (s1.modCore fo.core (holdReq (helperOf fo) s1.seq)).addReq
        { req0 with core := fo.core, agent := agentOf fo, op := .clean drop, lctx := c.lctx, pa := t.pa, len := 8,
                    home := t.lat, off := 64 * t.coh, look := true }

/-! ### Requests from cycle to cycle -/

/-- Passes until what a request must follow at its line is performed: the core's atomics that have left (R70) and, for a load,
its agent's own earlier loads (R182). -/
def State.mustFollow (s : State) (r : Req) : Nat :=
  let own := s.reqs.foldl (fun m q => if q.core = r.core && q.agent = r.agent && q.op = .read && !storeFill q && !q.look
      && undone q && q.id < r.id && q.pa / 64 = r.pa / 64 then max m q.home else m) 0
  max (s.atomAfter r.core (r.pa / 64)) (if r.op = .read then own else 0)

/-- A request leaves for its home, as soon as it is performed no earlier than what it must follow there. A load that missed is
counted (R429). A fill that leaves while an atomic has had its line dropped is not cached, and an atomic that leaves keeps
those under way from it (R70). -/
def State.reqGo (s : State) (r : Req) : State :=
  let t := s.reqTimes r.core (reqCoh r) r.pa 0
  if t.1.1 < s.mustFollow r then s
  else
    let u := if drains r.op then t.2.staleFills r.core (r.pa / 64) else t.2
    let gone := { r with look := false, home := t.1.1, ret := t.1.2,
                         stale := r.stale || (r.fill && s.atomPends r.core (r.pa / 64)) }
    if r.op = .write then u.putReq r.id (fun _ => gone)
    else
      { u.modCore r.core (fun k => match r.agent with
          | .helper h => if r.fill then { k with evs := k.evs ++ [(0x0E, h)] } else k
          | _ => k) with
        reqs := u.reqs.filter (fun q => q.id ≠ r.id) ++ [gone] }

/-- A helper's or gateway's request is over: it no longer counts, nor holds what waits for it (R116, R175, R224). -/
def reqOver (r : Req) (c : Core) : Core :=
  let h := match r.agent with
    | .helper k => k
    | _ => 0
  let x := c.helper h
  if x.reqs.contains r.id then
    c.setHelper h { x with
      reqs := x.reqs.erase r.id, ords := x.ords.erase r.id,
      gdst := (match r.op with
        | .read => x.gdst.erase r.dst
        | .atomic _ _ _ => x.gdst.erase r.dst
        | _ => x.gdst) }
  else c

/-- A load's value stands ready and returns in `n` passes: the second part of its way (R122, R171). -/
def valueReady (bs : List Byte) (n : Nat) (q : Req) : Req :=
  { q with look := false, fill := false, got := some bs, ret := n, mark := 1 }

/-- A load whose translation is at hand looks in the store buffer, then in the cache; a miss goes to its home (R69, R122,
R174, R175). A load of a page that bypasses the cache waits for the entries that cover it to drain and goes to its home
(R68, R174). It looks after the helper's own earlier accesses to the line, after the drain of an earlier atomic on it, and
after that atomic has been performed (R70); and a line that one of its own earlier loads will read after the cache did is
no hit for it until that one's data has come (R182). -/
def State.loadLook (s : State) (r : Req) : State :=
  match s.core r.core, r.agent with
  | some c, .helper h =>
    let line := r.pa / 64
    let o := r.pa % 64
    let from_ := (List.range r.len).map (fun i => sbByte c r.id line (o + i))
    let before (p : Req → Bool) : Bool := s.reqs.any (fun q => q.core = r.core && q.id < r.id && q.pa / 64 = line && p q)
    let atom (q : Req) : Bool := match q.op with
      | .atomic _ _ _ => true
      | _ => false
    let mine (q : Req) : Bool := q.agent = r.agent && reqLive c h q
    if before (fun q => q.look && (mine q || atom q)) then s
    else if r.fill && from_.all Option.isSome then s.putReq r.id (valueReady (from_.map (fun b => b.getD 0)) 5)
    else if from_.any Option.isSome then s
    else match (if r.fill && !before (fun q => atom q && undone q) then hcFind c line else none) with
      | some e =>
        if before (fun q => mine q && q.op = .read && q.mark = 0 && !(q.got.isSome && q.perf ≤ e.perf)) then s
        else (s.hcUse r.core line id).putReq r.id (valueReady ((e.data.drop o).take r.len) 5)
      | none => s.reqGo r
  | _, _ => s.reqGo r

/-- What an atomic, CINV or CCLEAN of a helper drains may leave (R70, R123, R125, R175). -/
def State.drainFree (s : State) (num : Nat) (c : Core) (r : Req) : Bool :=
  (c.sb.filter (fun e => r.order || e.line = r.pa / 64)).all (fun e =>
    (e.parts.filter (fun p => p.came ≤ r.id)).all (fun p => !s.sbHeld num c e.line p))

/-- An atomic drains its line, or every line when it releases, waits for these writes and the earlier ones, and goes to its
home (R70, R123); a gateway's, which has no store buffer, for its earlier accesses (R414). -/
def State.atomLook (s : State) (r : Req) : State :=
  match s.core r.core, r.agent with
  | some c, .helper h =>
    let line := r.pa / 64
    if r.mark = 0 then
      if s.drainFree r.core c r then
        let s1 := if r.order then
            ((storedLines c r.id).filter (fun n => n ≠ line)).foldl (fun st n => st.flushLine r.core h n r.id false false) s
          else s
        let s2 := s1.flushLine r.core h line r.id true false
        { s2.putReq r.id (fun q => { q with mark := s2.seq + 1 }) with seq := s2.seq + 1 }
      else s
    else if s.reqs.any (fun q => q.core = r.core && undone q && ((q.op = .write && q.id < r.mark
        && (r.order || q.pa / 64 = line))
        || (q.id < r.id && q.agent = r.agent && reqLive c h q && (r.order || q.pa / 64 = line)))) then s
    else s.reqGo r
  | _, _ =>
    if s.reqs.any (fun q => q.core = r.core && undone q && q.id < r.id && ((r.order && q.op ≠ .read) || q.pa / 64 = r.pa / 64))
    then s else s.reqGo r

/-- CINV or CCLEAN drains its line; the helper waits for the writes (R125). -/
def State.cleanLook (s : State) (r : Req) (drop : Bool) : State :=
  match s.core r.core, r.agent with
  | some c, .helper h =>
    if s.drainFree r.core c r then
      let s1 := s.flushLine r.core h (r.pa / 64) r.id drop true
      (s1.modCore r.core (reqOver r)).dropReq r.id
    else s
  | _, _ => (s.modCore r.core (reqOver r)).dropReq r.id

/-- A GST whose translation is at hand takes its place in the store buffer, when there is one (R69, R122). -/
def State.putLook (s : State) (r : Req) : State :=
  match s.core r.core, r.agent with
  | some c, .helper h =>
    let bs := r.data.map (fun b => b.getD 0)
    if 16 ≤ c.sb.length && !sbMerges c (r.pa / 64) then s
    else
      let s1 := s.sbPut r.core h r.pa bs (reqCoh r = 2) r.id
      (s1.modCore r.core (fun k => reqOver r { k with gwOut := k.gwOut - 1 })).dropReq r.id
  | _, _ => s.dropReq r.id

/-- The clock of a request's core is stopped, and what the request does next is the core's own: its look, or the last part of a
load's way (R419). -/
def State.reqStands (s : State) (r : Req) : Bool :=
  (r.look || (r.op = .read && r.mark ≠ 0)) && (match r.agent with
    | .helper _ => true
    | .gateway => true
    | _ => false) && (match s.core r.core with
    | some c => c.frozen
    | none => false)

/-- A request whose look is due makes it; every other one counts a cycle. -/
def State.reqTick (s : State) (r : Req) : State :=
  if s.reqStands r then s
  else if r.look then
    if 0 < r.home then s.putReq r.id (fun q => { q with home := q.home - 1 })
    else match r.op with
      | .read => s.loadLook r
      | .atomic _ _ _ => s.atomLook r
      | .clean d => s.cleanLook r d
      | .put => s.putLook r
      | .write => s.reqGo r
  else if r.got.isSome then s.putReq r.id (fun q => { q with ret := q.ret - 1 })
  else s.putReq r.id (fun q => { q with home := q.home - 1 })

/-- A load of a helper returns in its turn: its earlier loads have returned, or return in this cycle (R175). -/
def State.inTurn (s : State) (r : Req) : Bool :=
  match s.core r.core, r.agent with
  | some c, .helper h => !(reqLive c h r && s.reqs.any (fun q =>
      q.core = r.core && q.op = .read && q.id < r.id && reqLive c h q && !(q.mark ≠ 0 && q.ret = 0)))
  | _, _ => true

/-- The event due for a request at the end of this cycle: performed at its home, or its data back. -/
def State.reqEvent (s : State) (r : Req) : List Instr :=
  if r.look then []
  else match r.got with
    | some _ => if r.ret = 0 && (r.op ≠ .read || r.mark = 0 || s.inTurn r) then [.globalReadReturn r.id] else []
    | none => if r.home = 0 then
        (match r.op with
        | .read => [.homeRead r.id]
        | .write => [.homeWrite r.id]
        | .atomic _ _ _ => [.homeAtomic r.id]
        | _ => []) else []

/-- One cycle of every request, and the events it brings. -/
def State.reqsTick (s : State) : State :=
  let s1 := s.reqs.foldl (fun st r => match st.reqs.find? (fun q => q.id = r.id) with
    | some q => st.reqTick q
    | none => st) s
  s1.soon 0 (s1.reqs.flatMap s1.reqEvent)

/-- GATOM's new value (R123). -/
def atomNew (fn : Nat) (old d y : Word) : Word :=
  match fn with
  | 0 => old + y
  | 1 => old &&& y
  | 2 => old ||| y
  | 3 => old ^^^ y
  | 4 => if old.toInt ≤ y.toInt then old else y
  | 5 => if old.toInt ≤ y.toInt then y else old
  | 6 => if old.toNat ≤ y.toNat then old else y
  | 7 => if old.toNat ≤ y.toNat then y else old
  | 8 => y
  | _ => if old = d then y else old

/-! ### PHASE and posted host writes (R136, R180, R184) -/

/-- A read on the host port, after which the posted writes before it have reached host memory (R184, R187, R191). -/
def State.hostRead (s : State) (num lctx : Nat) : State :=
  let pa := s.chip * 2 ^ 45 + 0x100000000000
  let t := s.reqTimes num 2 pa 0
  t.2.addReq { req0 with core := num, agent := .hubAgent, op := .read, lctx := lctx, pa := pa, home := t.1.1, ret := t.1.2,
                         off := 128 }

/-- Such a read is out for a context. -/
def State.hostReadOut (s : State) (lctx : Nat) : Bool :=
  s.reqs.any (fun r => r.agent = .hubAgent && r.core < 1024 && r.lctx = lctx)

/-- Its completion is back. -/
def hostBack (c : Core) : Core := if c.hostDirty = 2 then { c with hostDirty := 0 } else c

/-- A core's posted host writes are flushed, when there are some and no read for them is out. -/
def State.flushHost (s : State) (num : Nat) : State :=
  match s.core num with
  | none => s
  | some c => if c.hostDirty = 1 then (s.setCore num { c with hostDirty := 2 }).hostRead num c.lctx else s

/-- The PHASE of a core writes the cache back and invalidates it, and fills of loads under way give their values and are not
cached (R136, R178, R180); stores still in the buffer are merged as their fills come and leave with the line. Once every write
has been performed it has the posted host writes flushed (R184). The clock of a frozen core is stopped (R419). -/
def State.phaseFlush (s : State) (num : Nat) : State :=
  match s.core num with
  | none => s
  | some c =>
    if c.phaseWb && !c.frozen then
      let s0 : State := { s with reqs := s.reqs.map (fun r =>
        if r.core = num && r.fill && !storeFill r then { r with stale := true } else r) }
      let s1 := (c.hc.foldl (fun (st : State) (e : CLine) => st.evict num 0 c.lctx e) s0).modCore num (fun k => { k with
        hc := [], wbBytes := if k.preempt then k.wbBytes + 64 * (c.hc.filter (fun e => e.dirty ≠ 0)).length else k.wbBytes })
      if c.hc.isEmpty && writesDone c then s1.flushHost num else s1
    else s

/-! ### Invalidations in progress (R41) -/

/-- Dirty lines of the frames leave every helper cache: DESIGN CHOICE, for R41 says what must have been performed and not what
brings a line home (assumption 17). -/
def State.framesFlush (s : State) (l : List (Nat × Nat)) : State :=
  s.cores.foldl (fun st k =>
    (k.2.hc.filter (fun e => e.dirty ≠ 0 && inFrames l (64 * e.line))).foldl (fun t e =>
      (t.evict k.1 0 k.2.lctx e).modCore k.1 (fun c => { c with
        hc := c.hc.map (fun x => if x.line = e.line then { x with dirty := 0 } else x) })) st) s

/-- TINV_COMPLETE (R41): the invalidation in front starts, and DONE increases once what it waits for is over; the next one
follows. -/
def State.tinvDone (s : State) : State :=
  match s.tinv with
  | [] => s
  | w :: l =>
    let s0 := match s.tinvRun with
      | none => s.tinvStart w
      | some x => s.framesFlush x.1
    if s0.accessesUnder then s0.later (s.tick + 1) 0 .tinvComplete
    else
      let s1 := ({ s0 with tinv := l, tinvRun := none }.countMod 0x1148 31 0 1).setFld 0x1148 63 63 (b2n (!l.isEmpty))
      match l with
      | [] => s1
      | _ :: _ =>
        let r := s1.drawIn 1 64
        r.2.later (s.tick + r.1) 0 .tinvComplete

end Sys2Proof.Machine
end

