-- ==== Sys2Proof/Machine/Copy.lean ====
section
/-! DEFINITION. The copy engine (05 R139 to R165): acceptance and its checks, queues, bursts, completion, timed commands,
the dependence graph and the stop of a queue. -/

namespace Sys2Proof.Machine

def Core.cq (c : Core) (q : Nat) : CopyQ := c.eng.qs.getD q copyQ0

def Core.setCq (c : Core) (q : Nat) (x : CopyQ) : Core := { c with eng := { c.eng with qs := setAt c.eng.qs q x } }

def isCopy (op : Nat) : Bool := op = 0x20 || op = 0x21 || op = 0x22 || op = 0x23

/-! ### Addresses and control words (R146, R147) -/

/-- A core-local operand's address, when bit 63 says so. -/
def locOf (a : Word) : Option Nat := if a.getLsbD 63 then some (bits a.toNat 31 0) else none

/-- The zero field of a core-local address. -/
def locBad (a : Word) : Bool := a.getLsbD 63 && bits a.toNat 62 32 ≠ 0

/-- A core-local range of `n` bytes, `off` past its base, leaves the own scratchpad or meets a fence (R16, R357); the sum is
exact (R9). -/
def locOut (c : Core) (a : Word) (off n : Nat) : Bool :=
  match locOf a with
  | some p => n ≠ 0 && (0x180000 < p + off + n || meetsFence c.fences (p + off) n)
  | none => false

/-- POST_TARGET's condition (R145, R148). -/
def postBad (z : Word) : Bool := z.getLsbD 53 && 120 ≤ bits z.toNat 52 44 % 128

/-- The first broken condition, in the order of R145's table. -/
def firstCause : List (Bool × Nat) → Option Nat
  | [] => none
  | (b, k) :: l => if b then some k else firstCause l

/-- The checks of a command at acceptance (R145 to R149, R151, R155, R156); `prev` and `timed`: the command before it. DESIGN
CHOICE (assumption 148): a block address without LOCAL (R151) breaks a limit of its command, ENG_DESC. -/
def acceptCheck (c : Core) (k : Cmd) (prev : Nat) (timed : Bool) : Option Nat :=
  let order := (prev = 0x25 && !isCopy k.op, cENGORDER)
  if k.op = 0x20 then
    let len := bits k.z.toNat 31 0
    firstCause
      [(bits k.z.toNat 63 61 ≠ 0 || locBad k.x || locBad k.y, cENGDESC),
       (len % 32 ≠ 0 || k.x.toNat % 32 ≠ 0 || k.y.toNat % 32 ≠ 0, cMISALIGN),
       (locOut c k.x 0 len || locOut c k.y 0 len, cLOCALRANGE),
       (postBad k.z, cPOSTTARGET)]
  else if k.op = 0x21 ∨ k.op = 0x22 ∨ k.op = 0x23 then
    firstCause
      [(bits k.z.toNat 63 61 ≠ 0 || bits k.z.toNat 31 0 ≠ 0 || !k.x.getLsbD 63 || locBad k.x, cENGDESC),
       (k.x.toNat % 64 ≠ 0, cMISALIGN),
       (locOut c k.x 0 64, cLOCALRANGE),
       (postBad k.z, cPOSTTARGET)]
  else if k.op = 0x26 then firstCause [(!isCopy prev || timed, cENGORDER)]
  else firstCause [order]

/-! ### Command blocks (R151 to R153) -/

def blkD (b : List Word) (i : Nat) : Nat := (b.getD i 0).toNat

/-- CPYT's fields (R152). -/
def cptTH (b : List Word) : Nat := bits (blkD b 3) 63 48
def cptTW (b : List Word) : Nat := bits (blkD b 3) 47 32
def cptSH (b : List Word) : Nat := bits (blkD b 3) 31 16
def cptSW (b : List Word) : Nat := bits (blkD b 3) 15 0
def cptES (b : List Word) : Nat := 2 ^ bits (blkD b 5) 1 0
def cptOY (b : List Word) : Int := sext 32 (bits (blkD b 4) 63 32)
def cptOX (b : List Word) : Int := sext 32 (bits (blkD b 4) 31 0)
def cptDP (b : List Word) : Nat := bits (blkD b 2) 63 32
def cptSP (b : List Word) : Nat := bits (blkD b 2) 31 0

/-- A coordinate clamped to the source's edge (R152). -/
def clampTo (n : Nat) (v : Int) : Nat := min v.toNat (n - 1)

/-- CGATH's and CSCAT's fields (R153). -/
def cgROW (b : List Word) : Nat := bits (blkD b 3) 47 32
def cgCOUNT (b : List Word) : Nat := bits (blkD b 3) 31 0
def cgIDX (b : List Word) : Nat := bits (blkD b 2) 31 0
def cgSTRIDE (b : List Word) : Nat := blkD b 4
def cgLIMIT (b : List Word) : Nat := bits (blkD b 5) 31 0

/-- The checks of a block at its command's start (R145, R151 to R153). DESIGN CHOICE: a core-local table of CGATH or CSCAT is
taken over all its LIMIT rows, not over the rows the list names, which are read as the command proceeds (assumption 18). -/
def blockCheck (c : Core) (op : Nat) (b : List Word) : Option Nat :=
  let src := b.getD 0 0
  let dst := b.getD 1 0
  let zero := blkD b 6 ≠ 0 || blkD b 7 ≠ 0
  if op = 0x21 then
    let es := cptES b
    let th := cptTH b
    let tw := cptTW b
    let row (v : Int) : Nat := clampTo (cptSH b) v * cptSP b
    let lo := row (cptOY b) + clampTo (cptSW b) (cptOX b) * es
    let hi := row (cptOY b + (th : Int) - 1) + (clampTo (cptSW b) (cptOX b + (tw : Int) - 1) + 1) * es
    firstCause
      [(zero || bits (blkD b 5) 63 2 ≠ 0 || locBad src || locBad dst || cptSW b = 0 || cptSH b = 0
          || (1 < th && cptDP b < tw * es) || 2 ^ 32 ≤ th * tw * es, cENGDESC),
       (src.toNat % es ≠ 0 || dst.toNat % es ≠ 0 || cptDP b % es ≠ 0 || cptSP b % es ≠ 0, cMISALIGN),
       (th ≠ 0 && tw ≠ 0 && (locOut c dst 0 ((th - 1) * cptDP b + tw * es) || locOut c src lo (hi - lo)),
        cLOCALRANGE)]
  else
    let n := cgCOUNT b
    let lim := cgLIMIT b
    firstCause
      [(zero || bits (blkD b 2) 63 32 ≠ 0 || bits (blkD b 3) 63 48 ≠ 0 || bits (blkD b 5) 63 32 ≠ 0 || locBad src
          || locBad dst || cgROW b < 32 || 65504 < cgROW b || 2 ^ 32 ≤ n * cgROW b, cENGDESC),
       (src.toNat % 32 ≠ 0 || dst.toNat % 32 ≠ 0 || cgROW b % 32 ≠ 0 || cgSTRIDE b % 32 ≠ 0 || cgIDX b % 4 ≠ 0, cMISALIGN),
       (n ≠ 0 && (0x180000 < cgIDX b + 4 * n || meetsFence c.fences (cgIDX b) (4 * n) || locOut c dst 0 (n * cgROW b)
          || (lim ≠ 0 && locOut c src 0 ((lim - 1) * cgSTRIDE b + cgROW b))), cLOCALRANGE)]

/-- Destination bytes of a command in its order (R161). -/
def copyTotal (k : CopyCmd) : Nat :=
  if k.c.op = 0x20 then bits k.c.z.toNat 31 0
  else if k.c.op = 0x21 then cptTH k.blk * cptTW k.blk * cptES k.blk
  else cgCOUNT k.blk * cgROW k.blk

/-- Bytes of a row: a tile row of CPYT, a table row, the whole of a CPY. -/
def copyRow (k : CopyCmd) : Nat :=
  if k.c.op = 0x20 then bits k.c.z.toNat 31 0
  else if k.c.op = 0x21 then cptTW k.blk * cptES k.blk
  else cgROW k.blk

/-- Source and destination base of a command. -/
def srcBase (k : CopyCmd) : Word :=
  if k.c.op = 0x20 then k.c.y else if k.c.op = 0x23 then k.blk.getD 1 0 else k.blk.getD 0 0

def dstBase (k : CopyCmd) : Word :=
  if k.c.op = 0x20 then k.c.x else if k.c.op = 0x23 then k.blk.getD 0 0 else k.blk.getD 1 0

/-- The form of an address is that of its base, bit 63 (R146). -/
def isGlobal (w : Word) : Bool := !w.getLsbD 63

/-- A base as a number: offsets are added exactly (R9, R146). -/
def baseOf (w : Word) : Nat := (locOf w).getD w.toNat

/-- Bytes by which the burst at a cursor starts past a sector of its destination: in CPYT alone (R152, R162). -/
def sectorOff (k : CopyCmd) (pos : Nat) : Nat :=
  if k.c.op = 0x21 then
    let rb := max (copyRow k) 1
    (baseOf (dstBase k) + pos / rb * cptDP k.blk + pos % rb) % 32
  else 0

/-- Destination bytes of the burst at a cursor: up to 512, ending on a sector, within the tile row in CPYT (R150, R152, R162;
assumption 10). -/
def burstLen (k : CopyCmd) (pos : Nat) : Nat :=
  if k.c.op = 0x21 then min (512 - sectorOff k pos) (copyRow k - pos % max (copyRow k) 1)
  else min 512 (copyTotal k - pos)

/-- `n` bytes from `pos` cut at the rows: position and length of each part. -/
def rowSplit (row : Nat) : Nat → Nat → Nat → List (Nat × Nat)
  | 0, _, _ => []
  | f + 1, pos, n =>
    if n = 0 then []
    else
      let m := min n (row - pos % max row 1)
      (pos, m) :: rowSplit row f (pos + m) (n - m)

/-- The index of row `i` of the list: the one kept from the row's earlier burst, else as it stands (R153). -/
def idxOf (c : Core) (k : CopyCmd) (i : Nat) : Nat :=
  match k.kept with
  | some e => if e.1 = i then e.2 else memNat c.sp (cgIDX k.blk + 4 * i) 4
  | none => memNat c.sp (cgIDX k.blk + 4 * i) 4

/-- The part of `n` destination bytes at `pos`, within one row (R150, R152, R153). -/
def segOf (c : Core) (k : CopyCmd) (pos n : Nat) : Seg :=
  let b := k.blk
  let src := baseOf (srcBase k)
  let dst := baseOf (dstBase k)
  let rb := max (copyRow k) 1
  let i := pos / rb
  let o := pos % rb
  if k.c.op = 0x20 then ⟨some (src + pos), n, [], some (dst + pos), n⟩
  else if k.c.op = 0x21 then
    let es := cptES b
    let sy := clampTo (cptSH b) (cptOY b + (i : Int))
    let sx (e : Nat) : Nat := clampTo (cptSW b) (cptOX b + (e : Int))
    let lo := sx (o / es)
    let hi := sx ((o + n - 1) / es)
    ⟨some (src + sy * cptSP b + lo * es), (hi - lo + 1) * es,
     (List.range n).map (fun j => (sx ((o + j) / es) - lo) * es + (o + j) % es),
     some (dst + i * cptDP b + o), n⟩
  else
    let x := idxOf c k i
    let ok := x < cgLIMIT b
    if k.c.op = 0x22 then ⟨if ok then some (src + x * cgSTRIDE b + o) else none, n, [], some (dst + i * cgROW b + o), n⟩
    else ⟨if ok then some (src + i * cgROW b + o) else none, n, [], if ok then some (dst + x * cgSTRIDE b + o) else none, n⟩

/-- The parts of the burst at the cursor, chunk by chunk. -/
def burstSegs (c : Core) (k : CopyCmd) : List Seg :=
  let pos := k.cursor
  let n := burstLen k pos
  let cut := min n (256 - sectorOff k pos)
  (rowSplit (copyRow k) 9 pos cut ++ rowSplit (copyRow k) 9 (pos + cut) (n - cut)).map (fun e => segOf c k e.1 e.2)

/-- The destination bytes a part makes of its source bytes. -/
def segData (p : Seg) (d : List Byte) : List Byte :=
  match p.src with
  | none => List.replicate p.n 0
  | some _ => if p.pick.isEmpty then d else p.pick.map (fun i => d.getD i 0)

/-- Rows of the list that begin in the burst at the cursor. -/
def rowsBegun (k : CopyCmd) : List Nat :=
  if k.c.op = 0x22 ∨ k.c.op = 0x23 then
    let row := max (cgROW k.blk) 1
    let lo := (k.cursor + row - 1) / row
    let hi := (k.cursor + burstLen k k.cursor + row - 1) / row
    (List.range (hi - lo)).map (· + lo)
  else []

/-- Out-of-range indices that the burst at the cursor begins (R153). -/
def oorCount (c : Core) (k : CopyCmd) : Nat :=
  ((rowsBegun k).filter (fun i => cgLIMIT k.blk ≤ memNat c.sp (cgIDX k.blk + 4 * i) 4)).length

/-! ### Acceptance (R143 to R145) -/

/-- The last command of a queue, a CTIME, is followed by what is no copy command: it stops the queue (R155). -/
def badTimed (l : List CopyCmd) : List CopyCmd :=
  match l.reverse with
  | [] => []
  | e :: r => (({ e with cause := some cENGORDER } : CopyCmd) :: r).reverse

/-- A released command enters its queue at the end of the cycle. -/
def copyAccept (k : Cmd) (c : Core) : Core :=
  let x := c.cq k.q
  let old := if x.lastOp = 0x25 && !isCopy k.op then badTimed x.cmds else x.cmds
  let new : CopyCmd := ⟨k, none, 0, [], false, x.acc + 1, 0, none, x.ords⟩
  if k.op = 0x24 then
    c.setCq k.q { x with cmds := old ++ [new], acc := x.acc + 1, lastOp := 0x24, lastTimed := false, ords := x.ords + 1 }
  else
    c.setCq k.q { x with
      cmds := old ++ [{ new with cause := acceptCheck c k x.lastOp x.lastTimed }],
      lastOp := k.op, lastTimed := x.lastOp = 0x25, ords := x.ords + 1 }

/-- Entries of a queue, its seals and timed commands included (R139). -/
def copyRoom (c : Core) (q : Nat) : Nat :=
  (c.cq q).cmds.length + (c.eng.tsb.filter (fun e => e.2.1 = q)).length

/-! ### Heads, seals, timed commands (R140, R155) -/

/-- Seals at the head are passed (R140). -/
def dropSeals : List CopyCmd → Nat → List CopyCmd × Nat
  | [], p => ([], p)
  | k :: l, p => if k.c.op = 0x24 then dropSeals l (p + 1) else (k :: l, p)

def passSeals (c : Core) (q : Nat) : Core :=
  let x := c.cq q
  let r := dropSeals x.cmds x.passed
  c.setCq q { x with cmds := r.1, passed := r.2 }

/-- A CTIME at the head hands the command after it to the time-sorted buffer (R155). -/
def handTimed (c : Core) (q : Nat) : Core :=
  let x := c.cq q
  match x.cmds with
  | t :: k :: l =>
    if t.c.op = 0x25 && t.cause.isNone && isCopy k.c.op && c.eng.tsb.length < 16 then
      let c1 := c.setCq q { x with cmds := l }
      { c1 with eng := { c1.eng with tsb := c1.eng.tsb ++ [(t.c.x.toNat, q, k)] } }
    else c
  | _ => c

/-- Seals passed and timed commands handed over, as many as stand in front. -/
def copyHead (q : Nat) : Nat → Core → Core
  | 0, c => c
  | n + 1, c => copyHead q n (passSeals (handTimed (passSeals c q) q) q)

/-- A stopped queue goes on with the commands accepted before the one that failed (R145). -/
def goesOn (x : CopyQ) (k : CopyCmd) : Bool := !x.stop || k.ord < x.stopOrd

/-- The timed command of queue q that falls due first: the least time, of equal times the one accepted first (R155). -/
def dueTimed (c : Core) (q jobt : Nat) : Option (Nat × Nat × CopyCmd) :=
  (c.eng.tsb.filter (fun e => e.2.1 = q && e.1 ≤ jobt && goesOn (c.cq q) e.2.2)).foldl (fun r e => match r with
    | none => some e
    | some f => if e.1 < f.1 then some e else some f) none

/-- New bursts may begin (R161, R299, R419, R393). -/
def engFree (c : Core) : Bool := !c.frozen && !c.preempt && c.run ≠ .ended

/-- The queue stands at a burst boundary. -/
def atBoundary (c : Core) (q : Nat) : Bool :=
  let x := c.cq q
  x.burst.isNone && !x.fault && engFree c

/-- The head of a queue may begin something at this burst boundary: it is not behind a failed command, and no timed command
is due ahead of it (R145, R155). -/
def headFree (c : Core) (q : Nat) : Bool :=
  let x := c.cq q
  atBoundary c q && x.due.isNone && (match x.cmds with
    | k :: _ => goesOn x k
    | [] => false)

/-- TIMED_COMMAND_DUE (R155): from this boundary on the queue is held for the command, which keeps its entry until it
starts. -/
def timedStart (q jobt : Nat) (c : Core) : Core :=
  if atBoundary c q then c.setCq q { c.cq q with due := dueTimed c q jobt } else c

/-! ### Start (R141, R145, R151, R160) -/

/-- The graph node of a command that names one (R147, R159). -/
def nodeOf (c : Core) (k : CopyCmd) : Option GNode :=
  if k.c.z.getLsbD 60 then some (c.eng.nodes.getD (bits k.c.z.toNat 59 54) ⟨none, []⟩) else none

/-- The queue as its next start finds it, with the buffer: a due timed command stands at the head, its entry free (R155). -/
def startView (c : Core) (q : Nat) : CopyQ × List (Nat × Nat × CopyCmd) :=
  let x := c.cq q
  match x.due with
  | some e => ({ x with cmds := e.2.2 :: x.cmds, due := none }, c.eng.tsb.erase e)
  | none => (x, c.eng.tsb)

/-- A copy command stands at the head and may start now. -/
def startable (c : Core) (q : Nat) : Bool :=
  let x := (startView c q).1
  match x.cmds with
  | k :: _ => isCopy k.c.op && !k.started && k.cause.isNone && k.delay = 0 && atBoundary c q && goesOn x k
      && (match nodeOf c k with
        | some n => n.pred = none || n.pred = some 0
        | none => true)
  | [] => false

/-- The head fails a check, so its queue stops, a stopped one among the commands with which it goes on (R145); a timed command's
failing check is met when it is due (R155). A halt wave does not hold the stop back: it is no access and no result (R423). -/
def stoppable (c : Core) (q : Nat) : Bool :=
  match (startView c q).1.cmds with
  | k :: _ => k.cause.isSome && goesOn (c.cq q) k && !c.preempt && c.run ≠ .ended
  | [] => false

/-- The eight doublewords of a command block. -/
def readBlk (c : Core) (a : Nat) : List Word := (List.range 8).map (fun i => BitVec.ofNat 64 (memNat c.sp (a + 8 * i) 8))

/-- The commands behind a failed one that were accepted before it: the timed command that failed had come ahead of them, and
they run and complete first (R145). -/
def failedHead (k : CopyCmd) (l : List CopyCmd) : List CopyCmd :=
  l.filter (fun e => e.ord < k.ord) ++ k :: l.filter (fun e => !decide (e.ord < k.ord))

/-- A queue stops with command `k` at its head, `l` behind it, the buffer being `tsb` (R145, R163): ENGSTAT records the stop; the
launch's policy follows at once. -/
def stopWith (q : Nat) (x : CopyQ) (k : CopyCmd) (l : List CopyCmd) (tsb : List (Nat × Nat × CopyCmd)) (c : Core) : Core :=
  let first := c.eng.qs.all (fun x => !x.stop) && c.eng.cause = 0
  let c0 := { c with eng := { c.eng with tsb := tsb } }.setCq q { x with cmds := failedHead k l, stop := true, stopOrd := k.ord }
  let c1 := { c0 with cyc := { c0.cyc with trig := c0.cyc.trig ++ [(0x3A, q, k.c.bundle, k.cause.getD 0)] } }
  if first then { c1 with eng := { c1.eng with cause := k.cause.getD 0, eq := q } } else c1

/-- QUEUE_STOP (R145, R163). -/
def copyStop (q : Nat) (c : Core) : Core :=
  if stoppable c q then
    let v := startView c q
    match v.1.cmds with
    | k :: l => stopWith q v.1 k l v.2 c
    | [] => c
  else c

/-- COPY_COMMAND_START (R141, R151): a block is read at rank 4 in the start cycle; a failing check, or a node that is not
loaded, stops the queue in that cycle (R145). -/
def copyStart (q : Nat) (c : Core) : Core :=
  if startable c q then
    let v := startView c q
    match v.1.cmds with
    | k :: l =>
      let put (k' : CopyCmd) (c' : Core) : Core :=
        { c' with eng := { c'.eng with tsb := v.2 } }.setCq q { v.1 with cmds := k' :: l }
      if (match nodeOf c k with
        | some n => n.pred.isNone
        | none => false) then stopWith q v.1 { k with cause := some cENGDESC } l v.2 c
      else if k.c.op = 0x20 then put { k with started := true } c
      else
        let a := bits k.c.x.toNat 31 0
        let b := bankOf a
        if c.cyc.turns.contains b then c
        else
          let c1 := { c with cyc := { c.cyc with turns := c.cyc.turns ++ [b], used := c.cyc.used ++ [b] } }
          let blk := readBlk c a
          match blockCheck c k.c.op blk with
          | some e => stopWith q v.1 { k with blk := blk, cause := some e } l v.2 c1
          | none => put { k with blk := blk, started := true, delay := 1 } c1
    | [] => c
  else c

/-! ### Bursts (R150, R158, R161, R162) -/

/-- The banks of a core-local range. -/
def banksOf (a n : Nat) : List Nat := (partsOf a n).map (fun p => bankOf p.addr)

/-- Of the banks of an access of rank 3 or 4 each is taken as soon as its port is free, on its own (R61): those served so
far, and the core. -/
def bankTurn (done bs : List Nat) (c : Core) : List Nat × Core :=
  let go := (bs.eraseDups).filter (fun b => !done.contains b && !c.cyc.turns.contains b)
  (done ++ go, { c with cyc := { c.cyc with turns := c.cyc.turns ++ go, used := c.cyc.used ++ go } })

/-- Bytes written to the own scratchpad by a port access; they stand at the end of the cycle (R109). -/
def portPut (a : Nat) (d : List Byte) (c : Core) : Core :=
  { c with cyc := { c.cyc with portWr := c.cyc.portWr ++ [(a, d)] } }

/-- The running command of a queue. -/
def running (c : Core) (q : Nat) : Option CopyCmd :=
  match (c.cq q).cmds with
  | k :: _ => if k.started && k.delay = 0 && isCopy k.c.op then some k else none
  | [] => none

/-- The command at the head has completed (R142). -/
def copyFinish (q : Nat) (c : Core) : Core :=
  let x := c.cq q
  match x.cmds with
  | k :: l => c.setCq q { x with cmds := l, fin := some k, burst := none }
  | [] => c

/-- A burst whose last byte has been written: the cursor advances, and the command completes with its last burst; a killed
command ends there (R191). -/
def burstDone (q n : Nat) (c : Core) : Core :=
  let x := c.cq q
  match x.cmds with
  | k :: l =>
    let k' := { k with cursor := k.cursor + n }
    let c0 := c.setCq q { x with cmds := k' :: l, burst := none }
    let c1 := if c.cyc.still then c0 else { c0 with evs := c.evs ++ List.replicate (n / 32) (0x0D, 15) }
    if copyTotal k ≤ k'.cursor || c.eng.cut then copyFinish q c1 else c1
  | [] => c

/-- Tokens left for copy bursts (R445): each burst in progress takes 2. -/
def burstsNow (c : Core) : Nat := (c.eng.qs.filter (fun x => x.burst.isSome)).length

def burstTokens (c : Core) : Bool := c.cyc.tokens + 2 * (burstsNow c + 1) ≤ c.budget && !c.mat.tokWait

/-- A burst in progress finds its tokens in this cycle; the lowest queues are paid first (R445). -/
def burstPaid (c : Core) (q : Nat) : Bool :=
  c.cyc.tokens + 2 * ((List.range (q + 1)).filter (fun i => (c.cq i).burst.isSome)).length ≤ c.budget

/-- A queue wants a turn: it can begin a burst, or reads on in one. -/
def wantsTurn (c : Core) (q : Nat) : Bool :=
  let x := c.cq q
  match running c q, x.burst with
  | some k, some b => b.req.isNone && b.rd < b.n && k.cause.isNone && burstPaid c q
  | some _, none => headFree c q && burstTokens c
  | none, _ => false

/-- A core-local burst of the queue has bytes read and not yet written: the queue keeps its place in the turns until they
are, so that no other queue takes a second burst before its first is through (R158). -/
def writesOn (c : Core) (q : Nat) : Bool :=
  match (c.cq q).burst with
  | some b => b.req.isNone && b.dparts.isEmpty && !b.data.isEmpty && burstPaid c q
  | none => false

/-- The queue whose burst reads in this cycle (R158): the first from `eng.turn` that has a burst to read or to write, if it
reads. -/
def turnOf (c : Core) : Option Nat :=
  (((List.range 4).map (fun i => (c.eng.turn + i) % 4)).find? (fun q => wantsTurn c q || writesOn c q)).filter (wantsTurn c)

/-- Bytes of the chunk that starts at an offset of the burst: 256, or up to a sector in the first (R150, R162). -/
def chunkAt (b : Burst) (o : Nat) : Nat := if o < b.cut then b.cut - o else b.n - o

/-- The parts of a burst from an offset on, `n` bytes of them. -/
def segsIn : List Seg → Nat → Nat → List Seg
  | [], _, _ => []
  | g :: l, o, n => if n = 0 then [] else if g.n ≤ o then segsIn l (o - g.n) n else g :: segsIn l 0 (n - g.n)

/-- The destination parts of a chunk with their bytes, within one bank each. -/
def writeParts : List Seg → List Byte → List (Nat × List Byte)
  | [], _ => []
  | g :: l, d =>
    (match g.dst with
      | some a => (partsOf a g.n).map (fun p => (p.addr, (d.drop (p.addr - a)).take p.len))
      | none => []) ++ writeParts l (d.drop g.n)

/-- A chunk of a burst written to the scratchpad, 256 bytes a cycle (R150); in the cycle of its last write too the burst takes
its tokens (R445). -/
def burstWrite (q : Nat) (c : Core) : Core :=
  let x := c.cq q
  match running c q, x.burst with
  | some _, some b =>
    if b.data.isEmpty || b.req.isSome || b.dparts ≠ [] || !burstPaid c q then c
    else
      let n := chunkAt b b.wr
      let ps := writeParts (segsIn b.segs b.wr n) b.data
      let r := bankTurn b.wb (ps.map (fun p => bankOf p.1)) c
      let now := ps.filter (fun p => r.1.contains (bankOf p.1) && !b.wb.contains (bankOf p.1))
      let c1 := now.foldl (fun k p => portPut p.1 p.2 k) r.2
      if ps.all (fun p => r.1.contains (bankOf p.1)) then
        let b' := { b with wr := b.wr + n, data := b.data.drop n, wb := [] }
        let c2 := c1.setCq q { x with burst := some b' }
        if b'.wr = b.n then burstDone q b.n { c2 with cyc := { c2.cyc with tokens := c2.cyc.tokens + 2 } } else c2
      else c1.setCq q { x with burst := some { b with wb := r.1 } }
  | _, _ => c

/-- Bytes of a range among what the banks have given. -/
def gotBytes (l : List (Nat × List Byte)) (a n : Nat) : List Byte :=
  (partsOf a n).flatMap (fun p => ((l.find? (fun e => e.1 = p.addr && e.2.length = p.len)).map (·.2)).getD [])

/-- The next chunk of a burst read from the scratchpad (R150). -/
def burstRead (q : Nat) (c : Core) : Core :=
  let x := c.cq q
  match running c q, x.burst with
  | some _, some b =>
    let n := chunkAt b b.rd
    let gs := segsIn b.segs b.rd n
    let ps := gs.flatMap (fun g => match g.src with
      | some a => partsOf a g.slen
      | none => [])
    let r := bankTurn b.rb (ps.map (fun p => bankOf p.addr)) c
    let now := ps.filter (fun p => r.1.contains (bankOf p.addr) && !b.rb.contains (bankOf p.addr))
    let got := b.rgot ++ now.map (fun p => (p.addr, memBytes c.sp p.addr p.len))
    let c1 := r.2
    if ps.all (fun p => r.1.contains (bankOf p.addr)) then
      let d := gs.flatMap (fun g => segData g (match g.src with
        | some a => gotBytes got a g.slen
        | none => []))
      let c2 := c1.setCq q { x with burst := some { b with rd := b.rd + n, data := b.data ++ d, rb := [], rgot := [] } }
      { c2 with eng := { c2.eng with rd := true, turn := if b.rd + n = b.n then (q + 1) % 4 else q } }
    else
      let c2 := c1.setCq q { x with burst := some { b with rb := r.1, rgot := got } }
      { c2 with eng := { c2.eng with rd := true } }
  | _, _ => c

/-- A burst begins: its parts are fixed, the indices of its rows read, those out of range counted (R153). -/
def burstBegin (q : Nat) (dparts : List (Nat × Nat × Nat)) (dAt : Nat) (c : Core) : Core :=
  match running c q, (c.cq q).cmds with
  | some k, _ :: l =>
    let n := burstLen k k.cursor
    let row := max (cgROW k.blk) 1
    let i := (k.cursor + n - 1) / row
    let k' := if k.c.op = 0x22 ∨ k.c.op = 0x23 then { k with kept := some (i, idxOf c k i) } else k
    let b : Burst := ⟨n, min n (256 - sectorOff k k.cursor), 0, 0, [], none, burstSegs c k, dparts, dAt, [], [], []⟩
    let c1 := c.setCq q { c.cq q with cmds := k' :: l, burst := some b }
    { c1 with eng := { c1.eng with oor := min (c1.eng.oor + oorCount c k) 0xFFFF } }
  | _, _ => c

/-! ### Bursts with a global side (R38, R162, R171) -/

/-- The ranges of a global side: addresses and lengths, in the order of the burst. -/
def srcRanges (l : List Seg) : List (Nat × Nat) := l.filterMap (fun g => g.src.map (fun a => (a, g.slen)))
def dstRanges (l : List Seg) : List (Nat × Nat) := l.filterMap (fun g => g.dst.map (fun a => (a, g.n)))

/-- A virtual range cut at 64 KiB: a translation covers at least so much. -/
def pageSplit : Nat → Nat → Nat → List (Nat × Nat)
  | 0, _, _ => []
  | f + 1, va, n =>
    let m := min n (0x10000 - va % 0x10000)
    if n = 0 then [] else (va, m) :: pageSplit f (va + m) (n - m)

/-- Translates the ranges of a burst: the physical ranges and the cycles of the slowest translation, or the first fault and
the page it is met in (R30, R38). -/
def State.xlateRanges (s : State) (num : Nat) (ag : Agent) (ctx : Nat) (k : Acces) (l : List (Nat × Nat)) :
    (Except (Nat × Nat × Nat) (List (Nat × Nat × Nat) × Nat)) × State :=
  (l.flatMap (fun r => pageSplit (r.2 / 0x10000 + 2) r.1 r.2)).foldl (fun x e => match x.1 with
    | .error f => (.error f, x.2)
    | .ok a => (match x.2.xlate num ag ctx e.1 k with
      | (.error f, t) => (.error (f.1, f.2, e.1), t)
      | (.ok y, t) => (.ok (a.1 ++ [(y.pa, y.coh, e.2)], max a.2 y.lat), t))) (.ok ([], 0), s)

/-- A translation fault of a queue: it stops before the burst (R38). The record names the first byte of the burst on the
faulting side. -/
def State.queueFault (s : State) (num q : Nat) (c : Core) (k : CopyCmd) (e : Nat × Nat × Nat) (va : Nat) (wr : Bool) : State :=
  (s.faultRecord num (.queue q) c.lctx e.1 va e.2.2 wr false e.2.1 k.cursor 0).modCore num (fun d =>
    d.setCq q { d.cq q with burst := none, fault := true })

/-- A physical range by lines: address, coherence mode, length. -/
def linesOf (pa coh : Nat) : Nat → Nat → List (Nat × Nat × Nat)
  | 0, _ => []
  | k + 1, n =>
    let m := min n (64 - pa % 64)
    if n = 0 then [] else (pa, coh, m) :: linesOf (pa + m) coh k (n - m)

def allLines (l : List (Nat × Nat × Nat)) : List (Nat × Nat × Nat) :=
  l.flatMap (fun p => linesOf p.1 p.2.1 (p.2.2 / 64 + 2) p.2.2)

/-- Bytes written into a line from an offset. -/
def lineAt (l : List (Option Byte)) (o : Nat) (d : List Byte) : List (Option Byte) :=
  l.take o ++ d.map some ++ l.drop (o + d.length)

/-- The lines a burst writes with their bytes, each once: every sector gets all of the burst's bytes at once, a later row over
an earlier one (R153, R162). -/
def lineWrites : List (Nat × Nat × Nat) → List Byte → List (Nat × Nat × List (Option Byte)) → List (Nat × Nat × List (Option Byte))
  | [], _, w => w
  | p :: l, d, w =>
    let x := d.take p.2.2
    let n := p.1 / 64
    let w1 := if w.any (fun e => e.1 = n) then w.map (fun e => if e.1 = n then (e.1, e.2.1, lineAt e.2.2 (p.1 % 64) x) else e)
      else w ++ [(n, p.2.1, lineAt (List.replicate 64 none) (p.1 % 64) x)]
    lineWrites l (d.drop p.2.2) w1

/-- Sends the line requests of a burst's read `lat` cycles from now; the agent waits for the last of them (R170, R171). -/
def State.engRead (s : State) (num : Nat) (ag : Agent) (lctx : Nat) (parts : List (Nat × Nat × Nat)) (lat tag : Nat) : State :=
  (allLines parts).foldl (fun st p =>
    let t := st.reqTimes num p.2.1 p.1 lat
    t.2.addReq { req0 with core := num, agent := ag, op := .read, lctx := lctx, pa := p.1, len := p.2.2, home := t.1.1,
                           ret := t.1.2, dst := tag, off := 64 * p.2.1 }) s

/-- The same for its write, line by line (R173): the burst's bytes of a line are performed in one step (DESIGN CHOICE, assumption
133: R189 promises sectors only). -/
def State.engWrite (s : State) (num : Nat) (ag : Agent) (lctx : Nat) (parts : List (Nat × Nat × Nat)) (lat tag : Nat)
    (data : List Byte) : State :=
  (lineWrites (allLines parts) data []).foldl (fun st w =>
    let t := st.reqTimes num w.2.1 (64 * w.1) lat
    t.2.addReq { req0 with core := num, agent := ag, op := .write, lctx := lctx, pa := 64 * w.1, len := 64, data := w.2.2,
                           home := t.1.1, ret := t.1.2, dst := tag, off := 64 * w.2.1 }) s

/-- The bytes a burst writes to a global destination: those of the parts that are not skipped. -/
def sentBytes : List Seg → List Byte → List Byte
  | [], _ => []
  | g :: l, d => (if g.dst.isSome then d.take g.n else []) ++ sentBytes l (d.drop g.n)

/-- A burst whose data is complete goes to its global destination (R38: by the translation made when it began). -/
def State.burstSend (s : State) (num q : Nat) : State :=
  match s.core num with
  | none => s
  | some c => match (c.cq q).burst with
    | none => s
    | some b =>
      if b.dparts ≠ [] && b.rd = b.n && b.req.isNone then
        (s.setCore num (c.setCq q { c.cq q with burst := some { b with req := some 1 } })).engWrite num (.queue q) c.lctx
          b.dparts (b.dAt - s.tick) 1 (sentBytes b.segs b.data)
      else s

/-- The burst at the cursor begins: both sides are translated, a fault stops the queue before it (R38); then its first unit is
read, or its global source asked for. -/
def State.burstStart (s : State) (num q : Nat) (c : Core) (k : CopyCmd) : State :=
  let segs := burstSegs c k
  let sr := if isGlobal (srcBase k) then srcRanges segs else []
  let dr := if isGlobal (dstBase k) then dstRanges segs else []
  match s.xlateRanges num (.queue q) c.lctx .read sr with
  | (.error e, t) => t.queueFault num q c k e (sr.headD (0, 0)).1 false
  | (.ok x, t) => match t.xlateRanges num (.queue q) c.lctx .write dr with
    | (.error e, u) => u.queueFault num q c k e (dr.headD (0, 0)).1 true
    | (.ok y, u) =>
      let u1 := u.modCore num (burstBegin q y.1 (s.tick + y.2))
      if sr = [] then (u1.modCore num (burstRead q)).burstSend num q
      else
        (u1.modCore num (fun d =>
          let d1 := d.setCq q { d.cq q with burst := (d.cq q).burst.map (fun b => { b with rd := b.n, req := some 0 }) }
          { d1 with eng := { d1.eng with rd := true, turn := (q + 1) % 4 } })).engRead num (.queue q) c.lctx x.1 x.2 0

/-- COPY_BURST, one cycle of it (R38, R150, R158, R161): the pending chunk is written; then, when it is the queue's turn,
the next chunk is read or the next burst begins, unless a timed command is due at the boundary (R155); a global destination is
written once the data is complete. -/
def State.copyBurst (s : State) (num q : Nat) : State :=
  match s.core num with
  | none => s
  | some c0 =>
    let c1 := burstWrite q c0
    let c := if (c0.cq q).burst.isSome && (c1.cq q).burst.isNone then timedStart q (s.jobTime c1.lctx) c1 else c1
    let s1 := s.setCore num c
    match running c q with
    | none => s1
    | some k =>
      if copyTotal k = 0 then s1.setCore num (copyFinish q c)
      else if c.eng.rd || turnOf c ≠ some q then s1
      else match (c.cq q).burst with
        | some _ => (s1.setCore num (burstRead q c)).burstSend num q
        | none => s1.burstStart num q c k

/-- The data of each part of a burst out of its source bytes. -/
def dealBytes : List Seg → List Byte → List Byte
  | [], _ => []
  | g :: l, d => match g.src with
    | none => segData g [] ++ dealBytes l d
    | some _ => segData g (d.take g.slen) ++ dealBytes l (d.drop g.slen)

/-- Every request of a queue's burst is back or performed: the data read becomes the burst's, or the burst is done. -/
def State.burstReturn (s : State) (num q : Nat) : State :=
  match s.core num with
  | none => s
  | some c => match (c.cq q).burst with
    | some b =>
      let mine := s.reqs.filter (fun r => r.core = num && r.agent = Agent.queue q)
      if mine.all (fun r => r.got.isSome && r.ret = 0) then
        let s1 := { s with reqs := s.reqs.filter (fun r => !(r.core = num && r.agent = Agent.queue q)) }
        if b.req = some 0 then
          let d := dealBytes b.segs (mine.flatMap (fun r => r.got.getD []))
          (s1.setCore num (c.setCq q { c.cq q with burst := some { b with data := d, req := none } })).burstSend num q
        else s1.setCore num (burstDone q b.n c)
      else s
    | none => { s with reqs := s.reqs.filter (fun r => !(r.core = num && r.agent = Agent.queue q)) }

/-! ### Completion (R140, R142, R148, R156, R160) -/

/-- COPY_COMMAND_COMPLETE: in the cycle after its last byte the command's post is sent and its node's successors are
marked (R142, R148, R160). -/
def State.copyComplete (s : State) (num q : Nat) : State :=
  match s.core num with
  | none => s
  | some c => match (c.cq q).fin with
    | none => s
    | some k =>
      let z := k.c.z.toNat
      let c1 := c.setCq q { c.cq q with fin := none }
      let c2 := match nodeOf c k with
        | some n => { c1 with eng := { c1.eng with dec := c1.eng.dec ++ n.succ } }
        | none => c1
      let c3 := if bit z 53 then
          { c2 with cyc := { c2.cyc with out := c2.cyc.out ++ [(.gate, .flagx (bits z 52 44) (bits z 36 32) (bits z 43 37))] } }
        else c2
      s.setCore num c3

/-- A CNEXT at the head hands its MMUL to the matrix timeline, when that has room (R156, R284). -/
def handReady (c : Core) (q : Nat) : Bool :=
  match (c.cq q).cmds with
  | k :: _ => k.c.op = 0x26 && k.cause.isNone && c.mat.cmds.length < 32 && headFree c q
  | [] => false

/-- A node of the EGRAPH table at `a`, as it stands in the scratchpad (R159). -/
def graphNode (c : Core) (a i : Nat) : GNode :=
  let v := memNat c.sp (a + 8 * i) 8
  if bits v 63 35 ≠ 0 || 64 < bits v 6 0 || !decide (a + 512 ≤ 0x180000) || meetsFence c.fences a 512 then ⟨none, []⟩
  else ⟨some (bits v 6 0), (List.range 4).filterMap (fun j =>
    let f := bits v (13 + 7 * j) (7 + 7 * j)
    if 64 ≤ f then some (f % 64) else none)⟩

/-- A piece of the table, up to 256 bytes in one port cycle, replaces the state of its nodes. -/
def graphPiece (a : Nat) (c : Core) (e : Nat) : Core :=
  { c with eng := { c.eng with nodes := (List.range 64).map (fun i =>
      if i / 32 = e % 2 && bankOf (a + 8 * i) = e / 2 then graphNode c a i else c.eng.nodes.getD i ⟨none, []⟩) } }

/-- EGRAPH's load at rank 4 in the two cycles after its write (R159): each half in each of its banks as that bank's port is free
(R61); in the second cycle what is left is read whatever the port does, for the rule gives two cycles (DESIGN CHOICE:
assumption 11). -/
def graphTick (c : Core) : Core :=
  match c.eng.egLoad with
  | some (a, l, second) =>
    let r := l.foldl (fun (x : List Nat × Core) e =>
      let free := !x.2.cyc.turns.contains (e / 2)
      if free || second then
        (x.1, graphPiece a (if free then { x.2 with cyc := { x.2.cyc with
          turns := x.2.cyc.turns ++ [e / 2], used := x.2.cyc.used ++ [e / 2] } } else x.2) e)
      else (x.1 ++ [e], x.2)) ([], c)
    { r.2 with eng := { r.2.eng with egLoad := if r.1 = [] then none else some (a, r.1, true) } }
  | none => c

/-- The events of the copy engine's cycle, in their order (R141, R142, R145, R155); at the banks queues 0 to 3 come in that
order, a queue's block read and its chunks together (R62), whichever reads in its turn (R158). -/
def copyEvents (num jobt : Nat) (c : Core) : List Instr :=
  let qs := List.range 4
  let due (q : Nat) : Bool := atBoundary c q && (dueTimed c q jobt).isSome
  (qs.filter (fun q => (c.cq q).fin.isSome)).map (Instr.copyCommandComplete num)
  ++ (qs.filter due).map (Instr.timedCommandDue num)
  ++ qs.flatMap (fun q =>
    (if stoppable c q || due q then [Instr.queueStop num q] else [])
    ++ (if startable c q || due q then [Instr.copyCommandStart num q] else [])
    ++ (if (c.cq q).cmds ≠ [] || due q then [Instr.copyBurst num q] else []))

/-- The start of the copy engine's cycle: heads move on, EGRAPH loads, MMULs attached to copies are handed over. -/
def copyBegin (c : Core) : Core :=
  let c1 := (List.range 4).foldl (fun k q => copyHead q ((k.cq q).cmds.length) k) c
  let c2 := graphTick c1
  { c2 with eng := { c2.eng with rd := false } }

/-- Batch n of a queue is complete (R140): every command of it has left the queue and the buffer. -/
def batchesDone (c : Core) (q : Nat) : Nat :=
  let x := c.cq q
  ((x.cmds.map (fun k => k.batch)) ++ ((c.eng.tsb.filter (fun e => e.2.1 = q)).map (fun e => e.2.2.batch))).foldl
    (fun m b => min m (b - 1)) x.passed

/-- The end of a cycle: timelines (R140), nodes (R160), commands that wait out a block read. -/
def copyEnd (c : Core) : Core :=
  let c1 := (List.range 4).foldl (fun k q =>
    let k1 := passSeals k q
    let x := k1.cq q
    k1.setCq q { x with tl := x.adv, adv := batchesDone k1 q, due := none,
                        cmds := x.cmds.map (fun e => { e with delay := e.delay - 1 }) }) c
  { c1 with eng := { c1.eng with
      nodes := c1.eng.dec.foldl (fun l n =>
        let g := l.getD n ⟨none, []⟩
        setAt l n { g with pred := g.pred.map (· - 1) }) c1.eng.nodes,
      dec := [] } }

end Sys2Proof.Machine
end

