-- ==== Sys2Proof/Machine/Matrix.lean ====
section
/-! DEFINITION. The matrix engine (11 R284 to R299, 07 R207 to R210): acceptance and checks, starts, the array, code table,
fill, drain and exchange paths, completion and the matrix timeline. -/

namespace Sys2Proof.Machine

/-! ### Fields (R289, R292 to R296) -/

/-- Families: 0 BF16, 1 FP8, 2 INT8, 3 CB4; 4 reserved (R289). -/
def famOf (f : Nat) : Nat := if f = 0 then 0 else if f < 3 then 1 else if f < 5 then 2 else if f = 5 then 3 else 4

/-- Half bytes per element (R66). -/
def halfBytes (f : Nat) : Nat := if f = 0 then 4 else if f = 5 then 1 else 2

/-- Elements a slice holds (R66). -/
def sliceCap (f : Nat) : Nat := 65536 / halfBytes f

def mmFA (k : Cmd) : Nat := bits k.y.toNat 22 20
def mmFB (k : Cmd) : Nat := bits k.y.toNat 26 24
def mmK0 (k : Cmd) : Nat := bits k.y.toNat 16 0
def mmK (k : Cmd) : Nat := bits k.z.toNat 16 0
def mmFam (k : Cmd) : Nat := famOf (mmFA k)

/-- The accumulator bank an MMUL or MDRAIN names, and MMUL's CLR. -/
def bankBit (k : Cmd) : Nat := k.fl % 2
def mmClr (k : Cmd) : Bool := k.fl / 2 % 2 = 1

/-- Array cycles of an MMUL (R290). -/
def mmN (k : Cmd) : Nat := if mmFam k = 0 then mmK k else mmK k / 2

/-- Vectors of an MMUL's A stream (R290). -/
def mmVecs (k : Cmd) : Nat := if mmFam k = 0 then mmK k else if mmFam k = 3 then mmK k / 64 * 18 else mmK k / 2

/-- Start, offset and size of the A stream's ring; size 0 in pointer mode (R291). -/
def mmRing (c : Core) (k : Cmd) : Nat × Nat × Nat :=
  if k.x.getLsbD 63 then
    let d := rdHandle c (bits k.x.toNat 35 32)
    let b := hSlot d * 256
    (hBase d, (hCons d + bits k.x.toNat 38 36) % hSlots d * b, hSlots d * b)
  else (bits k.x.toNat 31 0, 0, 0)

/-- Address of vector v (R291). -/
def vecAt (r : Nat × Nat × Nat) (v : Nat) : Nat :=
  if r.2.2 = 0 then r.1 + 256 * v else r.1 + (r.2.1 + 256 * v) % r.2.2

/-- A scratchpad range outside, or fenced (R16, R357). -/
def rangeOut (c : Core) (a n : Nat) : Bool := n ≠ 0 && (0x180000 < a + n || meetsFence c.fences a n)

/-- LOCAL_RANGE of an A stream: of a ring the part its vectors lie in (R291, R297). -/
def streamOut (c : Core) (k : Cmd) : Bool :=
  let r := mmRing c k
  let n := 256 * mmVecs k
  if r.2.2 = 0 then rangeOut c r.1 n
  else if r.2.2 ≤ n then rangeOut c r.1 r.2.2
  else rangeOut c (r.1 + r.2.1) (min n (r.2.2 - r.2.1)) || rangeOut c r.1 (n - (r.2.2 - r.2.1))

/-- BFILL's fields (R294). -/
def bfFmt (k : Cmd) : Nat := bits k.y.toNat 19 17
def bfK0 (k : Cmd) : Nat := bits k.y.toNat 16 0
def bfPitch (k : Cmd) : Nat := bits k.z.toNat 47 32
def bfN (k : Cmd) : Nat := bits k.z.toNat 16 0
def bfCol (k : Cmd) : Nat := bfN k * halfBytes (bfFmt k) / 2

/-- MDRAIN's fields (R295). -/
def mdStride (k : Cmd) : Nat := bits k.y.toNat 47 32
def mdFmt (k : Cmd) : Nat := bits k.y.toNat 2 0
def mdRow (k : Cmd) : Nat := 64 * etWidth (mdFmt k) / 8

/-- SWAP's length (R296). -/
def swLen (k : Cmd) : Nat := bits k.z.toNat 23 0

/-- The checks at acceptance (R297), in the order of its table. DESIGN CHOICE (assumption 148): a K, K0, N, PITCH or STRIDE that is
no multiple of its unit is outside its limits, ENG_DESC; MISALIGN is for addresses and SWAP's lengths. -/
def matCheck (c : Core) (k : Cmd) : Option Nat :=
  let fenced := bit c.fences 3
  if k.op = 0x10 then
    let hnd := k.x.getLsbD 63
    let cap := sliceCap (mmFB k)
    let m := if mmFam k = 3 then 64 else 32
    firstCause
      [(bits k.x.toNat 62 39 ≠ 0 || (hnd && bits k.x.toNat 31 0 ≠ 0) || (!hnd && bits k.x.toNat 38 32 ≠ 0)
          || bits k.y.toNat 63 27 ≠ 0 || bit k.y.toNat 23 || bits k.y.toNat 19 17 ≠ 0 || bits k.z.toNat 63 17 ≠ 0
          || famOf (mmFA k) = 4 || famOf (mmFB k) = 4 || famOf (mmFA k) ≠ famOf (mmFB k) || mmK k < 32 || mmK k % m ≠ 0
          || mmK0 k % m ≠ 0 || cap < mmK0 k + mmK k, cENGDESC),
       (!hnd && k.x.toNat % 32 ≠ 0, cMISALIGN),
       (fenced || streamOut c k, cLOCALRANGE)]
  else if k.op = 0x13 then
    firstCause
      [(bits k.x.toNat 63 32 ≠ 0, cENGDESC), (k.x.toNat % 64 ≠ 0, cMISALIGN),
       (fenced || rangeOut c k.x.toNat 64, cLOCALRANGE)]
  else if k.op = 0x12 then
    firstCause
      [(locBad k.x || bits k.y.toNat 63 20 ≠ 0 || bits k.z.toNat 63 48 ≠ 0 || bits k.z.toNat 31 17 ≠ 0
          || famOf (bfFmt k) = 4 || bfK0 k % 32 ≠ 0 || bfN k < 32 || bfN k % 32 ≠ 0 || sliceCap (bfFmt k) < bfK0 k + bfN k
          || bfPitch k % 32 ≠ 0 || bfPitch k < bfCol k || 65504 < bfPitch k, cENGDESC),
       (fenced || locOut c k.x 0 (63 * bfPitch k + bfCol k), cLOCALRANGE)]
  else if k.op = 0x11 then
    let f := mdFmt k
    firstCause
      [(bits k.x.toNat 63 32 ≠ 0 || bits k.y.toNat 63 48 ≠ 0 || bits k.y.toNat 31 7 ≠ 0 || bits k.z.toNat 63 18 ≠ 0
          || bits k.z.toNat 7 4 ≠ 0 || mdStride k % 32 ≠ 0 || mdStride k < mdRow k || 65504 < mdStride k
          || (bit k.y.toNat 3 && f < 5) || (bit k.y.toNat 5 && !(f = 3 || f = 4 || f = 6 || f = 7)), cENGDESC),
       (k.x.toNat % 32 ≠ 0, cMISALIGN),
       (rangeOut c k.x.toNat (127 * mdStride k + mdRow k), cLOCALRANGE)]
  else
    firstCause
      [(bits k.x.toNat 63 32 ≠ 0 || bits k.y.toNat 63 32 ≠ 0 || bits k.z.toNat 63 29 ≠ 0 || swLen k < 256
          || 0x80000 < swLen k, cENGDESC),
       (k.x.toNat % 256 ≠ 0 || k.y.toNat % 256 ≠ 0 || swLen k % 256 ≠ 0, cMISALIGN),
       (rangeOut c k.x.toNat (swLen k) || rangeOut c k.y.toNat (swLen k), cLOCALRANGE)]

/-- A released command is accepted onto the matrix timeline (R284). -/
def matAccept (k : Cmd) (c : Core) : Core :=
  let m := c.mat
  { c with mat := { m with cmds := m.cmds ++ [⟨m.accN, k, matCheck c k, false, false, 0⟩], accN := m.accN + 1,
                           swapAcc := if k.op = 0x14 then m.swapAcc + 1 else m.swapAcc } }

/-- Matrix commands that a CKPT or HALT of this cycle releases. -/
def matComing (c : Core) : Nat :=
  if c.cyc.ckpt || c.cyc.halt.isSome then
    ((c.withheld ++ c.newWith).filter (fun e => match e.w with
      | .cmd k => k.op < 0x20
      | _ => false)).length
  else 0

/-- A CNEXT hands its MMUL over; the commands behind it wait for the next cycle (R156). The commands that this cycle releases
have their places first: the timeline holds at most 32 (R284). -/
def handOver (c : Core) (q : Nat) : Core :=
  if handReady c q && c.mat.cmds.length + matComing c < 32 then
    match (c.cq q).cmds with
    | k :: l =>
      let c1 := matAccept { k.c with op := 0x10 } c
      let l' := match l with
        | n :: m => { n with delay := 1 } :: m
        | [] => []
      c1.setCq q { c1.cq q with cmds := l' }
    | [] => c
  else c

/-! ### Starts (R285, R287, R445) -/

/-- Unit of a command: 0 array, 1 fill, 2 drain, 3 exchange (R284). -/
def unitOf (op : Nat) : Nat := if op = 0x10 ∨ op = 0x13 then 0 else if op = 0x12 then 1 else if op = 0x11 then 2 else 3

/-- An MMUL still streams its K-steps. -/
def streaming (m : Mat) : Bool := m.runs.any (fun r => r.i < mmN r.c)

/-- Earlier accepted commands. -/
def earlier (m : Mat) (k : MCmd) : List MCmd := m.cmds.filter (fun e => e.no < k.no)

/-- A BFILL stopped by a translation fault holds the commands accepted after it (R38). -/
def faultHolds (m : Mat) (k : MCmd) : Bool :=
  m.fault && (match m.fill with
    | some u => decide (u.no < k.no)
    | none => false)

/-- Every condition of R285 and R287 but the partner's (R296). -/
def mayStart (c : Core) (k : MCmd) : Bool :=
  let m := c.mat
  let es := earlier m k
  let arrayFree := !streaming m && m.mcode.isNone
  !k.started && engFree c && !faultHolds m k && !(m.stopped && m.stopNo < k.no)
  && es.all (fun e => unitOf e.c.op ≠ unitOf k.c.op || e.started)
  && (if k.c.op = 0x10 then
        arrayFree && m.stagger = 0
        && es.all (fun e => e.done || !(e.c.op = 0x12 || (e.c.op = 0x11 && bankBit e.c = bankBit k.c)))
      else if k.c.op = 0x13 then arrayFree && m.stagger = 0
      else if k.c.op = 0x12 then
        es.all (fun e => e.done || e.c.op ≠ 0x12) && es.all (fun e => e.c.op ≠ 0x10 || e.started) && !streaming m
      else if k.c.op = 0x11 then
        es.all (fun e => e.done || !(e.c.op = 0x11 || (e.c.op = 0x10 && bankBit e.c = bankBit k.c)))
      else es.all (fun e => e.done || e.c.op ≠ 0x14))

/-- The charge of an MMUL (R445). -/
def mmCharge (k : Cmd) : Nat := if mmFam k = 0 then 12 else 16

def tokensOk (c : Core) (k : Cmd) : Bool := mmCharge k + 17 + 2 * burstsNow c ≤ c.budget

/-- The command of a number changed. -/
def setMCmd (no : Nat) (f : MCmd → MCmd) (m : Mat) : Mat :=
  { m with cmds := m.cmds.map (fun e => if e.no = no then f e else e) }

def nextOf (c : Core) (op : Nat) : Option MCmd :=
  c.mat.cmds.find? (fun k => k.c.op = op && mayStart c k && k.cause.isNone)

/-- The timeline stops with a failing command at its turn; one accepted before it that fails at its own turn then holds what
comes after that (R297). -/
def matFail (k : MCmd) (cause : Nat) (c : Core) : Core :=
  let m := c.mat
  let no := if k.c.op = 0x10 then 0 else if k.c.op = 0x11 then 1 else if k.c.op = 0x12 then 2 else if k.c.op = 0x13 then 3 else 4
  { c with
    mat := { setMCmd k.no (fun e => { e with cause := some cause }) m with
      stopped := true, stopNo := if m.stopped then min m.stopNo k.no else k.no,
      cause := if m.stopped then m.cause else cause, cmdNo := if m.stopped then m.cmdNo else no },
    cyc := { c.cyc with trig := c.cyc.trig ++ [(0x3A, 15, k.c.bundle, cause)] } }

/-- The failing command whose turn has come (R297); `pa`: the partner's matching SWAP is accepted (R285). -/
def failing (pa : Bool) (c : Core) : Option MCmd :=
  c.mat.cmds.find? (fun k => k.cause.isSome && mayStart c k && (pa || k.c.op ≠ 0x14) && !(c.mat.stopped && c.mat.stopNo = k.no))

/-- MATRIX_TIMELINE_STOP (R297). -/
def matStop (pa : Bool) (c : Core) : Core :=
  match failing pa c with
  | some k => matFail k (k.cause.getD 0) c
  | none => c

/-- An MMUL that would start now fails the check at its start (R297). -/
def failsAtStart (c : Core) (k : MCmd) : Bool := tokensOk c k.c && k.c.x.getLsbD 63 && streamOut c k.c

/-- A command accepted before `k` stops the timeline in this cycle: it fails at its turn, or an MMUL at its start (R297). -/
def stopsAhead (c : Core) (k : MCmd) : Bool :=
  (match failing false c with
    | some f => decide (f.no < k.no)
    | none => false)
  || (match nextOf c 0x10 with
    | some f => f.no < k.no && failsAtStart c f
    | none => false)

/-- MMUL_START (R285, R291, R445). -/
def mmulStart (c : Core) : Core :=
  match nextOf c 0x10 with
  | none => c
  | some k =>
    if !tokensOk c k.c then c
    else if k.c.x.getLsbD 63 && streamOut c k.c then matFail k cLOCALRANGE c
    else
      let r := mmRing c k.c
      let run : MRun := ⟨k.no, k.c, 0, [], r.1, r.2.1, r.2.2, c.mat.cbA, c.mat.cbB, [], [], []⟩
      let m := setMCmd k.no (fun e => { e with started := true }) c.mat
      { c with mat := { m with runs := m.runs ++ [run] } }

/-- MCODE_START (R285, R293). -/
def mcodeStart (c : Core) : Core :=
  match nextOf c 0x13 with
  | none => c
  | some k =>
    let m := setMCmd k.no (fun e => { e with started := true }) c.mat
    { c with mat := { m with mcode := some ⟨k.no, k.c, 0, none, none, [], []⟩ } }

/-- BFILL_START, MDRAIN_START (R285). -/
def bfillStart (c : Core) : Core :=
  match nextOf c 0x12 with
  | none => c
  | some k =>
    let m := setMCmd k.no (fun e => { e with started := true }) c.mat
    { c with mat := { m with fill := some ⟨k.no, k.c, 0, none, none, [], []⟩ } }

def mdrainStart (c : Core) : Core :=
  match nextOf c 0x11 with
  | none => c
  | some k =>
    let m := setMCmd k.no (fun e => { e with started := true }) c.mat
    { c with mat := { m with drain := some ⟨k.no, k.c, 0, some (0, []), none, [], []⟩ } }

/-! ### The array (R207 to R209, R290 to R293) -/

/-- The vector an array cycle reads (R290). -/
def needVec (fam i : Nat) : Option Nat :=
  if fam < 3 then some i
  else
    let b := i / 32
    let j := i % 32
    if j % 2 = 0 then some (18 * b + 2 + j / 2) else if j = 1 then some (18 * b) else if j = 3 then some (18 * b + 1) else none

/-- The group (CB4: block) whose update lands in array cycle i: 12 cycles after its last K-step (R292). -/
def landOf (fam i : Nat) : Option Nat :=
  let per := if fam = 0 then 8 else if fam = 3 then 32 else 4
  if per + 11 ≤ i ∧ (i - 11) % per = 0 then some ((i - 11) / per - 1) else none

/-- A vector already read. -/
def runVec (r : MRun) (v : Nat) : List Byte :=
  match r.vecs.find? (fun e => e.1 = v) with
  | some e => e.2
  | none => []

def byteAt (d : List Byte) (i : Nat) : Nat := (d.getD i 0).toNat

/-- A[i][k] as a pattern: BF16 or FP8 or INT8 bits, or a CB4 code (R290). -/
def aPat (r : MRun) (fam i k : Nat) : Nat :=
  if fam = 0 then leNat (((runVec r k).drop (2 * i)).take 2)
  else if fam = 3 then
    let d := runVec r (18 * (k / 64) + 2 + k % 64 / 4)
    byteAt d (64 * (k % 4) + i / 2) / 16 ^ (i % 2) % 16
  else byteAt (runVec r (k / 2)) (128 * (k % 2) + i)

/-- B[k][j] as a pattern, from slice j (R66, R291). -/
def bPat (bs : Sparse Byte) (fam j k : Nat) : Nat :=
  if fam = 0 then leNat (spGetRun 0 bs (32768 * j + 2 * k) 2)
  else if fam = 3 then (spGet 0 bs (32768 * j + k / 2)).toNat / 16 ^ (k % 2) % 16
  else (spGet 0 bs (32768 * j + k)).toNat

/-- The value of a floating element (R289). -/
def fpOf (f : Nat) (p : Nat) : XR := fpVal (if f = 0 then fmtBf else if f = 1 then fmtE4 else fmtE5) p

def accKey (bank i j : Nat) : Nat := bank * 8192 + i * 64 + j

/-- One product of the array, exact (R207). -/
def cellProd (r : MRun) (bs : Sparse Byte) (i j k : Nat) : XR × Flags :=
  xMul (fpOf (mmFA r.c) (aPat r (mmFam r.c) i k)) (fpOf (mmFB r.c) (bPat bs (mmFam r.c) j (mmK0 r.c + k)))

/-- An entry of the product table, exact (R293). -/
def tabProd (r : MRun) (bs : Sparse Byte) (i j k : Nat) : XR × Flags :=
  xMul (fpVal fmtBf (r.cbA.getD (aPat r 3 i k) 0)) (fpVal fmtBf (r.cbB.getD (bPat bs 3 j (mmK0 r.c + k)) 0))

/-- A cell after the update of group (or block) g (R207 to R209, R292). -/
def cellUpdate (r : MRun) (bs : Sparse Byte) (g i j : Nat) (old : Nat) : Nat × Flags :=
  let fam := mmFam r.c
  let a := if mmClr r.c && g = 0 then 0 else old
  if fam = 2 then
    let prod (k : Nat) : Int :=
      intVal 8 (mmFA r.c = 3) (aPat r 2 i k) * intVal 8 (mmFB r.c = 3) (bPat bs 2 j (mmK0 r.c + k))
    (wrapN 32 (((List.range 8).map (fun t => prod (8 * g + t))).foldl (· + ·) (a : Int)), fNone)
  else if fam = 3 then
    let part := (List.range 8).foldl (fun (p : Nat × Flags) t =>
      let u := accGroup p.1 ((List.range 8).map (fun k => tabProd r bs i j (64 * g + 8 * t + k)))
      (u.1, p.2 ||| u.2)) (0, fNone)
    let sa := fpVal fmtBf (leNat (((runVec r (18 * g)).drop (2 * i)).take 2))
    let sb := fpVal fmtBf (leNat (((runVec r (18 * g + 1)).drop (2 * j)).take 2))
    let sp := xMul sa sb
    let s1 := rne32 sp.1
    let q := fpMul fmt32 part.1 s1.1
    let z := fpAdd fmt32 a q.1
    (z.1, part.2 ||| sp.2 ||| s1.2 ||| q.2 ||| z.2)
  else accGroup a ((List.range 8).map (fun t => cellProd r bs i j (8 * g + t)))

/-- The update of group g lands in every cell of the bank, with the elements of B that its K-steps read (R67). -/
def landGroup (r : MRun) (g : Nat) (c : Core) : Core :=
  let b := bankBit r.c
  let u := (List.range 128).foldl (fun (p : Sparse Lane × Flags) i =>
    (List.range 64).foldl (fun (q : Sparse Lane × Flags) j =>
      let v := cellUpdate r r.bs g i j (spGet 0 c.mat.acc (accKey b i j)).toNat
      (spSet 0 q.1 (accKey b i j) (BitVec.ofNat 32 v.1), q.2 ||| v.2)) p) (c.mat.acc, c.mat.fpNew)
  { c with mat := { c.mat with acc := u.1, fpNew := u.2 } }

/-- A read of rank 3: the bytes once every bank has served it (R61), else what there is so far; the core. -/
def turnRead (got : List (Nat × List Byte)) (rb : List Nat) (a n : Nat) (c : Core) :
    Option (List Byte) × List (Nat × List Byte) × List Nat × Core :=
  let ps := partsOf a n
  let r := bankTurn rb (ps.map (fun p => bankOf p.addr)) c
  let now := ps.filter (fun p => r.1.contains (bankOf p.addr) && !rb.contains (bankOf p.addr))
  let got1 := got ++ now.map (fun p => (p.addr, memBytes c.sp p.addr p.len))
  (if ps.all (fun p => r.1.contains (bankOf p.addr)) then some (gotBytes got1 a n) else none, got1, r.1, r.2)

/-- A run of the array replaced. -/
def setRun (r : MRun) (c : Core) : Core :=
  { c with mat := { c.mat with runs := c.mat.runs.map (fun x => if x.no = r.no then r else x) } }

/-- The streaming MMUL's read of this cycle at rank 3 (R290): whether the array may go on, and the core with what was read.
A refused read is counted. -/
def arrayRead (c : Core) : Bool × Core :=
  match c.mat.runs.find? (fun r => r.i < mmN r.c) with
  | none => (true, c)
  | some r => match needVec (mmFam r.c) r.i with
    | none => (true, { c with evs := c.evs ++ [(0x0B, 15)] })
    | some v =>
      let a := vecAt (r.base, r.off, r.size) v
      match turnRead r.rgot r.rb a 256 c with
      | (some d, _, _, c1) =>
        (true, setRun { r with vecs := r.vecs ++ [(v, d)], rgot := [], rb := [] } { c1 with evs := c1.evs ++ [(0x0B, 15)] })
      | (none, got, rb, c1) =>
        (false, setRun { r with rgot := got, rb := rb }
          { c1 with mat := { c1.mat with aretry := sat16 (c1.mat.aretry + 1) }, evs := c1.evs ++ [(0x0C, 15)] })

/-- One array cycle of an MMUL: a K-step reads the slices (R67), the update due lands (R290, R292). -/
def runStep (no : Nat) (c : Core) : Core :=
  match c.mat.runs.find? (fun r => r.no = no) with
  | none => c
  | some r0 =>
    let r := if r0.i < mmN r0.c then { r0 with bs := c.bstore } else r0
    let c1 := match landOf (mmFam r.c) r.i with
      | some g => landGroup r g c
      | none => c
    setRun { r with i := r.i + 1 } c1

/-- One cycle of the array: a refused read stalls all of it, landings of an earlier MMUL among them (R290). -/
def arrayStep (c : Core) : Core :=
  let r := arrayRead c
  if r.1 then (c.mat.runs.map (·.no)).foldl (fun k no => runStep no k) r.2 else r.2

/-- An MMUL whose final update has landed (R292). -/
def runDone (r : MRun) : Bool := mmN r.c + 12 ≤ r.i

/-- The codebooks an MCODE read (R293). -/
def bookOf (d : List Byte) (o : Nat) : List Nat := (List.range 16).map (fun i => leNat ((d.drop (o + 2 * i)).take 2))

/-- One cycle of an MCODE: its 64 bytes are read in the first, at rank 3; a refused read adds a cycle (R62, R293). -/
def mcodeStep (c : Core) : Core :=
  match c.mat.mcode with
  | some u =>
    let put (v : MUnit) (k : Core) : Core := { k with mat := { k.mat with mcode := some v } }
    if u.data.isSome then put { u with step := u.step + 1 } c
    else
      match turnRead [] [] u.c.x.toNat 64 c with
      | (some d, _, _, c1) => put { u with step := 1, data := some (0, d) } c1
      | (none, _, _, c1) => c1
  | none => c

/-! ### The drain path (R210, R295) -/

/-- The bin of a value (R210). -/
def binOf (iacc : Bool) (p : Nat) : Nat :=
  if iacc then
    let v := (intVal 32 true p).natAbs
    if v = 0 then 0 else if 2 ^ 15 ≤ v then 31 else Nat.log2 v + 16
  else match v32 p with
    | .fin q _ =>
      let a := if q < 0 then -q else q
      if a < pow2 (-15) then 0 else if pow2 15 ≤ a then 31 else (ilog2 a + 16).toNat
    | _ => 31

/-- Row i of a bank as it leaves: bytes, flags, bins (R201, R202, R295). -/
def drainRow (c : Core) (k : Cmd) (i : Nat) : List Byte × Flags × List Nat :=
  let iacc := bit k.y.toNat 6
  let src : CT := if iacc then .int 32 true else .fp fmt32
  let dst := etCT (mdFmt k) (bit k.y.toNat 3)
  let mode : RMode := if bit k.y.toNat 4 then .zero else .near
  let vs := (List.range 64).map (fun j => (spGet 0 c.mat.acc (accKey (bankBit k) i j)).toNat)
  let rs := vs.map (convert src dst mode (bit k.y.toNat 5))
  (rs.flatMap (fun r => leBytes (etWidth (mdFmt k) / 8) r.1), orFlags rs,
   if bit k.z.toNat 8 then vs.map (binOf iacc) else [])

/-- One cycle of an MDRAIN: cycles 0 to 7 pass; row i is written from cycle 8 + i on, at rank 3, and lands once every bank has
taken its part (R61, R295). Its `step` counts cycles, then `data` holds the next row. -/
def drainStep (c : Core) : Core :=
  match c.mat.drain with
  | none => c
  | some u =>
    let put (u' : MUnit) (k : Core) : Core := { k with mat := { k.mat with drain := some u' } }
    if u.step < 8 then put { u with step := u.step + 1 } c
    else
      let i := match u.data with
        | some d => d.1
        | none => 0
      if 128 ≤ i then c
      else
        let a := u.c.x.toNat + i * mdStride u.c
        let ps := partsOf a (mdRow u.c)
        let t := bankTurn u.rb (ps.map (fun p => bankOf p.addr)) c
        let r := drainRow c u.c i
        let now := ps.filter (fun p => t.1.contains (bankOf p.addr) && !u.rb.contains (bankOf p.addr))
        let c1 := now.foldl (fun k p => portPut p.addr ((r.1.drop (p.addr - a)).take p.len) k) t.2
        if ps.all (fun p => t.1.contains (bankOf p.addr)) then
          let h := r.2.2.map (fun b => 32 * bits u.c.z.toNat 3 0 + b)
          put { u with data := some (i + 1, []), rb := [] }
            { c1 with mat := { c1.mat with fpNew := c1.mat.fpNew ||| r.2.1, histNew := c1.mat.histNew ++ h } }
        else put { u with rb := t.1 } c1

def drainDone (u : MUnit) : Bool :=
  match u.data with
  | some d => 128 ≤ d.1
  | none => false

/-! ### The fill path (R294) -/

/-- Bytes of the image. -/
def fillTotal (k : Cmd) : Nat := 64 * bfCol k

/-- Bytes of the chunk (at most `m`) at image byte `pos`, and where it starts from the source (R294). -/
def fillLen (k : Cmd) (m pos : Nat) : Nat :=
  if bfPitch k = bfCol k then min m (fillTotal k - pos) else min m (bfCol k - pos % bfCol k)

def fillOff (k : Cmd) (pos : Nat) : Nat := pos / bfCol k * bfPitch k + pos % bfCol k

/-- Image bytes from `pos` written to their slices (R66, R294). -/
def fillPut (k : Cmd) (pos : Nat) (d : List Byte) (c : Core) : Core :=
  let o := bfK0 k * halfBytes (bfFmt k) / 2
  let b := (List.zip (List.range d.length) d).foldl (fun m e =>
    let p := pos + e.1
    spSet 0 m (p / bfCol k * 32768 + o + p % bfCol k) e.2) c.bstore
  let gr := (List.range d.length).map (fun j => (pos + j) / bfCol k * 8 + (o + (pos + j) % bfCol k) / 4096)
  { c with bstore := b, bsDirty := gr.foldl (fun l g => if l.contains g then l else l ++ [g]) c.bsDirty }

/-- One cycle of a BFILL from the scratchpad: the chunk read before is written, the next one read (R294). -/
def fillStep (c : Core) : Core :=
  match c.mat.fill with
  | none => c
  | some u =>
    let c1 := match u.data with
      | some d => fillPut u.c d.1 d.2 c
      | none => c
    let put (u' : MUnit) (k : Core) : Core := { k with mat := { k.mat with fill := some u' } }
    match locOf u.c.x with
    | none => put { u with data := none } c1
    | some a =>
      if fillTotal u.c ≤ u.step then put { u with data := none } c1
      else
        let n := fillLen u.c 256 u.step
        let p := a + fillOff u.c u.step
        match turnRead u.rgot u.rb p n c1 with
        | (none, got, rb, c2) => put { u with data := none, rgot := got, rb := rb } c2
        | (some d, _, _, c2) => put { u with step := u.step + n, data := some (u.step, d), rgot := [], rb := [] } c2

def fillDone (u : MUnit) : Bool := fillTotal u.c ≤ u.step && u.data.isNone && u.req.isNone

/-! ### The exchange path (R296) -/

/-- SWAP_EXCHANGE_START, the core's own part: its SWAP has started, unless the timeline stops ahead of it in this cycle. -/
def swapBegin (c : Core) : Core :=
  match nextOf c 0x14 with
  | none => c
  | some k =>
    if stopsAhead c k then c else
    let m := setMCmd k.no (fun e => { e with started := true }) c.mat
    { c with mat := { m with swap := some ⟨k.no, k.c, 0, none, none, [], []⟩, swapIn := [], swapGot := 0, swapLive := false } }

/-- The exchange has begun: the own range is sent from now on. -/
def swapGo (c : Core) : Core := { c with mat := { c.mat with swapLive := true, swapTx := c.mat.swap } }

/-- One received piece written at rank 3; a piece lies in one bank (R61, R296). -/
def swapWrite (c : Core) : Core :=
  match c.mat.swap, c.mat.swapIn with
  | some u, e :: l =>
    let a := u.c.y.toNat + e.1
    if c.cyc.turns.contains (bankOf a) then c
    else portPut a e.2 { (bankTurn [] [bankOf a] c).2 with
      mat := { c.mat with swapIn := l, swapGot := c.mat.swapGot + e.2.length } }
  | _, _ => c

/-- The next 256 bytes of the own range, read at rank 3. -/
def swapRead (c : Core) : Option (Nat × List Byte) × Core :=
  match c.mat.swapTx with
  | none => (none, c)
  | some u =>
    let a := u.c.x.toNat + u.step
    if swLen u.c ≤ u.step || c.cyc.turns.contains (bankOf a) then (none, c)
    else
      let n := u.step + 256
      (some (u.step, memBytes c.sp a 256), { (bankTurn [] [bankOf a] c).2 with
        mat := { c.mat with swapTx := if swLen u.c ≤ n then none else some { u with step := n } } })

/-- Every received byte has landed (R296). -/
def swapDoneB (c : Core) : Bool :=
  match c.mat.swap with
  | some u => c.mat.swapLive && swLen u.c ≤ c.mat.swapGot
  | none => false

/-! ### Completion and the timeline (R286) -/

/-- The command of a number is done. -/
def matDone (no : Nat) (c : Core) : Core :=
  { c with mat := setMCmd no (fun e => { e with done := true }) c.mat }

def mmulComplete (c : Core) : Core :=
  match c.mat.runs with
  | r :: l => if runDone r then matDone r.no { c with mat := { c.mat with runs := l } } else c
  | [] => c

def mcodeComplete (c : Core) : Core :=
  match c.mat.mcode with
  | some u =>
    if 16 ≤ u.step then
      let d := match u.data with
        | some e => e.2
        | none => []
      matDone u.no { c with mat := { c.mat with mcode := none, cbA := bookOf d 0, cbB := bookOf d 32, code := true } }
    else c
  | none => c

def bfillComplete (c : Core) : Core :=
  match c.mat.fill with
  | some u => if fillDone u then matDone u.no { c with mat := { c.mat with fill := none } } else c
  | none => c

/-- The barrier that a finished MDRAIN arrives at, when BV is set (R295, R377). -/
def drainBar (c : Core) : Option Nat :=
  match c.mat.drain with
  | some u => if drainDone u && bit u.c.z.toNat 17 then some (bits u.c.z.toNat 16 9) else none
  | none => none

def mdrainComplete (c : Core) : Core :=
  match c.mat.drain with
  | some u => if drainDone u then matDone u.no { c with mat := { c.mat with drain := none } } else c
  | none => c

/-- SWAP_COMPLETE: the own flag counts (R296). -/
def swapComplete (c : Core) : Core :=
  match c.mat.swap with
  | some u =>
    if swapDoneB c then
      let c1 := matDone u.no { c with mat := { c.mat with swap := none, swapLive := false, swapDone := c.mat.swapDone + 1 } }
      { c1 with hpend := c1.hpend ++ [⟨1, .gate, 0, 0, 0, 0, [.flagAdd (bits u.c.z.toNat 28 24) 1]⟩] }
    else c
  | none => c

/-- One cycle of the array, the drain's writes and the fill's reads, in the rank order of R62; the exchange path after them. -/
def matRun (c : Core) : Core :=
  let ch := if streaming c.mat then
      natSum ((c.mat.runs.filter (fun r => r.i < mmN r.c)).map (fun r => mmCharge r.c)) else 0
  let c1 := { c with cyc := { c.cyc with tokens := c.cyc.tokens + ch } }
  swapWrite (fillStep (drainStep (mcodeStep (arrayStep c1))))

/-- Leading commands of the timeline that are done. -/
def doneLead : List MCmd → Nat
  | [] => 0
  | k :: l => if k.done then doneLead l + 1 else 0

/-- Bins counted, each saturating (R210, R295). -/
def countBins (l : List Nat) (h : Sparse Lane) : Sparse Lane :=
  l.foldl (fun m b => spSet 0 m b (BitVec.ofNat 32 (min ((spGet 0 m b).toNat + 1) 0xFFFFFFFF))) h

/-- The end of a cycle: commands counted one cycle after they are done (R286), the stagger of R287; flags set and rows counted
in it come after its clears (R200, R298). -/
def matEnd (c : Core) : Core :=
  let m := c.mat
  let cmds := m.cmds.drop m.advance
  { c with mat := { m with tl := m.tl + m.advance, cmds := cmds, advance := doneLead cmds, stagger := m.stagger - 1,
                           fpm := m.fpm ||| m.fpNew, fpNew := 0, hist := countBins m.histNew m.hist, histNew := [] } }

/-- The start and stop events of a cycle (R285, R297), but for SWAP's, those that can stop the timeline first: each start looks
again, and none is made behind a stop; `pa` as in `failing`. -/
def matEvents (pa : Bool) (c : Core) : List Instr :=
  (match failing pa c with
    | some _ => [Instr.matrixTimelineStop]
    | none => [])
  ++ (match nextOf c 0x10 with
    | some k => if tokensOk c k.c then [Instr.mmulStart] else []
    | none => [])
  ++ (if (nextOf c 0x12).isSome then [Instr.bfillStart] else [])
  ++ (if (nextOf c 0x11).isSome then [Instr.mdrainStart] else [])
  ++ (if (nextOf c 0x13).isSome then [Instr.mcodeStart] else [])

/-- The core has a SWAP that may start, or whose exchange has not begun: its start is tried before any core's turn, for both
cores read from the cycle in which both have started (R296). -/
def swapTries (c : Core) : Bool :=
  !c.frozen && ((nextOf c 0x14).isSome || (c.mat.swap.isSome && !c.mat.swapLive))

/-- An MMUL waits for tokens (R445). -/
def tokWaits (c : Core) : Bool :=
  match nextOf c 0x10 with
  | some k => !tokensOk c k.c
  | none => false

/-- The completion events of a cycle. -/
def matDoneEvents (c : Core) : List Instr :=
  (if c.mat.runs.any runDone then [Instr.mmulComplete] else [])
  ++ (match c.mat.mcode with
    | some u => if 16 ≤ u.step then [Instr.mcodeComplete] else []
    | none => [])
  ++ (match c.mat.fill with
    | some u => if fillDone u then [Instr.bfillComplete] else []
    | none => [])
  ++ (match c.mat.drain with
    | some u => if drainDone u then [Instr.mdrainComplete] else []
    | none => [])
  ++ (if swapDoneB c then [Instr.swapComplete] else [])

/-! ### What needs the rest of the part -/

/-- The partner core's SWAP matching this one was accepted before this cycle (R285). -/
def State.partnerAccepted (s : State) (c : Core) : Bool :=
  match s.core (s.nowCore c.launch c.mat.partner) with
  | some p => c.mat.swapDone < p.mat.swapSeen
  | none => false

/-- SWAP_EXCHANGE_START (R285, R296): the own SWAP starts once the partner's is accepted; when both have started,
each side having completed as many before, the exchange begins, or both stop on differing lengths. -/
def State.swapStart (s : State) (num : Nat) : State :=
  match s.core num with
  | none => s
  | some c0 =>
    let c := if c0.mat.swap.isNone && s.partnerAccepted c0 then swapBegin c0 else c0
    let s1 := s.setCore num c
    let pn := s.nowCore c.launch c.mat.partner
    match c.mat.swap with
    | none => s1
    | some u =>
      if c.mat.swapLive then s1
      else if pn = num then s1.setCore num (swapGo c)
      else match s1.core pn with
        | none => s1
        | some p => match p.mat.swap with
          | none => s1
          | some v =>
            if p.mat.swapDone ≠ c.mat.swapDone then s1
            else if swLen u.c = swLen v.c then
              (s1.setCore num (swapGo c)).setCore pn (swapGo p)
            else
              let bad (k : Core) (w : MUnit) : Core :=
                let k1 := matFail ⟨w.no, w.c, none, false, false, 0⟩ cENGDESC k
                { k1 with mat := { setMCmd w.no (fun e => { e with started := false }) k1.mat with swap := none } }
              ((s1.setCore num (bad c u)).setCore pn (bad p v)).soon num [.matrixTimelineStop]

/-- The exchange path's read of a cycle goes to the partner (R296). -/
def State.swapSend (s : State) (num : Nat) : State :=
  match s.core num with
  | none => s
  | some c => match swapRead c with
    | (none, c1) => s.setCore num c1
    | (some e, c1) =>
      let pn := s.nowCore c.launch c.mat.partner
      if pn = num then
        s.setCore num { c1 with mat := { c1.mat with swapIn := c1.mat.swapIn ++ [e] } }
      else
        let t := (s.setCore num c1).postTime num pn
        t.2.send t.1 num c.lctx (.swapData pn e.1 e.2)

/-- A BFILL from global memory: the next burst is translated and asked for; a fault stops it before the burst (R38, R294). -/
def State.fillGlobal (s : State) (num : Nat) : State :=
  match s.core num with
  | none => s
  | some c => match c.mat.fill with
    | none => s
    | some u =>
      if (locOf u.c.x).isSome || u.req.isSome || u.data.isSome || fillTotal u.c ≤ u.step || c.mat.fault || !engFree c then s
      else
        let n := fillLen u.c 512 u.step
        let va := u.c.x.toNat + fillOff u.c u.step
        match s.xlateRanges num .fill c.lctx .read [(va, n)] with
        | (.error e, t) =>
          (t.faultRecord num .fill c.lctx e.1 va e.2.2 false false e.2.1 u.step 0).modCore num (fun d =>
            { d with mat := { d.mat with fault := true } })
        | (.ok x, t) =>
          (t.modCore num (fun d => { d with mat := { d.mat with fill := some { u with req := some n } } })).engRead num .fill
            c.lctx x.1 x.2 0

/-- MDRAIN_COMPLETE; with BV the arrival leaves in the cycle after (R295, R377). -/
def State.drainOver (s : State) (num : Nat) : State :=
  match s.core num with
  | none => s
  | some c =>
    let s1 := s.setCore num (mdrainComplete c)
    match drainBar c with
    | none => s1
    | some b =>
      let t := s1.barTime num
      t.2.send (t.1 + 1) num c.lctx (.arrival b 1)

/-- A BFILL burst's data is back (R294). -/
def State.fillReturn (s : State) (num : Nat) : State :=
  match s.core num with
  | none => s
  | some c =>
    let mine := s.reqs.filter (fun r => r.core = num && r.agent = .fill)
    let rest : State := { s with reqs := s.reqs.filter (fun r => !(r.core = num && r.agent = .fill)) }
    match c.mat.fill with
    | none => rest
    | some u =>
      if mine.all (fun r => r.got.isSome && r.ret = 0) then
        let d := mine.flatMap (fun r => r.got.getD [])
        rest.setCore num { c with mat := { c.mat with
          fill := some { u with req := none, step := u.step + d.length, data := some (u.step, d) } } }
      else s

end Sys2Proof.Machine
end

