-- ==== Sys2Proof/Machine/Vector.lean ====
section
/-! DEFINITION. Issue of a V-class, distribution or tap operation (10 R259 to R265, 13 R328, 14 R345 to R348). -/

namespace Sys2Proof.Machine

/-- The tap word register of an operation (R345). -/
def tapReg : Instr → Option Nat
  | .tap _ _ _ r => some r.toNat
  | .tapfin _ _ _ r => some r.toNat
  | .vsteer _ _ _ _ r => some r.toNat
  | _ => none

/-- The distribution registers an operation reads at issue, d first (R328). -/
def qSrcs (c : Core) (i : Instr) : List QReg :=
  let q (k : BitVec 4) : QReg := spGet qReg0 c.p.q k.toNat
  match i with
  | .qset _ _ d _ _ => [q d]
  | .qadd _ _ d x y => [q d, q x, q y]
  | .qmul _ _ d x y => [q d, q x, q y]
  | .qscale _ _ d x _ => [q d, q x]
  | .qshift _ _ d x _ => [q d, q x]
  | .qmix _ _ d x _ => [q d, q x]
  | .qcond _ _ d x _ => [q d, q x]
  | .qmom _ _ _ x _ => [q x, q x]
  | .qquant _ _ _ x _ => [q x, q x]
  | .qsamp _ _ _ x _ => [q x, q x]
  | _ => []

/-- A source field at issue: a grid operand's vector, or the access it makes. -/
def srcAcc (fo : Focus) (c : Core) (k : Nat) (f : Option (BitVec 9)) : List Acc :=
  match f with
  | none => []
  | some f => match fAddr fo c f false with
    | some a => [mkAcc k a 256]
    | none => []

def srcVec (c : Core) (f : Option (BitVec 9)) : Vec :=
  match f with
  | some f => if f.toNat < 256 then rdGrid c f.toNat else []
  | none => []

/-- Does the operation have a vector destination, and which field? -/
def vDst (i : Instr) : Option (BitVec 9) :=
  match (vFields i).2 with
  | d :: _ => some d
  | [] => none

/-- Addresses a V-class operation accesses or will store to, in field order; a d that is read too is read as a source is, of a
handle in the slot at CONS (R57, R110, R265). -/
def vAddrs (fo : Focus) (c : Core) (i : Instr) : List (Nat × Nat × Nat) :=
  let f := vXYD i
  let one (k : Option (BitVec 9)) (wr : Bool) : List (Nat × Nat × Nat) := match k with
    | none => []
    | some b => match fAddr fo c b wr with
      | some a => [(a, 256, 4)]
      | none => []
  one f.1 false ++ one f.2.1 false ++ one f.2.2 false ++ one (vDst i) true

/-- Post-increments of an operation's fields, each pointer once (R265). -/
def vBumps (fo : Focus) (c : Core) (i : Instr) : List Eff :=
  let f := vXYD i
  let one (k : Option (BitVec 9)) : List Eff := match k with
    | none => []
    | some b => fBump fo c b
  one f.1 ++ one f.2.1 ++ one (vDst i)

/-- Store entries an operation needs in the withhold buffer (R384). -/
def vNeed (c : Core) (i : Instr) (d : VDst) (w : Word) : Nat :=
  (match d with
    | .mem _ => 1
    | .grid _ => 0)
  + (match i with
    | .tapfin _ _ _ _ => 2 * c.nprobe (twTp w)
    | _ => 0)

/-- Occupancies that begin with the operation (R260, R328). -/
def vOccupy (i : Instr) (c : Core) : Core :=
  let v1 := v1BusyOf i
  let c1 := if 1 < v1 then { c with p := { c.p with v1Busy := v1 } } else c
  match transBf i with
  | some true => { c1 with p := { c1.p with vtBusy := 2 } }
  | some false => { c1 with p := { c1.p with vtBusy := 1 } }
  | none => c1

/-- The unit the operation needs is occupied (R261, R328). -/
def vBusy (fo : Focus) (c : Core) (i : Instr) : Bool :=
  (fo.slot = 4 && decide (0 < c.p.v1Busy)) || ((transBf i).isSome && decide (0 < c.p.vtBusy))

/-- The flight of an operation of the V class. -/
def vFlight (i : Instr) (fo : Focus) (c : Core) (w : Word) (dst : VDst) : Flight :=
  let f := vXYD i
  let b := if (gridReads i).isEmpty then 0 else fo.beats - 1
  { mkFlight i fo c (srcAcc fo c 0 f.1 ++ srcAcc fo c 1 f.2.1 ++ srcAcc fo c 2 f.2.2) (latV i + b) with
    vx := srcVec c f.1, vy := srcVec c f.2.1, vd := srcVec c f.2.2, vals := [w], pred := rdP c (vPred i), dst := dst,
    qs := qSrcs c i }

/-- A V-class, distribution or tap operation issued (R259 to R265): unit busy, tap word, withhold buffer and addresses
checked, sources read, accesses made, post-increments retired. The order of the checks is a DESIGN CHOICE (assumption 132). -/
def opV (i : Instr) (fo : Focus) (c : Core) : Core :=
  let w := match tapReg i with
    | some r => rdS fo c r
    | none => 0
  let dst := match vDst i with
    | some d => fDst fo c d
    | none => .grid 0
  if vBusy fo c i then takeTrap fo cUNITBUSY 0 c
  else match (if (tapReg i).isSome then tapCheck c w else none) with
    | some e => takeTrap fo e 0 c
    | none => match firstTrap fo c (vAddrs fo c i) with
      | some t => takeTrap fo t.1 (BitVec.ofNat 64 t.2) c
      | none =>
        if 256 < c.storeUse + vNeed c i dst w then takeTrap fo cWITHHOLD 0 c
        else
          let bs := vBumps fo c i
          let c1 := if bs = [] then c else retire fo 1 0 bs c
          vOccupy i (launch (vFlight i fo c w dst) c1)

end Sys2Proof.Machine
end

