-- ==== Sys2Proof/Machine/Barrel.lean ====
section
/-! DEFINITION. Bundles as they are fetched, repetition and its rotation, the checks on a whole bundle (03 R90, R98, 09
R254, R255, 02 R51), helpers' next operations, their readiness and the barrel (08 R214 to R220). -/

namespace Sys2Proof.Machine

/-! ### Fetch (R71, R78, R254) -/

/-- The bundle of a core's or gateway's code store; the index has 14 (gateway: 11) bits (R71, R414). -/
def State.bundleAt (s : State) (num idx : Nat) : Nat :=
  if num < 512 then (spGet 0 (spGet cluster0 s.clusters (clusterNo num)).code (idx % 16384)).toNat
  else (spGet 0 s.gcode (2048 * (num - 512) + idx % 2048)).toNat

/-- A slot that a repetition reissues from its body: V0, V1, K and E (R254). -/
def bodySlot (slot : Nat) : Bool := 3 ≤ slot && slot ≤ 6

/-- The bundle a slot of the next issue comes from (R254). -/
def slotBundle (p : Prim) (slot : Nat) : Nat :=
  match p.rep with
  | none => p.pc
  | some r => if r.j = 0 || bodySlot slot then r.body + r.b else r.o

/-- The rotation of the next issue: j × rot (R254). -/
def rotOf (p : Prim) : Nat :=
  match p.rep with
  | some r => r.j * r.rot
  | none => 0

/-- A grid index with k added modulo 64; stream and handle fields stay (R254). -/
def rotF (k : Nat) (f : BitVec 9) : BitVec 9 :=
  if f.toNat < 256 then BitVec.ofNat 9 (f.toNat / 64 * 64 + (f.toNat + k) % 64) else f

def rotG (k : Nat) (g : BitVec 8) : BitVec 8 := BitVec.ofNat 8 (g.toNat / 64 * 64 + (g.toNat + k) % 64)

/-- A reissued operation with its grid indices rotated (R254). -/
def rotInstr (k : Nat) (i : Instr) : Instr :=
  match i with
  | .vadd t p d x y => .vadd t p (rotF k d) (rotF k x) (rotF k y)
  | .vsub t p d x y => .vsub t p (rotF k d) (rotF k x) (rotF k y)
  | .vmul t p d x y => .vmul t p (rotF k d) (rotF k x) (rotF k y)
  | .vfma t p d x y => .vfma t p (rotF k d) (rotF k x) (rotF k y)
  | .vfms t p d x y => .vfms t p (rotF k d) (rotF k x) (rotF k y)
  | .vmin t p d x y => .vmin t p (rotF k d) (rotF k x) (rotF k y)
  | .vmax t p d x y => .vmax t p (rotF k d) (rotF k x) (rotF k y)
  | .vabs t p d x => .vabs t p (rotF k d) (rotF k x)
  | .vneg t p d x => .vneg t p (rotF k d) (rotF k x)
  | .vcmp t p q c n x y => .vcmp t p q c n (rotF k x) (rotF k y)
  | .vsel t p d x y => .vsel t p (rotF k d) (rotF k x) (rotF k y)
  | .vcvt t p d x f n z s => .vcvt t p (rotF k d) (rotF k x) f n z s
  | .vand t p d x y => .vand t p (rotF k d) (rotF k x) (rotF k y)
  | .vor t p d x y => .vor t p (rotF k d) (rotF k x) (rotF k y)
  | .vxor t p d x y => .vxor t p (rotF k d) (rotF k x) (rotF k y)
  | .vshl t p d x y => .vshl t p (rotF k d) (rotF k x) (rotF k y)
  | .vshr t p d x y => .vshr t p (rotF k d) (rotF k x) (rotF k y)
  | .vsar t p d x y => .vsar t p (rotF k d) (rotF k x) (rotF k y)
  | .vrcp t p d x => .vrcp t p (rotF k d) (rotF k x)
  | .vrsq t p d x => .vrsq t p (rotF k d) (rotF k x)
  | .vexp2 t p d x => .vexp2 t p (rotF k d) (rotF k x)
  | .vlog2 t p d x => .vlog2 t p (rotF k d) (rotF k x)
  | .vtanh t p d x => .vtanh t p (rotF k d) (rotF k x)
  | .vred t p d x o n => .vred t p (rotF k d) (rotF k x) o n
  | .vscan t p d x o n => .vscan t p (rotF k d) (rotF k x) o n
  | .vperm t p d x y => .vperm t p (rotF k d) (rotF k x) (rotF k y)
  | .vbc t p d x l => .vbc t p (rotF k d) (rotF k x) l
  | .viota t p d => .viota t p (rotF k d)
  | .vmov t p d x => .vmov t p (rotF k d) (rotF k x)
  | .vrand t p d x y => .vrand t p (rotF k d) (rotF k x) (rotF k y)
  | .vclamp t p d x y => .vclamp t p (rotF k d) (rotF k x) (rotF k y)
  | .vpack t p d x f n z s => .vpack t p (rotF k d) (rotF k x) f n z s
  | .vunpk t p d x f n z s => .vunpk t p (rotF k d) (rotF k x) f n z s
  | .baddq t p d x y => .baddq t p (rotF k d) (rotF k x) (rotF k y)
  | .tap t p x r => .tap t p (rotF k x) r
  | .tapfin t p d r => .tapfin t p (rotF k d) r
  | .vsteer t p d x r => .vsteer t p (rotF k d) (rotF k x) r
  | .qset t p d x y => .qset t p d (rotF k x) (rotF k y)
  | .qscale t p d x y => .qscale t p d x (rotF k y)
  | .qshift t p d x y => .qshift t p d x (rotF k y)
  | .qmix t p d x y => .qmix t p d x (rotF k y)
  | .qmom t p d x s => .qmom t p (rotF k d) x s
  | .qquant t p d x y => .qquant t p (rotF k d) x (rotF k y)
  | .qsamp t p d x y => .qsamp t p (rotF k d) x (rotF k y)
  | .kmerge c g a m => .kmerge c (rotG k g) a m
  | .kmergel c g a m => .kmergel c (rotG k g) a m
  | .ksort c g s => .ksort c (if s = 1 then g else rotG k g) s
  | .ktop c g i => .ktop c (rotG k g) i
  | .ksamp c g a p => .ksamp c (rotG k g) a p
  | i => i

/-- What stands in a slot of the primary's next bundle. -/
def State.slotOp (s : State) (num : Nat) (p : Prim) (slot : Nat) : Except Reject Instr :=
  (decodeSlot (slotCls slot) (slotWord (s.bundleAt num (slotBundle p slot)) slot)).map
    (fun i => if bodySlot slot then rotInstr (rotOf p) i else i)

/-- The eight slots of the primary's next bundle. -/
def State.nextSlots (s : State) (num : Nat) (p : Prim) : List (Except Reject Instr) :=
  (List.range 8).map (s.slotOp num p)

/-- NIL where a slot does not decode. -/
def okOr (e : Except Reject Instr) : Instr :=
  match e with
  | .ok i => i
  | .error _ => .nilI

/-- The focus of slot `k` of the primary's (or a gateway's) next bundle. -/
def primFocus (num : Nat) (c : Core) (slot beats jobt grat : Nat) : Focus :=
  { core := num, ctx := if num < 512 then .prim else .gate, slot := slot, bundle := slotBundle c.p slot, beats := beats,
    jobt := jobt, grat := grat }

/-! ### Checks on a whole bundle (R51, R98) -/

/-- The ordinary stream of a repetition holds something in V0, V1, K or E (R98 case 7). -/
def State.ordinaryBad (s : State) (num : Nat) (p : Prim) (slot : Nat) : Bool :=
  match p.rep with
  | some r => r.j ≠ 0 && bodySlot slot && slotWord (s.bundleAt num r.o) slot ≠ 0
  | none => false

/-- Registers written: class 0 s, 1 a, 2 lc, 3 p. -/
abbrev RegName := Nat × Nat

/-- Pointer registers an operation post-increments or advances (R85, R306). -/
def ptrWrites : Instr → List Nat
  | .adda d _ _ => [d.toNat]
  | .mva d _ => [d.toNat]
  | .vld _ a k _ => if k = 0 then [] else [a.toNat]
  | .vst _ a k _ => if k = 0 then [] else [a.toNat]
  | .qld _ a k => if k = 0 then [] else [a.toNat]
  | .qst _ a k => if k = 0 then [] else [a.toNat]
  | .kld _ a k => if k = 0 then [] else [a.toNat]
  | .kst _ a k => if k = 0 then [] else [a.toNat]
  | .kmerge _ _ a _ => [a.toNat]
  | .kmergel _ _ a _ => [a.toNat]
  | i =>
    let f := vXYD i
    let one (k : Option (BitVec 9)) : List Nat := match k with
      | some b => fPtr b
      | none => []
    one f.1 ++ one f.2.1 ++ one (vDst i)

/-- Register writes of an operation with their latencies (R51), its own accesses being lengthened by `ext` (R62). DEDUCED
(assumption 12): LOOP counts as a write of its counter whatever the counter holds, since the check is one of decode. -/
def regWrites (fo : Focus) (ext : Nat) (i : Instr) : List (RegName × Nat) :=
  ((dsts fo i).filter (· ≠ 0)).map (fun r => ((0, r), latS i + ext))
  ++ (ptrWrites i).map (fun r => ((1, r), 1))
  ++ (match i with
    | .loop l _ => [((2, l.toNat), 1)]
    | .mtc _ n => if 0x10 ≤ n.toNat ∧ n.toNat ≤ 0x13 then [((2, n.toNat - 0x10), 1)] else []
    | .vcmp _ _ q _ _ _ _ => if q = 0 then [] else [((3, q.toNat), latV i + ext + (if (gridReads i).isEmpty then 0 else fo.beats - 1))]
    | _ => [])

/-- The nominal latency of an operation that writes a grid operand (R49, R118, R126, R309). -/
def gridLat (fo : Focus) (i : Instr) : Nat :=
  let b := if (gridReads i).isEmpty then 0 else fo.beats - 1
  match i with
  | .vld _ _ _ _ => 5
  | .hpop _ _ => 5
  | .lpop _ => 5
  | .vldx _ _ _ => 13 + b
  | .ktop _ _ _ => 3
  | i => latV i + b

def gridLandings (fo : Focus) (ext : Nat) (i : Instr) : List (Nat × Nat) := (gridWrites i).map (fun g => (g, gridLat fo i + ext))

/-- The register an effect lands in. -/
def effReg : Eff → Option RegName
  | .sreg r _ => some (0, r)
  | .areg r _ => some (1, r)
  | .lcnt r _ => some (2, r)
  | .preg r _ => some (3, r)
  | _ => none

/-- Landings already on their way: registers and grid operands with the cycles they still take. -/
def pendRegs (l : List Pend) : List (RegName × Nat) := l.flatMap (fun e => (e.effs.filterMap effReg).map (fun r => (r, e.rem)))

def pendGrids (l : List Pend) : List (Nat × Nat) :=
  l.flatMap (fun e => e.effs.filterMap (fun x => match x with
    | .vec (.grid g) _ _ => some (g, e.rem)
    | .tapFin _ _ (.grid g) _ _ => some (g, e.rem)
    | _ => none))

/-- Two grid operands share an element. -/
def gridMeet (a b : Nat) : Bool :=
  (List.range 64).any (fun i => (List.range 64).any (fun j => gridKey a i = gridKey b j))

def landMeet (a b : Nat × Nat) : Bool := a.2 = b.2 && gridMeet a.1 b.1

/-! ### Where accesses find their ports (R61, R62, R114) -/

/-- Flights in the order they seek their ports (R62). -/
def insFlight (f : Flight) : List Flight → List Flight
  | [] => [f]
  | g :: l => if f.seek < g.seek then f :: g :: l else g :: insFlight f l

def sortFlights (l : List Flight) : List Flight := l.foldl (fun m f => insFlight f m) []

/-- A hold of R113 is in progress. -/
def holding (f : Flight) : Bool := f.accs.any (fun a => a.held)

/-- A flight that has an access to make now. -/
def seeking (f : Flight) : Bool := f.delay = 0 && f.accs ≠ []

/-- Accesses of one operation on their way to their ports as the schedule check foresees them: the cycle from which they seek
(0: this one), the cycle in which the last transfers, once it has. -/
structure PortItem where
  fo : Focus
  from_ : Nat
  accs : List Acc
  done : Option Nat
  deriving DecidableEq, Repr

def PortItem.held (x : PortItem) : Bool := x.accs.any (fun a => a.held)

/-- One operation's accesses in cycle `k`; a hold that another suspends keeps its banks (R114). -/
def portStep (c : Core) (k : Nat) (x : PortItem) (y : Cyc) : PortItem × Cyc :=
  if x.done.isSome || k < x.from_ then (x, y)
  else
    let r := stepAccs x.fo { c with cyc := y } x.accs
    let bs := if x.held && r.1 = x.accs then x.accs.flatMap Acc.holds else []
    ({ x with accs := r.1, done := if r.1.all Acc.doneB then some k else none },
     { r.2 with turns := r.2.turns ++ bs, used := r.2.used ++ bs })

/-- Cycle `k` of the holds in progress, the others standing. -/
def portHolds (c : Core) (k : Nat) : List PortItem → Cyc → List (PortItem × Bool) × Cyc
  | [], y => ([], y)
  | x :: l, y =>
    let p := if x.held then portStep c k x y else (x, y)
    let r := portHolds c k l p.2
    ((p.1, x.held) :: r.1, r.2)

/-- Cycle `k` of the others, oldest first. -/
def portRest (c : Core) (k : Nat) : List (PortItem × Bool) → Cyc → List PortItem
  | [], _ => []
  | (x, h) :: l, y =>
    let p := if h then (x, y) else portStep c k x y
    p.1 :: portRest c k l p.2

/-- Cycles `k` to `k + n`, no window access arriving but those that wait now: each bank serves one of these a cycle (R62). -/
def portRun (c : Core) : Nat → Nat → List PortItem → List PortItem
  | 0, _, l => l
  | n + 1, k, l =>
    if l.all (fun x => x.done.isSome) then l
    else
      let first := [0, 1, 2].filter (fun b => k ≤ (c.r1.filter (fun r => bankOf r.addr = b)).length)
      let h := portHolds c k l (if k = 0 then c.cyc else { c.cyc with turns := first, used := first })
      portRun c n (k + 1) (portRest c k h.1 h.2)

/-- Flights whose accesses rank before this cycle's bundle: holds in progress, the primary's accesses of earlier cycles and
those it still will make. They have had their turn in this cycle. -/
def portFlights (c : Core) : List Flight :=
  sortFlights ((c.hflights.filter holding) ++ c.p.flights.filter (fun f => f.accs ≠ [] && f.stage ≠ 9))

/-- The cycle in which each of `fls` and of a bundle's operations makes its last transfer, 0 being this one (R61, R62, R113). -/
def portTimes (c : Core) (fls : List Flight) (ops : List (Focus × List Acc)) : List Nat :=
  let l := fls.map (fun f => (⟨f.foc, f.delay + 1, f.accs, none⟩ : PortItem)) ++ ops.map (fun o => ⟨o.1, 0, o.2, none⟩)
  let n := l.foldl (fun m x => m + x.from_ + x.accs.foldl (fun j a => j + a.steps.length + 2) 0) (c.r1.length + 4)
  (portRun c n 0 l).map (fun x => x.done.getD n)

/-- Results of the primary whose accesses still wait, with the cycles they still take (`fls` with the cycles of their last
transfers): registers and grid operands. -/
def flightLands (fls : List (Flight × Nat)) (c : Core) : List (RegName × Nat) × List (Nat × Nat) :=
  let mine := fls.filter (fun e => match e.1.foc.ctx with
    | .helper _ => false
    | _ => true)
  let rs := mine.flatMap (fun e => ((dsts e.1.foc e.1.ins).filter (· ≠ 0)).map (fun r => ((0, r), e.2 + e.1.lat))
    ++ (match e.1.ins with
      | .vcmp _ _ q _ _ _ _ => if q = 0 then [] else [((3, q.toNat), e.2 + e.1.lat)]
      | _ => []))
  let back := (c.p.flights.filter (fun f => f.stage = 9)).flatMap (fun f =>
    ((dsts f.foc f.ins).filter (· ≠ 0)).map (fun r => ((0, r), f.delay)))
  (rs ++ back, mine.flatMap (fun e => (gridWrites e.1.ins).map (fun g => (g, e.2 + e.1.lat))))

/-- The accesses an operation of the primary's bundle makes in its issue cycle, of those whose results the check looks at
or that take ports before them (R62). -/
def ownAccs (fo : Focus) (c : Core) (i : Instr) : List Acc :=
  match i with
  | .ld _ x w m => [mkAcc 0 (localAddr fo c x w.toNat m) (widthOf w.toNat)]
  | .ldacq _ x m => [mkAcc 0 (localAddr fo c x 3 m) 8]
  | .vld _ a _ d => [mkAcc 0 (vecAddr fo c a d) 256]
  | .vldx _ a g => [laneAcc (laneAddrs fo c a g)]
  | .vstx _ a g => [laneAcc (laneAddrs fo c a g)]
  | .qld _ a _ => [chunkAcc (ptrAddr fo c a) 1056]
  | .qst _ a _ => [chunkAcc (ptrAddr fo c a) 1056]
  | .kld _ a _ => [chunkAcc (ptrAddr fo c a) 520]
  | .kst _ a _ => [chunkAcc (ptrAddr fo c a) 520]
  | .hpop _ h =>
    let d := rdHandle c h.toNat
    [mkAcc 0 (hAddr d (hCons d) 0) 256]
  | i => match classOf i with
    | some .V =>
      let f := vXYD i
      srcAcc fo c 0 f.1 ++ srcAcc fo c 1 f.2.1 ++ srcAcc fo c 2 f.2.2
    | _ => []

/-- The first slot whose writes land together with a pending result's or a lower slot's on one register or element (R51);
each slot with the cycles its accesses are lengthened by. DESIGN CHOICE: of a pair of landings the trap names the later slot
(assumption 25). -/
def doubleLanding (fos : Nat → Focus) :
    List (Nat × Instr × Nat) → List (RegName × Nat) → List (Nat × Nat) → Option Nat
  | [], _, _ => none
  | (k, i, ext) :: l, rs, gs =>
    let r := regWrites (fos k) ext i
    let g := gridLandings (fos k) ext i
    let twice := match r with
      | [a, b] => decide (a = b)
      | [a, b, d] => decide (a = b ∨ a = d ∨ b = d)
      | _ => false
    if twice || r.any (fun e => rs.contains e) || g.any (fun e => gs.any (landMeet e)) then some k
    else doubleLanding fos l (rs ++ r) (gs ++ g)

/-- The operations of the primary's next bundle with their slots. -/
def State.bundleOps (s : State) (num : Nat) (c : Core) : List (Nat × Instr) :=
  (List.range 8).map (fun k => (k, okOr (s.slotOp num c.p k)))

/-- The lowest slot of the primary's next bundle that is ILLEGAL whatever the cycle: by itself (R98), or by two writes of the
bundle's own that no access can lengthen (R51). -/
def State.illegalSlot (s : State) (num : Nat) (c : Core) (fos : Nat → Focus) : Option Nat :=
  match (List.range 8).find? (fun k => match s.slotOp num c.p k with
    | .error _ => true
    | .ok i => !legal (fos k) c i || s.ordinaryBad num c.p k) with
  | some k => some k
  | none => doubleLanding fos (((s.bundleOps num c).filter (fun e => (ownAccs (fos e.1) c e.2).isEmpty)).map (fun e => (e.1, e.2, 0)))
      [] []

/-- The lowest slot with which the primary's next bundle, issued in this cycle, would land two writes on one register or element
in one cycle (R51); the accesses of earlier bundles have made their port cycles of this cycle. -/
def State.landSlot (s : State) (num : Nat) (c : Core) (fos : Nat → Focus) : Option Nat :=
  let ops := s.bundleOps num c
  let as := ops.map (fun e => (fos e.1, ownAccs (fos e.1) c e.2))
  let fls := portFlights c
  let ts := portTimes c fls as
  let ext (j : Nat) : Nat := ts.getD (fls.length + j) 0 - ((as.getD j (fos 0, [])).2).foldl (fun m a => max m (a.steps.length - 1)) 0
  let w := flightLands (List.zip fls ts) c
  doubleLanding fos ((List.zip (List.range 8) ops).map (fun e => (e.2.1, e.2.2, ext e.1)))
    (pendRegs c.p.pend ++ w.1) (pendGrids c.p.pend ++ w.2)

/-! ### Helpers' next operations (R90) -/

/-- Slot of a position in the order I0, I1, M, K, Y. -/
def posSlot (p : Nat) : Nat :=
  match p with
  | 0 => 0
  | 1 => 1
  | 2 => 2
  | 3 => 5
  | _ => 7

/-- The first position from `p` on that holds something. -/
def nextPos (w p : Nat) : Option Nat := (List.range 5).find? (fun k => p ≤ k && slotWord w (posSlot k) ≠ 0)

/-- HOLD's word in a slot. -/
def holdWord (slot w : Nat) : Bool :=
  match decodeSlot (slotCls slot) (slotWord w slot) with
  | .ok i => isHold i
  | .error _ => false

/-- A control-flow opcode stands at a position (R92). -/
def controlAt (w p : Nat) : Bool := p < 2 && 0x58 ≤ slotWord w p / 2 ^ 24 && slotWord w p / 2 ^ 24 ≤ 0x61

/-- A helper bundle of illegal form (R90). -/
def formBad (w : Nat) : Bool :=
  slotWord w 3 ≠ 0 || slotWord w 4 ≠ 0 || slotWord w 6 ≠ 0
  || (List.range 5).any (fun p => holdWord (posSlot p) w)
  || (List.range 2).any (fun p => controlAt w p && (nextPos w (p + 1)).isSome)

/-- What a helper has next. -/
inductive HNext
  /-- a bundle of illegal form, named by its first operation -/
  | bad (pos : Nat)
  /-- a bundle with nothing to issue -/
  | empty
  | op (pos : Nat)
  deriving DecidableEq, Repr

def State.hNext (s : State) (num : Nat) (x : Helper) : HNext :=
  let w := s.bundleAt num x.pc
  if formBad w then .bad ((nextPos w 0).getD 0)
  else match nextPos w x.pos with
    | some p => .op p
    | none => .empty

/-- The operation at a position of a helper's bundle. -/
def State.hOp (s : State) (num : Nat) (x : Helper) (pos : Nat) : Except Reject Instr :=
  decodeSlot (slotCls (posSlot pos)) (slotWord (s.bundleAt num x.pc) (posSlot pos))

/-! ### Readiness (R116, R175, R216, R224, R319) -/

/-- Registers that an operation writes when it lands; a pointer's increment has landed with its issue cycle (R85, R118). -/
def lateDsts (fo : Focus) (i : Instr) : List Nat :=
  match i with
  | .vld _ _ _ _ => []
  | .vst _ _ _ _ => []
  | .kld _ _ _ => []
  | .kst _ _ _ => []
  | .kmerge _ _ _ _ => []
  | .kmergel _ _ _ _ => []
  | i => dsts fo i

/-- Registers of helper `h` still to be written. -/
def hPendRegs (h : Nat) (c : Core) : List Nat :=
  c.hpend.flatMap (fun e => e.effs.filterMap (fun x => match x with
    | .xreg k r _ => if k = h then some r else none
    | _ => none))
  ++ (c.hflights.filter (fun f => f.foc.ctx = .helper h)).flatMap (fun f => lateDsts f.foc f.ins)
  ++ (c.helper h).gdst

/-- Grid operands helper `h` has still to write. -/
def hPendGrids (h : Nat) (c : Core) : List Nat :=
  (pendGrids (c.hpend.filter (fun e => e.who = .helper h))).map (·.1)
  ++ (c.hflights.filter (fun f => f.foc.ctx = .helper h)).flatMap (fun f => gridWrites f.ins)
  ++ (c.hgroups.filter (fun g => g.who = .helper h)).flatMap (fun g => g.writes.map (·.1))

/-- The list an operation changes. -/
def listOut : Instr → Option Nat
  | .kclr r => some r.toNat
  | .kmerge r _ _ _ => some r.toNat
  | .kmergel r _ _ _ => some r.toNat
  | .ksort r _ _ => some r.toNat
  | .kmask r => some r.toNat
  | .kld r _ _ => some r.toNat
  | _ => none

/-- The list an operation reads at issue (R304). -/
def listIn : Instr → Option Nat
  | .ktop r _ _ => some r.toNat
  | .ksamp r _ _ _ => some r.toNat
  | .ksend r _ => some r.toNat
  | .kst r _ _ => some r.toNat
  | _ => none

/-- Helper `h` has a change of list `l` under way. -/
def hPendList (h l : Nat) (c : Core) : Bool :=
  c.hpend.any (fun e => e.who = .helper h && e.effs.any (fun x => match x with
    | .list k _ => k = l
    | _ => false))
  || c.hflights.any (fun f => f.foc.ctx = .helper h && listOut f.ins = some l)

def isGram : Instr → Bool
  | .gsetLd _ => true
  | .gsetRs _ => true
  | .gmask _ => true
  | .gstep _ => true
  | _ => false

/-- A GSET, GMASK or GSTEP of helper `h` has not completed (R319). -/
def gramOut (h : Nat) (c : Core) : Bool :=
  c.hflights.any (fun f => f.foc.ctx = .helper h && isGram f.ins)
  || c.hpend.any (fun e => e.who = .helper h && e.effs.any (fun x => match x with
    | .gram _ _ => true
    | .gramNone => true
    | .mask _ => true
    | .trap _ _ => true
    | _ => false))

/-- The lane is occupied: for the cycles of R301, or while an access of a K operation is overdue (R302). -/
def laneBusy (h : Nat) (c : Core) : Bool :=
  0 < (c.helper h).kBusy
  || c.hflights.any (fun f => f.foc.ctx = .helper h && classOf f.ins = some .K && seeking f)

/-- Every scratchpad, window and grid write of helper `h` has been performed (R116). -/
def storesDone (h : Nat) (c : Core) : Bool :=
  !c.hflights.any (fun f => f.foc.ctx = .helper h && (writes f || holdOnly f)) && (c.helper h).xst = 0 && hPendGrids h c = []
  && noStores h c

/-- What must wait for earlier loads of the helper (R175). -/
def afterLoads : Instr → Bool
  | .phase => true
  | .fence => true
  | .gatom _ _ _ _ _ => true
  | .strel _ _ _ => true
  | .fpost _ _ => true
  | .fpostx _ _ _ => true
  | _ => false

/-- The line a GST would enter, when its translation is at hand. -/
def State.gstLine (s : State) (fo : Focus) (c : Core) (i : Instr) : Option Nat :=
  match i with
  | .gst _ x w m =>
    let va := globalAddr fo c x w.toNat m
    ((s.firstTlb fo.core (agentOf fo)).find? (tlbHit c.lctx va)).map (fun e => (e.frame + (va - e.va)) / 64)
  | _ => none

/-- The store buffer has no room for the operation's store (R69). -/
def State.sbFull (s : State) (fo : Focus) (c : Core) (i : Instr) : Bool :=
  match i with
  | .gst _ _ _ _ => decide (16 ≤ c.sb.length) && (match s.gstLine fo c i, fo.ctx with
    | some l, .helper _ => !sbMerges c l
    | _, _ => true)
  | _ => false

/-- Why a LIVE helper cannot issue its next operation: the WAIT code of R222, 0 when it is ready (R216). DESIGN CHOICE (assumption
153): where several reasons hold at once, the first of this order gives the code; R222 sets none. -/
def State.hWait (s : State) (fo : Focus) (c : Core) (h : Nat) (i : Instr) : Nat :=
  let regs := hPendRegs h c
  let need := (gridReads i).filter (fun g => (hPendGrids h c).any (gridMeet g))
  if gramOut h c then 4
  else if (c.helper h).ords ≠ [] then 3
  else if (match i with
    | .halt _ => !helperQuiet h c
    | _ => false) then 4
  else if (srcs i ++ dsts fo i).any (fun r => r ≠ 0 && regs.contains r) || need ≠ [] then 1
  else if (match listIn i with
    | some l => hPendList h l c
    | none => false) then 1
  else if classOf i = some .K && laneBusy h c then 4
  else if (c.helper h).acq.isSome && (classOf i = some .M || classOf i = some .K) then 4
  else if afterLoads i && loadsOut s fo.core h then 4
  else if (match i with
    | .strel _ _ _ => !storesDone h c
    | _ => false) then 4
  else if s.sbFull fo c i then 3
  else if isWait i && waitEval fo { c with p := { c.p with pend := [] } } i = .unmet then 2
  else 0

/-- The focus of a helper's operation. -/
def helpFocus (num h slot bundle beats jobt grat : Nat) : Focus :=
  { core := num, ctx := .helper h, slot := slot, bundle := bundle, beats := beats, jobt := jobt, grat := grat }

/-- What holds back any operation of a class: an ILLEGAL one is ready as they are (R100, R216). -/
def classWait (c : Core) (h : Nat) (k : Cls) : Nat :=
  if gramOut h c then 4
  else if (c.helper h).ords ≠ [] then 3
  else if k = .K && laneBusy h c then 4
  else if (c.helper h).acq.isSome && (k = .M || k = .K) then 4
  else 0

/-- The WAIT code of helper `h`: an operation that does not decode or may not stand there is ready, to be refused when it
is picked (R100), but not before the helper's grammar operations have completed (R319); a helper with nothing to issue
waits, and so does one at a bundle that is all NIL (DESIGN CHOICE, assumption 71). -/
def State.waitCode (s : State) (num : Nat) (c : Core) (h jobt : Nat) : Nat :=
  let x := c.helper h
  match s.hNext num x with
  | .op p => (match s.hOp num x p with
    | .ok i =>
      let fo := helpFocus num h (posSlot p) x.pc 1 jobt s.tick
      if legal fo c i then s.hWait fo c h i else classWait c h (slotCls (posSlot p))
    | .error _ => classWait c h (slotCls (posSlot p)))
  | .bad _ => 0
  | .empty => 2

/-! ### The barrel (R217, R218, R220) -/

/-- Class number of an advertised slot: 0 I, 1 M, 2 K, 3 Y. -/
def slotKind (slot : Nat) : Nat := if slot < 2 then 0 else if slot = 2 then 1 else if slot = 5 then 2 else 3

def posKind (p : Nat) : Nat := slotKind (posSlot p)

def lastOf (c : Core) (k : Nat) : Nat :=
  match k with
  | 0 => c.lastI
  | 1 => c.lastM
  | 2 => c.lastK
  | _ => c.lastY

def setLast (c : Core) (k h : Nat) : Core :=
  match k with
  | 0 => { c with lastI := h }
  | 1 => { c with lastM := h }
  | 2 => { c with lastK := h }
  | _ => { c with lastY := h }

/-- The kind of slot each helper is ready for, none when it is not; `wait` gives the WAIT codes at the start of the
cycle (R216). -/
def State.readyKind (s : State) (num : Nat) (c : Core) (wait : Nat → Nat) (h : Nat) : Option Nat :=
  let x := c.helper h
  if x.st = .live && x.wake ≤ c.age && wait h = 0 then
    match s.hNext num x with
    | .op p => some (posKind p)
    | _ => none
  else none

/-- The first ready helper of a kind after LAST in cyclic order, not yet picked (R217). -/
def pickOne (ready : Nat → Option Nat) (last kind : Nat) (picked : List Nat) : Option Nat :=
  ((List.range 10).map (fun j => (last + 1 + j) % 10)).find? (fun h => ready h = some kind && !picked.contains h)

/-- The picks of a cycle, slot by slot: pointers move; every ready helper of the slot's class sees the advertisement,
unless it is withdrawn (R217, R220). -/
def pickSlots (ready : Nat → Option Nat) : List Nat → List Nat → Core → Core × List (Nat × Nat)
  | [], _, c => (c, [])
  | k :: l, picked, c =>
    let kind := slotKind k
    let gone := c.cyc.hidden.contains k
    let c1 := if gone then c else (List.range 10).foldl (fun d h =>
      if ready h = some kind then d.setHelper h { d.helper h with adv := ((d.helper h).adv + 1) % 2 ^ 32 } else d) c
    match pickOne ready (lastOf c1 kind) kind picked with
    | none => pickSlots ready l picked c1
    | some h =>
      let r := pickSlots ready l (h :: picked) (setLast c1 kind h)
      (r.1, if gone then r.2 else (k, h) :: r.2)

/-! ### Denials (R50, R218, R445) -/

/-- Banks of an access that passes its checks; one that traps needs no port. -/
def needBanks (fo : Focus) (c : Core) (a n al : Nat) : List Nat := if (addrTrap fo c a n al).isSome then [] else banksOf a n

/-- Banks an operation takes in its issue cycle. -/
def issueBanks (fo : Focus) (c : Core) (i : Instr) : List Nat :=
  match i with
  | .ld _ x w m => needBanks fo c (localAddr fo c x w.toNat m) (widthOf w.toNat) (widthOf w.toNat)
  | .st _ x w m => needBanks fo c (localAddr fo c x w.toNat m) (widthOf w.toNat) (widthOf w.toNat)
  | .ldacq _ x m => needBanks fo c (localAddr fo c x 3 m) 8 8
  | .strel _ x m => needBanks fo c (localAddr fo c x 3 m) 8 8
  | .vld _ a _ d => needBanks fo c (vecAddr fo c a d) 256 4
  | .vldx _ a g => if (lanesTrap fo c (laneAddrs fo c a g)).isSome then [] else [0, 1, 2]
  | .vstx _ a g => if (lanesTrap fo c (laneAddrs fo c a g)).isSome then [] else [0, 1, 2]
  | .kld _ a _ => if (addrTrap fo c (ptrAddr fo c a) 520 256).isSome then [] else banksOf (ptrAddr fo c a) 256
  | .kst _ a _ => if (addrTrap fo c (ptrAddr fo c a) 520 256).isSome then [] else banksOf (ptrAddr fo c a) 256
  | .hpush _ h =>
    let d := rdHandle c h.toNat
    if hRv d || hSlots d ≤ hFilled d then [] else banksOf (hAddr d (hProd d) 0) 256
  | .hpop _ h =>
    let d := rdHandle c h.toNat
    if hFilled d = 0 then [] else banksOf (hAddr d (hCons d) 0) 256
  | .kmerge _ _ a _ => needBanks fo c (ptrAddr fo c a) 256 4
  | .gsetLd a => needBanks fo c (ptrAddr fo c a) 64 64
  | .gsetRs a => needBanks fo c (ptrAddr fo c a) 64 64
  | .gsetSt a => needBanks fo c (ptrAddr fo c a) 64 64
  | .gstep a =>
    let g := gramOf fo c
    let t := (rdA fo c a.toNat).toNat
    if !g.valid || 512 * (g.nchunk + 1) ≤ t then [] else banksOf (g.tcls + t) 1
  | _ => []

/-- Messages an operation injects in its issue cycle (R218). -/
def issueMsgs (c : Core) (i : Instr) : Nat :=
  let rv (h : BitVec 4) (n : Nat) : Nat := if hRv (rdHandle c h.toNat) then n else 0
  match i with
  | .xld _ _ _ _ => 1
  | .xst _ _ _ _ => 1
  | .fpostx _ _ _ => 1
  | .hadv h _ _ => rv h 1
  | .hpush _ h => rv h 2
  | .hpop _ h => rv h 1
  | .ksend _ _ => 1
  | _ => 0

/-- Power tokens of a slot (R445). -/
def slotCharge (slot : Nat) : Nat :=
  match slot with
  | 0 => 1
  | 1 => 1
  | 2 => 2
  | 3 => 4
  | 4 => 4
  | 5 => 2
  | 6 => 2
  | _ => 1

/-- Tokens the engines' bursts take (R445). -/
def burstCharge (c : Core) : Nat :=
  2 * ((List.range 4).filter (fun q => (c.cq q).burst.isSome && burstPaid c q)).length

/-- A message that passes the injection port (R218). -/
def counted : Wh → Bool
  | .xst _ _ => true
  | .xld _ _ _ _ => true
  | .hpush _ _ _ _ => true
  | .flagx _ _ _ => true
  | .sendm _ _ _ => true
  | .fault _ _ => true
  | .hadv _ _ _ _ => true
  | .ksend _ _ _ => true
  | _ => false

def msgCount (w : Wh) : Nat :=
  match w with
  | .hpush _ _ _ _ => 2
  | w => if counted w then 1 else 0

/-- Messages ahead of the helpers at the injection port in this cycle: those left over, the primary's released now, the
engines' (R218). -/
def injected (c : Core) : Nat :=
  c.cyc.inj + natSum (c.cyc.out.map (fun e => msgCount e.2))
  + (if (c.cyc.ckpt || c.cyc.halt.isSome) && !c.cyc.trapped then
      natSum ((c.withheld ++ c.newWith).map (fun e => msgCount e.w)) else 0)

/-- The resource a picked operation lacks: none, port (false) or token (true); ports come first (R50, R218). -/
def denial (fo : Focus) (c : Core) (i : Instr) : Option Bool :=
  let words := addWords c.cyc.words (wordsOf (gridReads i))
  if (gridReads i) ≠ [] && beatsOf words ≠ beatsOf c.cyc.words then some false
  else if (issueBanks fo c i).any (fun b => c.cyc.turns.contains b) then some false
  else if 0 < issueMsgs c i && 4 < injected c + issueMsgs c i then some false
  else if c.budget < c.cyc.tokens + burstCharge c + slotCharge fo.slot then some true
  else none

/-- A denial counted (R218, R220). -/
def deny (h : Nat) (tok : Bool) (c : Core) : Core :=
  let x := c.helper h
  let c1 := c.setHelper h (if tok then { x with dtok := (x.dtok + 1) % 2 ^ 32 } else { x with dport := (x.dport + 1) % 2 ^ 32 })
  { c1 with evs := c1.evs ++ [(if tok then 0x08 else 0x07, h)] }

/-- Where the helper's program counter goes after an operation (R90, R253): to its transfer's target, or on; past bundle
16,383 it traps JUMP_RANGE, once a grammar operation still out has completed (R319). -/
def State.hAdvance (s : State) (num h : Nat) (c : Core) : Core :=
  let x := c.helper h
  match x.next with
  | some t => c.setHelper h { x with pc := t, pos := 0, next := none }
  | none =>
    let w := s.bundleAt num x.pc
    let here := (nextPos w x.pos).getD x.pos
    match nextPos w (here + 1) with
    | some p => c.setHelper h { x with pos := p }
    | none => if x.pc = 16383 then
        (if gramOut h c then c.setHelper h { x with pos := 5 } else helperTrap h cJUMPRANGE 16383 here c)
      else c.setHelper h { x with pc := x.pc + 1, pos := 0 }

/-- After a picked operation has issued: it counts, its words and tokens with it; a HALT keeps its place (R220, R222). -/
def State.hIssued (s : State) (num h slot : Nat) (i : Instr) (c : Core) : Core :=
  let x := c.helper h
  let c0 := c.setHelper h { x with iss := (x.iss + 1) % 2 ^ 32, pos := slotPos slot, acq := (match i with
    | .ldacq d _ _ => some d.toNat
    | _ => x.acq) }
  let words := addWords c0.cyc.words (wordsOf (gridReads i))
  let c1 := { c0 with
    cyc := { c0.cyc with tokens := c0.cyc.tokens + slotCharge slot, words := words }, evs := c0.evs ++ [(0x06, h)] }
  match i with
  | .halt _ => c1
  | _ => if x.st = .live then s.hAdvance num h c1 else c1

end Sys2Proof.Machine
end

