-- ==== Sys2Proof/Machine/Land.lean ====
section
/-! DEFINITION. The end of a core's cycle: releases at a CKPT or HALT (04 R111, 16 R381), writes to the scratchpad (04
R109), landings (02 R49, R53, 08 R219, 12 R304), the shadow (16 R382), counters (18 R429). -/

namespace Sys2Proof.Machine

/-! ### Local storage (R109, R394) -/

/-- Granules of 4 KiB that `n` bytes at `a` meet. -/
def granules (a n : Nat) : List Nat := if n = 0 then [] else (List.range ((a + n - 1) / 4096 - a / 4096 + 1)).map (a / 4096 + ·)

def addAll (l m : List Nat) : List Nat := m.foldl (fun k g => if k.contains g then k else k ++ [g]) l

/-- Bytes written to the own scratchpad; their granules become dirty (R394). -/
def spPut (a : Nat) (d : List Byte) (c : Core) : Core :=
  { c with sp := memPut c.sp a d, spDirty := addAll c.spDirty (granules a d.length) }

def spPuts (l : List (Nat × List Byte)) (c : Core) : Core := l.foldl (fun k e => spPut e.1 e.2 k) c

/-- A withheld effect in its place in program order. -/
def addWith (e : WhE) : List WhE → List WhE
  | [] => [e]
  | f :: l => if e.ord < f.ord then e :: f :: l else f :: addWith e l

/-! ### Mailboxes (R55, R231, R232) -/

/-- Presence of mailbox m is cleared; the oldest inbox entry for it moves in (R231). -/
def mbClear (m : Nat) (c : Core) : Core :=
  match c.inbox.find? (fun e => e.1 = m) with
  | some e => { c with mb := spSet ((0 : Word), false) c.mb m (e.2, true), inbox := c.inbox.erase e }
  | none => { c with mb := spSet ((0 : Word), false) c.mb m ((spGet ((0 : Word), false) c.mb m).1, false) }

/-! ### Lists (R304, R322) -/

/-- A list change landing; NaN scores admitted are counted (R303, R304). -/
def landList (prim : Bool) (l : Nat) (op : ListOp) (c : Core) : Core :=
  let old := spGet candList0 c.lists l
  let r := applyList op old
  let c1 := { c with lists := spSet candList0 c.lists l r.1, kstatV := kstatNote c.kstatV r.2 0 0 false false }
  if prim && !c.listSave.any (fun e => e.1 = l) then
    { c1 with listSave := c1.listSave ++ [(l, spGet candList0 c1.listCk l)] }
  else c1

/-! ### Taps (R346 to R348) -/

/-- A TAP lands: every probe of its point accumulates (R347). -/
def landTap (tp seg ty : Nat) (pred : Word) (x : Vec) (c : Core) : Core :=
  match c.tapPt tp with
  | none => c
  | some t => (List.zip (List.range t.probes.length) t.probes).foldl (fun k e =>
      let r := tapAcc k.legend.dmodel seg ty pred e.2 x (spGet 0 k.p.tacc (tp * 8 + e.1)).toNat
      { k with p := { k.p with tacc := spSet 0 k.p.tacc (tp * 8 + e.1) (BitVec.ofNat 32 r.1), fpstat := k.p.fpstat ||| r.2 } }) c

/-- v crosses the probe's threshold (R348). -/
def crosses (pr : Probe) (v : Nat) : Bool :=
  let a := v32 v
  let b := v32 pr.thresh
  xIsNan a || (if pr.dir then fpRel 2 a b else fpRel 2 b a)

/-- The doublewords of a trap record (R350). -/
def tapRecDws (w : Word) (pr : Probe) (k tp v bundle jobt : Nat) : Word × Word × Word :=
  (BitVec.ofNat 64 (twRow w * 2 ^ 32 + pr.action * 2 ^ 30 + k * 2 ^ 27 + tp * 2 ^ 21 + b2n (twNoseq w) * 2 ^ 20
     + twSlot w * 2 ^ 12),
   BitVec.ofNat 64 (v * 2 ^ 32 + bundle), BitVec.ofNat 64 jobt)

/-- A TAPFIN lands (R348): its values, the zeroed accumulators, the withheld records and settings, a HALT probe's trigger. -/
def landTapFin (ord tp : Nat) (w : Word) (bundle jobt : Nat) (c : Core) : Vec × Flags × Core :=
  match c.tapPt tp with
  | none => (zeroVec, fNone, c)
  | some t =>
    let ps := List.zip (List.range t.probes.length) t.probes
    let vs := ps.map (fun e => fpAdd fmt32 (spGet 0 c.p.tacc (tp * 8 + e.1)).toNat e.2.bias)
    let fl := vs.foldl (fun f r => f ||| r.2) (0 : Flags)
    let hit := (List.zip ps (vs.map (·.1))).filter (fun e => crosses e.1.2 e.2)
    let ws := hit.flatMap (fun e =>
      let d := tapRecDws w e.1.2 e.1.1 tp e.2 bundle jobt
      Wh.tapRec d.1 d.2.1 d.2.2 :: (if e.1.2.action = 1 && !twNoseq w then [Wh.seqMask (twSlot w)] else []))
    let halt := hit.find? (fun e => e.1.2.action = 2)
    let c1 := { c with
      p := { c.p with tacc := spClear (tp * 8) (tp * 8 + 8) c.p.tacc },
      withheld := ws.foldl (fun l x => addWith ⟨ord, x⟩ l) c.withheld }
    let c2 := match halt with
      | some e => { c1 with cyc := { c1.cyc with trig := c1.cyc.trig ++ [(0x3B, 15, bundle, e.1.1)] } }
      | none => c1
    ((List.range 64).map (fun i => match vs[i]? with
      | some r => BitVec.ofNat 32 r.1
      | none => 0), fl, c2)

/-! ### Landing of one effect -/

/-- A context's registers exist (R222, R224). -/
def ownsRegs (x : Helper) : Bool := x.st = .live || x.st = .faulted || x.st = .trapped

/-- Lanes of a distribution register written under a mask (R327). -/
def wrQ (old new : QReg) (mask : Word) : QReg :=
  ⟨(List.range 16).map (fun l => if mask.getLsbD l then new.lanes.getD l [] else old.lanes.getD l []), new.tag⟩

/-- The mask cache with an entry used or filled: 16 entries, least recently used first to go (R317). -/
def mcUse (key : Nat × Nat × Nat × Nat) (v : Nat × BitVec 512)
    (l : List ((Nat × Nat × Nat × Nat) × (Nat × BitVec 512))) : List ((Nat × Nat × Nat × Nat) × (Nat × BitVec 512)) :=
  ((key, v) :: l.filter (fun e => e.1 ≠ key)).take 16

/-- Words of a vector under a mask, as a scatter (R262). -/
def maskWords (a : Nat) (v : Vec) (mask : Word) : List (Nat × Lane) :=
  (List.range 64).filterMap (fun i => if mask.getLsbD i then some (a + 4 * i, lane v i) else none)

/-- A vector's words written to the scratchpad as it lands: withheld in the primary, at once in a gateway (R265, R414). -/
def landMem (who : Ctx) (ord a : Nat) (v : Vec) (mask : Word) (c : Core) : Core :=
  match who with
  | .gate => spPuts ((maskWords a v mask).map (fun w => (w.1, leBytes 4 w.2.toNat))) c
  | _ =>
    let w := if mask = allLanes then Wh.store a (vecBytes v) else Wh.scatter 1 (maskWords a v mask)
    { c with withheld := addWith ⟨ord, w⟩ c.withheld }

/-- Grid writes of a result: the vectors it lands in grid operands. -/
def gridOf (e : Pend) : List (Nat × Vec × Word) :=
  e.effs.filterMap (fun x => match x with
    | .vec (.grid g) v m => some (g, v, m)
    | _ => none)

/-- One effect of a result that lands, but for flags of FPSTAT, grid writes and counting flags, which land together; a result
in the grid notes its QSTAT events when its write group lands (R49, R340). -/
def landEff (e : Pend) (c : Core) : Eff → Core
  | .sreg r v => if r = 0 then c else { c with p := { c.p with s := spSet 0 c.p.s r v } }
  | .areg r v => { c with p := { c.p with a := spSet 0 c.p.a r v } }
  | .lcnt r v => { c with p := { c.p with lc := spSet 0 c.p.lc r v } }
  | .preg r v => if r = 0 then c else { c with p := { c.p with p := spSet 0 c.p.p r v } }
  | .xreg h r v => if r = 0 || !ownsRegs (c.helper h) then c
      else c.setHelper h { c.helper h with x := spSet 0 (c.helper h).x r v }
  | .vec (.mem a) v m => landMem e.who e.ord a v m c
  | .qreg q v m => { c with p := { c.p with q := spSet qReg0 c.p.q q (wrQ (spGet qReg0 c.p.q q) v m) } }
  | .qtag q v o =>
    let r := spGet qReg0 c.p.q q
    { c with p := { c.p with q := spSet qReg0 c.p.q q { r with tag := if o then r.tag ||| v else v } } }
  | .qnote n => if gridOf e ≠ [] then c else { c with p := { c.p with qstat := qstatNote c.p.qstat n } }
  | .list l op => landList (e.who = .prim) l op c
  | .handle h pr n =>
    let c1 := { c with handles := spSet 0 c.handles h (handleAdd (rdHandle c h) pr n) }
    if e.who = .prim then { c1 with hTaken := c1.hTaken ++ [(h, pr, n)] } else c1
  | .take m => mbClear m c
  | .lpop k => match c.lift.find? (fun x => x.1 = k && x.2.1 = 0) with
    | some x => { c with lift := c.lift.erase x, liftRet := c.liftRet ++ [k] }
    | none => c
  | .liftFall => { c with liftFree := c.liftFree - 1 }
  | .withhold w => { c with withheld := addWith ⟨e.ord, w⟩ c.withheld }
  | .gram g inval => match e.who with
    | .helper h =>
      let x := c.helper h
      c.setHelper h { x with gram := g, mask := if inval then { x.mask with valid := false } else x.mask }
    | _ => { c with p := { c.p with gram := g, mask := if inval then { c.p.mask with valid := false } else c.p.mask } }
  | .mask m => match e.who with
    | .helper h => c.setHelper h { c.helper h with mask := m }
    | _ => { c with p := { c.p with mask := m } }
  | .mcFill key row b miss =>
    if miss then { c with mcache := mcUse key (row, b) c.mcache, kstatV := kstatNote c.kstatV 0 0 1 false false }
    else match c.mcache.find? (fun x => x.1 = key) with
      | some x => { c with mcache := mcUse key x.2 c.mcache }
      | none => c
  | .mcFlush => { c with mcache := [] }
  | .kstat nan held em bt => { c with kstatV := kstatNote c.kstatV nan held 0 em bt }
  | .trap cause _ => match e.who with
    | .helper h => helperTrap h cause e.bundle (slotPos e.slot) c
    | _ => c
  | .xback h r was now =>
    if spGet 0 (c.helper h).x r = now then c.setHelper h { c.helper h with x := spSet 0 (c.helper h).x r was } else c
  | .store a d => spPut a d c
  | .spillNow o v => { c with spill := spSet 0 c.spill o v }
  | .haltH h => c.setHelper h { helper0 with
      st := .halted, pc := (c.helper h).pc, pos := (c.helper h).pos, adv := (c.helper h).adv, iss := (c.helper h).iss,
      dport := (c.helper h).dport, dtok := (c.helper h).dtok, trapv := (c.helper h).trapv }
  | _ => c

/-- A TAP or TAPFIN passes through the tap unit; the values of a TAPFIN are then a vector that lands, with its flags
(R200, R346 to R348). -/
def passTap (e : Pend) (r : (List Eff × Flags) × Core) (x : Eff) : (List Eff × Flags) × Core :=
  match x with
  | .tap tp seg ty pr v => (r.1, landTap tp seg ty pr v r.2)
  | .tapFin tp w d b t =>
    let f := landTapFin e.ord tp w b t r.2
    ((r.1.1 ++ [.vec d f.1 allLanes], r.1.2 ||| f.2.1), f.2.2)
  | x => ((r.1.1 ++ [x], r.1.2), r.2)

/-- The landings of a cycle pass through the tap unit in the order of issue (R346). -/
def passTaps (l : List Pend) (c : Core) : List Pend × Core :=
  l.foldl (fun (r : List Pend × Core) e =>
    let f := e.effs.foldl (passTap e) (([], e.fl), r.2)
    (r.1 ++ [{ e with effs := f.1.1, fl := f.1.2 }], f.2)) ([], c)

/-! ### Grid write groups (R49, R50) -/

/-- QSTAT events of a result (R340). -/
def notesOf (e : Pend) : List QNote :=
  e.effs.filterMap (fun x => match x with
    | .qnote n => some n
    | _ => none)

/-- The group of results that write the grid, with their flags and QSTAT events, which are set when it lands (R49, R200,
R340). -/
def mkGroup (who : Ctx) (l : List Pend) : Group :=
  let ws := l.flatMap gridOf
  ⟨who, ws, wordsOf (ws.map (·.1)), l.foldl (fun f e => f ||| e.fl) fNone, l.flatMap notesOf⟩

/-- One cycle of the write ports: bank by bank, eight words of the first group that still has some there; `busy` are the
banks already used. -/
def serveGroups : List Group → List Bool → List Group × List Bool
  | [], busy => ([], busy)
  | g :: l, busy =>
    let left := List.zipWith (fun n b => if b then n else n - 8) g.left busy
    let busy' := List.zipWith (fun n b => b || decide (0 < n)) g.left busy
    let r := serveGroups l busy'
    ({ g with left := left } :: r.1, r.2)

def groupDone (g : Group) : Bool := g.left.all (· = 0)

/-- The elements of a group stand, and the flags and QSTAT events of its results are set (R49, R200, R340). -/
def landGroupGrid (c0 : Core) (g : Group) : Core :=
  let c := setFlags g.who g.fl c0
  { c with p := { c.p with
      grid := g.writes.foldl (fun m w => wrGrid m w.1 w.2.1 w.2.2) c.p.grid
      qstat := g.notes.foldl qstatNote c.p.qstat } }

/-- The grid's write ports for a cycle: primary groups, then helpers' in what is left; a helper's result that stands in
the same cycle is written first, so that the primary's stays (R50, R219). -/
def gridCycle (c : Core) : Core :=
  let rp := serveGroups c.p.groups (List.replicate 8 false)
  let rh := serveGroups c.hgroups rp.2
  let c1 := (rh.1.filter groupDone).foldl landGroupGrid c
  let c2 := (rp.1.filter groupDone).foldl landGroupGrid c1
  { c2 with p := { c2.p with groups := rp.1.filter (fun g => !groupDone g) }, hgroups := rh.1.filter (fun g => !groupDone g) }

/-! ### Landings of a cycle (R4, R53, R200, R219) -/

/-- Results in program order. -/
def insPend (e : Pend) : List Pend → List Pend
  | [] => [e]
  | f :: l => if e.ord < f.ord then e :: f :: l else f :: insPend e l

def sortPend (l : List Pend) : List Pend := l.foldl (fun m e => insPend e m) []

/-- The net change of the counting flags (R53). -/
def flagSub1 (prim : Bool) (c : Core) (f n : Nat) : Core :=
  let c1 := { c with f := spSet 0 c.f f (BitVec.ofNat 16 ((spGet 0 c.f f).toNat - n)) }
  if prim then { c1 with fTaken := spSet 0 c1.fTaken f (spGet 0 c1.fTaken f + n) } else c1

def landFlags (l : List Pend) (c : Core) : Core :=
  let es := l.flatMap (fun e => e.effs.map (fun x => (decide (e.who = .prim), x)))
  let c1 := es.foldl (fun k x => match x.2 with
    | .flagSub f n => flagSub1 x.1 k f n
    | _ => k) c
  es.foldl (fun k x => match x.2 with
    | .flagAdd f n => flagInc k f n
    | _ => k) c1

/-- FPSTAT bits cleared by the MTCs that take effect in the cycle, before its landings set theirs (R200). -/
def fpClears (l : List Pend) (c : Core) : Core :=
  l.foldl (fun k e => e.effs.foldl (fun k2 x => match x with
    | .fpClear v => clearFlags e.who v k2
    | .fpClearM v => { k2 with mat := { k2.mat with fpm := k2.mat.fpm &&& ~~~ v } }
    | _ => k2) k) c

/-- FPSTAT bits set by the results that land in the cycle and write no grid element (R200). -/
def fpSets (l : List Pend) (c : Core) : Core :=
  (l.filter (fun e => gridOf e = [])).foldl (fun k e => setFlags e.who e.fl k) c

/-- What the primary lands this cycle on lists and handle counters: a helper's change of the same is lost (R219). -/
def primShared (l : List Pend) : List (Nat × Nat) :=
  l.flatMap (fun e => e.effs.filterMap (fun x => match x with
    | .list k _ => some (0, k)
    | .handle h pr _ => some (1, 2 * h + b2n pr)
    | _ => none))

def sharedOf : Eff → Option (Nat × Nat)
  | .list k _ => some (0, k)
  | .handle h pr _ => some (1, 2 * h + b2n pr)
  | _ => none

def loseShared (held : List (Nat × Nat)) (e : Pend) : Pend :=
  { e with effs := e.effs.filter (fun x => match sharedOf x with
      | some k => !held.contains k
      | none => true) }

/-- Of several results for one distribution register landing together the later-issued stands in full (R328). -/
def qTarget : Eff → Option Nat
  | .qreg q _ _ => some q
  | .qtag q _ _ => some q
  | _ => none

def loseQ : List Pend → List Pend
  | [] => []
  | e :: l =>
    let later := l.flatMap (fun f => f.effs.filterMap qTarget)
    { e with effs := e.effs.filter (fun x => match qTarget x with
        | some q => !later.contains q
        | none => true) } :: loseQ l

def isTap : Eff → Bool
  | .tap _ _ _ _ _ => true
  | _ => false

def isTapFin : Eff → Bool
  | .tapFin _ _ _ _ _ => true
  | _ => false

/-- An earlier result of a kind is not landed by this cycle: it is on its way, or among those held. -/
def outBefore (k : Eff → Bool) (c : Core) (held : List Pend) (e : Pend) : Bool :=
  c.p.pend.any (fun f => f.ord < e.ord && f.effs.any k && (decide (1 < f.rem) || held.contains f))

/-- An effect that is a TAPFIN of one of the points that result `e` counts in. -/
def finOf (e : Pend) : Eff → Bool
  | .tapFin tp _ _ _ _ => e.effs.any (fun x => match x with
    | .tap p _ _ _ _ => decide (p = tp)
    | _ => false)
  | _ => false

/-- Results due that wait for their turn in the tap unit: a TAPFIN for every earlier TAP, a TAP for every earlier TAPFIN of its
point (R346; DEDUCED, assumption 24: the rule gives the move of a TAPFIN only). The list is in the order of issue. -/
def tapsHeld (c : Core) (l : List Pend) : List Pend :=
  l.foldl (fun held e =>
    if (e.effs.any isTapFin && (outBefore isTap c held e || c.p.flights.any (fun f => f.ord < e.ord && (match f.ins with
          | .tap _ _ _ _ => true
          | _ => false))))
      || (e.effs.any isTap && outBefore (finOf e) c held e) then held ++ [e] else held) []

/-- A result counted down by one cycle. -/
def tickPend (e : Pend) : Pend := { e with rem := e.rem - 1 }

/-- Landings of a cycle: the helpers', then the primary's when it advances (R219). -/
def landAll (primGoes : Bool) (c : Core) : Core :=
  let due := if primGoes then sortPend (c.p.pend.filter (fun e => e.rem ≤ 1)) else []
  let held := tapsHeld c due
  let pl0 := loseQ (due.filter (fun e => !held.contains e))
  let ps := primShared pl0
  let hl := (sortPend (c.hpend.filter (fun e => e.rem ≤ 1))).map (loseShared ps)
  let c0 := { c with
    hpend := (c.hpend.filter (fun e => 1 < e.rem)).map tickPend,
    p := if primGoes then { c.p with pend := (c.p.pend.filter (fun e => 1 < e.rem)).map tickPend ++ held } else c.p }
  let pt := passTaps pl0 (fpClears (hl ++ pl0) c0)
  let pl := pt.1
  let c2 := fpSets (hl ++ pl) (landFlags (hl ++ pl) pt.2)
  let c3 := (hl ++ pl).foldl (fun k e => e.effs.foldl (landEff e) k) c2
  let hg := (hl.filter (fun e => gridOf e ≠ [])).map (fun e => mkGroup e.who [e])
  let pg := pl.filter (fun e => gridOf e ≠ [])
  let c4 := { c3 with
    hgroups := c3.hgroups ++ hg,
    p := if pg = [] then c3.p else { c3.p with groups := c3.p.groups ++ [mkGroup .prim pg] } }
  if primGoes then gridCycle c4
  else
    let keep := c4.p.groups
    let c5 := gridCycle { c4 with p := { c4.p with groups := [] } }
    { c5 with p := { c5.p with groups := keep } }

/-- Reads of INBOXPOP made in the cycle: each has removed the entry it read, before the cycle's releases (R234). -/
def popInbox (primGoes : Bool) (c : Core) : Core :=
  ((c.hpend ++ (if primGoes then c.p.pend else [])).filter (fun e => e.rem ≤ 1)).foldl (fun k e =>
    e.effs.foldl (fun k2 x => match x with
      | .inboxPop o => inboxRemove o k2
      | _ => k2) k) c

/-! ### Release (R111, R350, R381, R384) -/

/-- The extent of the whole ring that tap records go to leaves the scratchpad or meets a fenced bank (R351, R357;
assumption 47). -/
def tapRingBad (fences : Nat) (ring : Word) : Bool :=
  let a := bits ring.toNat 31 5 * 32
  let n := 32 * 2 ^ bits ring.toNat 35 32
  bit ring.toNat 63 && (decide (0x180000 < a + n) || meetsFence fences a n)

/-- The first failing release check, in program order: the ring as the MTCs released before leave it (R351, R381, R454). -/
def releaseFail (fences : Nat) : List WhE → Word → Nat → Option (Nat × Nat)
  | [], _, _ => none
  | e :: l, ring, gate => match e.w with
    | .lift _ => if gate ≠ 0 then some (cLIFTGATED, 0) else releaseFail fences l ring gate
    | .mtc 0x304 v => releaseFail fences l (tapringWrite ring v) gate
    | .tapRec _ _ _ =>
      if tapRingBad fences ring then some (cLOCALRANGE, bits ring.toNat 31 5 * 32) else releaseFail fences l ring gate
    | _ => releaseFail fences l ring gate

/-- One withheld effect leaves: stores of the scratchpad are returned, messages go to the injection port. -/
def releaseOne (r : Core × List (Nat × List Byte) × List (Ctx × Wh)) (e : WhE) :
    Core × List (Nat × List Byte) × List (Ctx × Wh) :=
  let (c, st, out) := r
  match e.w with
  | .store a d => (c, st ++ [(a, d)], out)
  | .storeQ a d => (c, st ++ [(a, d)], out)
  | .storeK a d => (c, st ++ [(a, d)], out)
  | .scatter _ ws => (c, st ++ ws.map (fun w => (w.1, leBytes 4 w.2.toNat)), out)
  | .spill o v => ({ c with spill := spSet 0 c.spill o v }, st, out)
  | .flag f n => ({ c with hpend := c.hpend ++ [⟨1, .gate, e.ord, 0, 7, 0, [.flagAdd f n]⟩] }, st, out)
  | .start h en arg => (c.setHelper h { helper0 with
      st := .live, pc := en, x := spSet 0 [] 1 arg, wake := c.age + 2, adv := (c.helper h).adv, iss := (c.helper h).iss,
      dport := (c.helper h).dport, dtok := (c.helper h).dtok }, st, out)
  | .takem m => (mbClear m { c with p := { c.p with marks := c.p.marks.erase m } }, st, out)
  | .mtc n v => (applyMtc n v c, st, out)
  | .cmd k => (if k.op < 0x20 then matAccept k c else copyAccept k c, st, out)
  | .tapRec d0 d1 d2 =>
    let ring := c.tapring.toNat
    let a := bits ring 31 5 * 32 + 32 * (c.taphead % 2 ^ bits ring 35 32)
    ({ c with taphead := c.taphead + 1 },
     if bit ring 63 then st ++ [(a, leBytes 8 d0.toNat ++ leBytes 8 d1.toNat ++ leBytes 8 d2.toNat ++ leBytes 8 0)] else st,
     out)
  | .seqMask _ => (c, st, out)
  | w => (c, st, out ++ [(.prim, w)])

/-- Sequence-mask settings, after the clears of the same cycle (R351). -/
def setMasks (l : List WhE) (c : Core) : Core :=
  l.foldl (fun k e => match e.w with
    | .seqMask b => { k with seqmask := setAt k.seqmask (b / 64) (k.seqmask.getD (b / 64) 0 ||| BitVec.ofNat 64 (2 ^ (b % 64))) }
    | _ => k) c

/-- Everything withheld, the bundle's own included, in program order. -/
def allWithheld (c : Core) : List WhE := c.newWith.foldl (fun l e => addWith e l) c.withheld

/-- The released effects leave (R111): the stores to be written at the end of the cycle are returned. -/
def releaseAll (c : Core) : Core × List (Nat × List Byte) :=
  let ws := allWithheld c
  let r := ws.foldl releaseOne ({ c with withheld := [], newWith := [] }, [], [])
  let c1 := setMasks ws r.1
  ({ c1 with cyc := { c1.cyc with out := r.2.2 ++ c1.cyc.out } }, r.2.1)

/-- The timeline an engine command goes to: 0 to 3 a copy queue, 4 the matrix timeline (R139, R284). -/
def cmdLine : Instr → Option Nat
  | .mmul _ _ _ _ _ => some 4
  | .mdrain _ _ _ _ => some 4
  | .bfill _ _ _ => some 4
  | .mcode _ => some 4
  | .swap _ _ _ => some 4
  | .cpy _ _ _ q => some q.toNat
  | .cpyt _ _ q => some q.toNat
  | .cgath _ _ q => some q.toNat
  | .cscat _ _ q => some q.toNat
  | .cseal _ q => some q.toNat
  | .ctime _ q => some q.toNat
  | .cnext _ _ _ q _ _ => some q.toNat
  | _ => none

/-- Room for the commands a CKPT or HALT would release, those withheld and its own bundle's (R143, R226, R284): 64 entries a
queue, 32 on the timeline. -/
def roomFor (c : Core) (l : List WhE) (own : List Instr) : Bool :=
  let lines := l.filterMap (fun e => match e.w with
    | .cmd k => some (if k.op < 0x20 then 4 else k.q)
    | _ => none) ++ own.filterMap cmdLine
  (List.range 4).all (fun q => copyRoom c q + lines.count q ≤ 64 || !lines.contains q)
  && (c.mat.cmds.length + lines.count 4 ≤ 32 || !lines.contains 4)

/-- An operation of the primary's region may still raise its trap (R381, R458). -/
def trapDue (c : Core) : Bool :=
  c.p.flights.any (fun f => match f.ins with
    | .kld _ _ _ => true
    | .gsetLd _ => true
    | .gsetRs _ => true
    | .gmask _ => true
    | .gstep _ => true
    | _ => false)
  || c.p.pend.any (fun e => e.effs.any (fun x => match x with
    | .trap _ _ => true
    | .gram _ _ => true
    | .gramNone => true
    | .mask _ => true
    | .list _ (.load _) => true
    | _ => false))

/-- Results a CKPT would capture: those that remain after the landings of its cycle (R383). -/
def captured (c : Core) : Nat :=
  let d := landAll true c
  (d.p.pend.filter (fun e => e.effs ≠ [])).length + (d.p.flights.filter (fun f => !holdOnly f)).length
  + natSum (d.p.groups.map (fun g => g.writes.length))

/-! ### The next bundle (R251, R254) -/

/-- CRC-32C over one byte (R433). -/
def crcByte (crc b : Nat) : Nat :=
  (List.range 8).foldl (fun v _ => if v % 2 = 1 then Nat.xor (v / 2) 0x82F63B78 else v / 2) (Nat.xor crc b)

/-- The signature after a taken transfer at a bundle (R433). -/
def sigUpdate (sig : Lane) (bundle : Nat) : Lane :=
  BitVec.ofNat 32 (crcByte (crcByte sig.toNat (bundle % 256)) (bundle / 256))

/-- One step of a repetition (R254). -/
def repNext (p : Prim) (r : Rep) : Prim :=
  let o := if r.j = 0 then r.o else r.o + 1
  if r.b + 1 < r.n then { p with rep := some { r with b := r.b + 1, o := o } }
  else if r.j + 1 < r.count then { p with rep := some { r with b := 0, j := r.j + 1, o := o } }
  else { p with rep := none, pc := o }

/-- The primary moves on after a bundle has issued (R251, R254). -/
def advancePrim (size : Nat) (c : Core) : Core :=
  let p := c.p
  let p1 := match c.cyc.repNew, p.rep, p.xfer with
    | some r, _, _ => { p with rep := some r, pc := r.body }
    | none, some r, _ => repNext p r
    | none, none, some t => { p with pc := t, xfer := none }
    | none, none, none => { p with pc := (p.pc + 1) % size, xfer := c.cyc.taken }
  { c with p := { p1 with
      iss := p.iss + 1, v1Busy := p1.v1Busy - 1, slotDue := c.cyc.xferred,
      sig := if c.cyc.taken.isSome then sigUpdate p.sig p.pc else p.sig } }

/-! ### Counters (R429) -/

/-- Events of one code that a counter counts. -/
def evCount (c : Core) (code unit : Nat) : Nat :=
  (c.evs.filter (fun e => e.1 = code && (unit = 15 || e.2 = 15 || e.2 = unit))).length

def countCycle (c : Core) : Core :=
  let one (i : Nat) : Nat :=
    let k := c.cntcfg.getD i 0
    let v := c.cnt.getD i 0
    if k.getLsbD 63 then (v + evCount c (bits k.toNat 7 0) (bits k.toNat 11 8)) % 2 ^ 48 else v
  { c with cnt := (List.range 4).map one, evs := [] }

/-! ### The end of a core's cycle -/

/-- The primary's results go on: it issues, waits, or has halted (R132, R226, R386). -/
def primGoes (c : Core) : Bool :=
  !c.cyc.trapped && (match c.run with
    | .run => true
    | .wait => true
    | .halted => true
    | _ => false)

/-- The release check of a CKPT or HALT (R226, R381, R383): cause, value and slot of its trap. -/
def releaseCheck (c : Core) : Option (Nat × Nat × Nat) :=
  if c.cyc.trapped then none
  else if c.cyc.ckpt || c.cyc.halt.isSome then
    let k := if c.cyc.ckpt then 7 else 1
    match releaseFail c.fences (allWithheld c) c.tapring c.gate with
    | some e => some (e.1, e.2, k)
    | none => if c.cyc.ckpt && 64 < captured c then some (cPENDING, 0, 7) else none
  else none

/-- The lane occupancies fall by one cycle (R260, R301). -/
def tickBusy (c : Core) : Core :=
  { c with
    p := if primGoes c then { c.p with kBusy := c.p.kBusy - 1, vtBusy := c.p.vtBusy - 1 } else c.p,
    helpers := c.helpers.map (fun x => { x with kBusy := x.kBusy - 1 }) }

/-- The restore of R386 counts its cycles; at its end the region issues again, or the policy applies. -/
def tickRestore (c : Core) : Core :=
  match c.run with
  | .restore n soft cause =>
    if c.cyc.trapped then c
    else if n ≤ 1 then endRestore c else { c with run := .restore (n - 1) soft cause }
  | _ => c

/-- The shadow captured and a new region opened (R381 step 3). -/
def capture (region : Nat) (c : Core) : Core :=
  { c with shadow := c.p, region := region, retry := false, since := 0, fTaken := [], hTaken := [], listSave := [],
           listCk := c.lists }

/-- Acquiring operations that have returned no longer hold their helper (R116). -/
def tickAcq (c : Core) : Core :=
  { c with helpers := (List.zip (List.range 10) c.helpers).map (fun e => match e.2.acq with
      | some d => if (hPendRegs e.1 c).contains d then e.2 else { e.2 with acq := none }
      | none => e.2) }

/-- A full inbox starts helper 9 (R233). -/
def wakeNine (c : Core) : Core :=
  match c.inboxEntry with
  | some en =>
    if 64 ≤ c.inbox.length && freeState (c.helper 9) && c.run ≠ .ended then
      let x := c.helper 9
      { c.setHelper 9 { helper0 with
          st := .live, pc := en, x := spSet 0 [] 1 64, wake := c.age + 2, adv := x.adv, iss := x.iss, dport := x.dport,
          dtok := x.dtok, trapv := x.trapv } with wakes := min (c.wakes + 1) 0xFFFF }
    else c
  | none => c

/-- Messages of the primary left for the next cycle at the injection port (R218): `inj` counts those that have left it, or stand
at it. -/
def backlog (c : Core) : Nat := c.cyc.inj - 4

/-- THE END OF A CORE'S CYCLE, in order: the release of a CKPT or HALT, port writes and released stores, landings, the
program counter, the units' occupancies, the shadow, engines, counters. -/
def endCore (c1 : Core) : Core :=
  let rel := !c1.cyc.trapped && (c1.cyc.ckpt || c1.cyc.halt.isSome)
  let cp := popInbox (primGoes c1) c1
  let r := if rel then releaseAll cp
           else ({ cp with withheld := allWithheld cp, newWith := [] }, [])
  let region := slotBundle c1.p 7
  let c2 := spPuts r.2 (spPuts c1.cyc.portWr r.1)
  let goes := primGoes c2
  let c3 := landAll goes c2
  let size := if c3.num < 512 then 16384 else 2049
  let c4 := if c3.cyc.issued && !c3.cyc.trapped then
      (let k := advancePrim size { c3 with since := c3.since + 1 }
       match c3.cyc.halt with
       | some m => { k with run := .halted, retain := some m }
       | none => { k with run := .run })
    else c3
  let c5 := tickBusy c4
  let c6 := tickRestore (if c5.cyc.ckpt && !c5.cyc.trapped then capture region c5 else c5)
  let c7 := tickAcq (matEnd (copyEnd c6))
  countCycle { c7 with evs := if c7.cyc.trapped then c7.evs ++ [(0x11, 15)] else c7.evs, lift := c7.lift.map (fun e => (e.1, e.2.1 - 1, e.2.2)) }

end Sys2Proof.Machine
end

