-- ==== Sys2Proof/Machine/Cycle.lean ====
section
/-! DEFINITION. A core's cycle from its start to the helpers' turn: what the cycle sees, waiting accesses (02 R62), the
primary's bundle (08 R214, 16 R386), the engines' ranks, the barrel's picks. -/

namespace Sys2Proof.Machine

/-! ### Waiting accesses (R61, R62, R113, R114) -/

def dropFlight (f : Flight) (c : Core) : Core :=
  { c with p := { c.p with flights := c.p.flights.filter (· ≠ f) }, hflights := c.hflights.filter (· ≠ f) }

def takeTurns (bs : List Nat) (c : Core) : Core :=
  { c with cyc := { c.cyc with turns := c.cyc.turns ++ bs, used := c.cyc.used ++ bs } }

/-- One flight seeks its ports; one still waiting is a cycle of lengthening, and a suspended hold keeps its banks (R114). -/
def pumpOne (c : Core) (f : Flight) : Core :=
  let r := pump f (dropFlight f c)
  match r.1 with
  | none => r.2
  | some g =>
    let c1 := addFlight g r.2
    let c2 := { c1 with evs := c1.evs ++ [(0x0A, 15)] }
    if holding f && g.accs = f.accs then takeTurns (f.accs.flatMap Acc.holds) c2 else c2

/-- An access of rank 1 (R62, R64): served when its bank is free, else it waits. -/
def serveR1 (c : Core) (r : R1) : Core :=
  let b := bankOf r.addr
  if c.cyc.turns.contains b then
    { c with r1 := c.r1 ++ [{ r with waited := r.waited + 1 }], evs := c.evs ++ [(0x0A, 15)] }
  else
    let c1 := takeTurns [b] c
    let d := if r.data = none then memBytes c1.sp r.addr r.len else []
    { c1 with cyc := { c1.cyc with served := c1.cyc.served ++ [(r, d)] } }

/-- Ranks 1 and 2 as they wait at the start of a cycle: window accesses, holds in progress, accesses of earlier cycles.
A helper's hold in progress goes on in a cycle whose M slot holds HOLD (DESIGN CHOICE, assumption 127). -/
def phaseA (primToo : Bool) (c0 : Core) : Core :=
  let c1 := c0.r1.foldl serveR1 { c0 with r1 := [] }
  let mine := if primToo then c1.p.flights else []
  let holds := sortFlights ((mine ++ c1.hflights).filter holding)
  let c2 := holds.foldl pumpOne c1
  let wait := sortFlights (mine.filter (fun f => !holding f && seeking f && f.seek < c1.age * 8))
  wait.foldl pumpOne c2

/-- A cycle passes for accesses still to come; those due now seek their port as K-slot accesses of this cycle (R302). -/
def tickDelay (age : Nat) (f : Flight) : Flight :=
  if f.delay = 0 then f
  else if f.delay = 1 && f.accs ≠ [] then { f with delay := 0, seek := age * 8 + 6 }
  else { f with delay := f.delay - 1 }

/-- The primary's later accesses of this cycle (R302). -/
def latePorts (c : Core) : Core :=
  (c.p.flights.filter (fun f => seeking f && f.seek = c.age * 8 + 6)).foldl pumpOne c

/-- An access of a helper's K operation made after its issue: it ranks as one of the K slot (R302). -/
def lateAcc (f : Flight) : Bool := seeking f && !holding f && classOf f.ins = some .K

/-- Helpers' vector stores and loads made after their issue, at rank 5 (R62, R118); `only` leaves out all but stores. -/
def helperPorts (only : Bool) (c : Core) : Core :=
  (sortFlights (c.hflights.filter (fun f => seeking f && !holding f && !lateAcc f && (!only || writes f)))).foldl pumpOne c

/-- Helpers' later K accesses, after the operations picked for M and before the one picked for K (R62, R302). -/
def lateKs (c : Core) : Core := (sortFlights (c.hflights.filter lateAcc)).foldl pumpOne c

/-! ### The start of a core's cycle -/

/-- A LIVE helper's position is that of its next operation (R222). -/
def State.atNext (s : State) (num : Nat) (x : Helper) : Helper :=
  if x.st = .live then { x with pos := (match s.hNext num x with
    | .op p => p
    | .bad p => p
    | .empty => min x.pos 4) }
  else x

/-- Registers that a phase of the cycle may change, as they stand at its start (R246). -/
def State.viewRegs (s : State) (num jobt : Nat) (c : Core) : List (Nat × Word) :=
  let hs := (List.range 10).map (fun h => (0x30 + h,
    hstatOf (s.atNext num (c.helper h)) (if (c.helper h).st = .live then s.waitCode num c h jobt else 0)))
  let adv := (List.range 10).map (fun h => (0x40 + h, hadvOf (c.helper h)))
  let den := (List.range 10).map (fun h => (0x50 + h, hdenOf (c.helper h)))
  let tv := (List.range 10).map (fun h => (0x60 + h, (c.helper h).trapv))
  hs ++ adv ++ den ++ tv
  ++ [0x10, 0x11, 0x12, 0x13, 0x18, 0x19, 0x1B, 0x1D, 0x101, 0x200, 0x400, 0x500, 0x501, 0x502, 0x503, 0x504].map
      (fun n => (n, ctrlOf (primFocus num c 0 1 jobt s.tick) c n))

/-- A helper's WAIT code as the start of the cycle gave it. -/
def viewWait (c : Core) (h : Nat) : Nat :=
  match c.cyc.view.find? (fun e => e.1 = 0x30 + h) with
  | some e => bits e.2.toNat 7 5
  | none => 0

/-- Slots of the next bundle that hold NIL, among those advertised (R214). -/
def State.nilSlots (s : State) (num : Nat) (p : Prim) : List Nat :=
  [0, 1, 2, 5, 7].filter (fun k => slotWord (s.bundleAt num (slotBundle p k)) k = 0)

def allSlots : List Nat := [0, 1, 2, 5, 7]

/-- Grid words the bundle reads (R47). -/
def bundleWords (ops : List Instr) : List Nat := wordsOf (ops.flatMap gridReads)

/-- Tokens the primary's slots take (R445). -/
def bundleTokens (ops : List Instr) : Nat :=
  natSum ((List.zip (List.range 8) ops).map (fun e => if isNil e.2 then 0 else slotCharge e.1))

/-- The counter event of a wait (R429). -/
def waitEvents : Instr → List (Nat × Nat)
  | .twait _ _ => [(0x02, 15), (0x03, 15)]
  | .fwait _ _ => [(0x02, 15), (0x04, 15)]
  | .hwait _ _ => [(0x02, 15), (0x04, 15)]
  | .hfree _ _ => [(0x02, 15), (0x04, 15)]
  | .mwait _ => [(0x02, 15), (0x04, 15)]
  | .lwait _ => [(0x02, 15), (0x04, 15)]
  | _ => [(0x02, 15)]

/-- A CKPT or HALT that must wait (R143, R226, R381). -/
def releaseWaits (ops : List Instr) (c : Core) : Bool :=
  ((match ops.getD 7 .nilY with
    | .ckpt => true
    | _ => false) || (match ops.getD 1 .nilI with
    | .halt _ => true
    | _ => false))
  && (trapDue c || !roomFor c (allWithheld c) ops)

/-- What the primary does in this cycle. -/
inductive PrimDo
  /-- the trap cycle of an operation of an earlier bundle (R458) -/
  | deferred
  | illegal (slot : Nat)
  | late
  /-- a gateway's next bundle would be bundle 2,048 (R414) -/
  | beyond
  /-- an unmet wait of the Y slot -/
  | waitY
  | waitRoom
  | issue
  /-- restoring, halted -/
  | quiet
  /-- stopped, frozen, over -/
  | off
  deriving DecidableEq, Repr

/-- A result of the primary whose trap cycle this is (R458). -/
def trapNow (c : Core) : Bool :=
  c.p.pend.any (fun e => e.rem ≤ 1 && e.effs.any (fun x => match x with
    | .trap _ _ => true
    | _ => false))

/-- A gateway's bundle has no NIL-slot advertisement and no checkpoint. -/
def isGate (c : Core) : Bool := 512 ≤ c.num

/-- Scalar registers that an operation of a gateway reads: as a primary's, the pointers of its vector accesses are in the
address file (R44, R414). -/
def gateReads (i : Instr) : List Nat := match i with
  | .mva _ x => [x.toNat]
  | .mtc d _ => [d.toNat]
  | .vld _ _ _ _ => []
  | .vst _ _ _ _ => []
  | .vldx _ _ _ => []
  | .vstx _ _ _ => []
  | _ => srcs i

/-- A gateway's bundle reads the destination of an outstanding GLD or GATOM (R414). -/
def gateWaits (ops : List Instr) (c : Core) : Bool :=
  isGate c && (ops.flatMap gateReads).any (fun r => (c.helper 0).gdst.contains r)

/-- The slots of a bundle in the order they are put to work: a gateway's global access first, so that nothing of a bundle that
faults has been done (R414; assumption 130). -/
def slotOrder (gate : Bool) (ops : List Instr) (l : List Nat) : List Nat :=
  let glob := match ops.getD 2 .nilM with
    | .gld _ _ _ _ => true
    | .gst _ _ _ _ => true
    | .gatom _ _ _ _ _ => true
    | _ => false
  if gate && glob then 2 :: l.filter (fun k => k ≠ 2) else l

/-- What the primary does in this cycle: a trap that is due comes first, then the checks at decode, then what it waits for.
DESIGN CHOICE (assumption 25): landings that a wait or a busy port moves are judged in the cycle in which the bundle would issue;
a bundle that waits is not refused for them. -/
def State.primDo (s : State) (num : Nat) (c : Core) (fos : Nat → Focus) (ops : List Instr) : PrimDo :=
  let go : PrimDo :=
    if isGate c && 2048 ≤ c.p.pc then .beyond
    else if trapNow c then .deferred
    else match s.illegalSlot num c fos with
    | some k => .illegal k
    | none =>
      if !isGate c && 4096 ≤ c.since && ops.getD 7 .nilY ≠ .ckpt then .late
      else if isWait (ops.getD 7 .nilY) && waitEval (fos 7) c (ops.getD 7 .nilY) = .unmet then .waitY
      else if releaseWaits ops c || gateWaits ops c then .waitRoom
      else match s.landSlot num c fos with
        | some k => .illegal k
        | none => .issue
  match c.run with
  | .run => go
  | .wait => go
  | .restore _ _ _ => .quiet
  | .halted => .quiet
  | _ => .off

/-- A primary that is to be pre-empted and waits rolls back and stops, without a record (R393). -/
def stopWaiting (c : Core) : Core := if c.preempt then { rollback c with run := .stopped, evs := c.evs ++ [(0x11, 15)] } else c

/-- Helper `h` stands at a PHASE (R136). -/
def State.phaseNext (s : State) (num : Nat) (c : Core) (h : Nat) : Bool :=
  let x := c.helper h
  x.st = .live && (match s.hNext num x with
    | .op p => (match s.hOp num x p with
      | .ok .phase => true
      | _ => false)
    | _ => false)

/-- The core with what the cycle looks at: age, budget, gate, fences of the cluster, registers as they stand (R246). -/
def State.cycleView (s : State) (num jobt : Nat) (c : Core) (fences : List Nat) (gate : Nat) : Core :=
  let c1 := { c with
    age := c.age + 1, budget := s.fld 0x128 7 0, gate := gate, winFence := fences,
    cyc := { cyc0 with inj := backlog c, view := s.viewRegs num jobt { c with gate := gate }, trig := c.cyc.trig, out := c.cyc.out,
                         entering := min c.recvHeld.length (64 - c.inbox.length),
                         seals := (List.range 5).map (sealedOf c) },
    phaseWb := c.run = RunState.halted || c.preempt || (List.range 10).any (s.phaseNext num c) }
  let f := tickDelay c1.age
  { c1 with
    p := (match c1.run with
      | .run => { c1.p with flights := c1.p.flights.map f }
      | .wait => { c1.p with flights := c1.p.flights.map f }
      | .halted => { c1.p with flights := c1.p.flights.map f }
      | _ => c1.p),
    hflights := c1.hflights.map f }

/-- The fences of the five cores of a core's cluster (R357). -/
def State.clusterFences (s : State) (num : Nat) : List Nat :=
  (List.range 5).map (fun k => match s.core (siblingOf num k) with
    | some c => c.fences
    | none => 0)

/-- No part in a launch: nothing goes on (R212, R226). -/
def clockStopped (c : Core) : Bool := c.run = .ended || c.run = .idle

/-- The cycle of a frozen core: copy bursts already started go on, all else stands (R161, R419); a command that fails and has
come to the head so stops its queue, and what has triggered in the cycle is recorded (R423). -/
def State.frozenCore (s : State) (num : Nat) (c : Core) : State :=
  let qs := (List.range 4).filter (fun q => (c.cq q).burst.isSome)
  if qs = [] && c.cyc.trig = [] then s
  else { s with
    cores := putCore s.cores num
      { c with
        eng := { c.eng with rd := false },
        cyc := { cyc0 with inj := backlog c, trig := c.cyc.trig, out := c.cyc.out, still := true } },
    agenda := qs.flatMap (fun q => [Work.event num (.copyBurst num q), Work.event num (.queueStop num q)])
      ++ [Work.endCore num] ++ s.agenda }

/-- The cluster-window stores served in this cycle: they stand at its end, before the primary's released stores (R64,
R109). -/
def storesServed (num : Nat) (c : Core) : List Instr :=
  c.cyc.served.filterMap (fun e => e.1.data.map (fun d => .clusterWindowStore e.1.src num e.1.addr d))

/-- Where an illegal slot stands: with an active repetition whose body slot is fine, in the ordinary stream's bundle (R98
case 7, R391). -/
def State.illegalAt (s : State) (num : Nat) (p : Prim) (k : Nat) (fo : Focus) : Focus :=
  match p.rep, s.slotOp num p k with
  | some r, .ok _ => if s.ordinaryBad num p k then { fo with bundle := r.o } else fo
  | _, _ => fo

/-- THE START OF A CORE'S CYCLE: what waits is served, the primary's bundle is fetched and judged, and the slots it issues
are put to work, with the engines, the barrel and the cycle's end behind them. A waiting bundle keeps its HOLD slots at its
later evaluations too (R80, R214; assumption 139). -/
def State.beginCore (s : State) (num : Nat) : State :=
  match s.core num with
  | none => s
  | some c0 =>
    if clockStopped c0 then s
    else if c0.frozen then s.frozenCore num c0
    else
      let jobt := s.jobTime c0.lctx
      let gate := (spGet cluster0 s.clusters (clusterNo num)).gate
      let c1 := s.cycleView num jobt c0 (s.clusterFences num) (if isGate c0 then 0 else gate)
      let goes := c1.run = .run || c1.run = .wait || c1.run = .halted
      let ops0 := (s.nextSlots num c1.p).map okOr
      let words := bundleWords ops0
      let fos (k : Nat) : Focus := primFocus num c1 k (beatsOf words) jobt s.tick
      let c2 := phaseA goes c1
      let what := s.primDo num c2 fos ops0
      let c3 := { c2 with cyc := { c2.cyc with base := (c2.cyc.turns, c2.cyc.used) } }
      let waited := c1.run = .wait
      let nils := s.nilSlots num c1.p
      let adv (l : List Nat) (c : Core) : Core :=
        if c.preempt || isGate c then c
        else { c with cyc := { c.cyc with adv := l }, evs := c.evs ++ l.map (fun _ => (0x05, 15)) }
      let first := if waited then allSlots.filter (fun k => !isHold (ops0.getD k .nilI)) else nils
      let tail := [Work.ports num, Work.matrix num, Work.copy num, Work.pick num] ++ (storesServed num c2).map (Work.event num)
        ++ [Work.endCore num]
      let put (c : Core) (w : List Work) : State :=
        { s with cores := putCore s.cores num { c with evs := c.evs ++ [(0x00, 15)] }, agenda := w ++ tail ++ s.agenda }
      match what with
      | .off => put c3 []
      | .quiet => put (adv allSlots c3) []
      | .deferred => put (adv first c3) [.event num .deferredTrap]
      | .illegal k =>
        let t := takeTrap (s.illegalAt num c3.p k (fos k)) cILLEGAL 0 c3
        let t1 := adv first t
        put { t1 with cyc := { t1.cyc with hidden := first } } []
      | .late => put (adv first (takeTrap (fos 7) cWITHHOLD 0 c3)) []
      | .beyond => put (takeTrap { fos 0 with bundle := 2047 } cJUMPRANGE 0 c3) []
      | .waitY =>
        if c3.preempt then put (stopWaiting c3) []
        else put { adv first c3 with evs := (adv first c3).evs ++ waitEvents (ops0.getD 7 .nilY) }
          [.slot num (if isGate c3 then .gate else .prim) 7]
      | .waitRoom =>
        if c3.preempt then put (stopWaiting c3) []
        else put { adv first c3 with run := .wait, evs := (adv first c3).evs ++ [(0x02, 15)] } []
      | .issue =>
        let full := (List.range 8).filter (fun k => !isNil (ops0.getD k .nilI))
        let a := adv first c3
        let c4 := { a with
          run := .run,
          evs := a.evs ++ [(0x01, 15)] ++ List.replicate (beatsOf words - 1) (0x09, 15),
          cyc := { a.cyc with
            issued := true, xferred := ops0.any isTransfer, words := words, tokens := bundleTokens ops0, provisional := waited,
            hidden := if waited then full.filter (fun k => allSlots.contains k) else [],
            hold := isHold (ops0.getD 2 .nilM), met := [10] } }
        put c4 ((slotOrder (isGate c3) ops0 full).map (fun k => Work.slot num (if isGate c3 then .gate else .prim) k))

/-! ### The engines' turn and the barrel -/

/-- A bundle that traps does not issue: no port, token or count of it stands, and no access of it goes out (R99, R386). -/
def unissue (c : Core) : Core :=
  { c with
    evs := c.evs.filter (fun e => e.1 ≠ 0x01 && e.1 ≠ 0x09),
    cyc := { c.cyc with
      turns := c.cyc.base.1, used := c.cyc.base.2, issued := false, ckpt := false, halt := none, tokens := 0,
      words := List.replicate 8 0,
      out := c.cyc.out.filter (fun e => match e with
        | (.prim, .xld _ _ _ _) => false
        | _ => true) } }

/-- The release check of a CKPT or HALT in its issue cycle: if it fails the bundle traps (R226, R381). -/
def checkRelease (jobt : Nat) (c : Core) : Core :=
  match releaseCheck c with
  | some e => primTrap e.1 e.2.2 (slotBundle c.p e.2.2) (BitVec.ofNat 64 e.2.1) jobt c
  | none => c

/-- After the primary's slots: its later accesses and the release check; then the ports are free for ranks 3 to 5 unless a
transfer used them (R62, R317). -/
def portsPhase (jobt : Nat) (c : Core) : Core :=
  let c0 := if c.cyc.trapped then c else checkRelease jobt (latePorts c)
  let c1 := if c0.cyc.trapped then unissue c0 else c0
  { c1 with cyc := { c1.cyc with turns := c1.cyc.used } }

/-- The same at a core. -/
def State.portsTurn (s : State) (num : Nat) : State :=
  s.modCore num (fun c => portsPhase (s.jobTime c.lctx) c)

/-- The ports as helpers find them: outstanding stores are written first (R118); a HOLD in M keeps every port from all else
that helpers do (R80; DEDUCED, assumption 26: stores already outstanding go through). -/
def helperTurns (c : Core) : Core :=
  let hold := c.cyc.hold && !c.cyc.trapped
  let c1 := helperPorts hold { c with cyc := { c.cyc with turns := c.cyc.used } }
  if hold then { c1 with cyc := { c1.cyc with turns := [0, 1, 2] } } else c1

/-- A LIVE helper that stands before a bundle it cannot issue from (R90): an illegal form traps, an empty bundle is
passed. -/
def State.enterBundle (s : State) (num : Nat) (c : Core) (h : Nat) : Core :=
  let x := c.helper h
  if x.st = .live && x.wake ≤ c.age then
    match s.hNext num x with
    | .empty =>
      if x.pc = 16383 then (if gramOut h c then c else helperTrap h cJUMPRANGE 16383 (min x.pos 4) c)
      else c.setHelper h { x with pc := x.pc + 1, pos := 0 }
    | _ => c
  else c

/-- Helpers whose bundle is of illegal form stop with this cycle, a grammar operation still out or not (R90; a trap of that
operation in its own trap cycle then takes the form trap's place: assumption 128). -/
def State.badHelpers (s : State) (num : Nat) (c : Core) : List Nat :=
  (List.range 10).filter (fun h =>
    let x := c.helper h
    x.st = .live && x.wake ≤ c.age && (match s.hNext num x with
      | .bad _ => true
      | _ => false))

/-- HELPER_BUNDLE_ILLEGAL (R90). -/
def State.bundleIllegal (s : State) (num h : Nat) : State :=
  match s.core num with
  | none => s
  | some c =>
    let x := c.helper h
    match s.hNext num x with
    | .bad p => if x.st = .live then s.setCore num (helperTrap h cILLEGAL x.pc p c) else s
    | _ => s

/-- The slot of its own bundle that a picked helper issues from: an I-class operation may issue in either I slot (R217). -/
def State.ownSlot (s : State) (num : Nat) (c : Core) (h k : Nat) : Nat :=
  match s.hNext num (c.helper h) with
  | .op p => posSlot p
  | _ => k

/-- THE BARREL'S TURN (R217): accesses of helpers still to come, then the picks, put to work in slot order. -/
def State.pickPhase (s : State) (num : Nat) : State :=
  match s.core num with
  | none => s
  | some c0 =>
    let c1 := helperTurns c0
    let ready := s.readyKind num c1 (viewWait c1)
    let r := pickSlots ready c1.cyc.adv [] c1
    let go := !c1.preempt && c1.run ≠ .stopped
    let bad := if go then s.badHelpers num c1 else []
    let c2 := if go then (List.range 10).foldl (s.enterBundle num) r.1 else r.1
    let work (l : List (Nat × Nat)) : List Work := l.map (fun e => Work.slot num (.helper e.2) (s.ownSlot num c1 e.2 e.1))
    { s with
      cores := putCore s.cores num { c2 with cyc := { c2.cyc with met := c2.cyc.met ++ r.2.map (·.2) } },
      agenda := bad.map (fun h => Work.event num (.helperBundleIllegal num h))
        ++ work (r.2.filter (fun e => e.1 < 3)) ++ (if c2.hflights.any lateAcc then [Work.lateK num] else [])
        ++ work (r.2.filter (fun e => 3 ≤ e.1)) ++ s.agenda }

/-- The matrix engine's events of the cycle, then its run. -/
def State.matrixPhase (s : State) (num : Nat) : State :=
  match s.core num with
  | none => s
  | some c =>
    { s with
      agenda := (if c.upper || isGate c then [] else (matEvents (s.partnerAccepted c) c).map (Work.event num) ++ [Work.matrixRun num]) ++ s.agenda }

/-- The array, the exchange path and the fill from global memory move on; completions follow. An MMUL whose other conditions
held at the start of the cycle and that has not started waits for tokens (R445). -/
def State.matrixGo (s : State) (num : Nat) : State :=
  let s1 := ((s.modCore num (fun c =>
    matRun { c with mat := { c.mat with tokWait := tokWaits c } })).swapSend num).fillGlobal num
  match s1.core num with
  | none => s1
  | some c => s1.soon num (matDoneEvents c)

/-- The copy engine's events of the cycle. -/
def State.copyPhase (s : State) (num : Nat) : State :=
  match s.core num with
  | none => s
  | some c0 =>
    let c := (List.range 4).foldl handOver (copyBegin c0)
    { s with
      cores := putCore s.cores num c,
      agenda := (if isGate c then [] else (copyEvents num (s.jobTime c.lctx) c).map (Work.event num)) ++ s.agenda }

/-! ### Slots -/

/-- The focus of a slot put to work. -/
def State.slotFocus (s : State) (num : Nat) (who : Ctx) (slot : Nat) (c : Core) : Focus :=
  let b := beatsOf c.cyc.words
  let j := s.jobTime c.lctx
  match who with
  | .helper h => helpFocus num h slot (c.helper h).pc b j s.tick
  | _ => primFocus num c slot b j s.tick

/-- The operation a slot put to work holds. -/
def State.slotInstr (s : State) (num : Nat) (who : Ctx) (slot : Nat) (c : Core) : Except Reject Instr :=
  match who with
  | .helper h => decodeSlot (slotCls slot) (slotWord (s.bundleAt num (c.helper h).pc) slot)
  | _ => s.slotOp num c.p slot

/-- A helper's picked FWAIT that the primary's of the same cycle no longer lets issue (R133). -/
def staleWait (fo : Focus) (c : Core) (i : Instr) : Bool :=
  match i with
  | .fwait _ _ => legal fo c i && decide (waitEval fo c i = .unmet)
  | _ => false

/-- What stands before a slot's operation: none when it is to be executed; otherwise the state in which it is not
(R133, R218). -/
def State.slotHeld (s : State) (who : Ctx) (fo : Focus) (c : Core) (i : Instr) : Option State :=
  match who with
  | .helper h =>
    if !legal fo c i then none
    else if staleWait fo c i then some s
    else match denial fo c i with
      | some tok => some (s.setCore fo.core (deny h tok c))
      | none => none
  | _ => none

/-- A helper whose operation was refused or trapped before it could take effect. -/
def helperStopped (c : Core) (h : Nat) : Bool := (c.helper h).st ≠ .live

/-- What follows a slot's operation: a helper's counts and moves on; one found ILLEGAL does not count (R100, R220). -/
def slotDone (who : Ctx) (fo : Focus) (c : Core) (i : Instr) (t : State) : State :=
  match who with
  | .helper h => if !legal fo c i then t else t.modCore fo.core (t.hIssued fo.core h fo.slot i)
  | _ => t

/-- A slot whose word does not decode: ILLEGAL (R98 to R100). -/
def State.slotIllegal (s : State) (fo : Focus) : State := s.modCore fo.core (takeTrap fo cILLEGAL 0)

/-- A slot of a bundle that has already trapped does nothing more (R386). -/
def slotDead (who : Ctx) (c : Core) : Bool :=
  match who with
  | .helper h => helperStopped c h
  | _ => c.cyc.trapped

end Sys2Proof.Machine
end

