-- ==== Sys2Proof/Machine/Hub.lean ====
section
/-! DEFINITION. Shared operations of the hub: memory of a context, command streams and their DONE, completion records,
buffer lists, the finish of a launch, the start of a kill, causes and triggers of halt waves (06 R186, R187, R191, 15 R358 to
R361, 16 R399, 18 R417 to R423). -/

namespace Sys2Proof.Machine

/-! ### Memory of a context, as the hub reads and writes it (R29) -/

/-- The physical address of a virtual one, when it translates. -/
def State.hubXl (s : State) (ctx va : Nat) (k : Acces) : Option Xl × State :=
  match s.xlate 0 .hubAgent ctx va k with
  | (.ok t, s1) => (some t, s1)
  | (.error _, s1) => (none, s1)

/-- Bytes of a context's memory, page by page; none when a page does not translate. -/
def State.ctxRead (s : State) (ctx va : Nat) : Nat → Nat → Option (List Byte) × State
  | 0, n => (if n = 0 then some [] else none, s)
  | k + 1, n =>
    if n = 0 then (some [], s)
    else
      let m := min n (0x10000 - va % 0x10000)
      match s.hubXl ctx va .read with
      | (none, s1) => (none, s1)
      | (some t, s1) =>
        let r := s1.homeRead t.coh t.pa (m / 64 + 2) m
        match State.ctxRead r.2 ctx (va + m) k (n - m) with
        | (some l, s2) => (some (r.1 ++ l), s2)
        | (none, s2) => (none, s2)

/-- Reads with enough pages. -/
def State.ctxBytes (s : State) (ctx va n : Nat) : Option (List Byte) × State := s.ctxRead ctx va (n / 0x10000 + 2) n

/-- Bytes written to a context's memory, page by page; a page that does not translate is passed over. -/
def State.ctxWrite (s : State) (ctx va : Nat) : Nat → List Byte → State
  | 0, _ => s
  | k + 1, d =>
    if d = [] then s
    else
      let m := min d.length (0x10000 - va % 0x10000)
      let s2 := match s.hubXl ctx va .write with
        | (none, s1) => s1
        | (some t, s1) => s1.homeWrite t.coh t.pa (m / 64 + 2) ((d.take m).map some)
      State.ctxWrite s2 ctx (va + m) k (d.drop m)

def State.ctxPut (s : State) (ctx va : Nat) (d : List Byte) : State := s.ctxWrite ctx va (d.length / 0x10000 + 2) d

/-- Doublewords as bytes. -/
def dwBytes (l : List Word) : List Byte := l.flatMap (fun w => leBytes 8 w.toNat)

/-! ### Posts of the hub and of engines (R147, R148) -/

/-- A completion post in the form of R147: PV, PCORE, PCOUNT, PFLAG of a doubleword. -/
def State.postWord (s : State) (ctx : Nat) (w : Nat) : State :=
  if bit w 53 then
    let dst := s.nowCtx ctx (bits w 52 44)
    let t := s.postTime 512 dst
    t.2.send t.1 512 ctx (.post dst (bits w 36 32) (bits w 43 37))
  else s

/-! ### Command streams (R358) -/

def strReg (m off : Nat) : Nat := 0x2000 + 64 * m + off

def State.strCtx (s : State) (m : Nat) : Nat := s.fld (strReg m 8) 58 55
def State.strCls (s : State) (m : Nat) : Nat := s.fld (strReg m 8) 62 61

/-- DONE advances over the packets that have finished, in order (R358). -/
def State.advanceDone (s : State) (m : Nat) : Nat → State
  | 0 => s
  | k + 1 =>
    let d := (s.fld (strReg m 0x20) 31 0 + 1) % 2 ^ 32
    if s.finished.contains (m, d) then
      State.advanceDone ({ s with finished := s.finished.erase (m, d) }.setFld (strReg m 0x20) 31 0 d) m k
    else s

/-- The packet of a stream with a sequence number has finished. -/
def State.finishSeq (s : State) (m seq : Nat) : State :=
  { s with finished := s.finished ++ [(m, seq)] }.advanceDone m (s.finished.length + 1)

/-- A completion record (R361) at a virtual address of the context; address 0 stands for none. -/
def State.record (s : State) (ctx addr : Nat) (dws : List Word) : State := s.ctxPut ctx (addr / 32 * 32) (dwBytes dws)

/-- Doubleword 0 of a record. -/
def recDw0 (status cause : Nat) (late infeas pre : Bool) (seq : Nat) : Word :=
  BitVec.ofNat 64 (status * 2 ^ 56 + cause % 256 * 2 ^ 48 + b2n late * 2 ^ 47 + b2n infeas * 2 ^ 46 + b2n pre * 2 ^ 45
    + seq % 2 ^ 32)

/-- A packet that is no launch finishes: record, then DONE (R361). -/
def State.finishPacket (s : State) (m seq ctx addr status cause : Nat) : State :=
  (s.record ctx addr [recDw0 status cause false false false seq, 0, BitVec.ofNat 64 (s.jobTime ctx), 0]).finishSeq m seq

/-! ### Buffer lists (R186, R187) -/

def pktD (l : Launch) (i : Nat) : Nat := (l.pkt.getD i 0).toNat

/-- Entries of a packet's buffer list: address, mode, length. -/
def bufList (pkt : List Word) : List (Nat × Nat × Nat) :=
  (List.range (bits (pkt.getD 0 0).toNat 59 56)).map (fun b =>
    let d0 := (pkt.getD (28 + 2 * b) 0).toNat
    let d1 := (pkt.getD (29 + 2 * b) 0).toNat
    (bits d0 51 0, bits d1 63 61, bits d1 39 0))

/-- A buffer entry that rejects the packet (R186). -/
def bufBad (pkt : List Word) (b : Nat) : Bool :=
  let d0 := (pkt.getD (28 + 2 * b) 0).toNat
  let d1 := (pkt.getD (29 + 2 * b) 0).toNat
  bits d0 63 52 ≠ 0 || bits d0 5 0 ≠ 0 || 5 ≤ bits d1 63 61 || bits d1 60 40 ≠ 0 || bits d1 5 0 ≠ 0

/-- What the actions of a buffer list come to: pages skipped, whether host-window lines are to be flushed, the state. -/
structure Acted where
  skipped : Nat
  host : Bool
  st : State

/-- Bytes from `va` to the end of its page: of the size the leaf gives, a swapped one too; of 64 KiB where no leaf gives one. -/
def State.pageLeft (s : State) (ctx va : Nat) : Nat :=
  let z := match (s.walk 0 .hubAgent ctx va).1.res with
    | .ok l => pageSize (leafSize l.2.1)
    | .error _ => 0x10000
  z - va % z

/-- The lines of one range are written back, dropped when `drop`: page by page; a page that does not translate is skipped
and counted once; `host` says whether some page lies in this chip's host window. -/
def State.bufRange (s : State) (ctx va : Nat) (drop : Bool) : Nat → Nat → Acted
  | 0, _ => ⟨0, false, s⟩
  | k + 1, n =>
    if n = 0 then ⟨0, false, s⟩
    else
      let r : Acted × Nat := match s.hubXl ctx va .clean with
        | (none, s1) => (⟨1, false, s1⟩, min n (s1.pageLeft ctx va))
        | (some t, s1) =>
          let m := min n (0x10000 - va % 0x10000)
          (if chipOf t.pa = s1.chip then
            ⟨0, regionOf (localOf t.pa) = .host,
              s1.cleanLines drop (fun e => t.pa / 64 ≤ e.line && e.line < (t.pa + m) / 64)⟩
          else ⟨0, false, s1⟩, m)
      let r2 := State.bufRange r.1.st ctx (va + r.2) drop k (n - r.2)
      ⟨r.1.skipped + r2.skipped, r.1.host || r2.host, r2.st⟩

/-- The before- or after-actions of a list (R187). -/
def State.bufActions (s : State) (ctx : Nat) (after : Bool) (l : List (Nat × Nat × Nat)) : Acted :=
  l.foldl (fun (r : Acted) e =>
    let act := if after then e.2.1 = 2 || e.2.1 = 3 || e.2.1 = 4 else e.2.1 = 1 || e.2.1 = 3
    if act then
      let t := r.st.bufRange ctx e.1 (after && e.2.1 ≠ 4) (e.2.2 / 0x10000 + 2) e.2.2
      ⟨r.skipped + t.skipped, r.host || (t.host && e.2.1 = 4), t.st⟩
    else r) ⟨0, false, s⟩

/-! ### The finish of a launch (R361, R369) -/

/-- Clusters a launch stands on. -/
def boundNow (l : Launch) : Bool :=
  match l.state with
  | .preparing => true
  | .running => true
  | .preempting => true
  | .killing => true
  | _ => false

def dropRetained (l : List Retained) (p : Retained → Bool) : List Retained := l.filter (fun r => !p r)

/-- The charge left over at completion, if it falls in the window of the charge (R369). -/
def State.refund (s : State) (l : Launch) : State :=
  let used := 5 * l.need * (s.tick - l.dispT)
  if l.charge ≠ 0 && s.tick / 9400000 = l.window then
    s.setFld 0x1408 47 0 (s.fld 0x1408 47 0 - (l.charge - used))
  else s

/-- Circuit mode of a die (R170): every launch bound there asks for it with every stage. -/
def State.setNoc (s : State) : State :=
  (List.range 4).foldl (fun st d =>
    let on := st.launches.filter (fun l => l.clusters.any (fun cl => cl / 24 = d))
    st.setFld (0x1200 + 8 * d) 0 0 (b2n (on ≠ [] && on.all (fun l => l.stages.all Stage.circ)))) s

/-- A launch whose actions are done is over: record, DONE, counts; its clusters are free (R358, R361, R369). -/
def State.close (s : State) (l : Launch) (status cause : Nat) : State :=
  let jobt := s.jobTime l.ctx
  let late := status = 0 && l.cls = 0 && pktD l 2 < jobt
  let s1 := (s.refund l).record l.ctx (pktD l 7)
    [recDw0 status cause late l.infeas l.pre l.seq, BitVec.ofNat 64 l.relJob, BitVec.ofNat 64 jobt,
     BitVec.ofNat 64 (min l.discarded 0xFFFF * 2 ^ 48 + min l.skipped 0xFFFF * 2 ^ 32)]
  let s2 := if late then s1.countSat (strReg l.stream 0x28) 63 48 1 else s1
  let s3 := if status = 2 then s2.countSat (strReg l.stream 0x28) 47 32 1 else s2
  let s4 := if status = 3 then s3.setFld (strReg l.stream 0x28) 15 8 cause else s3
  ({ s4 with
    launches := s4.launches.filter (fun k => k.id ≠ l.id),
    faults := s4.faults.filter (fun f => !(imageCode l.id 0 ≤ f.core && f.core < imageCode l.id 512)),
    cores := s4.cores.filter (fun e => !(e.2.launch = l.id && e.1 < 512)) }.finishSeq l.stream l.seq).setNoc

/-- The hub, as the sender of a read on the host port. -/
def hubPort : Nat := 1023

/-- The hub's read on the host port for a context is out. -/
def State.hubReadOut (s : State) (ctx : Nat) : Bool :=
  s.reqs.any (fun r => r.agent = .hubAgent && r.core = hubPort && r.lctx = ctx)

/-- A launch finishes with a status and cause: the actions of its buffer list, and what follows them at once, or, where
posted writes to the host window are to be flushed, once a read on the host port has come back (R187, R361). -/
def State.finish (s : State) (id status cause : Nat) : State :=
  match s.launchOf id with
  | none => s
  | some l =>
    let acts := (status = 0 || status = 1 || status = 2) && !l.acted
    let b := if acts && status ≠ 0 then s.bufActions l.ctx false (bufList l.pkt) else ⟨0, false, s⟩
    let a := if acts then b.st.bufActions l.ctx true (bufList l.pkt) else b
    let k := { l with acted := true, skipped := l.skipped + b.skipped + a.skipped, state := .finished, status := status,
                      cause := cause }
    if a.host then
      ((a.st.modLaunch id (fun _ => k)).hostRead hubPort l.ctx).later (s.tick + 1) 0 (.launchComplete id)
    else a.st.close k status cause

/-! ### Kills (R399, R191) -/

/-- A copy command that a kill leaves unfinished sends no post and moves no graph node (R161): its PV and NV are gone. -/
def noPost (k : CopyCmd) : CopyCmd :=
  { k with c := { k.c with z := BitVec.ofNat 64 (setBits (setBits k.c.z.toNat 53 53 0) 60 60 0) } }

/-- A fill from the scratchpad ends with the chunk it has read: no new one starts (R299). -/
def lastChunk (u : MUnit) : MUnit := if (locOf u.c.x).isSome then { u with step := max u.step (fillTotal u.c) } else u

/-- A core of a killed launch: nothing new starts; bursts that have started complete, and a command that had finished sends
its post. -/
def killCore (c : Core) : Core :=
  { c with
    run := .stopped, preempt := true, frozen := false, withheld := [], newWith := [],
    p := { c.p with pend := [], flights := [], groups := [] },
    hpend := [], hgroups := [], hflights := [],
    helpers := c.helpers.map (fun x => { x with st := .free, reqs := [], gdst := [], ords := [], acq := none }),
    hc := [], sb := (c.sb.map (fun e => { e with parts := e.parts.filter (·.coh10) })).filter (fun e => e.parts ≠ []),
    eng := { c.eng with
      qs := c.eng.qs.map (fun q => { q with cmds := if q.burst.isSome then (q.cmds.take 1).map noPost else [] }),
      tsb := [], cut := true },
    mat := { mat0 with fill := (c.mat.fill.filter (fun u => u.req.isSome || u.data.isSome)).map lastChunk } }

/-- The reads of a killed launch's cores are dropped; what its writes, atomics, started bursts and host flushes ask for goes
on. -/
def keptReq (nums : List Nat) (r : Req) : Bool :=
  !nums.contains r.core || r.op ≠ .read || (match r.agent with
    | .queue _ => true
    | .fill => true
    | .hubAgent => true
    | _ => false)

/-- The end of a launch as a kill, with its status and cause (R399 steps 1 to 4). -/
def State.endLaunch (s : State) (id status cause : Nat) : State :=
  match s.launchOf id with
  | none => s
  | some l =>
    let nums := (s.cores.filter (fun e => e.2.launch = id && e.1 < 512)).map (·.1)
    let s1 := { s with
      cores := s.cores.map (fun (e : Nat × Core) => if nums.contains e.1 then (e.1, killCore e.2) else e),
      reqs := s.reqs.filter (keptReq nums),
      faults := s.faults.filter (fun f => !(nums.contains f.core && (match f.agent with
        | .gateway => false
        | .hubAgent => false
        | _ => true))) }
    let s2 := s1.modLaunch id (fun k => { k with state := .killing, status := status, cause := cause })
    s2.later (s.tick + 1) l.ctx (.killComplete l.ctx)

/-- A launch that has been released. -/
def releasedOnce (l : Launch) : Bool := l.relTick ≠ 0

/-- A launch that is already on its way out, with its own status. -/
def leaving (l : Launch) : Bool := l.state = .killing || l.state = .finished

/-- Registers of frame barrier b: BAR_CTL, BAR_FRAME, BAR_RING, BAR_POST, BAR_STAT, BAR_WPTR, BAR_RPTR (R376). -/
def barReg (b k : Nat) : Nat := 0x3000000 + 64 * b + 8 * k

/-- The registers PLANn and PLANSTATn (R404). -/
def planReg (n : Nat) : Nat := 0x1B00 + 16 * n
def planStat (n : Nat) : Nat := 0x1B08 + 16 * n

/-- Encode jobs and phase plans of a killed context are discarded with its translation faults: no access of it is made after
the kill (R36, R191). DESIGN CHOICE: the spec does not say how these stop (assumption 28). -/
def State.dropHub (s : State) (ctx : Nat) : State :=
  let gone := s.enc.filter (fun j => s.fld (barReg j.bar 0) 62 59 = ctx)
  let stopped := (gone.filter (·.running)).map (·.sess)
  let s1 := gone.foldl (fun st j =>
    if j.running then st else st.setFld (barReg j.bar 4) 15 8 (st.fld (barReg j.bar 4) 15 8 - 1)) s
  { s1 with
    enc := s1.enc.filter (fun j => !gone.contains j), plans := s1.plans.filter (fun p => p.ctx ≠ ctx),
    faults := s1.faults.filter (fun f => f.ctx ≠ ctx),
    timers := s1.timers.filter (fun e => match e.2.2 with
      | .encodeJobComplete x => !stopped.contains x
      | .planPhase n _ => n ≠ ctx
      | .planLate n => n ≠ ctx
      | _ => true) }.setFld (planStat ctx) 63 63 0 |>.soon 0 (stopped.map Instr.encodeJobStart)

def State.jobOf (s : State) (n : Nat) : Job := s.jobs.getD n job0

def State.setJob (s : State) (n : Nat) (j : Job) : State := { s with jobs := setAt s.jobs n j }

/-- A halt wave still under way for a context is abandoned (R399). -/
def State.abandonWave (s : State) (ctx : Nat) : State :=
  if (s.jobOf ctx).state = 1 then
    (s.setJob ctx { s.jobOf ctx with state := 0, stop := none, wave := false }).mapCores (fun _ c =>
      if c.lctx = ctx then { c with frozen := false } else c)
  else s

/-- Every launch of a context is killed; a TYPE 2 kill ends those not yet released as well, at once (R399). The launch
`but` ends as TRAPPED with a cause. -/
def State.killCtx (s : State) (ctx : Nat) (all : Bool) (but : Option (Nat × Nat)) : State :=
  let mine := s.launches.filter (fun l => l.ctx = ctx && !leaving l)
  let s1 := mine.foldl (fun st l =>
    let sc : Nat × Nat := match but with
      | some b => if b.1 = l.id then (5, b.2) else (4, 0)
      | none => (4, 0)
    if boundNow l && releasedOnce l then st.endLaunch l.id sc.1 sc.2
    else if releasedOnce l || all then st.finish l.id sc.1 sc.2
    else st) s
  { (s1.abandonWave ctx).dropHub ctx with retained := dropRetained s1.retained (fun r => r.ctx = ctx) }

/-- Nothing of a killed launch's cores is under way any more, the host flushes of its context among it (R191). -/
def State.killQuiet (s : State) (id : Nat) : Bool :=
  let cs := s.cores.filter (fun e => e.2.launch = id && e.1 < 512)
  cs.all (fun e => e.2.eng.qs.all (fun q => q.burst.isNone && q.fin.isNone)
    && (match e.2.mat.fill with
      | some u => u.req.isNone && u.data.isNone
      | none => true)
    && e.2.sb.isEmpty && e.2.cyc.out.isEmpty && e.2.hostDirty = 0 && !s.reqs.any (fun r => r.core = e.1) && !s.hostReadOut e.2.lctx)

/-! ### Triggers of halt waves (R417 to R423) -/

def dbg (n off : Nat) : Nat := 0x6000 + 0x200 * n + off

/-- B of R420. -/
def State.haltB (s : State) (n : Nat) : Nat :=
  match s.fld (dbg n 0x28) 1 0 with
  | 0 => 64
  | 1 => 640
  | _ => 2400

/-- A cause entry (R425). -/
def causeEntry (why chip core unit bundle detail jobt : Nat) : Word × Word :=
  (BitVec.ofNat 64 (2 ^ 63 + why * 2 ^ 48 + chip * 2 ^ 41 + core % 512 * 2 ^ 32 + unit % 16 * 2 ^ 28
     + bundle % 2 ^ 14 * 2 ^ 14 + detail % 256 * 2 ^ 6), BitVec.ofNat 64 jobt)

/-- The order of a wave's entries: job time, then chip, core and unit (R423). -/
def causeKey (e : Word × Word) : Nat := e.2.toNat * 2 ^ 20 + bits e.1.toNat 47 28

def insCause (e : Word × Word) : List (Word × Word) → List (Word × Word)
  | [] => [e]
  | f :: l => if causeKey e < causeKey f then e :: f :: l else f :: insCause e l

/-- An agent of the job freezes (R419). -/
def State.freezeCore (s : State) (num : Nat) : State := s.modCore num (fun c => { c with frozen := true })

/-- A trigger's entry joins its job's wave, F being its trigger tick: it starts a wave in a running job, is recorded as concurrent
in a halting one, and only recorded in a frozen or resuming one. The stop tick is the least F + B of the waves that overlap
(R417, R420, R422, R423). -/
def State.joinWave (s : State) (n f : Nat) (e : Word × Word) : State :=
  let j := s.jobOf n
  let more (k : Nat) (t : State) : State := t.countSat (dbg n 8) 47 40 k
  if j.state = 2 ∨ j.state = 3 then
    if j.causes.length < 8 then s.setJob n { j with causes := j.causes ++ [e] } else more 1 s
  else
    let fresh := j.state = 0
    let stop := if fresh then f + s.haltB n else match j.stop with
      | some t => min t (f + s.haltB n)
      | none => f + s.haltB n
    let l := insCause e (if fresh then [] else j.causes)
    let s1 := s.setJob n { j with state := 1, stop := some stop, wave := true, step := none, causes := l.take 8 }
    let s2 := if fresh then
        (((s1.setFld (dbg n 8) 47 40 0).setReg (dbg n 0x10) f).note 4 7 (bits e.1.toNat 55 48) n 0x1FF
          ((s.fld (dbg n 8) 31 0 + 1) % 2 ^ 32)).soon n [.haltFlit]
      else s1
    if 8 < l.length then more 1 s2 else s2

/-- A trigger on an agent of this chip (`core` none: the host or the hub) in this cycle: it joins the wave, and its agent freezes
unless the job is frozen already (R417, R423). -/
def State.trigger (s : State) (n why : Nat) (core : Option Nat) (unit bundle detail : Nat) : State :=
  let e := causeEntry why s.chip (match core with
    | some k => if k < 512 then k else 0x1FF
    | none => 0x1FF) unit bundle detail (s.jobTime n)
  let s1 := s.joinWave n s.tick e
  match core with
  | some k => if (s.jobOf n).state = 2 ∨ (s.jobOf n).state = 3 then s1 else s1.freezeCore k
  | none => s1

end Sys2Proof.Machine
end

