-- ==== Sys2Proof/Machine/Plv.lean ====
section
/-! DEFINITION. Kernels as the loader sees them: the PLV container and its checks (15 R353 to R357, R363), relocations
(15 R354), handle descriptors (02 R56), the tap-point table against the probe legend and the legend cache (14 R342 to R344),
and the capabilities of the device (19 R437). -/

namespace Sys2Proof.Machine

/-- The capability bits of R437. -/
def State.caps (s : State) : Nat :=
  b2n s.cxlMode + 2 * b2n (Config.ddrGiB != 0) + 4 * b2n Config.encoders + 0xF8
  + 256 * b2n ((List.range 16).any s.portUp)

/-! ### Rejection causes (R361) -/

def rPLVFORMAT : Nat := 0x01
def rPLVSIG : Nat := 0x02
def rPLVCAPS : Nat := 0x03
def rPLVPLAN : Nat := 0x04
def rBUFLIST : Nat := 0x05
def rCHANORDER : Nat := 0x06
def rCHANEND : Nat := 0x07
def rKEYSHAPE : Nat := 0x08
def rTAPPOSITION : Nat := 0x09
def rTAPLEGEND : Nat := 0x0A
def rTAPFIT : Nat := 0x0B
def rPKTFORMAT : Nat := 0x0C
def rGRAPHFULL : Nat := 0x0D

/-! ### Fields of a container (R353) -/

def dw (m : Memory) (off : Nat) : Nat := memNat m off 8

/-- The stage record of stage i. -/
def stageOf (m : Memory) (i : Nat) : Stage :=
  let a := 0x80 + 32 * i
  let d := dw m (a + 8)
  ⟨dw m a, bits d 63 50, bits d 49 36, bits d 35 34, bits d 33 30, bit d 29, bit d 28, bits d 27 13, bit d 12⟩

/-- A stage record with a field out of range or non-zero where it is marked zero. -/
def stageBad (m : Memory) (i : Nat) : Bool :=
  let a := 0x80 + 32 * i
  let d := dw m (a + 8)
  bits d 11 0 ≠ 0 || dw m (a + 16) ≠ 0 || dw m (a + 24) ≠ 0 || bits d 27 13 = 0 || 16384 < bits d 27 13

/-- Where the directory and the sections begin. -/
def dirAt (ns : Nat) : Nat := 0x80 + 32 * ns
def sectsAt (ns k : Nat) : Nat := dirAt ns + 16 * k

/-- Directory entry k. -/
def sectOf (m : Memory) (ns k : Nat) : Sect :=
  let a := sectsAt ns k
  let d0 := dw m a
  let d1 := dw m (a + 8)
  ⟨bits d0 63 56, bits d0 55 52, bits d0 51 38, bits d0 31 0, bits d1 63 32, bits d1 31 0⟩

/-- The unit a section's length counts in. -/
def sectUnit (ty : Nat) : Nat :=
  if ty = 1 || ty = 2 then 32 else if ty = 3 || ty = 4 then 16 else if ty = 5 || ty = 7 then 8 else 1

def isCode (x : Sect) : Bool := x.ty = 1 || x.ty = 2

/-- A directory entry that R353 does not allow. -/
def sectBad (m : Memory) (ns nk k : Nat) : Bool :=
  let d0 := dw m (sectsAt ns k)
  let x := sectOf m ns k
  bits d0 37 32 ≠ 0 || x.ty = 0 || 8 < x.ty || ns ≤ x.stage || (x.ty = 8 && x.stage ≠ 0)
  || (!isCode x && x.load ≠ 0) || (x.ty ≠ 6 && x.addr ≠ 0)
  || x.off % 32 ≠ 0 || x.off < sectsAt ns nk || 2 ^ 32 < x.off + x.len || x.len % sectUnit x.ty ≠ 0
  || (isCode x && 16384 < x.load + x.len / 32)
  || (x.ty = 4 && 256 < x.len)
  || (x.ty = 6 && 0x180000 < x.addr + x.len)
  || ((x.ty = 8) ≠ (k + 1 = nk))

/-- Two ranges have a byte in common. -/
def meets (a n b k : Nat) : Bool := n ≠ 0 && k ≠ 0 && a < b + k && b < a + n

/-- Some two of a list are related. -/
def anyPair {α : Type} (p : α → α → Bool) : List α → Bool
  | [] => false
  | x :: l => l.any (p x) || anyPair p l

/-- Sections that overlap, in the container or in the code store of one stage. -/
def sectsClash (x y : Sect) : Bool :=
  meets x.off x.len y.off y.len
  || (isCode x && isCode y && x.stage = y.stage && meets x.load (x.len / 32) y.load (y.len / 32))

/-- Bundle i of a stage lies in its code. -/
def inCode (secs : List Sect) (stage i : Nat) : Option Sect :=
  secs.find? (fun x => isCode x && x.stage = stage && x.load ≤ i && i < x.load + x.len / 32)

/-- The bundle of a stage's code at index i, as the container holds it. -/
def codeAt (m : Memory) (secs : List Sect) (stage i : Nat) : Nat :=
  match inCode secs stage i with
  | some x => memNat m (x.off + 32 * (i - x.load)) 32
  | none => 0

/-- Entries of the sections of a type and stage: `w`-byte numbers. -/
def entriesOf (m : Memory) (secs : List Sect) (ty stage w : Nat) : List Nat :=
  (secs.filter (fun x => x.ty = ty && x.stage = stage)).flatMap (fun x =>
    (List.range (x.len / w)).map (fun i => memNat m (x.off + w * i) w))

/-! ### Relocations (R354) -/

/-- MOVI followed by three LUIs in one slot, all of one register. -/
def isLoad64 (m : Memory) (secs : List Sect) (stage b slot : Nat) : Bool :=
  let w (i : Nat) : Nat := slotWord (codeAt m secs stage (b + i)) slot
  let r := bits (w 0) 23 18
  (List.range 4).all (fun i => (inCode secs stage (b + i)).isSome && bits (w i) 31 24 = (if i = 0 then 0x38 else 0x39)
    && bits (w i) 23 18 = r)

def relocBad (m : Memory) (secs : List Sect) (stage e : Nat) : Bool :=
  bits e 47 46 ≠ 0 || bits e 39 0 ≠ 0 || 1 < bits e 49 48 || bits e 45 40 = 0
  || !isLoad64 m secs stage (bits e 63 50) (bits e 49 48)

/-- The immediate of step i of the four that load a 64-bit value. -/
def immOf (v i : Nat) : Nat := v / 2 ^ (54 - 18 * i) % 2 ^ 18

/-- A relocation's change of one bundle of its stage. -/
def relocBundle (pkt : List Word) (b : Nat) (w e : Nat) : Nat :=
  let at_ := bits e 63 50
  if at_ ≤ b ∧ b < at_ + 4 then
    let lo := slotLo (bits e 49 48)
    setBits w (lo + 17) lo (immOf (pkt.getD (bits e 45 40) 0).toNat (b - at_))
  else w

/-- The bundles of a stage: index and relocated contents. -/
def stageCode (m : Memory) (secs : List Sect) (pkt : List Word) (stage : Nat) : List (Nat × BitVec 256) :=
  let rel := entriesOf m secs 7 stage 8
  (secs.filter (fun x => isCode x && x.stage = stage)).flatMap (fun x =>
    (List.range (x.len / 32)).map (fun i =>
      (x.load + i, BitVec.ofNat 256 (rel.foldl (relocBundle pkt (x.load + i)) (memNat m (x.off + 32 * i) 32)))))

/-! ### Handles, plan, tap points (R56, R105, R356) -/

/-- A descriptor that R56 refuses. -/
def handleBad (d : Nat) : Bool :=
  let d1 := d / 2 ^ 64
  let slot := if bits d1 31 26 = 0 then 64 else bits d1 31 26
  bits d1 49 36 ≠ 0 || bits d1 12 0 ≠ 0 || 8 < bits d1 35 32
  || 0x180000 < bits d1 25 13 * 256 + 2 ^ bits d1 35 32 * slot * 256

/-- A plan entry that R356 refuses. -/
def planBad (e : Nat) : Bool :=
  let d0 := e % 2 ^ 64
  let d1 := e / 2 ^ 64
  bits d0 63 62 = 3 || bits d0 22 0 ≠ 0 || bits d0 42 23 = 0 || 524288 < bits d0 42 23
  || 524288 < bits d0 61 43 + bits d0 42 23 || bits d1 35 0 ≠ 0
  || bits d1 49 36 < bits d1 63 50

/-- Banks of a stage: bank 0 and every bank its plan names (R356). -/
def stageBanks (m : Memory) (secs : List Sect) (stage : Nat) : List Nat :=
  (List.range 3).filter (fun b => b = 0 || (entriesOf m secs 3 stage 16).any (fun e => bits e 63 62 = b))

/-- A tap-point entry with a bit set that is marked zero (R353). -/
def tapBad (e : Nat) : Bool := e / 1024 ≠ 0 || bits e 7 6 ≠ 0

/-! ### The checks of a container (R355) -/

/-- Everything of R355's PLV_FORMAT below the header and the directory. -/
def bodyBad (m : Memory) (secs : List Sect) (ns : Nat) : Bool :=
  anyPair sectsClash secs
  || (List.range ns).any (fun i =>
      let st := stageOf m i
      (inCode secs i st.entry).isNone || (st.inbox ≠ 0x3FFF && (inCode secs i st.inbox).isNone)
      || (entriesOf m secs 7 i 8).any (relocBad m secs i)
      || (entriesOf m secs 4 i 16).any handleBad
      || (entriesOf m secs 5 i 8).any tapBad)

/-- The header with a wrong or non-zero field (R353). -/
def headerBad (m : Memory) : Bool :=
  let d2 := dw m 0x10
  dw m 0 ≠ 0x000134564C50 || bits d2 47 0 ≠ 0 || bits d2 63 56 = 0 || 8 < bits d2 63 56 || bits d2 55 48 = 0
  || 64 < bits d2 55 48 || (List.range 13).any (fun i => dw m (0x18 + 8 * i) ≠ 0)

/-- `n` more bytes of a container, put at their offset. -/
def State.plvMore (s : State) (ctx va off n : Nat) (m : Memory) : Option Memory × State :=
  match s.ctxBytes ctx (va + off) n with
  | (some d, s1) => (some (memPut m off d), s1)
  | (none, s1) => (none, s1)

/-- The contents of the sections of a list. -/
def State.plvSects (s : State) (ctx va : Nat) : List Sect → Memory → Option Memory × State
  | [], m => (some m, s)
  | x :: l, m => match s.plvMore ctx va x.off x.len m with
    | (some m1, s1) => State.plvSects s1 ctx va l m1
    | (none, s1) => (none, s1)

/-- What the loader makes of a container: a cause, or its bytes, stages and sections. -/
inductive PlvRes
  | bad (cause : Nat)
  | good (m : Memory) (stages : List Stage) (secs : List Sect)
  deriving DecidableEq, Repr

/-- The bytes a signature covers: header, stage records, directory and the other sections in directory order (R353). -/
def signedBytes (m : Memory) (secs : List Sect) (ns : Nat) : List Byte :=
  memBytes m 0 (sectsAt ns secs.length)
  ++ (secs.filter (fun x => x.ty ≠ 8)).flatMap (fun x => memBytes m x.off x.len)

/-- The signature fails against the key of a context that requires one (R355, R442). -/
def State.sigBad (s : State) (ctx : Nat) (m : Memory) (secs : List Sect) (ns : Nat) : Bool :=
  let r := s.reg (0x300 + 8 * ctx)
  let pa := bits r 51 12 * 4096
  bit r 63 && (!(s.inCarve pa && s.inCarve (pa + 2591))
    || !Config.sigHolds ((s.physRead pa 2592).1)
        ((secs.filter (fun x => x.ty = 8)).flatMap (fun x => memBytes m x.off x.len))
        (Config.sha3 (signedBytes m secs ns)))

/-- The loader's checks of a container at a virtual address (R353 to R356). -/
def State.plvCheck (s : State) (ctx va nstage : Nat) : PlvRes × State :=
  match s.plvMore ctx va 0 128 [] with
  | (none, s1) => (.bad rPLVFORMAT, s1)
  | (some h, s1) =>
    if headerBad h then (.bad rPLVFORMAT, s1)
    else
      let ns := bits (dw h 0x10) 63 56
      let nk := bits (dw h 0x10) 55 48
      match s1.plvMore ctx va 128 (32 * ns + 16 * nk) h with
      | (none, s2) => (.bad rPLVFORMAT, s2)
      | (some d, s2) =>
        if ns ≠ nstage || (List.range ns).any (stageBad d) || (List.range nk).any (sectBad d ns nk) then
          (.bad rPLVFORMAT, s2)
        else
          let secs := (List.range nk).map (sectOf d ns)
          match s2.plvSects ctx va secs d with
          | (none, s3) => (.bad rPLVFORMAT, s3)
          | (some m, s3) =>
            let stages := (List.range ns).map (stageOf m)
            let need := dw m 8
            if bodyBad m secs ns then (.bad rPLVFORMAT, s3)
            else if (List.range 64).any (fun i => bit need i && !bit s3.caps i) then (.bad rPLVCAPS, s3)
            else if s3.sigBad ctx m secs ns then (.bad rPLVSIG, s3)
            else if (List.range ns).any (fun i => (entriesOf m secs 3 i 16).any planBad) then (.bad rPLVPLAN, s3)
            else (.good m stages secs, s3)

/-! ### Channels (R363) -/

/-- A channel entry: V, producer stage, core and handle, consumer stage, core and handle, ALLOW. -/
structure Chan where
  v : Bool
  ps : Nat
  pc : Nat
  ph : Nat
  cs : Nat
  cc : Nat
  ch : Nat
  allow : Nat
  deriving DecidableEq, Repr

def chanOf (w : Nat) : Chan :=
  ⟨bit w 27, bits w 63 61, bits w 60 52, bits w 51 48, bits w 47 45, bits w 44 36, bits w 35 32, bits w 31 28⟩

/-- The channels of a packet. -/
def chansOf (pkt : List Word) : List Chan :=
  ((List.range 16).map (fun i => chanOf (pkt.getD (44 + i) 0).toNat)).filter Chan.v

def nclus (pkt : List Word) (s : Nat) : Nat := bits (pkt.getD (12 + 2 * s) 0).toNat 63 56
def nstageOf (pkt : List Word) : Nat := bits (pkt.getD 0 0).toNat 55 52

/-- Launch-relative number of the first cluster of a stage. -/
def firstOf (pkt : List Word) (st : Nat) : Nat := natSum ((List.range st).map (nclus pkt))

/-- The stage a launch-relative cluster is bound to. -/
def stageAt (pkt : List Word) (j : Nat) : Nat :=
  ((List.range (nstageOf pkt)).find? (fun st => j < firstOf pkt (st + 1))).getD 0

/-- Causes that the packet alone shows (R363). -/
def chanCheck (pkt : List Word) : Option Nat :=
  let l := chansOf pkt
  if l.any (fun c => c.cs < c.ps) then some rCHANORDER
  else if l.any (fun c => nstageOf pkt ≤ c.cs || 5 * nclus pkt c.ps ≤ c.pc || 5 * nclus pkt c.cs ≤ c.cc || 8 < c.allow) then
    some rCHANEND
  else none

/-- The descriptor of the handle table of a stage, if it has an entry. -/
def tableHandle (m : Memory) (secs : List Sect) (stage h : Nat) : Option Nat := (entriesOf m secs 4 stage 16)[h]?

/-- Causes that the consumers' handle tables show (R363). -/
def chanEnds (m : Memory) (secs : List Sect) (pkt : List Word) : Bool :=
  (chansOf pkt).any (fun c => match tableHandle m secs c.cs c.ch with
    | some d => bits (d / 2 ^ 64) 35 32 < c.allow
    | none => true)

/-- An end of a channel: the consumer entry's BASE and SLOT, LOGCOUNT := ALLOW, counters 0, the other end's core and
handle. -/
def chanHandle (d allow otherNum otherH : Nat) : BitVec 128 :=
  let d1 := d / 2 ^ 64
  BitVec.ofNat 128 ((2 ^ 63 + otherNum / 128 * 2 ^ 61 + otherNum % 128 * 2 ^ 54 + otherH * 2 ^ 50 + allow * 2 ^ 32
    + bits d1 31 13 * 2 ^ 13) * 2 ^ 64)

/-! ### The probe legend (R342 to R344) -/

/-- Bytes of the legend carve-out at an offset; beyond it they read 0. -/
def State.carveBytes (s : State) (off n : Nat) : List Byte :=
  let size := s.fld 0x1380 2 0 * 2 ^ 30
  let k := min n (size - off)
  (s.physRead (s.chip * 2 ^ 45 + s.carveLo + off) k).1 ++ List.replicate (n - k) 0

def dwsOf : List Byte → Nat → List Nat
  | _, 0 => []
  | l, n + 1 => leNat (l.take 8) :: dwsOf (l.drop 8) n

def halvesOf : List Byte → Nat → List Nat
  | _, 0 => []
  | l, n + 1 => leNat (l.take 2) :: halvesOf (l.drop 2) n

/-- A BF16 vector of the carve-out. -/
def State.carveVec (s : State) (off n : Nat) : Sparse Nat := spSetRun 0 [] 0 (halvesOf (s.carveBytes off (2 * n)) n)

/-- A declared point whose entry the legend refuses in a field (R344's TAP_LEGEND). -/
def pointBad (e : List Nat) : Bool :=
  let d0 := e.getD 0 0
  let d1 := e.getD 1 0
  let np := bits d0 59 57 + 1
  bits d0 56 0 ≠ 0 || bits d1 63 52 ≠ 0 || bits d1 5 0 ≠ 0 || (List.range 14).any (fun i => e.getD (2 + i) 0 ≠ 0)
  || (List.range np).any (fun p => bits (e.getD (17 + 2 * p) 0) 63 3 ≠ 0 || bits (e.getD (17 + 2 * p) 0) 1 0 = 3)

/-- The tap points a kernel declares, all stages together: point, POS, SPOS. -/
def declared (m : Memory) (secs : List Sect) (ns : Nat) : List (Nat × Nat × Nat) :=
  (List.range ns).flatMap (fun i => (entriesOf m secs 5 i 8).map (fun e => (bits e 5 0, bits e 8 8, bits e 9 9)))

/-- The entry of a tap point: 32 doublewords. -/
def State.pointEntry (s : State) (base tp : Nat) : List Nat := dwsOf (s.carveBytes (base + 0x100 + 256 * tp) 256) 32

/-- A declared point as the cache holds it. -/
def State.loadPoint (s : State) (base dm tp : Nat) : TapPt :=
  let e := s.pointEntry base tp
  let np := bits (e.getD 0 0) 59 57 + 1
  let vb := bits (e.getD 1 0) 51 6 * 64
  ⟨tp, bit (e.getD 0 0) 60, (List.range np).map (fun p =>
    let a := e.getD (16 + 2 * p) 0
    let b := e.getD (17 + 2 * p) 0
    ⟨bits a 63 32, bits a 31 0, bit b 2, bits b 1 0, s.carveVec (vb + 2 * p * dm) dm⟩)⟩

/-- The steering slots that are enabled: slot and the two doublewords of its entry. -/
def State.steerEntries (s : State) (base : Nat) : List (Nat × Nat × Nat) :=
  ((List.range 256).map (fun k =>
    let l := dwsOf (s.carveBytes (base + 0x4100 + 16 * k) 16) 2
    (k, l.getD 0 0, l.getD 1 0))).filter (fun e => bit e.2.1 63)

/-- The legend cache for a launch's declarations, or the cause of its rejection (R344). -/
def State.legendFor (s : State) (ctx : Nat) (decl : List (Nat × Nat × Nat)) : Except Nat Legend :=
  if decl = [] then .ok ⟨0, [], []⟩
  else
    let r := s.reg (0x1300 + 8 * ctx)
    let base := bits r 31 12 * 4096
    let hd := dwsOf (s.carveBytes base 64) 8
    let dm := bits (hd.getD 0 0) 15 0
    let tps := (decl.map (·.1)).eraseDups
    let ents := tps.map (fun t => (t, s.pointEntry base t))
    let d0 (t : Nat) : Nat := (s.pointEntry base t).getD 0 0
    let sten := ents.any (fun e => bit (e.2.getD 0 0) 60)
    let steer := if sten then s.steerEntries base else []
    let size := 64 + natSum (ents.map (fun e => 256 + 2 * dm * (bits (e.2.getD 0 0) 59 57 + 1)))
      + steer.length * (16 + 2 * dm)
    if !bit r 63 || decl.any (fun e => !bit (d0 e.1) 63 || bits (d0 e.1) 62 62 ≠ e.2.1 || bits (d0 e.1) 61 61 ≠ e.2.2) then
      .error rTAPPOSITION
    else if bits (hd.getD 0 0) 63 16 ≠ 0 || (hd.drop 1).any (· ≠ 0) || dm % 128 ≠ 0 || dm = 0 || 16384 < dm
      || ents.any (fun e => pointBad e.2)
      || steer.any (fun e => bits e.2.1 62 52 ≠ 0 || bits e.2.1 5 0 ≠ 0 || bits e.2.2 63 32 ≠ 0) then .error rTAPLEGEND
    else if 2 ^ 20 < size then .error rTAPFIT
    else .ok ⟨dm, tps.map (s.loadPoint base dm),
              steer.map (fun e => ⟨e.1, bits e.2.2 31 0, s.carveVec (bits e.2.1 51 6 * 64) dm⟩)⟩

end Sys2Proof.Machine
end

