-- ==== Sys2Proof/Machine/CycleEnd.lean ====
section
/-! DEFINITION. The end of a cycle: what each core's end leads to (16 R379, R386, 18 R417, R418, 08 R226), messages from
their injection to their arrival (02 R64, 04 R128, R129, R134, 08 R230 to R235), and the settling of the part. -/

namespace Sys2Proof.Machine

/-! ### Each core (R379, R386, R393, R417) -/

/-- The trap policy of a context (R392). -/
def State.polOf (s : State) (ctx : Nat) : Nat := s.fld (0x1680 + 8 * ctx) 0 0

/-- Base dies and the hub keep the recorder (R434). -/
def State.noteCore (s : State) (num kind cause ctx detail : Nat) : State := s.note (dieOf num) kind cause ctx num detail

/-- One trigger of a core's cycle, by the launch's policy (R379, R417). -/
def State.coreTrig (s : State) (num : Nat) (c : Core) (t : Nat × Nat × Nat × Nat) : State :=
  let why := t.1
  let unit := t.2.1
  let bundle := t.2.2.1
  let detail := t.2.2.2
  if why = 0x39 then
    let s1 := s.noteCore num 2 detail c.lctx bundle
    if s.polOf c.lctx = 1 then s1.trigger c.lctx why (some num) unit bundle detail else s1
  else if why = 0x3A then
    let s1 := s.noteCore num 3 detail c.lctx bundle
    if s.polOf c.lctx = 1 then s1.trigger c.lctx why (some num) unit bundle detail else s1.endLaunch c.launch 5 detail
  else s.trigger c.lctx why (some num) unit bundle detail

/-- The primary trap or soft failure of this cycle is recorded (R379, R391, R434). -/
def State.noteTrap (s : State) (num : Nat) (c : Core) : State :=
  match c.run with
  | .restore _ _ cause => if c.cyc.trapped then s.noteCore num 1 cause c.lctx (bits c.trapRec0.toNat 44 31) else s
  | _ => s

/-- A breakpoint that the next bundle matches, by its number (R418). -/
def State.bpMatch (s : State) (num : Nat) (c : Core) : Option Nat :=
  let l := (s.bps.find? (fun e => e.1 = num)).map (·.2) |>.getD []
  if c.bpSkip then none
  else l.findIdx? (fun b =>
    b.2.getLsbD 63 && (b.2.getLsbD 62 || b.1 = c.taskid) && bits b.2.toNat 13 0 = slotBundle c.p 0)

/-- Commands of the core's engines are complete (R226); of the matrix commands all have completed in earlier cycles, counted
or not yet (R286). -/
def enginesDone (c : Core) : Bool :=
  c.eng.qs.all (fun q => q.cmds.isEmpty && q.fin.isNone) && c.eng.tsb.isEmpty && c.mat.cmds.length ≤ c.mat.advance

/-- Nothing of the core is under way (R226): no result, write group, helper, engine command or store. -/
def quietCore (c : Core) : Bool :=
  c.p.pend.isEmpty && c.p.flights.isEmpty && c.p.groups.isEmpty
  && c.helpers.all (fun x => x.st ≠ .live && x.st ≠ .faulted) && enginesDone c && c.hc.isEmpty && c.sb.isEmpty
  && c.gwOut = 0

/-- The core's part in its launch is over (R226): a cycle in which nothing is under way, before its landings (`was`) and
after them, whose messages all leave with it. -/
def State.partOver (s : State) (num : Nat) (was c : Core) : Bool :=
  c.run = .halted && quietCore was && quietCore c && !s.reqs.any (fun r => r.core = num)
  && c.cyc.inj + natSum (c.cyc.out.map (fun e => msgCount e.2)) ≤ 4

/-- What follows for the primary at the end of a cycle: the policy at the end of a restore, the stop of a pre-emption. -/
def afterCycle (pol : Nat) (was c : Core) : Core :=
  let ended := !c.cyc.trapped && (match was.run, c.run with
    | .restore _ false _, .stopped => true
    | _, _ => false)
  let c1 := if ended && pol = 1 then { c with run := .run } else c
  let c2 := if c1.cyc.issued && !c1.cyc.trapped then { c1 with bpSkip := false } else c1
  if c2.preempt && !c2.cyc.trapped then
    (match was.run, c2.run with
    | .restore _ _ _, .run => { c2 with run := .stopped }
    | _, .halted => { c2 with run := .stopped, shadow := c2.p }
    | _, .run => if c2.cyc.ckpt then { c2 with run := .stopped } else c2
    | _, _ => c2)
  else c2

/-- A next bundle stands that has not been looked at: one has issued, or a restore has ended. -/
def freshFetch (was c : Core) : Bool :=
  c.run = .run && !c.cyc.trapped && (c.cyc.issued || (match was.run with
    | .restore _ _ _ => true
    | _ => false))

/-- THE END OF A CORE'S CYCLE, with what it brings about in the part. -/
def State.finishCore (s : State) (num : Nat) : State :=
  match s.core num with
  | none => s
  | some c0 =>
    if c0.frozen then
      let c := spPuts c0.cyc.portWr c0
      c0.cyc.trig.foldl (fun st t => st.coreTrig num c t) (s.setCore num { c with cyc := { c.cyc with portWr := [], trig := [] } })
    else
      let pol := s.polOf c0.lctx
      let c1 := afterCycle pol c0 (endCore c0)
      let c := { c1 with cyc := { c1.cyc with trig := [] } }
      let s1 := c1.cyc.trig.foldl (fun st t => st.coreTrig num c t) (s.setCore num c)
      let s2 := if isGate c then s1 else s1.noteTrap num c
      let cause := bits c.trapRec0.toNat 63 56
      let bundle := bits c.trapRec0.toNat 44 31
      let s3 := match c0.run, c0.cyc.trapped with
        | .restore n false _, false =>
          if n ≤ 1 && !isGate c then
            (if pol = 1 then s2.trigger c.lctx 0x38 (some num) 15 bundle cause
             else s2.killCtx c.lctx false (some (c.launch, cause)))
          else s2
        | _, _ => s2
      match s3.core num with
      | none => s3
      | some d =>
        let s4 := if freshFetch c0 d && !isGate d && (s3.bpMatch num d).isSome then s3.soon num [.breakpoint] else s3
        if s4.partOver num c0 d && !d.preempt then s4.soon num [.corePartEnd] else s4

/-! ### Messages of a cycle (R64, R126, R129, R134, R218, R230, R377) -/

/-- Cores of a context's launch still running their part take messages (R134, R230). -/
def State.takes (s : State) (lctx num : Nat) : Bool :=
  match s.core num with
  | some c => c.lctx = lctx && c.run ≠ .ended && num < 512
  | none => false

/-- A window read whose request leaves `d` cycles late is back so much later (R218). -/
def delayXld (who : Ctx) (fid d : Nat) (c : Core) : Core :=
  let one (f : Flight) : Flight := if f.stage = 9 && f.foc.ctx = who && f.seek = fid then { f with delay := f.delay + d } else f
  { c with p := { c.p with flights := c.p.flights.map one }, shadow := { c.shadow with flights := c.shadow.flights.map one },
           hflights := c.hflights.map one }

/-- The cycles that the latest SENDM of a core to a mailbox still takes: a later one does not pass it (R236). -/
def State.mailBefore (s : State) (num t m : Nat) : Nat :=
  s.msgs.foldl (fun n e => match e.body with
    | .wh _ (.sendm t' m' _) => if e.src = num && t' = t && m' = m then max n e.due else n
    | _ => n) 0

/-- One message leaves a core `d` cycles behind its turn (R218). -/
def State.sendOne (s : State) (num d : Nat) (c : Core) (who : Ctx) (w : Wh) : State :=
  let local_ (k : Nat) : Nat := coreIn (clusterNo num) k
  let far (st : State) (t : Nat) (b : Body) : State :=
    let p := st.postTime num t
    p.2.send (p.1 + d) num c.lctx b
  match w with
  | .xld t a len fid => (if d = 0 then s else s.modCore num (delayXld who fid d)).send (12 + d) num c.lctx (.wh who (.xld (local_ (kOf t)) a len fid))
  | .xst a bs => s.send (23 + d) num c.lctx (.wh who (.hpush (local_ (windowOf a).1) 99 (windowOf a).2 bs))
  | .hpush t h a bs => s.send (23 + d) num c.lctx (.wh who (.hpush (local_ (kOf t)) h a bs))
  | .flagx t f n => far s (s.nowCore c.launch t) (.post (s.nowCore c.launch t) f n)
  | .hadv t h p n => far s (s.nowCore c.launch t) (.wh who (.hadv (s.nowCore c.launch t) h p n))
  | .sendm t m v =>
    let k := s.nowCore c.launch t
    let p := s.postTime num k
    p.2.send (max (p.1 + d) (s.mailBefore num k m)) num c.lctx (.wh who (.sendm k m v))
  | .fault m v =>
    let p := s.postTime num num
    p.2.send (max (p.1 + d) (s.mailBefore num num m)) num c.lctx (.wh who (.sendm num m v))
  | .bara b =>
    let p := s.barTime num
    p.2.send (p.1 + d) num c.lctx (.arrival b 1)
  | .ksend t n l =>
    (match s.trees.find? (fun e => e.1 = t) with
    | some e =>
      let x := e.2.nodes.getD n (0, 0, 0, 0)
      far s (coreIn (24 * x.2.2.1 + x.2.2.2) 0) (.treeIn t n (l.ents.take l.count))
    | none => s)
  | .lift v => s.modCore (local_ 4) (fun u => { u with lift := u.lift ++ [(num % 4, 7, v)] })
  | _ => s

/-- Messages of a core by their place at its injection port: the primary's first, then the engines' posts, then the helpers'
(R218). -/
def portClass (c : Core) (e : Ctx × Wh) : Nat :=
  match e.1 with
  | .prim => 0
  | .gate => if isGate c then 0 else 1
  | .helper _ => 2

/-- One message of the primary: behind those of its own ahead of it, four a cycle, whatever else waits (R218). -/
def State.sendFirst (num : Nat) (c : Core) (a : Nat × State) (e : Ctx × Wh) : Nat × State :=
  (a.1 + msgCount e.2, a.2.sendOne num (if counted e.2 then a.1 / 4 else 0) c e.1 e.2)

/-- One message of the engines or helpers: in this cycle if the port has room for it, else it stays for the next (R218). -/
def State.sendRest (num : Nat) (c : Core) (a : Nat × List (Ctx × Wh) × State) (e : Ctx × Wh) : Nat × List (Ctx × Wh) × State :=
  if counted e.2 && (4 < a.1 + msgCount e.2 || a.2.1 ≠ []) then (a.1, a.2.1 ++ [e], a.2.2)
  else (a.1 + msgCount e.2, a.2.1, a.2.2.sendOne num 0 c e.1 e.2)

/-- The messages of a core's cycle leave, four a cycle through the injection port: the primary's, with those left over from
earlier cycles ahead, then the engines', then the helpers' (R218). -/
def State.sendAll (s : State) (num : Nat) : State :=
  match s.core num with
  | none => s
  | some c =>
    let of_ (k : Nat) : List (Ctx × Wh) := c.cyc.out.filter (fun e => portClass c e = k)
    let p := (of_ 0).foldl (State.sendFirst num c) (c.cyc.inj, s)
    let r := (of_ 1 ++ of_ 2).foldl (State.sendRest num c) (p.1, [], p.2)
    let s1 := c.liftRet.foldl (fun st k => st.send 8 num c.lctx (.freeBack (coreIn (clusterNo num) k))) r.2.2
    s1.modCore num (fun k => { k with liftRet := [], cyc := { k.cyc with inj := p.1, out := r.2.1 } })

/-- The value of a window read is back at its reader: its flight becomes a result on its way, in the shadow too where the
checkpoint has captured it (R64, R382). -/
def windowBack (who : Ctx) (fid waited : Nat) (d : List Byte) (c : Core) : Core :=
  let v := BitVec.ofNat 64 (leNat d)
  let mine (f : Flight) : Bool := f.stage = 9 && f.foc.ctx = who && f.seek = fid
  let effs (f : Flight) : List Eff := match f.ins with
    | .xld r _ _ _ => [effS f.foc r.toNat v]
    | _ => []
  let pend (f : Flight) : Pend := ⟨max 1 (f.delay + waited - 1), who, f.ord, f.foc.bundle, f.foc.slot, 0, effs f⟩
  let one (p : Prim) : Prim :=
    { p with flights := p.flights.filter (fun f => !mine f), pend := p.pend ++ (p.flights.filter mine).map pend }
  match who with
  | .helper _ => { c with hflights := c.hflights.filter (fun f => !mine f),
                          hpend := c.hpend ++ (c.hflights.filter mine).map pend }
  | _ => { c with p := one c.p, shadow := one c.shadow }

/-- A window store has been written at its target: it no longer holds its helper (R116). -/
def windowDone (who : Ctx) (c : Core) : Core :=
  match who with
  | .helper h => c.setHelper h { c.helper h with xst := (c.helper h).xst - 1 }
  | _ => c

/-- Accesses of a message still to be served at a core. -/
def r1Left (no : Nat) (s : State) (num : Nat) : Bool :=
  match s.core num with
  | some c => c.r1.any (fun r => r.seq = no)
  | none => false

/-- The flag of a message whose last part has been served before the others goes with one of those (R411). -/
def passFlag (r : R1) (c : Core) : Core :=
  match c.r1.find? (fun e => e.seq = r.seq) with
  | some x => { c with r1 := c.r1.map (fun e => if e = x then { e with fid := r.fid } else e) }
  | none => c

/-- Window accesses served in this cycle (R64, R126, R411): a read's data goes back, a write stands. A write's number says
what follows it: 1 + h a PROD advance of handle h, which keeps the place of its own data among the messages, so that only
older window stores hold it (R238); 64 + f an increment of flag f. -/
def State.servedAll (s : State) (num : Nat) : State :=
  match s.core num with
  | none => s
  | some c => c.cyc.served.foldl (fun (st : State) e =>
      let r := e.1
      match r.data with
      | none => st.modCore r.src (windowBack r.who r.fid r.waited e.2)
      | some _ =>
        let s1 := st.modCore r.src (windowDone r.who)
        if 64 ≤ r.fid then (if r1Left r.seq st num then s1.modCore num (passFlag r) else s1.send 1 r.src c.lctx (.post num (r.fid - 64) 1))
        else if 0 < r.fid then { s1 with msgs := s1.msgs ++ [⟨2, r.src, c.lctx, r.seq, .wh r.who (.hadv num (r.fid - 1) true 1)⟩] }
        else s1) (s.setCore num { c with cyc := { c.cyc with served := [] } })

/-! ### Arrivals -/

/-- A message of a frozen job stands where it is (R421). -/
def State.msgHeld (s : State) (m : Msg) : Bool :=
  let j := s.jobOf m.lctx
  j.state = 2 || j.state = 3

/-- The core a message is for. -/
def target : Body → Option Nat
  | .wh _ (.xld t _ _ _) => some t
  | .wh _ (.hpush t _ _ _) => some t
  | .wh _ (.hadv t _ _ _) => some t
  | .wh _ (.sendm t _ _) => some t
  | .post t _ _ => some t
  | .swapData t _ _ => some t
  | .treeOut t _ _ _ => some t
  | .freeBack t => some t
  | _ => none

/-- An access of message `no` enters its target's banks (R62 rank 1). -/
def State.enterBank (s : State) (no t src : Nat) (who : Ctx) (a len : Nat) (d : Option (List Byte)) (fid : Nat) : State :=
  s.modCore t (fun c => { c with r1 := c.r1 ++ [⟨no, src, who, a, len, d, fid, 0⟩] })

/-- A discarded message is noted (R134, R230, R434). -/
def State.discard (s : State) (m : Msg) (t cause : Nat) : State := s.note (dieOf t) 0x0A cause m.lctx t m.src

/-- One message lands: what needs a step of its own becomes an event (R128, R134, R231, R411, R413). -/
def State.landMsg (s : State) (m : Msg) : State :=
  match m.body with
  | .wh who (.xld t a len fid) =>
    if s.takes m.lctx t then s.enterBank m.seq t m.src who a len none fid
    else
      let d := (List.range len).map (fun i => Config.drawByte (s.draws + i))
      { s with draws := s.draws + len }.modCore m.src (windowBack who fid 0 d)
  | .wh who (.hpush t h a d) =>
    if s.takes m.lctx t then s.enterBank m.seq t m.src who a d.length (some d) (if h = 99 then 0 else h + 1)
    else s.modCore m.src (windowDone who)
  | .wh _ (.hadv t h p n) =>
    if s.takes m.lctx t then s.soon t [.handleAdvanceArrival m.src t h p n] else s.discard m t 1
  | .wh _ (.sendm t mb v) =>
    if s.takes m.lctx t then s.soon t [.mailboxArrival m.src t mb v] else s.discard m t 2
  | .wh _ _ => s
  | .post t f n => if s.takes m.lctx t then s.soon t [.flagPostArrival m.src t f n] else s.discard m t 1
  | .swapData t o d => s.modCore t (fun c => { c with mat := { c.mat with swapIn := c.mat.swapIn ++ [(o, d)] } })
  | .treeIn t n d => s.soon t [.treeNodeInput t n d]
  | .treeOut t a f l =>
    let b := listImage l
    ((s.enterBank m.seq t m.src .gate a 256 (some (b.take 256)) 0).enterBank m.seq t m.src .gate (a + 256) 256
      (some ((b.drop 256).take 256)) 0).enterBank m.seq t m.src .gate (a + 512) 8 (some (b.drop 512)) (64 + f)
  | .toDispatch g e d =>
    let ctl := s.reg (0x1C00 + 64 * g)
    if bit ctl 63 && bits ctl 62 59 = m.lctx then s.soon m.src [.dispatchDelivery g e d]
    else s.note 4 0x0A 6 m.lctx 0x1FF m.src
  | .arrival b n =>
    let ctl := s.reg (0x3000000 + 64 * b)
    if bit ctl 63 && bits ctl 62 59 = m.lctx then s.soon b [.barrierArrival b n]
    else s.note 4 0x0A 4 m.lctx 0x1FF m.src
  | .freeBack t => s.modCore t (fun c => { c with liftFree := c.liftFree + 1 })
  | .treeRoot t => s.soon 0 [.treeRootDelivery t]

/-- What takes effect as it lands, an access at its target's banks among it: these land in order (R62). -/
def toBank : Body → Bool
  | .wh _ (.xld _ _ _ _) => true
  | .wh _ (.hpush _ _ _ _) => true
  | .swapData _ _ _ => true
  | .treeOut _ _ _ _ => true
  | .freeBack _ => true
  | _ => false

/-- Arrivals of one cycle by sender, the lowest first, then in the order sent (R62, R231). Those that become events land
last to first, since each goes to the front of the work. -/
def insMsg (m : Msg) : List Msg → List Msg
  | [] => [m]
  | e :: l => if m.src < e.src || (m.src = e.src && m.seq < e.seq) then m :: e :: l else e :: insMsg m l

/-- Arrivals at a barrier in one cycle count together (R378). -/
def joinArrivals : List Msg → List Msg
  | [] => []
  | m :: l => match m.body with
    | .arrival b n =>
      (match joinArrivals l with
      | [] => [m]
      | e :: k => (match e.body with
        | .arrival b' n' => if b = b' && m.lctx = e.lctx then { m with body := .arrival b (n + n') } :: k else m :: e :: k
        | _ => m :: e :: k))
    | _ => m :: joinArrivals l

/-- A PROD advance that must wait for window stores of its context to the same core of the cluster, sent before it (R238). -/
def State.waitsStore (s : State) (m : Msg) : Bool :=
  match m.body with
  | .wh who (.hadv t _ true _) =>
    sameCluster m.src t && (s.msgs.any (fun e => e.src = m.src && e.seq < m.seq && (match e.body with
        | .wh w (.hpush t' _ _ _) => w = who && t' = t
        | _ => false))
      || (match s.core t with
        | some c => c.r1.any (fun r => r.src = m.src && r.who = who && r.data.isSome && r.seq < m.seq)
        | none => false))
  | _ => false

/-- Every message that is not held counts a cycle; those that have come through land, or wait at a frozen target (R421). -/
def State.msgsTick (s : State) : State :=
  let held := s.msgs.filter s.msgHeld
  let moved := (s.msgs.filter (fun m => !s.msgHeld m)).map (fun m =>
    { m with due := if s.waitsStore m then max (m.due - 1) 2 else m.due - 1 })
  let here := moved.filter (fun m => m.due = 0)
  let stuck (m : Msg) : Bool := match (target m.body).bind s.core with
    | some c => c.frozen
    | none => false
  let bars := here.filter (fun m => match m.body with
    | .arrival _ _ => true
    | _ => false)
  let land := (here.filter (fun m => !stuck m && !bars.contains m)).foldl (fun l m => insMsg m l) []
  let ars := joinArrivals (bars.foldl (fun l m => match m.body with
    | .arrival b _ => (l.filter (fun e => match e.body with
        | .arrival b' _ => b' ≤ b
        | _ => true)) ++ [m] ++ (l.filter (fun e => match e.body with
        | .arrival b' _ => b < b'
        | _ => false))
    | _ => l) [])
  let s1 := { s with msgs := held ++ moved.filter (fun m => m.due ≠ 0), parked := s.parked ++ here.filter stuck }
  let s2 := (land.filter (fun m => toBank m.body)).foldl State.landMsg s1
  (land.filter (fun m => !toBank m.body) ++ ars).reverse.foldl State.landMsg s2

/-! ### Inboxes (R231 to R234) -/

/-- A value goes to the mailbox, to the inbox or waits outside (R231); a full inbox starts helper 9 (R233). -/
def placeIn (m : Nat) (v : Word) (c : Core) : Core :=
  let e := spGet ((0 : Word), false) c.mb m
  if !e.2 && !c.p.marks.contains m && !c.inbox.any (fun x => x.1 = m) then
    { c with mb := spSet ((0 : Word), false) c.mb m (v, true) }
  else if c.inbox.length < 64 then
    let c1 := { c with inbox := c.inbox ++ [(m, v)] }
    if c1.inbox.length = 64 then wakeNine c1 else c1
  else { c with recvHeld := c.recvHeld ++ [(m, v)] }

/-- An arrival is placed; one behind a held message for its mailbox waits with it (R231, R236). -/
def placeMail (m : Nat) (v : Word) (c : Core) : Core :=
  if c.recvHeld.any (fun x => x.1 = m) then { c with recvHeld := c.recvHeld ++ [(m, v)] } else placeIn m v c

/-- Held arrivals are placed in the cycle after room came, as many as the inbox has room for (R231, R234). -/
def admitHeld (c : Core) : Core :=
  let n := min c.cyc.entering (64 - c.inbox.length)
  if n = 0 || c.frozen then c
  else
    (c.recvHeld.take n).foldl (fun k x => placeIn x.1 x.2 k)
      { c with recvHeld := c.recvHeld.drop n, cyc := { c.cyc with entering := 0 } }

/-! ### Jobs at their stop ticks (R422) -/

/-- Jobs whose stop tick this is. -/
def State.stopsNow (s : State) : List Nat :=
  (List.range 16).filter (fun n =>
    let j := s.jobOf n
    (j.state = 0 || j.state = 1) && (match j.stop with
      | some t => t ≤ s.tick
      | none => false))

/-! ### Router counters (R430) -/

/-- One cycle of the router counters: cycles count one each, L2 hits, misses and write-backs at the slices of the router as they
have been; of the other events the spec fixes no number, so theirs is a free value. -/
def State.routerTick (s : State) : State :=
  let s1 := (s.regs.filter (fun e => 0x2200000 ≤ e.1 && e.1 < 0x2218000 && e.1 % 0x400 < 0x80 && e.2.getLsbD 63)).foldl
    (fun st e =>
      let ev := bits e.2.toNat 7 0
      if ev = 0 then st.countMod (e.1 + 0x80) 47 0 1
      else if 3 ≤ ev && ev ≤ 5 then
        st.countMod (e.1 + 0x80) 47 0 (s.l2evs.countP (fun x => x = ((e.1 - 0x2200000) / 0x400, ev)))
      else if ev ≤ 8 then
        let r := st.drawIn 0 64
        r.2.countMod (e.1 + 0x80) 47 0 r.1
      else st) s
  { s1 with l2evs := [] }

/-! ### The part's cycle (R4, R8) -/

/-- Events set for this tick or asked for by outside agents. -/
def State.dueEvents (s : State) : List Work :=
  (s.timers.filter (fun e => e.1 ≤ s.tick)).map (fun e => Work.event e.2.1 e.2.2)
  ++ (s.inputs.filter (fun e => e.1 ≤ s.tick)).map (fun e => Work.event e.2.1 e.2.2)

/-- After the cores: their messages leave, window accesses are answered, jobs stop at their stop ticks. -/
def State.endCycle (s : State) : State :=
  let nums := s.cores.map (·.1)
  let s1 := nums.foldl State.sendAll s
  let s2 := nums.foldl State.servedAll s1
  { s2 with agenda := s.stopsNow.map (fun n => Work.event n .stopTick) ++ s2.agenda ++ [.settle, .nextTick] }

/-- The REPLAYs of a cycle are consumed ahead of the writes performed in it (R372). -/
def replaysFirst (l : List Work) : List Work :=
  let rep (w : Work) : Bool := match w with
    | .event _ .replay => true
    | _ => false
  l.filter rep ++ l.filter (fun w => !rep w)

/-- Messages and requests come forward by a cycle; store buffers drain; events that fall due are put to work, REPLAYs ahead of
what is performed at the homes (R372). -/
def State.settle (s : State) : State :=
  let due := s.dueEvents
  let s1 := { s with
    timers := s.timers.filter (fun e => s.tick < e.1), inputs := s.inputs.filter (fun e => s.tick < e.1),
    agenda := due ++ s.agenda }
  let s2 := { s1 with agenda := s1.cores.filterMap (fun (e : Nat × Core) => if e.2.sb = [] || e.2.frozen then none
                                  else some (Work.event e.1 .storeBufferDrain)) ++ s1.agenda }
  let s3 := s2.mapCores (fun _ c => admitHeld c)
  let s4 := s3.reqsTick.msgsTick
  { s4 with agenda := replaysFirst s4.agenda }

/-! ### Upper-core domains (R447, R454, R455) -/

def State.gateOf (s : State) (cl : Nat) : Nat := (spGet cluster0 s.clusters cl).gate

/-- A change of a domain's gate, with its time (R447). -/
def State.setGate (s : State) (cl g : Nat) : State :=
  let reg := 0x400 + 32 * cl + (if g = 1 then 8 else if g = 2 then 0x10 else 0x18)
  { s with clusters := spSet cluster0 s.clusters cl { spGet cluster0 s.clusters cl with gate := g } }.setReg reg s.tick

/-- An open request (R447): a closing domain opens at once, a closed one 4,700 cycles later. -/
def State.openDomain (s : State) (cl : Nat) : State :=
  if s.gateOf cl = 1 then s.setGate cl 0
  else if s.gateOf cl = 2 && !s.timers.any (fun e => e.2.2 = .domainOpened cl) then s.later (s.tick + 4700) 0 (.domainOpened cl)
  else s

/-- A message of R455's list: a post, mailbox value, window or ring data, an advance; the credit of a popped entry is none. -/
def isFreeBack : Body → Bool
  | .freeBack _ => true
  | _ => false

/-- Messages that an upper core has sent and that have not landed (R455). -/
def State.msgsFrom (s : State) (num : Nat) : Bool :=
  s.msgs.any (fun m => m.src = num && !isFreeBack m.body) || s.parked.any (fun m => m.src = num && !isFreeBack m.body)
  || s.cores.any (fun e => e.2.r1.any (fun r => r.src = num && r.data.isSome))

/-- A launch in preparation is bound to a cluster whose stage it has not released: its upper core's part is still to come. -/
def toCome (cl : Nat) (l : Launch) : Bool :=
  l.state = .preparing && (match l.clusters.findIdx? (fun x => x = cl) with
    | some j => stageAt l.pkt j + l.nrel < l.stages.length
    | none => false)

/-- What must hold at the start of a cycle for a closing domain to close at its end (R455). -/
def State.closable (s : State) (cl : Nat) : Bool :=
  let up := coreIn cl 4
  s.gateOf cl = 1 && !s.msgsFrom up && !s.launches.any (toCome cl) && (match s.core up with
    | none => true
    | some c => c.run = .ended && c.lift = [])

/-! ### The graticule counter (R403) -/

/-- Chip position 0 of a drove is its master; drove 0's is the pod's. -/
def State.isMaster (s : State) : Bool := s.chip = 0

/-- The counter goes on by one; a chip that is off steers by skipping or repeating a count, at most once in 4,096. Counts at
which the part's timetable has an entry are even; the count skipped or repeated is an odd one. -/
def State.advanceTick (s : State) : State :=
  let odd := s.tick % 2 = 1
  let inb := if s.isMaster then s.gratIn + 1 else if s.gratIn = 0 then 0 else s.gratIn + 1
  let s1 := { s with gratIn := min inb (2 ^ 20 + 1) }
  if s.gratWait = 0 && 0 < s.gratOff && !odd then
    { s1 with tick := (s.tick + 2) % 2 ^ 64, gratOff := s.gratOff - 1, gratWait := 4096 }
  else if s.gratWait = 0 && s.gratOff < 0 && odd then { s1 with gratOff := s.gratOff + 1, gratWait := 4096 }
  else { s1 with tick := (s.tick + 1) % 2 ^ 64, gratWait := s.gratWait - 1 }

/-- A context is not running: a launch of it is pre-empted, from the taking of its images to its release, and no other one has
been released (R398; DEDUCED, assumption 31). -/
def State.notRunning (s : State) (n : Nat) : Bool :=
  s.launches.any (fun l => l.ctx = n && l.images ≠ [])
  && !s.launches.any (fun l => l.ctx = n && l.images = [] && l.nrel ≠ 0
    && (l.state = .running || l.state = .preparing || l.state = .preempting))

/-- Job time does not advance while its context is not running (R398): what it would have moved on by since `was` counts as
away. While it is frozen it stands still already (R422). -/
def State.awayTick (was s : State) (n : Nat) : State :=
  let j := s.jobOf n
  if was.notRunning n then s.setJob n { j with away := j.away + (s.jobTime n - was.jobTime n) } else s

/-- The next tick begins (R8); domains that can close do so at its end. -/
def State.nextTick (s : State) : State :=
  let s1 := (s.cores.map (·.1)).foldl State.phaseFlush s
  let s2 := (List.range 16).foldl (State.awayTick s1) s1.routerTick.takeNotes.advanceTick
  ((List.range 96).filter s2.closable).foldl (fun st cl => st.later st.tick 0 (.domainClose cl)) s2

/-- Events of the timetable at the start of a tick (R368, R403, R426, R438, R440). -/
def State.periodic (s : State) : List Work :=
  let t := s.tick
  let ev (b : Bool) (u : Nat) (i : Instr) : List Work := if b then [.event u i] else []
  let slot := t % 30080 / 470
  ev (t % 9400000 = 0) 0 .schedulerWindow
  ++ ev (t % 30080 = 0) 0 .majorFrame
  ++ (if t % 470 = 0 && !s.fwBusy && !s.bootFail then
        (s.slots.filterMap (fun l => (l.getD slot none))).map (fun m => Work.event m .streamPoll)
      else [])
  ++ ev (t % 30080 = 63 * 470 && !s.fwBusy && !s.bootFail) 0 .heartbeat
  ++ ev (bit (s.reg 0x8000) 63 && t % 2 ^ s.fld 0x8000 4 0 = 0) 0 .surveyPulse
  ++ ev (t % 65536 = 0) 0 .disciplineSend

/-- THE START OF A CYCLE: the timetable's events, exchanges that begin (R296), then every core, then the end of the cycle. -/
def State.newCycle (s : State) : State :=
  let s1 := s.mapCores (fun _ c => if c.mat.swapSeen = c.mat.swapAcc then c
    else { c with mat := { c.mat with swapSeen := c.mat.swapAcc } })
  { s1 with agenda := s.periodic
      ++ (s.cores.filter (fun e => e.1 < 512 && !clockStopped e.2 && swapTries e.2)).map (fun e =>
        Work.event e.1 .swapExchangeStart)
      ++ s.cores.map (fun e => Work.beginCore e.1) ++ [.endCycle] }

end Sys2Proof.Machine
end

