-- ==== Sys2Proof/Machine/Sched.lean ====
section
/-! DEFINITION. The launch unit: which clusters are free, retained images and their eviction (15 R357, R366, R367), the
decisions of the deadline scheduler (15 R368 to R370), preparation and release (15 R362 to R365, 02 R74, 16 R398),
pre-emption and its images (16 R392 to R397), the ends of parts and launches (08 R226, R227, 15 R361, R364). -/

namespace Sys2Proof.Machine

/-! ### Shape and cost (R362, R369) -/

def needOf (pkt : List Word) : Nat := natSum ((List.range (nstageOf pkt)).map (nclus pkt))

def keyed (l : Launch) : Bool := bit (pktD l 0) 48
def keyOf (l : Launch) : Word := l.pkt.getD 3 0
def backingOf (l : Launch) : Nat := pktD l 4

/-- W(L). -/
def wOf (stages : List Stage) : Nat := (stages.foldl (fun m st => max m st.wcet) 0) + 16 * (stages.length - 1)

/-- Bytes of a retained image. -/
def imageBytes (r : Retained) : Nat :=
  0x80000 * (b2n (bit r.mask 0) + b2n (bit r.mask 1) + b2n (bit r.mask 2)) + 0x200000 * b2n (bit r.mask 3)

/-- Images kept under the launch's key. -/
def State.ownImages (s : State) (l : Launch) : List Retained :=
  if keyed l then s.retained.filter (fun r => r.ctx = l.ctx && r.key = keyOf l) else []

/-- Cycles of a restore of so many bytes a cluster (R367). -/
def restoreCycles (bytes : Nat) : Nat := (bytes + 127) / 128 + 600

/-- The largest total of a cluster. -/
def mostOf (l : List (Nat × Nat)) : Nat :=
  l.foldl (fun m e => max m (natSum ((l.filter (fun f => f.1 = e.1)).map (·.2)))) 0

/-! ### Records of a pre-emption image (R394, R396) -/

/-- The run of doublewords equal to the first, at most 64. -/
def runLen (w : Nat) : List Nat → Nat → Nat
  | [], n => n
  | v :: l, n => if v = w && n < 64 then runLen w l (n + 1) else n

/-- Doublewords of a LITERAL token: up to the first that is zero or equals its successor, at most 64. -/
def litLen : List Nat → Nat → Nat
  | [], n => n
  | [v], n => if v = 0 || 64 ≤ n then n else n + 1
  | v :: w :: l, n => if v = 0 || v = w || 64 ≤ n then n else litLen (w :: l) (n + 1)

/-- The tokens of a granule's doublewords, encoded greedily (R396). -/
def encodeDws : Nat → List Nat → List Byte
  | 0, _ => []
  | _, [] => []
  | k + 1, w :: l =>
    let r := runLen w l 1
    if w = 0 then BitVec.ofNat 8 (r - 1) :: encodeDws k ((w :: l).drop r)
    else if 2 ≤ r then BitVec.ofNat 8 (64 + r - 1) :: (leBytes 8 w ++ encodeDws k ((w :: l).drop r))
    else
      let n := max 1 (litLen (w :: l) 0)
      BitVec.ofNat 8 (128 + n - 1) :: (((w :: l).take n).flatMap (leBytes 8) ++ encodeDws k ((w :: l).drop n))

def padTo8 (l : List Byte) : List Byte := l ++ List.replicate ((8 - l.length % 8) % 8) 0

/-- The record of a granule (R396). -/
def granuleRecord (index : Nat) (d : List Byte) : List Byte :=
  let body := encodeDws 513 (dwsOf d 512)
  if 4096 ≤ body.length then leBytes 8 (2 ^ 63 + 4096 * 2 ^ 32 + index) ++ d
  else leBytes 8 (body.length * 2 ^ 32 + index) ++ padTo8 body

/-- Dirty granules in ascending order as a stream. -/
def streamOf (m : Sparse Byte) (dirty : List Nat) (n : Nat) : List Byte :=
  ((List.range n).filter (fun g => dirty.contains g)).flatMap (fun g => granuleRecord g (spGetRun 0 m (4096 * g) 4096))

/-- A coded body as doublewords; none where a token is not allowed. -/
def decodeDws : Nat → List Byte → Option (List Nat)
  | _, [] => some []
  | 0, _ => none
  | k + 1, t :: l =>
    let n := bits t.toNat 5 0 + 1
    match bits t.toNat 7 6 with
    | 0 => (decodeDws k l).map (fun r => List.replicate n 0 ++ r)
    | 1 => if l.length < 8 || n < 2 then none
           else (decodeDws k (l.drop 8)).map (fun r => List.replicate n (leNat (l.take 8)) ++ r)
    | 2 => if l.length < 8 * n then none
           else (decodeDws k (l.drop (8 * n))).map (fun r => dwsOf l n ++ r)
    | _ => none

/-- A stream of `n` granules' storage read back; none where it does not decode (R396). -/
def decodeStream (limit : Nat) : Nat → List Byte → Option (Sparse Byte)
  | _, [] => some []
  | 0, _ => none
  | k + 1, l =>
    let h := leNat (l.take 8)
    let len := bits h 47 32
    let g := bits h 8 0
    let rest := l.drop 8
    if l.length < 8 || limit ≤ g || rest.length < len then none
    else
      let d : Option (List Byte) :=
        if bit h 63 then (if len = 4096 then some (rest.take 4096) else none)
        else (match decodeDws (len + 1) (rest.take len) with
          | some ws => if ws.length = 512 then some (ws.flatMap (leBytes 8)) else none
          | none => none)
      match d, decodeStream limit k (rest.drop (len + (8 - len % 8) % 8)) with
      | some b, some m => some (spSetRun 0 m (4096 * g) b)
      | _, _ => none

/-- The control block of an image: bytes of the security block's making (R394). -/
def controlBlock (n : Nat) : List Byte := (List.range 0x40000).map (Config.sealedByte n)

def State.saveBase (s : State) (ctx : Nat) : Nat := bits (s.reg (0x1600 + 8 * ctx)) 51 23 * 2 ^ 23

/-- Image number `k` of the machine written to slot n of the context's save area (R394). -/
def State.saveImage (s : State) (ctx k : Nat) (im : Image) : State :=
  let a := s.saveBase ctx + 2 ^ 23 * im.index
  let sp := streamOf im.core.sp im.core.spDirty 384
  let bs := if im.core.upper then [] else streamOf im.core.bstore im.core.bsDirty 512
  (((s.physWrite a (controlBlock k)).physWrite (a + 0x40000) (leBytes 8 sp.length ++ leBytes 8 bs.length)).physWrite
    (a + 0x40040) sp).physWrite (a + 0x400000) bs

/-- Bytes of an image: control block and streams (R397). -/
def imageSize (im : Image) : Nat :=
  0x40000 + (streamOf im.core.sp im.core.spDirty 384).length
  + (if im.core.upper then 0 else (streamOf im.core.bstore im.core.bsDirty 512).length)

/-- An image as it stands in the save area: none when it fails its checks (R396). -/
def State.loadImage (s : State) (ctx k : Nat) (im : Image) : Option Core :=
  let a := s.saveBase ctx + 2 ^ 23 * im.index
  let n := leNat (s.physRead (a + 0x40000) 8).1
  let m := leNat (s.physRead (a + 0x40008) 8).1
  if (s.physRead a 0x40000).1 ≠ controlBlock k || 0x3BFFC0 < n || 0x400000 < m then none
  else match decodeStream 384 (n + 1) (s.physRead (a + 0x40040) n).1,
             decodeStream 512 (m + 1) (s.physRead (a + 0x400000) m).1 with
    | some sp, some bs => some { im.core with sp := sp, bstore := bs }
    | _, _ => none

/-! ### Clusters (R370, R357, R366) -/

def State.boundTo (s : State) (cl : Nat) : Bool := s.launches.any (fun l => l.clusters.contains cl || l.reserved.contains cl)

/-- Free clusters, in ascending physical number. -/
def State.freeClusters (s : State) : List Nat :=
  (List.range 96).filter (fun cl => (spGet cluster0 s.clusters cl).powered && !s.boundTo cl)

/-- Retained images that stand on a cluster. -/
def State.imagesOn (s : State) (cl : Nat) : List Retained :=
  s.retained.filter (fun r => match r.num with
    | some n => clusterNo n = cl
    | none => false)

/-- An image that a stage may not run beside (R357). -/
def clashes (l : Launch) (st : Nat) (r : Retained) : Bool :=
  (stageBanks l.plv l.secs st).any (fun b => bit r.mask b)
  || (bit r.mask 3 && ((l.stages[st]?).map Stage.useb).getD true)

/-- The cluster on which the launch's own images of relative cluster j stand. -/
def ownPlace (own : List Retained) (j : Nat) : Option Nat :=
  (own.find? (fun r => r.index / 5 = j && r.num.isSome)).bind (fun r => r.num.map clusterNo)

/-- A choice of clusters: where the launch's own images stand if those are free, else the first free cluster with no image
in the way, else the first free one. -/
def State.choose (s : State) (l : Launch) (own : List Retained) : Nat → Nat → List Nat → List Nat
  | 0, _, _ => []
  | k + 1, j, free =>
    let keep := (List.range (l.need - j - 1)).filterMap (fun i => ownPlace own (j + 1 + i))
    let ok (cl : Nat) : Bool := !(s.imagesOn cl).any (fun r => !own.contains r && clashes l (stageAt l.pkt j) r)
    let pick := match ownPlace own j with
      | some cl => if free.contains cl then some cl else (free.find? (fun c => ok c && !keep.contains c))
      | none => free.find? (fun c => ok c && !keep.contains c)
    let cl := pick.getD ((free.find? (fun c => !keep.contains c)).getD (free.headD 0))
    cl :: State.choose s l own k (j + 1) (free.erase cl)

/-- The first fault on a range of a context's memory (R367). -/
def State.rangeFault (s : State) (ctx va : Nat) (k : Acces) : Nat → Nat → Option Nat × State
  | 0, _ => (none, s)
  | i + 1, n =>
    if n = 0 then (none, s)
    else match s.xlate 0 .hubAgent ctx va k with
      | (.error e, s1) => (some e.1, s1)
      | (.ok _, s1) =>
        let m := min n (0x10000 - va % 0x10000)
        State.rangeFault s1 ctx (va + m) k i (n - m)

/-- The ranges of an image at its backing: address of each retained element and its size (R366). -/
def backRanges (r : Retained) : List (Nat × Nat × Nat) :=
  let a := r.backing + 0x400000 * r.index
  ((List.range 3).filter (fun b => bit r.mask b)).map (fun b => (b, a + 0x80000 * b, 0x80000))
  ++ (if bit r.mask 3 then [(3, a + 0x200000, 0x200000)] else [])

def State.imageFault (s : State) (r : Retained) (k : Acces) : Option Nat × State :=
  (backRanges r).foldl (fun (x : Option Nat × State) e => match x.1 with
    | some c => (some c, x.2)
    | none => x.2.rangeFault r.ctx e.2.1 k 65 e.2.2) (none, s)

/-- An image goes to its backing (R367). -/
def State.evictImage (s : State) (r : Retained) : State :=
  let s1 := (backRanges r).foldl (fun st e =>
    st.ctxPut r.ctx e.2.1 (if e.1 = 3 then spGetRun 0 r.bs 0 0x200000 else spGetRun 0 r.sp (0x80000 * e.1) 0x80000)) s
  { s1 with retained := s1.retained.map (fun x => if x = r then { x with num := none, sp := [], bs := [] } else x) }

/-- An evicted image read back from its backing. -/
def State.readImage (s : State) (r : Retained) : Retained × State :=
  (backRanges r).foldl (fun (x : Retained × State) e =>
    let d := x.2.ctxBytes r.ctx e.2.1 e.2.2
    let b := d.1.getD []
    (if e.1 = 3 then { x.1 with bs := spSetRun 0 x.1.bs 0 b } else { x.1 with sp := spSetRun 0 x.1.sp (0x80000 * e.1) b },
     d.2)) (r, s)

/-! ### Dispatch (R367, R369, R370) -/

/-- The bytes to restore of each cluster: evicted images of the key, or images of a pre-emption. -/
def State.toRestore (s : State) (l : Launch) (cls : List Nat) : List (Nat × Nat) :=
  l.images.map (fun im => (im.index / 5, imageSize im))
  ++ ((s.ownImages l).filter (fun r => match r.num with
      | some n => cls.getD (r.index / 5) 96 ≠ clusterNo n
      | none => true)).map (fun r => (r.index / 5, imageBytes r))

/-- S(L) as it stands. -/
def State.costS (s : State) (l : Launch) (cls : List Nat) : Nat :=
  let x := s.toRestore l cls
  2560 + (if x = [] then 0 else restoreCycles (mostOf x))

/-- The clusters a launch would be bound to now. -/
def State.place (s : State) (l : Launch) : List Nat :=
  if l.reserved ≠ [] then l.reserved else s.choose l (s.ownImages l) l.need 0 s.freeClusters

/-- Images in the way of a launch on its clusters: another key's that its stage may not run beside, its own that are to be
bound elsewhere (R357, R366). -/
def State.inWay (s : State) (l : Launch) (cls : List Nat) : List Retained :=
  let own := s.ownImages l
  s.retained.filter (fun r => match r.num with
    | none => false
    | some n => if own.contains r then cls.getD (r.index / 5) 96 ≠ clusterNo n
        else (match cls.findIdx? (· = clusterNo n) with
          | some j => clashes l (stageAt l.pkt j) r
          | none => false))

/-- A launch is dispatched: images in the way are evicted, evicted images of its key are checked, it is charged, and its
release is set (R367, R369, R370). -/
def State.dispatch (s : State) (id : Nat) : State :=
  match s.launchOf id with
  | none => s
  | some l =>
    let cls := s.place l
    let out := s.inWay l cls
    let f1 := out.foldl (fun (x : Option Nat × State) r => match x.1 with
      | some c => (some c, x.2)
      | none => x.2.imageFault r .write) (none, s)
    let f2 := (s.ownImages l).foldl (fun (x : Option Nat × State) r => match x.1, r.num with
      | none, none => x.2.imageFault r .read
      | _, _ => x) f1
    match f2.1 with
    | some c => f2.2.finish id 5 c
    | none =>
      let cost := s.costS l cls
      let s1 := out.foldl State.evictImage f2.2
      let ch := if l.cls = 0 then 5 * l.need * (cost + l.w) else 0
      let s2 := { s1.modLaunch id (fun k => { k with
          state := .preparing, clusters := cls, reserved := [], dispT := s1.tick, nrel := 0, r0 := 0, order := s1.seq + 1,
          s := cost, charge := ch, window := s1.tick / 9400000, home := if k.home = [] then cls else k.home,
          resume := k.images ≠ [] }) with seq := s1.seq + 1 }
      let s3 := s2.setFld 0x1408 47 0 (s2.fld 0x1408 47 0 + ch)
      let s4 := cls.foldl State.openDomain s3
      s4.setNoc.later (s.tick + cost - 1) 0 (.stageRelease id)

/-! ### The decision (R360, R369, R370) -/

/-- A dependence is met (R360). -/
def State.depMet (s : State) (d : Nat) : Bool := !bit d 63 || bits d 31 0 ≤ s.fld (strReg (bits d 37 32) 0x20) 31 0

def wasDispatched (l : Launch) : Bool := l.order ≠ 0

def couldWait (l : Launch) : Bool :=
  match l.state with
  | .waiting => true
  | .late => true
  | .preempted => true
  | _ => false

/-- A launch is pending (R370). -/
def State.pending (s : State) (l : Launch) : Bool :=
  let before := s.launches.filter (fun k => k.stream = l.stream && k.id < l.id)
  couldWait l && before.all wasDispatched
  && !(bit (s.reg (strReg l.stream 8)) 59 && s.launches.any (fun k => k.id + 1 = l.prev))
  && s.depMet (pktD l 5) && s.depMet (pktD l 6) && (s.jobOf l.ctx).state = 0
  && !s.launches.any (fun k => k.ctx = l.ctx && k.passes ≠ 0 && k.id ≠ l.id && wasDispatched k)

/-- Images under the launch's key have another shape (R366). -/
def State.misfit (s : State) (l : Launch) : Bool :=
  (s.ownImages l).any (fun r => r.need ≠ l.need || r.backing ≠ backingOf l)

/-- A launch whose clusters the scheduler may take (R370, R392). -/
def State.victim (s : State) (l : Launch) : Bool :=
  let sv := s.reg (0x1600 + 8 * l.ctx)
  l.state = .running && l.cls ≠ 0 && bit sv 63 && 5 * l.need ≤ bits sv 8 0

/-- Sorted insertion by a key. -/
def insBy (key : Launch → Int × Int × Int) (x : Launch) : List Launch → List Launch
  | [] => [x]
  | y :: l =>
    let a := key x
    let b := key y
    if a.1 < b.1 || (a.1 = b.1 && (a.2.1 < b.2.1 || (a.2.1 = b.2.1 && a.2.2 < b.2.2))) then x :: y :: l
    else y :: insBy key x l

def sortBy (key : Launch → Int × Int × Int) (l : List Launch) : List Launch := l.foldl (fun m x => insBy key x m) []

/-- The slack that orders RT launches: DEADLINE less its context's job time, then stream, then sequence. -/
def State.slackKey (s : State) (l : Launch) : Int × Int × Int :=
  ((pktD l 2 : Int) - (s.jobTime l.ctx : Int), (l.stream : Int), (l.id : Int))

def State.capOf (s : State) : Nat := s.fld 0x1400 63 56 * 9400000 * 480

/-- The deadline term of R369 with pre-emption time P. -/
def State.inTime (s : State) (l : Launch) (p : Nat) : Bool := s.jobTime l.ctx + p + s.costS l (s.place l) + l.w ≤ pktD l 2

/-- The cap of R369. -/
def State.inCap (s : State) (l : Launch) : Bool :=
  (s.fld 0x1408 47 0 + 5 * l.need * (s.costS l (s.place l) + l.w)) * 100 ≤ s.capOf

/-- An infeasible launch runs late or is dropped, as its stream's POL says (R370). -/
def State.infeasible (s : State) (l : Launch) : State :=
  let s1 := s.modLaunch l.id (fun k => { k with infeas := true })
  if bit (s.reg (strReg l.stream 8)) 60 then s1.finish l.id 2 0
  else s1.modLaunch l.id (fun k => { k with state := .late })

/-- The cores of a launch, by number. -/
def State.coresOf (s : State) (id : Nat) : List (Nat × Core) := s.cores.filter (fun e => e.2.launch = id && e.1 < 512)

/-- A running launch is pre-empted (R393): its cores stop at their next checkpoints. -/
def State.preempt (s : State) (id : Nat) : State :=
  match s.launchOf id with
  | none => s
  | some l =>
    let s1 := { s.modLaunch id (fun k => { k with state := .preempting, pre := true, preOrd := s.seq + 1 }) with
      seq := s.seq + 1 }
    let s2 := s1.mapCores (fun n c => if c.launch = id && n < 512 then
        (let d := { c with preempt := true, wbBytes := 0 }
         match d.run with
         | .wait => { rollback d with run := .stopped, evs := d.evs ++ [(0x11, 15)] }
         | .halted => { d with run := .stopped, shadow := d.p }
         | _ => d)
      else c)
    (s2.countSat (strReg l.stream 0x28) 31 16 1).later (s.tick + 1) 0 (.preemptionEnd id)

/-- Victims, latest dispatched first, until enough clusters are free or being freed. -/
def takeVictims (need : Nat) : List Launch → Nat → List Launch
  | [], _ => []
  | v :: l, got => if need ≤ got then [] else v :: takeVictims need l (got + v.clusters.length)

/-- Clusters of launches, in their order, ascending within each. -/
def poolOf (l : List Launch) : List Nat := l.flatMap (fun v => (List.range 96).filter (fun cl => v.clusters.contains cl))

/-- One RT launch of the decision (R370). -/
def State.decideRt (s : State) (l0 : Launch) : State :=
  match s.launchOf l0.id with
  | none => s
  | some l =>
    if !(s.pending l && l.state ≠ .late) then s
    else
      let free := s.freeClusters
      let vs := sortBy (fun v => (-(v.order : Int), 0, 0)) (s.launches.filter s.victim)
      let avail := free.length + natSum (vs.map (fun v => v.clusters.length))
      if avail < l.need then (if s.inTime l 0 then s else s.infeasible l)
      else if !(s.inTime l (if l.need ≤ free.length then 0 else s.fld 0x1400 31 0) && s.inCap l) then s.infeasible l
      else if l.need ≤ free.length then s.dispatch l.id
      else
        let going := sortBy (fun v => ((v.preOrd : Int), 0, 0)) (s.launches.filter (fun v => v.state = .preempting))
        let freed := (poolOf going).filter (fun cl => !s.launches.any (fun k => k.reserved.contains cl))
        let new := takeVictims l.need vs (free.length + freed.length)
        let pool := free ++ freed ++ poolOf new
        let s1 := new.foldl (fun st v => st.preempt v.id) s
        s1.modLaunch l.id (fun k => { k with state := .reserved, reserved := pool.take l.need })

/-- Launches in a state that fit the free clusters are dispatched one after another. -/
def State.dispatchAll (s : State) (l : List Launch) : State :=
  l.foldl (fun st x => match st.launchOf x.id with
    | some k => if st.pending k && k.need ≤ st.freeClusters.length then st.dispatch k.id else st
    | none => st) s

/-- The first pending launch of each stream of a class. -/
def State.firsts (s : State) (cls : Nat) : List Launch :=
  (List.range 64).filterMap (fun m =>
    s.launches.find? (fun l => l.stream = m && l.cls = cls && l.state ≠ .late && s.pending l))

/-- The stream of the highest credit, the lowest on a tie. -/
def State.bestOf (s : State) : List Launch → Option Launch
  | [] => none
  | l :: r => match s.bestOf r with
    | none => some l
    | some k => if spGet 0 s.credits k.stream ≤ spGet 0 s.credits l.stream then some l else some k

def State.weight (s : State) (m : Nat) : Int := (s.fld (strReg m 8) 54 47 : Nat)

/-- The BULK loop (R370). -/
def State.bulkLoop (s : State) : Nat → State
  | 0 => s
  | n + 1 =>
    let all := s.firsts 1
    let s0 := { s with credits := s.credits.filter (fun e => all.any (fun l => l.stream = e.1)) }
    let fit := all.filter (fun l => l.need ≤ s0.freeClusters.length)
    let tot := fit.foldl (fun t l => t + s0.weight l.stream) (0 : Int)
    let s1 := fit.foldl (fun st l =>
      { st with credits := spSet 0 st.credits l.stream (spGet 0 st.credits l.stream + st.weight l.stream) }) s0
    match s1.bestOf fit with
    | none => s0
    | some l =>
      let s2 := { s1 with credits := spSet 0 s1.credits l.stream (spGet 0 s1.credits l.stream - tot) }
      State.bulkLoop (s2.dispatch l.id) n

/-- The DEBUG launches in stream order, while they fit. -/
def State.debugLoop (s : State) : Nat → State
  | 0 => s
  | n + 1 => match (s.firsts 2).find? (fun l => l.need ≤ s.freeClusters.length) with
    | some l => State.debugLoop (s.dispatch l.id) n
    | none => s

/-- Launches whose key's images have another shape are rejected, one after another: a rejection may meet the dependency of
the next (R366). -/
def State.rejectShapes (s : State) : Nat → State
  | 0 => s
  | n + 1 => match s.launches.find? (fun l => s.pending l && l.state ≠ .preempted && s.misfit l) with
    | some l => (s.finish l.id 3 rKEYSHAPE).rejectShapes n
    | none => s

/-- Reserved launches whose clusters have all been freed (R370). -/
def State.startReserved (s : State) : State :=
  (s.launches.filter (fun l => l.state = .reserved)).foldl (fun st l =>
    if l.reserved.all (fun cl => !st.launches.any (fun k => k.clusters.contains cl)) then st.dispatch l.id else st) s

/-- One pass of R370's decision. -/
def State.decideOnce (s : State) : State :=
  let s0 := s.rejectShapes (s.launches.length + 1)
  let rt := sortBy s0.slackKey (s0.launches.filter (fun l => l.cls = 0 && l.state ≠ .late && s0.pending l))
  let s1 := rt.foldl State.decideRt s0
  let late := sortBy (fun l => ((pktD l 2 : Int), (l.stream : Int), (l.id : Int)))
    (s1.launches.filter (fun l => l.state = .late))
  let s2 := s1.dispatchAll late
  let n := s2.launches.length + 1
  (s2.bulkLoop n).debugLoop n

/-- THE DECISION OF THE LAUNCH UNIT (R370), again as long as a launch finishes in it. -/
def State.decideN (s : State) : Nat → State
  | 0 => s
  | n + 1 =>
    let t := s.decideOnce
    if t.launches.length < s.launches.length then State.decideN t n else t

def State.decideNow (s : State) : State := s.startReserved.decideN (s.launches.length + 1)

/-- The launch unit decides in this cycle, once, when all that happens in it has happened (R370). -/
def State.decide (s : State) : State := { s with deciding := true }

/-- THE END OF A TICK, behind the decision if one is due. -/
def State.endTick (s : State) : State :=
  if s.deciding then ({ s with deciding := false }.decideNow).nextTick else s.nextTick

/-! ### Release (R74, R362 to R365, R357, R398) -/

/-- The parameter block of a core (R365): launch, stage, stage-relative index, first cluster of its cluster, job time. -/
def paramBlock (l : Launch) (st idx j jobt : Nat) : List Byte :=
  let d (i : Nat) : List Byte := leBytes 8 (pktD l i)
  let num (c : Nat) : Nat := match l.home[c]? with
    | some cl => coreIn cl 0
    | none => 0xFFFF
  d 1 ++ leBytes 8 l.seq ++ leBytes 8 jobt
  ++ leBytes 8 (st * 2 ^ 56 + l.stages.length * 2 ^ 48 + idx * 2 ^ 32 + 5 * nclus l.pkt st * 2 ^ 16 + j)
  ++ d 2 ++ d (13 + 2 * st) ++ List.replicate 16 0 ++ d 60 ++ d 61 ++ d 62 ++ d 63 ++ List.replicate 32 0
  ++ (List.range 96).flatMap (fun c => leBytes 2 (num c)) ++ List.replicate 192 0

/-- Bytes written by the loader, granules marked; a fenced bank is skipped (R357, R394). -/
def loadBytes (a : Nat) (d : List Byte) (c : Core) : Core :=
  (List.range 3).foldl (fun k b =>
    let lo := max a (0x80000 * b)
    let hi := min (a + d.length) (0x80000 * (b + 1))
    if bit k.fences b || hi ≤ lo then k else spPuts [(lo, (d.drop (lo - a)).take (hi - lo))] k) c

/-- The handles of a core: the stage's table, then the channels in their order (R363, R365). -/
def handlesFor (l : Launch) (st idx : Nat) : Sparse (BitVec 128) :=
  let base : Sparse (BitVec 128) :=
    spSetRun 0 [] 0 ((entriesOf l.plv l.secs 4 st 16).map (BitVec.ofNat 128))
  let numOf (s i : Nat) : Nat := match l.home[firstOf l.pkt s + i / 5]? with
    | some cl => coreIn cl (i % 5)
    | none => 0
  (chansOf l.pkt).foldl (fun h c =>
    let d := (tableHandle l.plv l.secs c.cs c.ch).getD 0
    let h1 := if c.ps = st && c.pc = idx then spSet 0 h c.ph (chanHandle d c.allow (numOf c.cs c.cc) c.ch) else h
    if c.cs = st && c.cc = idx then spSet 0 h1 c.ch (chanHandle d c.allow (numOf c.ps c.pc) c.ph) else h1) base

/-- Granules of the elements of a mask. -/
def maskGranules (mask : Nat) : List Nat :=
  ((List.range 3).filter (fun b => bit mask b)).flatMap (fun b => (List.range 128).map (fun g => 128 * b + g))

/-- Base cores come first in the index on the grid: launch-relative base-core index (R287). -/
def baseIndex (j k : Nat) : Nat := 4 * j + k

/-- The core at the mirrored position of the launch's grid of base cores, by its number in the first binding; a position
outside the grid has no core, and the spec does not say what MGRID names then: a free value (R296). -/
def mirrored (l : Launch) (b : Nat) : Nat :=
  let cols := max 1 (Config.gridCols (4 * l.need))
  let m := b % cols * cols + b / cols
  if b / cols < cols ∧ m < 4 * l.need then coreIn (l.home.getD (m / 4) 0) (m % 4) else (Config.noPartner b).toNat

/-- A core as a stage's release leaves it (R44, R74, R363, R365). -/
def newCore (l : Launch) (leg : Legend) (st j k fences jobt stagger : Nat) (own : Option Retained) : Core :=
  let rec_ := (l.stages[st]?).getD ⟨0, 0, 0x3FFF, 0, 0, false, false, 1, false⟩
  let num := coreIn (l.home.getD j 0) k
  let idx := 5 * (j - firstOf l.pkt st) + k
  let c0 := { coreAtLaunch num (k = 4) l.id l.ctx (5 * j + k) (l.pkt.getD 1 0) rec_.entry with
    inboxEntry := if rec_.inbox = 0x3FFF then none else some rec_.inbox,
    schk := rec_.schk, cov := rec_.cov, fences := fences, legend := leg,
    handles := handlesFor l st idx }
  let c1 := match own with
    | some r => { c0 with sp := r.sp, bstore := r.bs, retmask := r.mask, spDirty := maskGranules r.mask,
                          bsDirty := if bit r.mask 3 then List.range 512 else [] }
    | none => c0
  let cols := max 1 (Config.gridCols (4 * l.need))
  let b := baseIndex j k
  let c2 := { c1 with mat := { c1.mat with
      stagger := stagger, grow := if k = 4 then 0 else b / cols, gcol := if k = 4 then 0 else b % cols,
      partner := if k = 4 then 0 else mirrored l b } }
  let c3 := (l.secs.filter (fun x => x.ty = 6 && x.stage = st)).foldl (fun c x =>
    loadBytes x.addr (memBytes l.plv x.off x.len) c) c2
  loadBytes 0 (paramBlock l st idx (j) jobt) c3

/-- A core of a pre-empted launch as its restore leaves it (R352, R357, R382, R395, R398). -/
def restored (c : Core) (leg : Legend) (stagger fences : Nat) : Core :=
  { c with
    legend := leg, fences := fences, injs := [], hostDirty := 0,
    p := c.shadow, since := 0, wbBytes := 0,
    run := if c.run = .ended then .ended else if c.retain.isSome then .halted else .run, preempt := false, frozen := false,
    mcache := [], utlbH := [], utlbE := [], hc := [], sb := [], r1 := [], cyc := cyc0, evs := [],
    shcnt := [0, 0, 0, 0], tagV := false, tagMb := 0,
    helpers := c.helpers.map (fun x => { x with kBusy := 0 }),
    eng := { c.eng with turn := 0 },
    mat := { c.mat with stagger := stagger, fpm := 0 }, bpSkip := false }

/-- The breakpoint registers of a context: sixteen pairs of task and control (R425). -/
def State.bpRegs (s : State) (ctx : Nat) : List (Word × Word) :=
  (List.range 16).map (fun k =>
    (BitVec.ofNat 64 (s.reg (dbg ctx (0x100 + 16 * k))), BitVec.ofNat 64 (s.reg (dbg ctx (0x108 + 16 * k)))))

/-- A core sees its context's breakpoint registers as they stand (R425). -/
def State.syncBps (s : State) (num ctx : Nat) : State :=
  { s with bps := (num, s.bpRegs ctx) :: s.bps.filter (fun e => e.1 ≠ num) }

/-- One core comes up at a physical number; the bundle it fetches first may match a breakpoint (R418). -/
def State.bringUp (s : State) (num : Nat) (c : Core) : State :=
  let t := { s with cores := insCore s.cores num c }.syncBps num c.lctx
  if c.run = .run && (t.bpMatch num c).isSome then t.soon num [.breakpoint] else t

/-- Banks (bits 0 to 2) and B-store (bit 3) of a core that hold another key's image: fenced (R357). -/
def State.fencesAt (s : State) (num : Nat) : Nat :=
  (s.retained.filter (fun r => r.num = some num)).foldl (fun m r => m ||| r.mask) 0

/-- Code of a stage in a cluster's code store (R71, R354). -/
def State.loadCode (s : State) (l : Launch) (st cl : Nat) : State :=
  let code := (stageCode l.plv l.secs l.pkt st).foldl (fun m e => spSet 0 m e.1 e.2) []
  { s with clusters := spSet cluster0 s.clusters cl { spGet cluster0 s.clusters cl with code := code } }

/-- The five cores of one cluster of a stage come up. -/
def State.releaseCluster (s : State) (l : Launch) (st j : Nat) : State :=
  let cl := l.clusters.getD j 0
  let s1 := s.loadCode l st cl
  (List.range 5).foldl (fun t k =>
    let num := coreIn cl k
    let off := 8 * baseIndex j k
    let age := 16 * (l.stages.length - 1 - st)
    let stagger := if k = 4 then 0 else off - age
    if l.resume then
      (match l.images.find? (fun im => im.index = 5 * j + k) with
      | some im => (match t.loadImage l.ctx (512 * l.id + im.index) im with
        | some c =>
          let u := t.bringUp num (restored c l.legend off (t.fencesAt num))
          { u with faults := u.faults.map (fun (f : FaultE) =>
              if f.core = imageCode l.id im.index then { f with core := num } else f) }
        | none => t)
      | none => t)
    else
      let ow := (t.ownImages l).find? (fun r => r.index = 5 * j + k)
      let got := match ow with
        | some r => (match r.num with
          | some _ => (some r, t)
          | none => (let x := t.readImage r; (some x.1, x.2)))
        | none => (none, t)
      let t1 := { got.2 with retained := got.2.retained.filter (fun r => some r ≠ ow) }
      t1.bringUp num (newCore l l.legend st j k (t1.fencesAt num) (t1.jobTime l.ctx + 1) stagger got.1)) s1

/-- Some image of the launch fails its checks (R396). -/
def State.imagesFail (s : State) (l : Launch) : Bool :=
  l.resume && l.images.any (fun im => (s.loadImage l.ctx (512 * l.id + im.index) im).isNone)

/-- A stage of a launch is released: all its cores in the same cycle, the next (R364). The whole launch waits for its
clusters' domains (R447) and, before its first release, for its context to run (R421). -/
def State.releaseStage (s : State) (id : Nat) : State :=
  match s.launchOf id with
  | none => s
  | some l =>
    if l.state ≠ .preparing then s
    else if l.nrel = 0 && (l.clusters.any (fun cl => s.gateOf cl ≠ 0) || (s.jobOf l.ctx).state ≠ 0) then
      (l.clusters.foldl State.openDomain s).later (s.tick + 1) 0 (.stageRelease id)
    else if l.nrel = 0 && s.imagesFail l then (s.finish id 5 cSAVEINTEGRITY).decide
    else
      let b := if l.nrel = 0 && !l.resume then s.bufActions l.ctx false (bufList l.pkt) else ⟨0, false, s⟩
      let n := l.stages.length
      let now := if l.resume then (List.range l.need) else
        (let st := n - 1 - l.nrel
         (List.range (nclus l.pkt st)).map (fun i => firstOf l.pkt st + i))
      let s1 := now.foldl (fun t j => t.releaseCluster l (stageAt l.pkt j) j) b.st
      let nrel := if l.resume then n else l.nrel + 1
      let r0 := if l.nrel = 0 then s.tick + 1 else l.r0
      let s2 := s1.modLaunch id (fun k => { k with
        nrel := nrel, r0 := r0, skipped := k.skipped + b.skipped,
        state := if nrel = n then .running else .preparing,
        images := if l.resume then [] else k.images,
        relJob := if l.nrel = 0 && !l.resume && k.pass = 0 then s.jobTime l.ctx + 1 else k.relJob,
        relTick := if l.nrel = 0 && !l.resume then s.tick + 1 else k.relTick,
        left := k.left ++ (if l.resume then [] else now.flatMap (fun j => (List.range 5).map (fun i => 5 * j + i))) })
      if nrel = n then s2 else s2.later (r0 + 16 * nrel - 1) 0 (.stageRelease id)

/-! ### Ends of parts (R226, R227, R366) -/

/-- Mailbox values and inbox entries of a core (R227); DESIGN CHOICE (assumption 154): arrivals held outside a full inbox count as
the inbox's. -/
def mailLeft (c : Core) : Nat := (c.mb.filter (fun e => e.2.2)).length + c.inbox.length + c.recvHeld.length

/-- What a pass says of a core whose part ends: the tick, its signature, its counts (R433). -/
def partOf (tick : Nat) (c : Core) : List Word :=
  [BitVec.ofNat 64 tick, c.p.sig.zeroExtend 64, BitVec.ofNat 64 (c.cnt.getD 0 0), BitVec.ofNat 64 (c.cnt.getD 1 0),
   BitVec.ofNat 64 (c.cnt.getD 2 0), BitVec.ofNat 64 (c.cnt.getD 3 0)]

/-- The part of a core ends: the retain mask takes effect, mail is discarded and counted (R226, R227, R366). -/
def State.endPart (s : State) (num : Nat) : State :=
  match s.core num with
  | none => s
  | some c =>
    match s.launchOf c.launch with
    | none => s
    | some l =>
      if c.run ≠ .halted then s
      else
        let st := stageAt l.pkt (c.index / 5)
        let ret := ((l.stages[st]?).map Stage.retain).getD 0
        let mask := if keyed l then c.retain.getD 0 &&& ret &&& (if c.upper then 7 else 15) else 0
        let keep : Retained := ⟨l.ctx, keyOf l, c.index, some num, l.need, backingOf l, mask,
          c.sp.filter (fun e => bit mask (e.1 / 0x80000)), if bit mask 3 then c.bstore else []⟩
        let s1 := if mask = 0 then s else { s with retained := s.retained ++ [keep] }
        let s2 := s1.setCore num { c with run := .ended, mb := [], inbox := [], recvHeld := [] }
        let s3 := s2.modLaunch l.id (fun k => { k with
          discarded := k.discarded + mailLeft c, left := k.left.erase c.index,
          parts := k.parts ++ [(c.index, partOf s.tick c)] })
        if l.left.erase c.index = [] && l.nrel = l.stages.length then s3.soon 0 [.launchComplete l.id] else s3

/-- A launch completes once every part has ended; one whose posted host writes are being flushed, once they are (R187, R364).
Entries left in the FIFO of a closing domain are discarded then: the launch's cores go (R455). -/
def State.complete (s : State) (id : Nat) : State :=
  match s.launchOf id with
  | none => s
  | some l =>
    if l.state = .running && l.left = [] then (s.finish id 0 0).decide
    else if l.state = .finished then
      (if s.hubReadOut l.ctx then s.later (s.tick + 1) 0 (.launchComplete id) else (s.finish id l.status l.cause).decide)
    else s

/-! ### Pre-emption (R393 to R397) -/

/-- No BFILL is at work, or one from global memory stands at a burst boundary (R299). -/
def fillRests (m : Mat) : Bool :=
  match m.fill with
  | none => true
  | some u => (locOf u.c.x).isNone && u.req.isNone && u.data.isNone

/-- A SWAP whose exchange has not begun goes back to the commands not started (R296, R299). -/
def unswap (c : Core) : Core :=
  match c.mat.swap with
  | none => c
  | some u => { c with mat := { setMCmd u.no (fun e => { e with started := false }) c.mat with swap := none } }

/-- Nothing of a core is still on its way (R393). -/
def coreQuiet (c : Core) : Bool :=
  (match c.run with
    | .stopped => true
    | .ended => true
    | _ => false)
  && c.hpend.isEmpty && c.hgroups.isEmpty && c.hflights.isEmpty && c.hc.isEmpty && c.sb.isEmpty && c.r1.isEmpty
  && c.gwOut = 0 && c.hostDirty = 0 && c.cyc.out.isEmpty && c.eng.qs.all (fun q => q.burst.isNone && q.fin.isNone)
  && c.mat.runs.isEmpty && c.mat.mcode.isNone && fillRests c.mat && c.mat.drain.isNone
  && (c.mat.swap.isNone || !c.mat.swapLive) && c.mat.swapTx.isNone
  && c.helpers.all (fun x => x.reqs.isEmpty && x.xst = 0 && x.ords.isEmpty)

/-- No core of the launch is still busy and no message of it is under way (R393, R395). -/
def State.preemptQuiet (s : State) (id ctx : Nat) : Bool :=
  let cs := s.coresOf id
  cs.all (fun e => coreQuiet e.2 && !s.reqs.any (fun r => r.core = e.1))
  && !s.msgs.any (fun m => m.lctx = ctx && cs.any (fun e => e.1 = m.src))

/-- Pre-emption goes on: once all is quiet the images are taken and written, and the clusters are free after the time of
their writing (R394, R397). -/
def State.preemptStep (s : State) (id : Nat) : State :=
  match s.launchOf id with
  | none => s
  | some l =>
    if l.state ≠ .preempting then s
    else if l.images ≠ [] then
      let s1 := s.modLaunch id (fun k => { k with state := .preempted, clusters := [] })
      ({ s1 with cores := s1.cores.filter (fun e => !(e.2.launch = id && e.1 < 512)) }.setNoc).decide
    else if s.preemptQuiet id l.ctx then
      let ims := (s.coresOf id).map (fun (e : Nat × Core) => (⟨e.2.index, unswap e.2⟩ : Image))
      let s1 := ims.foldl (fun st im => st.saveImage l.ctx (512 * id + im.index) im) s
      let d := mostOf (ims.map (fun im => (im.index / 5, imageSize im + im.core.wbBytes)))
      let t := s1.drawIn (max 1 ((d + 127) / 128)) (restoreCycles d)
      let code (n : Nat) : Nat := match s.core n with
        | some c => if c.launch = id && n < 512 then imageCode id c.index else n
        | none => n
      let u := { t.2 with faults := t.2.faults.map (fun (f : FaultE) => { f with core := code f.core }) }
      (u.modLaunch id (fun k => { k with images := ims })).later (s.tick + t.1) 0 (.preemptionEnd id)
    else s.later (s.tick + 1) 0 (.preemptionEnd id)

/-! ### The end of a kill (R399) -/

/-- Kill records that wait for a context's launches are written once none is left (R361, R399). -/
def State.killRecords (s : State) (ctx : Nat) : State :=
  if s.launches.any (fun l => l.ctx = ctx && leaving l) then s
  else
    let mine := s.kills.filter (fun k => k.2.2.1 = ctx)
    mine.foldl (fun st k => st.finishPacket k.1 k.2.1 ctx k.2.2.2 0 0)
      { s with kills := s.kills.filter (fun k => k.2.2.1 ≠ ctx) }

/-! ### Windows (R368) -/

/-- RTUSED returns to 0 at the start of a window. -/
def State.newWindow (s : State) : State := (s.setFld 0x1408 47 0 0).decide

end Sys2Proof.Machine
end

