-- ==== Sys2Proof/Machine/Streams.lean ====
section
/-! DEFINITION. Command streams and the command processor: slot tables and polling (19 R438, R439), STR_CTL (15 R358), the
packets (15 R359 to R363, R371, R372), kills (16 R399) and replay measurement (18 R432, R433). -/

namespace Sys2Proof.Machine

/-! ### Rings (R358) -/

def State.headOf (s : State) (m : Nat) : Nat := s.fld (strReg m 0x18) 31 0
def State.tailOf (s : State) (m : Nat) : Nat := s.fld (strReg m 0x10) 31 0

/-- Packets taken from the ring itself, modulo 2^32: replays add packets that no ring holds. -/
def State.ringHead (s : State) (m : Nat) : Nat := (s.headOf m + 2 ^ 32 - spGet 0 s.extra m) % 2 ^ 32

/-- A packet waits in the ring. -/
def State.hasPacket (s : State) (m : Nat) : Bool := bit (s.reg (strReg m 8)) 63 && s.ringHead m ≠ s.tailOf m

/-- The packet at the head of a stream: 64 doublewords. -/
def State.packetAt (s : State) (m : Nat) : List Word × State :=
  let n := s.fld (strReg m 8) 3 0
  let r := s.physRead (bits (s.reg (strReg m 0)) 51 12 * 4096 + 512 * (s.ringHead m % 2 ^ n)) 512
  ((dwsOf r.1 64).map (BitVec.ofNat 64), r.2)

/-- HEAD advances over one packet: its sequence number. -/
def State.takeSeq (s : State) (m : Nat) : Nat × State :=
  let n := (s.headOf m + 1) % 2 ^ 32
  (n, s.setFld (strReg m 0x18) 31 0 n)

/-! ### Slot tables and STR_CTL (R438, R439, R358) -/

/-- Positions of n slots with offset d. -/
def slotPlaces (n d : Nat) : List Nat := (List.range n).map (fun k => 64 * k / n + d)

/-- The first core and offset whose positions are all free and none is slot 63 (R439). -/
def slotChoice (t : List SlotTab) (n : Nat) : Option (Nat × Nat) :=
  ((List.range 4).flatMap (fun c => (List.range ((64 + n - 1) / n)).map (fun d => (c, d)))).find? (fun e =>
    (slotPlaces n e.2).all (fun p => p < 63 && ((t.getD e.1 []).getD p (some 0)).isNone))

/-- A stream's slots are placed; when no choice fits the write is refused (R439). -/
def State.placeSlots (s : State) (m : Nat) : State :=
  let n := s.fld (strReg m 8) 46 41
  match slotChoice s.slots n with
  | none => (s.setFld (strReg m 8) 63 63 0).setFld (strReg m 0x28) 15 8 0x0E
  | some e =>
    { s with slots := (List.zip (List.range 4) s.slots).map (fun x =>
        if x.1 = e.1 then (slotPlaces n e.2).foldl (fun t p => setAt t p (some m)) x.2 else x.2) }

/-- Positions a stream holds on a core: 64 × core + position. -/
def State.heldSlots (s : State) (m : Nat) : List Nat :=
  (List.range 256).filter (fun i => (s.slots.getD (i / 64) []).getD (i % 64) none = some m)

/-- A write of STR_CTL but for what a change of EN brings (R358). -/
def State.strFields (s : State) (m v : Nat) : State :=
  let old := s.reg (strReg m 8)
  let held := bit old 63 || s.launches.any (fun l => l.stream = m)
  let cls := if held || bits v 62 61 = 3 then bits old 62 61 else bits v 62 61
  let ctx := if held then bits old 58 55 else bits v 58 55
  let logn := if held || bits v 3 0 < 4 || 12 < bits v 3 0 then bits old 3 0 else bits v 3 0
  s.setReg (strReg m 8) (bits v 63 63 * 2 ^ 63 + cls * 2 ^ 61 + bits v 60 59 * 2 ^ 59 + ctx * 2 ^ 55
    + max 1 (bits v 54 47) * 2 ^ 47 + max 1 (bits v 46 41) * 2 ^ 41 + logn)

/-- STREAM_ENABLE: a write that sets EN of a stream whose EN was 0; where no choice of slots fits, the write is refused and
changes nothing but STR_STAT.CAUSE (R439). -/
def State.enableStream (s : State) (m v : Nat) : State :=
  if s.bootFail then s
  else
    let t := s.strFields m v
    if (slotChoice t.slots (t.fld (strReg m 8) 46 41)).isSome then t.placeSlots m else s.setFld (strReg m 0x28) 15 8 0x0E

/-- STREAM_DISABLE: a write of 0 to EN frees the stream's slots at the next frame boundary (R439). -/
def State.disableStream (s : State) (m v : Nat) : State :=
  if s.bootFail then s
  else
    let s1 := s.strFields m v
    { s1 with freeing := s1.freeing ++ s1.heldSlots m }

/-- MAJOR_FRAME: slots of disabled streams become free; the frames since firmware start are counted (R438 to R440). -/
def State.majorFrame (s : State) : State :=
  { s with
    slots := (List.zip (List.range 4) s.slots).map (fun x =>
      (List.zip (List.range 64) x.2).map (fun y => if s.freeing.contains (64 * x.1 + y.1) then none else y.2)),
    freeing := [], frames := if s.fwBusy then s.frames else s.frames + 1 }

/-- The event that consumes a packet of a TYPE (R359). -/
def packetEvent (ty : Nat) : Instr :=
  if ty = 1 then .replay else if ty = 2 then .kill else if ty = 3 then .record else .launchPacket

/-- STREAM_POLL: the slot's first cycle reads TAIL; a waiting packet is consumed by the end of the slot (R438). -/
def State.pollStream (s : State) (m : Nat) : State :=
  if s.hasPacket m && !s.bootFail then
    let p := s.packetAt m
    let ev := packetEvent (bits (p.1.getD 0 0).toNat 63 60)
    let d := p.2.drawIn 0 469
    if d.1 = 0 then d.2.soon m [ev] else d.2.later (s.tick + d.1) m ev
  else s

/-! ### Checks of a launch packet (R359, R362) -/

/-- A field of a launch packet that R359 or R362 does not allow (PKT_FORMAT). -/
def pktBad (cls : Nat) (pkt : List Word) : Bool :=
  let d (i : Nat) : Nat := (pkt.getD i 0).toNat
  let ns := nstageOf pkt
  let nb := bits (d 0) 59 56
  let ncl := (List.range ns).map (nclus pkt)
  bits (d 0) 63 60 ≠ 0 || 8 < nb || 8 < ns || bits (d 0) 51 49 ≠ 0 || bits (d 0) 47 0 ≠ 0
  || (cls ≠ 0 && d 2 ≠ 0) || d 4 % 0x400000 ≠ 0
  || bits (d 5) 62 38 ≠ 0 || bits (d 6) 62 38 ≠ 0 || d 7 % 32 ≠ 0
  || bits (d 9) 63 60 ≠ 0 || bits (d 10) 63 60 ≠ 0 || d 11 ≠ 0
  || (List.range 8).any (fun i => if i < ns then bits (d (12 + 2 * i)) 55 0 ≠ 0 || 96 < nclus pkt i
      else d (12 + 2 * i) ≠ 0 || d (13 + 2 * i) ≠ 0)
  || (List.range 8).any (fun i => nb ≤ i && (d (28 + 2 * i) ≠ 0 || d (29 + 2 * i) ≠ 0))
  || (List.range 16).any (fun i => if bit (d (44 + i)) 27 then bits (d (44 + i)) 26 0 ≠ 0 else d (44 + i) ≠ 0)
  || (ncl.any (· = 0) && ncl.any (· ≠ 0)) || 96 < needOf pkt

/-- A launch as its packet gives it, before any check. -/
def launchOf0 (id m seq cls ctx : Nat) (pkt : List Word) : Launch :=
  { id := id, stream := m, seq := seq, cls := cls, ctx := ctx, pkt := pkt, plv := [], secs := [], stages := [],
    state := .waiting, infeas := false, pre := false, clusters := [], reserved := [], dispT := 0, resume := false, nrel := 0,
    r0 := 0, relJob := 0, left := [], order := 0, need := 0, w := 0, s := 0, charge := 0, window := 0, status := 0,
    cause := 0, discarded := 0, skipped := 0, images := [], home := [], pass := 0, passes := 0, rplan := 0, rcap := 0,
    jobBack := 0, relTick := 0, parts := [], sigs := [], acted := false, legend := ⟨0, [], []⟩, prev := 0, preOrd := 0 }

/-- The checks of a launch and its kernel, in order (R355, R359, R362, R363, R344): a cause, or the kernel and the legend data
that its taps use, read with the check (assumption 30). -/
def State.checkLaunch (s : State) (cls ctx : Nat) (pkt : List Word) (measured : Bool) : PlvRes × Legend × State :=
  let none_ : Legend := ⟨0, [], []⟩
  let d (i : Nat) : Nat := (pkt.getD i 0).toNat
  if pktBad cls pkt || (measured && (bit (d 0) 48 || cls ≠ 2)) then (.bad rPKTFORMAT, none_, s)
  else if (List.range (bits (d 0) 59 56)).any (bufBad pkt) then (.bad rBUFLIST, none_, s)
  else match chanCheck pkt with
    | some c => (.bad c, none_, s)
    | none =>
      if needOf pkt = 0 then (.good [] [] [], none_, s)
      else
        let r := s.plvCheck ctx (d 8) (nstageOf pkt)
        match r.1 with
        | .bad c => (.bad c, none_, r.2)
        | .good m st secs =>
          if chanEnds m secs pkt then (.bad rCHANEND, none_, r.2)
          else match r.2.legendFor ctx (declared m secs st.length) with
            | .error c => (.bad c, none_, r.2)
            | .ok g => (r.1, g, r.2)

/-- A TYPE 0 packet is run as a launch: rejected, finished as empty, or set to wait for its dispatch (R355, R361, R432). -/
def State.newLaunch (s : State) (m seq : Nat) (pkt : List Word) : State :=
  let cls := s.strCls m
  let ctx := s.strCtx m
  let rp := s.reg (strReg m 0x30)
  let meas := bit rp 63
  let l0 := { launchOf0 s.seq m seq cls ctx pkt with prev := spGet 0 s.lastOf m }
  let s0 := { s with seq := s.seq + 1, lastOf := spSet 0 s.lastOf m (s.seq + 1) }
  let s1 := if meas then s0.setFld (strReg m 0x30) 63 63 0 else s0
  let c := s1.checkLaunch cls ctx pkt meas
  let l := match c.1 with
    | .bad _ => l0
    | .good pm st secs => { l0 with
        plv := pm, stages := st, secs := secs, need := needOf pkt, w := wOf st, legend := c.2.1,
        passes := if meas then bits rp 62 60 + 1 else 0, rplan := bits rp 51 6 * 64,
        rcap := s.fld (strReg m 0x38) 51 6 * 64 }
  let s2 := { c.2.2 with launches := c.2.2.launches ++ [l] }
  match c.1 with
  | .bad k => s2.finish l.id 3 k
  | .good _ _ _ => if l.need = 0 then s2.finish l.id 1 0 else s2

/-! ### Graphs (R371, R372) -/

/-- Graph-parameter register r of graph g. -/
def State.graphReg (s : State) (g r : Nat) : Word := BitVec.ofNat 64 (s.reg (0x1000000 + 512 * g + 8 * r))

/-- The patch entries of a packet, in order: doubleword and register. -/
def patches (pkt : List Word) : List (Nat × Nat) :=
  ([9, 10].flatMap (fun i => (List.range 5).map (fun k =>
    let e := bits (pkt.getD i 0).toNat (12 * k + 11) (12 * k)
    (bits e 11 6, bits e 5 0)))).filter (fun e => e.1 ≠ 0)

def State.patched (s : State) (g : Nat) (pkt : List Word) : List Word :=
  (patches pkt).foldl (fun p e => setAt p e.1 (s.graphReg g e.2)) pkt

/-- Packet slots not free: recorded ones and those that recordings in progress will fill. -/
def State.slotsUsed (s : State) : Nat := s.graphs.length + natSum (s.recording.map (fun e => e.2.2.1))

/-- A TYPE 0 packet reaches its stream's turn: it is stored by the first of the stream's recordings in progress, or run
(R371; DESIGN CHOICE for a second RECORD consumed before the first has its packets, assumption 29). -/
def State.typeZero (s : State) (m seq : Nat) (pkt : List Word) : State :=
  match s.recording.find? (fun e => e.1 = m) with
  | some (n, g, k, rs, ra) =>
    let rest := if k ≤ 1 then s.recording.erase (n, g, k, rs, ra)
      else s.recording.map (fun e => if e = (n, g, k, rs, ra) then (n, g, k - 1, rs, ra) else e)
    let s1 := { s with graphs := s.graphs ++ [(g, pkt)], recording := rest }
    let s2 := s1.finishSeq m seq
    if k ≤ 1 then s2.finishPacket m rs (s.strCtx m) ra 0 0 else s2
  | none => s.newLaunch m seq pkt

/-- A packet of TYPE 1 to 3 with a non-zero field other than those it has (R359): doubleword 0 below its TYPE, doubleword 1
outside `mask`, any doubleword but the record's address. -/
def otherBad (pkt : List Word) (mask : Nat) : Bool :=
  let d (i : Nat) : Nat := (pkt.getD i 0).toNat
  bits (d 0) 59 0 ≠ 0 || (d 1 / 2 ^ mask ≠ 0) || d 7 % 32 ≠ 0
  || (List.range 64).any (fun i => i ≠ 0 && i ≠ 1 && i ≠ 7 && d i ≠ 0)

/-- The head packet is taken: its doublewords, its sequence number. -/
def State.takePacket (s : State) (m : Nat) : List Word × Nat × State :=
  let p := s.packetAt m
  let q := p.2.takeSeq m
  (p.1, q.1, q.2)

/-- LAUNCH_PACKET: a TYPE 0 packet is consumed; a TYPE that R359 does not give is rejected. -/
def State.launchPacket (s : State) (m : Nat) : State :=
  if !s.hasPacket m then s
  else
    let t := s.takePacket m
    let ty := bits (t.1.getD 0 0).toNat 63 60
    if ty = 0 then (t.2.2.typeZero m t.2.1 t.1).decide
    else
      (((t.2.2.setFld (strReg m 0x28) 15 8 rPKTFORMAT).finishPacket m t.2.1 (s.strCtx m) (t.1.getD 7 0).toNat 3 rPKTFORMAT)).decide

/-- A packet of TYPE 1 to 3 is rejected for its fields. -/
def State.rejectPacket (s : State) (m seq : Nat) (pkt : List Word) (cause : Nat) : State :=
  (s.setFld (strReg m 0x28) 15 8 cause).finishPacket m seq (s.strCtx m) (pkt.getD 7 0).toNat 3 cause

/-- REPLAY: the packets of a graph take the stream's next sequence numbers, patched with the parameter registers as they
stand; the replay packet then finishes (R371, R372). -/
def State.replayPacket (s : State) (m : Nat) : State :=
  if !s.hasPacket m then s
  else
    let t := s.takePacket m
    if otherBad t.1 8 then (t.2.2.rejectPacket m t.2.1 t.1 rPKTFORMAT).decide
    else
      let g := bits (t.1.getD 1 0).toNat 7 0
      let ps := ((s.graphs.filter (fun e => e.1 = g)).map (·.2)).map (s.patched g)
      let s1 := ps.foldl (fun st p =>
        let q := st.takeSeq m
        { q.2 with extra := spSet 0 q.2.extra m ((spGet 0 q.2.extra m + 1) % 2 ^ 32) }.typeZero m q.1 p) t.2.2
      (s1.finishPacket m t.2.1 (s.strCtx m) (t.1.getD 7 0).toNat 0 0).decide

/-- RECORD: the slots of a graph are freed, and the stream's next k TYPE 0 packets are to be stored (R371). -/
def State.recordPacket (s : State) (m : Nat) : State :=
  if !s.hasPacket m then s
  else
    let t := s.takePacket m
    let d1 := (t.1.getD 1 0).toNat
    let k := bits d1 17 8
    let ra := (t.1.getD 7 0).toNat
    if otherBad t.1 18 || k = 0 || 512 < k then (t.2.2.rejectPacket m t.2.1 t.1 rPKTFORMAT).decide
    else
      let g := bits d1 7 0
      let s1 := { t.2.2 with graphs := t.2.2.graphs.filter (fun e => e.1 ≠ g) }
      if 512 < s1.slotsUsed + k then (s1.rejectPacket m t.2.1 t.1 rGRAPHFULL).decide
      else { s1 with recording := s1.recording ++ [(m, g, k, t.2.1, ra)] }.decide

/-- KILL: every launch of the stream's context is killed (R359, R399). -/
def State.killPacket (s : State) (m : Nat) : State :=
  if !s.hasPacket m then s
  else
    let t := s.takePacket m
    let ctx := s.strCtx m
    if otherBad t.1 0 then (t.2.2.rejectPacket m t.2.1 t.1 rPKTFORMAT).decide
    else
      let s1 := t.2.2.killCtx ctx true none
      ({ s1 with kills := s1.kills ++ [(m, t.2.1, ctx, (t.1.getD 7 0).toNat)] }.killRecords ctx).decide

/-- Rung 1 (R440): unconsumed packets are discarded without records; HEAD := TAIL, DONE := HEAD. -/
def State.resetStream (s : State) (m : Nat) : State :=
  let t := s.tailOf m
  { ((s.setFld (strReg m 0x18) 31 0 t).setFld (strReg m 0x20) 31 0 t) with
    extra := spSet 0 s.extra m 0, finished := s.finished.filter (fun e => e.1 ≠ m),
    recording := s.recording.filter (fun e => e.1 ≠ m) }

/-! ### Replay measurement (R432, R433) -/

/-- The ranges of a measured launch copied to the capture area, one after another (R433). -/
def State.capture (s : State) (l : Launch) : State :=
  ((bufList l.pkt).foldl (fun (x : Nat × State) e =>
    let r := x.2.ctxBytes l.ctx e.1 e.2.2
    (x.1 + e.2.2, match r.1 with
      | some d => r.2.ctxPut l.ctx x.1 d
      | none => r.2)) (l.rcap, s)).2

/-- The capture area copied back, the ranges' L2 lines written back and dropped, and the context's translations dropped. -/
def State.putBack (s : State) (l : Launch) : State :=
  let s1 := ((bufList l.pkt).foldl (fun (x : Nat × State) e =>
    let r := x.2.ctxBytes l.ctx x.1 e.2.2
    let s2 := match r.1 with
      | some d => r.2.ctxPut l.ctx e.1 d
      | none => r.2
    (x.1 + e.2.2, (s2.bufRange l.ctx e.1 true (e.2.2 / 0x10000 + 2) e.2.2).st)) (l.rcap, s)).2
  s1.invalidate 1 l.ctx 0

/-- Router counter registers of a cluster. -/
def rcfg (cl i : Nat) : Nat := 0x2200000 + 0x400 * cl + 8 * i

/-- Plan entry p programmed into the counters of the launch's cores as each stage comes up and, with the first, of its
clusters' routers, zeroed; signatures set (R433). A core that a resume brought back goes on counting. -/
def State.programPass (s : State) (l : Launch) (first : Bool) : State :=
  let r := s.ctxBytes l.ctx (l.rplan + 32 * l.pass) 32
  let d := dwsOf (r.1.getD []) 4
  let ev (i : Nat) : Nat := bits (d.getD 0 0) (8 * i + 7) (8 * i)
  let rev (i : Nat) : Nat := bits (d.getD (1 + i / 8) 0) (8 * (i % 8) + 7) (8 * (i % 8))
  let s1 := r.2.mapCores (fun n c => if c.launch = l.id && n < 512 && !c.replay then
      { c with replay := true, cntcfg := (List.range 4).map (fun i => BitVec.ofNat 64 (2 ^ 63 + 0xF00 + ev i)),
               cnt := [0, 0, 0, 0], p := { c.p with sig := 0xFFFFFFFF } } else c)
  if first then
    l.clusters.foldl (fun st cl => (List.range 16).foldl (fun t i =>
      (t.setReg (rcfg cl i) (2 ^ 63 + rev i)).setReg (rcfg cl i + 0x80) 0) st) s1
  else s1

/-- The results of a pass written at RES; a part that a trap or kill has cut off ends with it (R433). -/
def State.passResults (s : State) (l : Launch) : State :=
  let r := s.ctxBytes l.ctx (l.rplan + 32 * l.pass) 32
  let res := (dwsOf (r.1.getD []) 4).getD 3 0
  let cut := ((s.coresOf l.id).filter (fun e => l.left.contains e.2.index)).map (fun e => (e.2.index, partOf s.tick e.2))
  let parts := l.parts ++ cut
  let sig (e : Nat × List Word) : Word := (e.2.getD 1 0) ^^^ 0xFFFFFFFF
  let bad := l.pass ≠ 0 && parts.any (fun e => l.sigs.any (fun f => f.1 = e.1 && f.2 ≠ sig e))
  let core (n : Nat) : List Byte := match parts.find? (fun e => e.1 = n) with
    | some e => (List.range 4).flatMap (fun i => leBytes 8 (e.2.getD (2 + i) 0).toNat) ++ leBytes 8 (sig e).toNat
        ++ leBytes 8 ((e.2.getD 0 0).toNat + 1 - l.relTick) ++ List.replicate 16 0
    | none => List.replicate 64 0
  let s1 := r.2.ctxPut l.ctx res (leBytes 8 (b2n bad * 2 ^ 63 + l.pass) ++ List.replicate 56 0)
  let s2 := s1.ctxPut l.ctx (res + 64) ((List.range (5 * l.need)).flatMap core)
  s2.ctxPut l.ctx (res + 64 + 320 * l.need) (l.clusters.flatMap (fun cl =>
    (List.range 16).flatMap (fun i => leBytes 8 (s.fld (rcfg cl i + 0x80) 47 0))))

/-- A killed launch whose accesses are over finishes; a measured one writes its pass's results first (R191, R361, R433). -/
def State.finishKilled (s : State) (l : Launch) : State :=
  (if l.passes ≠ 0 && l.nrel ≠ 0 then s.passResults l else s).finish l.id l.status l.cause

/-- Killed launches of a context whose accesses are over finish (R191, R361); the others are looked at a cycle later. -/
def State.killStep (s : State) (ctx : Nat) : State :=
  let mine := s.launches.filter (fun l => l.ctx = ctx && l.state = .killing)
  let s1 := mine.foldl (fun st l => if st.killQuiet l.id then st.finishKilled l else st) s
  let s2 := s1.killRecords ctx
  let s3 := if s2.launches.any (fun l => l.ctx = ctx && leaving l) then s2.later (s.tick + 1) ctx (.killComplete ctx)
            else s2
  if s3.launches.length < s.launches.length then s3.decide else s3

/-- Before a later pass: the ranges are put back and the launch is to be released again, with job time as it was (R433). -/
def State.nextPass (s : State) (l : Launch) (sigs : List (Nat × Word)) (back0 : Nat) : State :=
  let s1 := s.putBack l
  let back := s1.jobTime l.ctx + 2 - back0
  let s2 := s1.setJob l.ctx { s1.jobOf l.ctx with away := (s1.jobOf l.ctx).away + back }
  let s3 := s2.modLaunch l.id (fun k => { k with
    pass := k.pass + 1, sigs := sigs, parts := [], discarded := 0, skipped := 0, state := .preparing, nrel := 0, jobBack := back0 })
  { s3 with cores := s3.cores.filter (fun e => !(e.2.launch = l.id && e.1 < 512)) }.later (s.tick + 1) 0 (.stageRelease l.id)

/-- A launch whose every part has ended. -/
def partsOver (l : Launch) : Bool := l.state = .running && l.left = []

/-- REPLAY_PASS: a pass of a measured launch ends: its results are written, and the next pass starts; after the last the
launch completes (R433). -/
def State.replayPass (s : State) (id : Nat) : State :=
  match s.launchOf id with
  | none => s
  | some l =>
    if l.passes = 0 || !partsOver l then s
    else
      let s1 := s.passResults l
      let sigs := if l.pass = 0 then l.parts.map (fun e => (e.1, (e.2.getD 1 0) ^^^ 0xFFFFFFFF)) else l.sigs
      if l.pass + 1 < l.passes then s1.nextPass l sigs (if l.pass = 0 then l.relJob else l.jobBack) else s1.complete l.id

/-- LAUNCH_COMPLETE: every part of a launch has ended (R364). -/
def State.launchComplete (s : State) (id : Nat) : State :=
  match s.launchOf id with
  | none => s
  | some l => if partsOver l && l.passes ≠ 0 then s.soon 0 [.replayPass id] else s.complete id

/-- STAGE_RELEASE, with what a measured launch's pass needs on both sides (R364, R433). -/
def State.stageRelease (s : State) (id : Nat) : State :=
  match s.launchOf id with
  | none => s
  | some l =>
    let s1 := if l.passes ≠ 0 && l.pass = 0 && l.nrel = 0 && l.state = .preparing && l.left = [] then s.capture l else s
    let s2 := s1.releaseStage id
    match s2.launchOf id with
    | some k => if k.passes ≠ 0 then s2.programPass k (l.nrel = 0 && k.nrel ≠ 0 && !l.resume) else s2
    | none => s2

end Sys2Proof.Machine
end

