-- ==== Sys2Proof/Machine/Debug.lean ====
section
/-! DEFINITION. Halt waves, stepping and resuming (18 R419 to R425), breakpoints (R418), the survey pulse (R426 to R428),
the shadow trigger (R429 to R431) and the flight recorder's data port (R434). -/

namespace Sys2Proof.Machine

/-! ### Agents of a job (R419) -/

/-- A core of the context, or a gateway whose GWCTL.CTX is the job: a gateway's core carries that context. -/
def ofJob (n : Nat) (c : Core) : Bool := c.lctx = n

/-- A free binary choice (assumption 4). -/
def State.drawBit (s : State) : Bool × State := ((s.drawIn 0 1).1 = 1, (s.drawIn 0 1).2)

/-- HALT_FLIT: the wave reaches agents of a halting job, which ones in which cycle is open up to F + B (R420). -/
def State.haltFlit (s : State) (n : Nat) : State :=
  if (s.jobOf n).state = 1 then
    let ags := (s.cores.filter (fun e => ofJob n e.2 && !e.2.frozen)).map (·.1)
    (ags.foldl (fun st k =>
      let d := st.drawBit
      if d.1 then d.2.freezeCore k else d.2) s).later (s.tick + 1) n .haltFlit
  else s

/-- Every agent of a job frozen. -/
def State.freezeAll (s : State) (n : Nat) : State := s.mapCores (fun _ c => if ofJob n c then { c with frozen := true } else c)

/-- Releases still to come of a job's launches that have begun to be released stand still with it: moved out of reach at
the stop, back at the resume. -/
def State.moveReleases (s : State) (n : Nat) (f : Nat → Nat) : State :=
  let mine (e : Nat × Nat × Instr) : Bool := match e.2.2 with
    | .stageRelease id => (match s.launchOf id with
      | some l => l.ctx = n && l.nrel ≠ 0
      | none => false)
    | _ => false
  let moved := (s.timers.filter mine).map (fun e => (f e.1, e.2))
  { s with timers := moved.foldl (fun l e => insTimer e.1 e.2.1 e.2.2 l) (s.timers.filter (fun e => !mine e)) }

/-- STOP_TICK: at the end of the stop tick every agent of the job is frozen and its job clock stands (R420 to R422). -/
def State.stopTick (s : State) (n : Nat) : State :=
  let j := s.jobOf n
  if s.stopsNow.contains n then
    let s1 := (s.setJob n { j with state := 2, step := none, wave := false }).freezeAll n
    let s2 := if j.wave then s1.countMod (dbg n 8) 31 0 1
              else s1.note 4 7 0x3E n 0x1FF (s1.fld (dbg n 8) 31 0)
    s2.moveReleases n (fun t => t + 2 ^ 63 - s.tick)
  else s

/-! ### Requests of the host (R424, R425) -/

/-- A request's REFUSED bit. -/
def State.refused (s : State) (n : Nat) (b : Bool) : State := s.setFld (dbg n 8) 39 39 (b2n b)

/-- A request's TICKSET lies far enough ahead (R424). -/
def State.tickOk (s : State) (n : Nat) : Bool := s.tick + 4096 ≤ s.reg (dbg n 0x20)

/-- HOST_HALT (R417, R425). -/
def State.hostHalt (s : State) (n : Nat) : State :=
  match (s.jobOf n).state with
  | 0 => s.trigger n 0x3D none 15 0 0
  | 3 => s.setJob n { s.jobOf n with hostHeld := true }
  | _ => s

/-- RESUME and JOBSTEP (R424): accepted in a frozen job unless refused; `k` agents' cycles of a job step. -/
def State.askResume (s : State) (n : Nat) (k : Option Nat) : State :=
  let j := s.jobOf n
  if j.state ≠ 2 then s
  else if !s.tickOk n then s.refused n true
  else
    let r := s.reg (dbg n 0x20)
    ((s.refused n false).setJob n { j with state := 3, resume := some r, step := k }).later (r - 1) n .resumeAtTick

/-- CORESTEP (R424): refused when its core runs no launch of the job. -/
def State.askCoreStep (s : State) (n core : Nat) : State :=
  let j := s.jobOf n
  let runs := match s.core core with
    | some c => core < 512 && c.lctx = n && c.run ≠ .ended
    | none => false
  if j.state ≠ 2 then s
  else if !(s.tickOk n && runs) then s.refused n true
  else
    let r := s.reg (dbg n 0x20)
    ((s.refused n false).setJob n { j with core := j.core ++ [(core, r, none)] }).later (r - 1) n .corestepAtTick

/-- CLEARCAUSE (R425). -/
def State.clearCause (s : State) (n : Nat) : State :=
  let j := s.jobOf n
  if j.state = 0 || j.state = 2 then (s.setJob n { j with causes := [] }).setFld (dbg n 8) 47 40 0 else s

/-! ### Accesses of peers (R28, R401) -/

/-- A peer's access has come through port p: it goes to its home here. Its answer is a flit to the peer. One that falls in
this chip's legend carve-out faulted UNBACKED at the peer (R342): it is not performed (DEDUCED, assumption 156). -/
def State.peerAccess (s : State) (p ctx coh pa len : Nat) (op : ReqOp) (data : List (Option Byte)) : State :=
  if s.inCarve pa then s else
  let t := s.reqTimes (1024 + p) coh pa 0
  t.2.addReq { req0 with core := 1024 + p, agent := .hubAgent, op := op, lctx := ctx, pa := pa, len := len, data := data,
                         home := t.1.1, ret := t.1.2, off := 64 * coh }

/-- A flit of a launch context's channel goes on from its port's buffer. -/
def State.portGoes (s : State) (e : Nat × Flit) : State :=
  match e.2 with
  | .access ctx coh pa len op data => s.peerAccess e.1 ctx coh pa len op data
  | _ => s

/-- The context whose channel a flit runs on; none on channel 16 (R401). -/
def flitCtx : Flit → Option Nat
  | .access ctx _ _ _ _ _ => some ctx
  | _ => none

/-! ### Resuming (R421, R422, R424) -/

/-- A core that runs again: its next bundle matches no breakpoint (R418). -/
def thaw (c : Core) : Core := { c with frozen := false, bpSkip := true }

/-- A plan of the job has its later ticks shifted by the frozen interval (R421). -/
def shiftPlan (n d : Nat) (p : PlanE) : PlanE := if p.ctx = n then { p with t0 := p.t0 + d } else p

/-- The start offset of a plan's phase; past the last, of its end. -/
def phaseAt (p : PlanE) (k : Nat) : Nat :=
  match p.phases[k]? with
  | some e => e.1
  | none => match p.phases.getLast? with
    | some e => e.1 + 9 * e.2.1 + 24
    | none => 0

/-- The next phase of a context's plan is set for its tick (R407). -/
def State.timePlan (s : State) (n : Nat) : State :=
  match s.plans.find? (fun p => p.ctx = n) with
  | some p => s.later (p.t0 + phaseAt p p.next - 1) 0 (.planPhase n p.next)
  | none => s

/-- RESUME_AT_TICK, in the last cycle before tick R: agents restart, held messages go on, FROZENT takes the frozen time. -/
def State.resumeAt (s : State) (n : Nat) : State :=
  let j := s.jobOf n
  match j.state, j.resume with
  | 3, some r =>
    if s.tick + 1 < r then s
    else
      let st := j.stop.getD r
      let stop := j.step.map (fun k => r + k)
      let s1 := (s.setReg (dbg n 0x18) (s.reg (dbg n 0x18) + (r - st))).setJob n
        { j with state := 0, stop := stop, resume := none, step := stop, hostHeld := false, wave := false }
      let s2 := s1.mapCores (fun _ c => if ofJob n c then thaw c else c)
      let back := s2.parked.filter (fun m => m.lctx = n)
      let s3 := { s2 with msgs := s2.msgs ++ back.map (fun (m : Msg) => { m with due := 1 }),
                          parked := s2.parked.filter (fun m => m.lctx ≠ n),
                          plans := s2.plans.map (shiftPlan n (r - st)) }
      let s4 := (((s3.portHeld.filter (fun e => flitCtx e.2 = some n)).foldl State.portGoes
        { s3 with portHeld := s3.portHeld.filter (fun e => flitCtx e.2 ≠ some n) }).moveReleases n (fun t => if 2 ^ 63 ≤ t then t - 2 ^ 63 + r else t)).timePlan n
      let s5 := match stop with
        | some t => s4.later (t - 1) n .jobstepEnd
        | none => s4
      if j.hostHeld then s5.later r n (.hostHalt n (BitVec.ofNat 64 (2 ^ 60))) else s5
  | _, _ => s

/-- JOBSTEP_END, at the end of tick R + k − 1: every agent of the job freezes again (R424). -/
def State.jobstepEnd (s : State) (n : Nat) : State :=
  let j := s.jobOf n
  match j.state, j.step with
  | 0, some t => if t ≤ s.tick + 1 then s.freezeAll n else s
  | _, _ => s

/-- CORESTEP_AT_TICK: before tick TICKSET the named core is let go, at its end it stands again; steps of a job that runs again
are void (R424). -/
def State.corestepAt (s : State) (n : Nat) : State :=
  let j := s.jobOf n
  if j.core = [] then s
  else if j.state ≠ 2 && j.state ≠ 3 then s.setJob n { j with core := [] }
  else
    let gone (e : Nat × Nat × Option Nat) : Bool := match e.2.2 with
      | some t => t < s.tick
      | none => false
    let due (e : Nat × Nat × Option Nat) : Bool := e.2.2 = none && e.2.1 ≤ s.tick + 1
    let s1 := (j.core.filter gone).foldl (fun st e => st.freezeCore e.1) s
    let s2 := (j.core.filter due).foldl (fun st e => st.modCore e.1 thaw) s1
    let s3 := s2.setJob n { j with
      core := (j.core.filter (fun e => !gone e)).map (fun e => if due e then (e.1, e.2.1, some s.tick) else e) }
    if j.core.any due then s3.later (s.tick + 1) n .corestepAtTick else s3

/-! ### Breakpoints (R418, R425) -/

/-- BREAKPOINT: the next bundle of a core matches, and does not match again while it stands; another trigger may have frozen the
core in the same cycle (R418, R423). -/
def State.breakpointAt (s : State) (num : Nat) : State :=
  match s.core num with
  | none => s
  | some c =>
    if isGate c then s
    else match s.bpMatch num c with
    | some i => (s.trigger c.lctx 0x3C (some num) 15 (slotBundle c.p 0) i).modCore num (fun d => { d with bpSkip := true })
    | none => s

/-- BREAKPOINT_TAKES_EFFECT: a core sees its context's breakpoint registers as they now stand. -/
def State.bpEffect (s : State) (num : Nat) : State :=
  match s.core num with
  | none => s
  | some c => s.syncBps num c.lctx

/-- A write of a breakpoint register takes effect on each core of the job within 2,000 cycles (R425). -/
def State.bpWritten (s : State) (n : Nat) : State :=
  ((s.cores.filter (fun e => e.2.lctx = n && e.1 < 512)).map (·.1)).foldl (fun st k =>
    let d := st.drawIn 0 2000
    d.2.later (d.2.tick + d.1) k .breakpointTakesEffect) s

/-! ### The survey pulse (R426 to R428) -/

/-- The survey code of a wait of the Y slot. -/
def waitSurvey : Instr → Nat
  | .fwait _ _ => 1
  | .hwait _ _ => 2
  | .hfree _ _ => 2
  | .twait _ _ => 3
  | .mwait _ => 4
  | .lwait _ => 5
  | .phase => 10
  | .fence => 11
  | _ => 0

/-- Run state of a core's primary in a cycle (R426). -/
def State.surveyState (s : State) (num : Nat) (c0 : Core) : Nat :=
  if c0.frozen then 6
  else match c0.run with
    | .idle => 12
    | .ended => 12
    | .stopped => 13
    | .restore _ _ _ => 8
    | .halted => 7
    | _ =>
      let jobt := s.jobTime c0.lctx
      let c1 := s.cycleView num jobt c0 (s.clusterFences num) (spGet cluster0 s.clusters (clusterNo num)).gate
      let ops := (s.nextSlots num c1.p).map okOr
      match s.primDo num c1 (fun k => primFocus num c1 k (beatsOf (bundleWords ops)) jobt s.tick) ops with
      | .waitY => waitSurvey (ops.getD 7 .nilY)
      | .waitRoom => 9
      | _ => 0

/-- What a core latches: run state, bundle, helper states, task. -/
def State.latch (s : State) (num : Nat) : Nat × Nat × Nat × Word :=
  match s.core num with
  | none => (12, 0, 0, 0)
  | some c =>
    if clockStopped c then (12, 0, 0, 0)
    else
      let jobt := s.jobTime c.lctx
      let hs := (List.range 10).foldl (fun a h =>
        let w := if (c.helper h).st = .live then s.waitCode num c h jobt else 0
        a + (hstatOf (c.helper h) w).toNat % 4 * 4 ^ h) 0
      (s.surveyState num c, slotBundle c.p 0, hs, c.taskid)

/-- Runs of consecutive cores that latched the same: first, cores, values. -/
def runsOf : List (Nat × Nat × Nat × Word) → Nat → List (Nat × Nat × (Nat × Nat × Nat × Word))
  | [], _ => []
  | v :: l, n => match runsOf l (n + 1) with
    | [] => [(n, 1, v)]
    | (f, k, w) :: r => if w = v then (n, k + 1, v) :: r else (n, 1, v) :: (f, k, w) :: r

/-- The runs of a record; T is set in the first and where the task changes (R427). -/
def runBytes : Option Word → List (Nat × Nat × (Nat × Nat × Nat × Word)) → List Byte
  | _, [] => []
  | prev, (f, k, v) :: l =>
    let t := prev ≠ some v.2.2.2
    leBytes 8 ((k - 1) * 2 ^ 57 + f * 2 ^ 50 + b2n t * 2 ^ 49 + v.1 * 2 ^ 45 + v.2.1 * 2 ^ 31 + v.2.2.1 * 2 ^ 11)
    ++ (if t then leBytes 8 v.2.2.2.toNat else []) ++ runBytes (some v.2.2.2) l

/-- Bytes written into a ring at an offset, wrapping at its end. -/
def State.ringWrite (s : State) (base size off : Nat) (d : List Byte) : State :=
  let o := off % size
  let k := min d.length (size - o)
  (s.physWrite (base + o) (d.take k)).physWrite base (d.drop k)

/-- One stack's record of a pulse: written whole, or dropped for want of room (R427, R428). -/
def State.surveyStack (s : State) (st : Nat) : State :=
  let blk := 0x8040 + 32 * st
  let base := s.reg blk
  let size := 2 ^ (bits base 3 0 + 12)
  let runs := runsOf ((List.range 120).map (fun i => s.latch (128 * st + i))) 0
  let body := runBytes none runs
  let len := 32 + body.length
  let hd := leBytes 8 (0x53 * 2 ^ 56 + st * 2 ^ 54 + s.fld 0x8000 4 0 * 2 ^ 49 + runs.length * 2 ^ 32 + len)
    ++ leBytes 8 s.tick ++ leBytes 8 s.survPulses ++ List.replicate 8 0
  let used := (s.fld (blk + 8) 31 0 + 2 ^ 32 - s.fld (blk + 0x10) 31 0) % 2 ^ 32
  if used + len ≤ size then
    (s.ringWrite (bits base 51 12 * 4096) size (s.fld (blk + 8) 31 0) (hd ++ body)).countMod (blk + 8) 31 0 len
  else s.countSat (blk + 0x18) 31 0 1

/-- SURVEY_PULSE. -/
def State.surveyPulse (s : State) : State :=
  let s1 := { s with survPulses := s.survPulses + 1 }
  (List.range 4).foldl State.surveyStack s1

/-! ### Shadow counters (R429 to R431) -/

/-- A chip that has stayed within bound for 2^20 ticks has LOCK = 1 (R403). -/
def State.locked (s : State) : Bool := 2 ^ 20 ≤ s.gratIn

/-- A shadow tick comes to this chip: it is armed if its counter is locked. -/
def State.shadowTick (s : State) (t : Nat) : State :=
  if s.locked then (s.setFld 0x8108 63 63 1).later t 0 .shadowTrigger else s

/-- SHTRIG: a tick at least 4,096 ahead goes to every chip that is locked, this one too; an earlier write is ignored. -/
def State.shtrig (s : State) (v : Nat) : State :=
  if s.tick + 4096 ≤ v then (s.setReg 0x8100 v).shadowTick v else s

/-- SHADOW_TRIGGER: every core and router counter is copied into its shadow. -/
def State.shadowTrigger (s : State) : State :=
  let s1 := s.mapCores (fun _ c => { c with shcnt := c.cnt })
  let s2 := (List.range 96).foldl (fun st cl => (List.range 16).foldl (fun t i =>
    t.setReg (rcfg cl i + 0x100) (s.reg (rcfg cl i + 0x80))) st) s1
  let left := s2.timers.any (fun e => e.2.2 = .shadowTrigger)
  (s2.setFld 0x8108 63 63 (b2n left)).countMod 0x8108 31 0 1

/-! ### The flight recorder's port (R434) -/

/-- The doubleword that FRADDR of a die names. -/
def State.frWord (s : State) (d : Nat) : Word :=
  let a := s.fld (0x8210 + 32 * d) 12 0
  let e := spGet ((0 : Word), (0 : Word)) s.frec (4096 * d + a / 2)
  if a % 2 = 0 then e.1 else e.2

/-- FRDATA: a read of the port moves FRADDR on by one. -/
def State.frNext (s : State) (d : Nat) : State := s.countMod (0x8210 + 32 * d) 12 0 1

end Sys2Proof.Machine
end

