-- ==== Sys2Proof/Machine/Links.lean ====
section
/-! DEFINITION. Links and what runs across them: port status and the graticule discipline (17 R401 to R403), phase plans
(R404 to R407), reduction trees and dispatch groups (R409 to R413), gateways (R414 to R416). -/

namespace Sys2Proof.Machine

/-! ### Ports (R401, R402) -/

def lst (p : Nat) : Nat := 0x1700 + 8 * p

/-- The flit that a port receives next: channel 16 is served first (R401). -/
def State.nextFlit (s : State) (p : Nat) : Option (Nat × Flit) :=
  match s.wire.find? (fun e => e.1 = p && flitCtx e.2 = none) with
  | some e => some e
  | none => s.wire.find? (fun e => e.1 = p)

/-- A RESUME or JOBSTEP that another chip of the scope has accepted is carried out here too, on this chip's counter (R424). -/
def State.farResume (s : State) (n r : Nat) (k : Option Nat) : State :=
  let j := s.jobOf n
  if j.state = 2 then (s.setJob n { j with state := 3, resume := some r, step := k }).later (r - 1) n .resumeAtTick else s

/-- What a flit brings about: a peer's access goes to its home, or waits in the port's buffer while its job is frozen (R421);
what runs on channel 16 takes effect. -/
def State.flitLands (s : State) (p : Nat) (x : Flit) : State :=
  match x with
  | .access ctx _ _ _ _ _ =>
    if (s.jobOf ctx).state = 2 || (s.jobOf ctx).state = 3 then { s with portHeld := s.portHeld ++ [(p, x)] } else s.portGoes (p, x)
  | .halt n f e => s.joinWave n f e
  | .resume n r k => s.farResume n r k
  | .planFault n => { s with plans := s.plans.map (fun q => if q.ctx = n then { q with fault := true } else q) }
  | .shadow t => s.shadowTick t

/-- A flit of a peer's answer has been resent more than twice: it comes later than R171 says, how much is free (R401). -/
def State.lateAnswers (s : State) (p : Nat) : State :=
  s.reqs.foldl (fun st r =>
    if chipOf r.pa ≠ st.chip && !r.look && (match routeTo st.chip (chipOf r.pa) with
        | a :: _ => (firstPorts st.chip a).contains p
        | [] => false) then
      let d := st.drawAny
      d.2.putReq r.id (fun q => if q.got.isSome then { q with ret := q.ret + d.1 } else { q with home := q.home + d.1 })
    else st) s

/-- LINK_FLIT_RECEIVE: a good flit takes effect; one whose CRC fails is resent, and its third resending is noted. -/
def State.flit (s : State) (p : Nat) (good : Bool) : State :=
  if good then
    let s1 := { s with linkRetry := spSet 0 s.linkRetry p 0 }
    match s.nextFlit p with
    | some e => { s1 with wire := s1.wire.erase e }.flitLands p e.2
    | none => s1
  else
    let n := spGet 0 s.linkRetry p + 1
    let s1 := { s.countSat (lst p) 47 32 1 with linkRetry := spSet 0 s.linkRetry p n }
    if n = 3 then (s1.lateAnswers p).note 4 6 3 0 0x1FF p else s1

/-- LINK_DOWN. -/
def State.linkDown (s : State) (p : Nat) : State :=
  ((s.setFld (lst p) 63 63 0).countSat (lst p) 31 16 1).note 4 6 1 0 0x1FF p

/-- LINK_UP: PEER is the far end's id as it reports it during training. -/
def State.linkUp (s : State) (p peer : Nat) : State :=
  ((s.setFld (lst p) 63 63 1).setFld (lst p) 54 48 peer).note 4 6 2 0 0x1FF p

/-- GRATICULE_DISCIPLINE: the offset from the master is measured and steered away; LOCK is lost outside the bound (R403). -/
def State.discipline (s : State) (stamp : Nat) : State :=
  if s.isMaster then s
  else
    let off : Int := (stamp : Int) - (s.tick : Int)
    let bound : Int := if s.chip % 16 = 0 then 6 else 2
    { s.setFld 0x1780 15 0 (wrapN 16 off) with
      gratOff := off, gratIn := if -bound ≤ off && off ≤ bound then max 1 s.gratIn else 0 }

/-! ### Phase plans (R404 to R407) -/

/-- A plan ends with a cause; only one that has moved its blocks counts as finished and posts. -/
def State.planEnd (s : State) (n cause nphase : Nat) : State :=
  let s1 := { s with plans := s.plans.filter (fun p => p.ctx ≠ n) }
  ((s1.setFld (planStat n) 63 63 0).setFld (planStat n) 55 48 cause).setFld (planStat n) 47 40 nphase

/-- Entry [i][j] of an N × N table held by rows. -/
def cell (n : Nat) (t : List Nat) (i j : Nat) : Nat := t.getD (n * i + j) 0

/-- One party's choice in a phase (R406). -/
def phaseDest (n : Nat) (t : List Nat) (taken : List Nat) (i : Nat) : Option Nat :=
  ((List.range (n - 1)).map (fun s => (i + s + 1) % n)).find? (fun j => 0 < cell n t i j && !taken.contains j)

/-- The destinations of a phase, party by party. -/
def phaseDests (n : Nat) (t : List Nat) : List Nat → List Nat → List (Option Nat)
  | [], _ => []
  | i :: l, taken =>
    let d := phaseDest n t taken i
    d :: phaseDests n t l (match d with
      | some j => j :: taken
      | none => taken)

/-- The schedule of R406: start offset, length and destinations of each phase. -/
def planPhases (n : Nat) : Nat → List Nat → Nat → List (Nat × Nat × List (Option Nat))
  | 0, _, _ => []
  | k + 1, t, s =>
    let ds := phaseDests n t (List.range n) []
    let chosen := (List.zip (List.range n) ds).filterMap (fun (e : Nat × Option Nat) => e.2.map (fun j => (e.1, j)))
    match chosen.map (fun e => cell n t e.1 e.2) with
    | [] => []
    | x :: l =>
      let len := l.foldl min x
      let t1 := (List.range (n * n)).map (fun i => t.getD i 0 - (if chosen.contains (i / n, i % n) then len else 0))
      (s, len, ds) :: planPhases n k t1 (s + 9 * len + 24)

/-- The schedule table as written at SCHED (R406). -/
def schedTable (ph : List (Nat × Nat × List (Option Nat))) : List Byte :=
  let total := match ph.getLast? with
    | some e => e.1 + 9 * e.2.1 + 24
    | none => 0
  leBytes 8 ph.length ++ leBytes 8 total ++ List.replicate 16 0
  ++ ph.flatMap (fun e => leBytes 8 (e.1 * 2 ^ 32 + e.2.1)
    ++ (List.range 16).map (fun i => match e.2.2.getD i none with
      | some j => BitVec.ofNat 8 j
      | none => 0xFF) ++ List.replicate 8 0)

/-- Offset of the SRC table: behind the counts, 8-aligned. -/
def planSrc (n : Nat) : Nat := (0x40 + 4 * n * n + 7) / 8 * 8

def wordsOf4 : List Byte → Nat → List Nat
  | _, 0 => []
  | l, k + 1 => leNat (l.take 4) :: wordsOf4 (l.drop 4) k

/-- The head of a descriptor; none when its page does not translate. -/
def State.planHead (s : State) (ctx va : Nat) : Option (List Nat) × State :=
  let r := s.ctxBytes ctx va 64
  (r.1.map (fun h => dwsOf h 8), r.2)

/-- Doublewords of a table, entry by entry, those that `want` names; the others are left 0. None when a page does not translate. -/
def State.planTable (s : State) (ctx va : Nat) (want : Nat → Bool) : Nat → Nat → Option (List Nat) × State
  | _, 0 => (some [], s)
  | i, k + 1 =>
    let r : Option (List Byte) × State := if want i then s.ctxBytes ctx (va + 8 * i) 8 else (some [], s)
    match r.1, State.planTable r.2 ctx va want (i + 1) k with
    | some b, (some l, s1) => (some (leNat b :: l), s1)
    | _, (_, s1) => (none, s1)

/-- This chip's party number: its position in the drove; none in mode 1, whose parties are all of this package. -/
def State.party (s : State) (mode : Nat) : Option Nat := if mode = 1 then none else some (s.chip % 16)

/-- The tables of a descriptor: the counts whole, of the addresses those that concern this chip: its own blocks' sources and the
destinations of blocks for it (R405). None when a page does not translate. -/
def State.planTables (s : State) (ctx va : Nat) (d : List Nat) : Option PlanDesc × State :=
  let n := bits (d.getD 0 0) 4 0
  let mode := bits (d.getD 0 0) 8 8
  let me := s.party mode
  match s.ctxBytes ctx (va + 64) (4 * n * n) with
  | (none, s1) => (none, s1)
  | (some b, s1) => match s1.planTable ctx (va + planSrc n) (fun i => me = none || me = some (i / n)) 0 (n * n) with
    | (none, s2) => (none, s2)
    | (some src, s2) =>
      match s2.planTable ctx (va + planSrc n + 8 * n * n) (fun i => me = none || me = some (i % n)) 0 (n * n) with
      | (none, s3) => (none, s3)
      | (some dst, s3) => (some ⟨d, n, mode, wordsOf4 b (n * n), src, dst⟩, s3)

/-- A descriptor's head with a field out of range (FORMAT). -/
def planFormat (h : List Nat) : Bool :=
  let d (i : Nat) : Nat := h.getD i 0
  let post := d 3
  let n := bits (d 0) 4 0
  let mode := bits (d 0) 8 8
  (d 0 - n - 256 * mode ≠ 0) || (if mode = 1 then n ≠ 4 else n < 2 || 16 < n) || d 2 % 32 ≠ 0
  || bits post 63 54 ≠ 0 || bits post 31 0 ≠ 0 || 120 ≤ bits post 52 44 % 128 || (List.range 4).any (fun i => d (4 + i) ≠ 0)

/-- A pair has an end here. -/
def concerns (me : Option Nat) (i j : Nat) : Bool :=
  match me with
  | some k => i = k || j = k
  | none => true

/-- The addresses at which a range meets its pages of 64 KiB: its start and each page's start behind it. -/
def pageStarts (va n : Nat) : List Nat :=
  va :: ((List.range (n / 0x10000 + 1)).map (fun i => (va / 0x10000 + 1 + i) * 0x10000)).filter (fun a => a < va + n)

/-- Some page of a range does not translate for the access, or its leaf is not as `ok` asks. -/
def State.pagesBad (s : State) (ctx va n : Nat) (k : Acces) (ok : Xl → Bool) : Bool :=
  (pageStarts va n).any (fun a => match (s.hubXl ctx a k).1 with
    | some t => !ok t
    | none => true)

/-- Pages of a plan's blocks must be resident with COH 00 (R407). -/
def State.planPageBad (s : State) (ctx va n : Nat) (w : Bool) : Bool :=
  s.pagesBad ctx va n (if w then .write else .read) (fun t => t.coh = 0)

/-- The links by which a flow of another chip reaches this one are up: the last of them is this chip's own port (R28, R400). -/
def State.routeFrom (s : State) (chip : Nat) : Bool :=
  let way := chip :: routeTo chip s.chip
  match way.reverse with
  | _ :: a :: l => Config.chipPresent chip && (firstPorts s.chip a).any s.portUp && farUp s.tick (l.reverse ++ [a])
  | _ => true

/-- The flow of a pair of parties can run: in mode 1 it needs no link; in mode 0 one whose route is wholly down faults
PEER_ABSENT (R400). -/
def State.flowUp (s : State) (me : Option Nat) (i j : Nat) : Bool :=
  match me with
  | none => true
  | some k => i = j || (if i = k then s.peerThere (s.chip / 16 * 16 + j) else s.routeFrom (s.chip / 16 * 16 + i))

/-- The block k of a pair as it is injected: read at its source; what a peer's memory holds is free. None: a fault (R407). -/
def State.readBlock (s : State) (ctx : Nat) (me : Option Nat) (p : PlanDesc) (i j k : Nat) : Option (List Byte) × State :=
  let src := cell p.n p.src i j + 4096 * k
  if !s.flowUp me i j then (none, s)
  else if me = none || me = some i then
    (if s.planPageBad ctx src 4096 false then (none, s) else s.ctxBytes ctx src 4096)
  else (some ((List.range 4096).map (fun x => Config.drawByte (s.draws + x))), { s with draws := s.draws + 4096 })

/-- The block as it is performed: written at its destination; what goes to a peer changes nothing here. None: a fault (R407). -/
def State.writeBlock (s : State) (ctx : Nat) (me : Option Nat) (p : PlanDesc) (i j k : Nat) (d : List Byte) : Option State :=
  let dst := cell p.n p.dst i j + 4096 * k
  if me = none || me = some j then
    (if s.planPageBad ctx dst 4096 true then none else some (s.ctxPut ctx dst d))
  else some s

/-- Blocks a pair has moved in the phases before `k`. -/
def movedBefore (ph : List (Nat × Nat × List (Option Nat))) (k i j : Nat) : Nat :=
  natSum ((ph.take k).map (fun e => if e.2.2.getD i none = some j then e.2.1 else 0))

/-- Block b of sender i in phase p, as an event's phase number: p alone stands for the phase's start, `done` for its performing,
else its injection. -/
def blockNo (p i b : Nat) (done : Bool) : Nat := p + 1024 * (1 + i + 16 * (2 * b + b2n done))

/-- A change of a context's plan. -/
def State.modPlan (s : State) (n : Nat) (f : PlanE → PlanE) : State :=
  { s with plans := s.plans.map (fun q => if q.ctx = n then f q else q) }

/-- A plan's schedule is ready in time: its table is written, unless that faults, and its phases are timed (R406, R407). -/
def State.planGo (s : State) (n : Nat) (e : PlanE) : State :=
  let sched := e.desc.head.getD 2 0
  let tab := schedTable e.phases
  let bad := s.pagesBad n sched tab.length .write (fun _ => true)
  ((if bad then s else s.ctxPut n sched tab).modPlan n (fun q => { q with fault := bad })).timePlan n

/-- PLAN: a doorbell write starts a plan: descriptor, exchange with the other planners, schedule (R405, R406). A schedule table
that does not translate ends it at its first phase boundary. -/
def State.planStart (s : State) (n : Nat) (v : Nat) : State :=
  if bit (s.reg (planStat n)) 63 then s
  else
    let va := bits v 51 6 * 64
    let r := (s.setFld (planStat n) 63 63 1).planHead n va
    match r.1 with
    | none => r.2.planEnd n 4 0
    | some d =>
      if planFormat d then r.2.planEnd n 3 0
      else match r.2.planTables n va d with
      | (none, s1) => s1.planEnd n 4 0
      | (some p, s0) =>
        let differs := s0.drawBit
        let s1 := differs.2
        if p.mode = 0 && differs.1 then s1.planEnd n 2 0
        else
          let t0 := p.head.getD 1 0
          let wait := (Config.draw s1.draws).toNat
          let s2 := { s1 with draws := s1.draws + 1 }
          let ph := planPhases p.n (p.n * p.n) p.counts 0
          let e : PlanE := ⟨n, p, t0, ph, 0, BitVec.ofNat 64 (p.head.getD 3 0), false, [], s.tick + wait⟩
          let s3 := { s2 with plans := s2.plans ++ [e] }
          if t0 < e.ready + 4096 then s3.later (max s.tick (t0 - 4096)) 0 (.planLate n) else s3.planGo n e

/-- PLAN_LATE: a plan whose schedule is not ready 4,096 ticks before T0 stops (R405). The deadline is a tick of the plan: it
does not come while the job is frozen and is shifted with T0, and a schedule ready by then goes on (R421). -/
def State.planLate (s : State) (n : Nat) : State :=
  match s.plans.find? (fun p => p.ctx = n) with
  | none => s
  | some e =>
    if 2 ≤ (s.jobOf n).state then s.later (s.tick + 1) 0 (.planLate n)
    else if e.t0 ≤ s.tick + 4096 then s.planEnd n 1 0
    else if e.ready + 4096 ≤ e.t0 then s.planGo n e
    else s.later (e.t0 - 4096) 0 (.planLate n)

/-- Blocks of a phase set for their injection ticks (R407). -/
def State.setBlocks (s : State) (e : PlanE) (p len : Nat) (pairs : List (Nat × Nat)) (start : Nat) : State :=
  pairs.foldl (fun st (x : Nat × Nat) => (List.range (if len = 0 then x.2 else len)).foldl (fun t b =>
    t.later (start + 9 * b) 0 (.planPhase e.ctx (blockNo p x.1 b false))) st) s

/-- Blocks of the plan still to be injected or performed. -/
def State.blocksLeft (s : State) (n : Nat) : Bool :=
  let ours (i : Instr) : Bool := match i with
    | .planPhase m x => m = n && 1024 ≤ x
    | _ => false
  s.timers.any (fun e => ours e.2.2) || s.agenda.any (fun w => match w with
    | .event _ i => ours i
    | _ => false)

/-- A phase still to start moves a block from or to this chip (R407). -/
def phasesLeft (me : Option Nat) (e : PlanE) : Bool :=
  (e.phases.drop e.next).any (fun f => (List.range e.desc.n).any (fun i => match f.2.2.getD i none with
    | some j => concerns me i j
    | none => false))

/-- The chip's part of a plan is over once no phase to come moves a block of it and none is left; a plan that has met a fault
ends with FAULT at a phase boundary (R407). -/
def State.planCheck (s : State) (n : Nat) : State :=
  match s.plans.find? (fun p => p.ctx = n) with
  | some e =>
    let ended := e.phases.length < e.next || (!e.fault && 0 < e.next && !phasesLeft (s.party e.desc.mode) e)
    if ended && !s.blocksLeft n then
      (if e.fault then s.planEnd n 4 e.phases.length else s.soon 0 [.planComplete n])
    else s
  | none => s

/-- The start of phase x: its chosen pairs inject their blocks, with the first phase the local copies; a plan that has met a
fault starts no further phase (R406, R407). -/
def State.phaseStart (s : State) (n x : Nat) (e : PlanE) : State :=
  if x ≠ e.next || (s.jobOf n).state ≥ 2 || s.tick + 1 < e.t0 + phaseAt e x then s
  else if e.fault then (s.modPlan n (fun q => { q with next := q.phases.length + 1 })).planCheck n
  else
    let me := s.party e.desc.mode
    let start := e.t0 + phaseAt e x
    let parties := List.range e.desc.n
    let own := (parties.filter (fun i => concerns me i i)).map (fun i => (i, cell e.desc.n e.desc.counts i i))
    let s1 := (if x = 0 then s.setBlocks e 1023 0 own start else s).modPlan n (fun q => { q with next := q.next + 1 })
    match e.phases[x]? with
    | some f =>
      let pairs := parties.filterMap (fun i => (f.2.2.getD i none).bind (fun j => if concerns me i j then some (i, j) else none))
      ((s1.setBlocks e x f.2.1 pairs start).timePlan n).planCheck n
    | none => s1.planCheck n

/-- A fault stops the plan at its next phase boundary (R407). -/
def State.planFaults (s : State) (n : Nat) : State := (s.modPlan n (fun q => { q with fault := true })).planCheck n

/-- A block injected or performed, within 640 ticks of its injection: number x as `blockNo` writes it, phase 1023 the local
copies (R407). -/
def State.phaseBlock (s : State) (n x : Nat) (e : PlanE) : State :=
  let ph := x % 1024
  let i := (x / 1024 - 1) % 16
  let b := (x / 1024 - 1) / 32
  let done := (x / 1024 - 1) / 16 % 2 = 1
  let j := if ph = 1023 then i else match e.phases[ph]? with
    | some f => (f.2.2.getD i none).getD i
    | none => i
  let k := if ph = 1023 then b else movedBefore e.phases ph i j + b
  let me := s.party e.desc.mode
  if done then
    match e.fly.find? (fun g => g.1 = x) with
    | none => s
    | some g =>
      let s1 := s.modPlan n (fun q => { q with fly := q.fly.filter (fun h => h.1 ≠ x) })
      (match s1.writeBlock n me e.desc i j k g.2 with
      | some t => t.planCheck n
      | none => s1.planFaults n)
  else
    match s.readBlock n me e.desc i j k with
    | (none, s1) => s1.planFaults n
    | (some d, s1) =>
      let t := s1.drawIn 1 640
      let y := blockNo ph i b true
      (t.2.modPlan n (fun q => { q with fly := q.fly ++ [(y, d)] })).later (s.tick + t.1) 0 (.planPhase n y)

/-- PLAN_PHASE: the start of a phase, or the performing of one block. -/
def State.planPhase (s : State) (n x : Nat) : State :=
  match s.plans.find? (fun p => p.ctx = n) with
  | none => s
  | some e => if x < 1024 then s.phaseStart n x e else s.phaseBlock n x e

/-- PLAN_COMPLETE: the post is sent, BUSY falls, DONE advances (R407). -/
def State.planComplete (s : State) (n : Nat) : State :=
  match s.plans.find? (fun p => p.ctx = n) with
  | some e => ((s.postWord n e.post.toNat).planEnd n 0 e.phases.length).countMod (planStat n) 31 0 1
  | none => s

/-! ### Reduction trees (R409 to R411) -/

/-- TREESET: the check of a table starts; it ends within 2,000 cycles. -/
def State.treeSet (s : State) (v : Nat) : State :=
  if bit (s.reg 0x1A08) 63 then s
  else
    let d := s.drawIn 1 2000
    ((d.2.setReg 0x1A00 v).setFld 0x1A08 63 63 1).later (s.tick + d.1) 0 .treeCheckDone

def nodeParent (w : Nat) : Nat := bits w 7 0
def nodeNin (w : Nat) : Nat := bits w 15 8

/-- The order of the nodes fails (TOPO_ORDER). -/
def treeTopoBad (nodes : List Nat) : Bool :=
  (List.zip (List.range nodes.length) nodes).any (fun e =>
    if e.1 = 0 then nodeParent e.2 ≠ 0xFF else e.1 ≤ nodeParent e.2)

/-- Another field is out of range (TREE_FORMAT). -/
def treeFormatBad (h0 h1 : Nat) (nodes : List Nat) : Bool :=
  bits h0 7 0 = 0 || 128 < bits h0 7 0 || bits h0 15 8 = 0 || 64 < bits h0 15 8 || h0 / 65536 ≠ 0
  || (if bit h1 63 then bits h1 62 12 ≠ 0 || 64 ≤ bits h1 7 0
      else bits h1 62 53 ≠ 0 || bits h1 43 37 ≠ 0 || 120 ≤ bits h1 52 44 % 128 || bits h1 31 0 % 8 ≠ 0
        || 0x180000 < bits h1 31 0 + 520)
  || (List.zip (List.range nodes.length) nodes).any (fun e =>
      nodeNin e.2 = 0 || 24 ≤ bits e.2 22 18 || e.2 / 2 ^ 23 ≠ 0
      || nodeNin e.2 < (nodes.drop 1).countP (fun w => nodeParent w = e.1))

/-- The installed bit of a tree (R409). -/
def State.treeValid (s : State) (t : Nat) (b : Bool) : State :=
  if t < 48 then s.setFld 0x1A08 t t (b2n b) else s.setFld 0x1A10 (t - 48) (t - 48) (b2n b)

/-- TREE_CHECK_DONE: the table is installed, or the tree is no longer installed (R410). -/
def State.treeChecked (s : State) : State :=
  if !bit (s.reg 0x1A08) 63 then s
  else
    let v := s.reg 0x1A00
    let t := bits v 63 58
    let ctx := bits v 55 52
    let va := bits v 51 0
    let s0 := { s.setFld 0x1A08 63 63 0 with trees := s.trees.filter (fun e => e.1 ≠ t) }
    let fail (st : State) (c : Nat) : State := (st.setFld 0x1A08 55 48 c).treeValid t false
    match s0.ctxBytes ctx va 16 with
    | (none, s1) => fail s1 0x41
    | (some h, s1) =>
      let h0 := leNat (h.take 8)
      let h1 := leNat (h.drop 8)
      match s1.ctxBytes ctx (va + 16) (8 * min (bits h0 7 0) 128) with
      | (none, s2) => fail s2 0x41
      | (some b, s2) =>
        let nodes := dwsOf b (min (bits h0 7 0) 128)
        if treeTopoBad nodes then fail s2 0x40
        else if va % 64 ≠ 0 || treeFormatBad h0 h1 nodes then fail s2 0x41
        else
          let tree : Tree := ⟨ctx, bits h0 15 8, BitVec.ofNat 64 h1,
            nodes.map (fun w => (nodeParent w, nodeNin w, bits w 17 16, bits w 22 18)), []⟩
          ({ s2 with trees := s2.trees ++ [(t, tree)] }.setFld 0x1A08 55 48 0).treeValid t true

/-- The order of a node: R303's, its last tie made total by +0 ahead of −0 (R411). -/
def nodeAhead (a b : Lane × Lane) : Bool :=
  ranksAhead a b || (!ranksAhead b a && a.1 = 0 && b.1 = 0x80000000)

def nodeInsert (e : Lane × Lane) : List (Lane × Lane) → List (Lane × Lane)
  | [] => [e]
  | x :: l => if nodeAhead e x then e :: x :: l else x :: nodeInsert e l

/-- Inputs of a round merged into a list of at most K entries. -/
def nodeMerge (k : Nat) (ins : List (List (Lane × Lane))) : List (Lane × Lane) :=
  ((ins.flatMap id).foldl (fun l e => nodeInsert (admitScore e.1, e.2) l) []).take k

/-- Cycles of a forward between two nodes: 20 and two a hop on a die, as a post's across dies (R411, R134). -/
def State.forwardTime (s : State) (sa ca sb cb : Nat) : Nat × State :=
  if sa = sb then (20 + 2 * hops ca cb, s) else s.postTime (coreIn (24 * sa + ca) 0) (coreIn (24 * sb + cb) 0)

/-- Lists that a root has finished wait under this node number. -/
def rootOut : Nat := 1000

def State.modTree (s : State) (t : Nat) (f : Tree → Tree) : State :=
  { s with trees := s.trees.map (fun e => if e.1 = t then (t, f e.2) else e) }

/-- TREE_NODE_INPUT: a list is merged; the last of a round's inputs sends the node's list on (R411). -/
def State.treeInput (s : State) (t node : Nat) (d : List (Lane × Lane)) : State :=
  match s.trees.find? (fun e => e.1 = t) with
  | none => s
  | some e =>
    let x := e.2.nodes.getD node (0xFF, 0, 0, 0)
    let ins := ((e.2.got.filter (fun g => g.1 = node)).map (·.2)) ++ [d]
    if e.2.nodes.length ≤ node then s
    else if ins.length < x.2.1 then s.modTree t (fun r => { r with got := r.got ++ [(node, d)] })
    else
      let l := nodeMerge e.2.k ins
      let m := 8 + (d.length + 7) / 8
      let rest (r : Tree) : List (Nat × List (Lane × Lane)) := r.got.filter (fun g => g.1 ≠ node)
      if node = 0 then
        (s.modTree t (fun r => { r with got := rest r ++ [(rootOut, l)] })).send m (coreIn (24 * x.2.2.1 + x.2.2.2) 0) e.2.ctx
          (.treeRoot t)
      else
        let y := e.2.nodes.getD x.1 (0xFF, 0, 0, 0)
        let f := s.forwardTime x.2.2.1 x.2.2.2 y.2.2.1 y.2.2.2
        (f.2.modTree t (fun r => { r with got := rest r })).send (m + f.1) (coreIn (24 * x.2.2.1 + x.2.2.2) 0) e.2.ctx
          (.treeIn t x.1 l)

/-- TREE_ROOT_DELIVERY: the oldest finished list goes to the target core's image and flag, or to dispatch (R410, R411). -/
def State.treeDeliver (s : State) (t : Nat) : State :=
  match s.trees.find? (fun e => e.1 = t) with
  | none => s
  | some e =>
    match e.2.got.find? (fun g => g.1 = rootOut) with
    | none => s
    | some g =>
      let s1 := s.modTree t (fun r => { r with got := r.got.erase g })
      let w := e.2.target.toNat
      let x := e.2.nodes.getD 0 (0xFF, 0, 0, 0)
      let src := coreIn (24 * x.2.2.1 + x.2.2.2) 0
      if bit w 63 then
        let d := s1.barTime src
        d.2.send d.1 src e.2.ctx (.toDispatch (bits w 11 8) (bits w 7 0) g.2)
      else
        let dst := s1.nowCtx e.2.ctx (bits w 52 44)
        let d := s1.postTime src dst
        d.2.send d.1 src e.2.ctx (.treeOut dst (bits w 31 0) (bits w 36 32) (listOf g.2))

/-! ### Dispatch groups (R412, R413) -/

def dgReg (g k : Nat) : Nat := 0x1C00 + 64 * g + 8 * k

/-- One row of the step's table: index and weight, pairs seen, duplicates. -/
def dispatchRow (t : Nat) (ph : Nat) (r : List (Lane × Lane) × List (Nat × Nat) × Nat) (e : Option (Lane × Lane)) :
    List (Lane × Lane) × List (Nat × Nat) × Nat :=
  match e with
  | none => (r.1 ++ [(0xFFFFFFFF, 0)], r.2)
  | some x =>
    if x.1 = 0xFF800000 || t ≤ x.2.toNat then (r.1 ++ [(0xFFFFFFFF, 0)], r.2)
    else if r.2.1.contains (x.2.toNat, ph) then (r.1 ++ [(0xFFFFFFFF, 0)], r.2.1, r.2.2 + 1)
    else (r.1 ++ [(x.2, x.1)], r.2.1 ++ [(x.2.toNat, ph)], r.2.2)

/-- All rows of a step, expert by expert (R413). -/
def dispatchRows (t c : Nat) (maps : List Nat) (lists : List (List (Lane × Lane))) :
    List (Lane × Lane) × List (Nat × Nat) × Nat :=
  (List.zip maps lists).foldl (fun r e => (List.range c).foldl (fun q k => dispatchRow t e.1 q e.2[k]?) r) ([], [], 0)

/-- The step's table is built and the post sent (R413). -/
def State.dispatchBuild (s : State) (g : Nat) : State :=
  let ctl := s.reg (dgReg g 0)
  let ctx := bits ctl 62 59
  let ne := bits ctl 7 0
  let c := bits ctl 15 8
  let t := bits ctl 47 24
  let m := s.ctxBytes ctx (s.fld (dgReg g 2) 51 0) ne
  let maps := (m.1.getD (List.replicate ne 0)).map BitVec.toNat
  let lists := (List.range ne).map (fun e => match s.dispatched.find? (fun d => d.1 = g && d.2.1 = e) with
    | some d => d.2.2
    | none => [])
  let r := dispatchRows t c maps lists
  let out := s.fld (dgReg g 1) 51 6 * 64
  let s1 := m.2.ctxPut ctx out (r.1.flatMap (fun e => leBytes 4 e.1.toNat) ++ r.1.flatMap (fun e => leBytes 4 e.2.toNat))
  let un := t - ((r.2.1.map (·.1)).eraseDups).length
  let s2 := ((s1.countSat (dgReg g 4) 63 32 r.2.2).setFld (dgReg g 4) 31 8 un).setFld (dgReg g 4) 7 0 0
  { s2 with dispatched := s2.dispatched.filter (fun d => d.1 ≠ g) }.postWord ctx (s.reg (dgReg g 3))

/-- DISPATCH_DELIVERY from core `src`: a logical expert's list; a second one of a step replaces the first (R413). -/
def State.dispatchList (s : State) (src g e : Nat) (d : List (Lane × Lane)) : State :=
  let ctl := s.reg (dgReg g 0)
  if !bit ctl 63 || bits ctl 7 0 ≤ e then s.note 4 0x0A 6 (bits ctl 62 59) 0x1FF src
  else
    let again := s.dispatched.any (fun x => x.1 = g && x.2.1 = e)
    let s1 := { s with dispatched := s.dispatched.filter (fun x => !(x.1 = g && x.2.1 = e)) ++ [(g, e, d)] }
    let s2 := if again then s1 else s1.countMod (dgReg g 4) 7 0 1
    if s2.fld (dgReg g 4) 7 0 = bits ctl 7 0 then s2.dispatchBuild g else s2

/-! ### Gateways (R414 to R416) -/

def gwReg (g k : Nat) : Nat := 0x1800 + 32 * g + 8 * k

/-- The record of a gateway's core before it has ever run. -/
def gateCore (g ctx : Nat) : Core := { coreAtLaunch (512 + g) false 0 ctx 0 0 0 with run := .idle, liftFree := 0 }

/-- The gateway's core is at hand; its local memory outlasts its runs. -/
def State.withGate (s : State) (g : Nat) : State :=
  match s.core (512 + g) with
  | some _ => s
  | none => { s with cores := insCore s.cores (512 + g) (gateCore g (s.fld (gwReg g 0) 62 59)) }

/-- What a run of a gateway leaves in flight is dropped; its stores go on (R416). -/
def dropRun (c : Core) : Core :=
  { c with
    p := { c.p with pend := [], groups := [], flights := [], rep := none, xfer := none, slotDue := false, v1Busy := 0 },
    hpend := [], cyc := cyc0,
    helpers := setAt c.helpers 0 { c.helper 0 with reqs := [], gdst := [], ords := [], acq := none } }

/-- GATEWAY_RUN: from ENTRY, with nothing of an earlier run in flight (R416). -/
def State.gateRun (s : State) (g : Nat) : State :=
  let ctl := s.reg (gwReg g 0)
  (s.withGate g).modCore (512 + g) (fun c0 =>
    let c := dropRun c0
    { c with
      lctx := bits ctl 62 59, entry := bits ctl 10 0, run := .run, frozen := false, trapRec0 := 0,
      p := { c.p with pc := bits ctl 10 0 }, withheld := [], newWith := [], retain := none })

/-- STATE, CAUSE and PC of GWSTAT as the gateway's core shows them (R416). -/
def State.gwStat (s : State) (g : Nat) : Nat :=
  match s.core (512 + g) with
  | none => 0
  | some c =>
    let cause := bits c.trapRec0.toNat 63 56
    let at_ := bits c.trapRec0.toNat 44 31
    match c.run with
    | .run => 1
    | .wait => 1
    | .halted => 2 + 2 ^ 21 * ((c.p.pc + 2047) % 2048)
    | .stopped => if cause = 0 then 0 else (if cause < 0x10 then 4 else 3) + 2 ^ 21 * at_ + 2 ^ 32 * cause
    | _ => 2 ^ 21 * (c.p.pc % 2048)

/-- GATEWAY_STOP: at once; the bundle of the stop is the one it would have issued next (R416; assumption 130). -/
def State.gateStop (s : State) (g : Nat) : State :=
  s.modCore (512 + g) (fun c => { dropRun c with run := .idle, trapRec0 := 0 })

/-- A running gateway's own program uses the memory port in this cycle (R415). -/
def State.windowBusy (s : State) (g : Nat) : Bool :=
  match s.core (512 + g) with
  | some c => !clockStopped c && !c.frozen && c.cyc.used.contains 0
  | none => false

/-- GATEWAY_WINDOW_ACCESS: a doubleword of a gateway's local memory written once the port is free; a read changes nothing
(R415). -/
def State.gateWindow (s : State) (g off : Nat) (write : Bool) (v : Word) : State :=
  if write && off + 8 ≤ 0x10000 then
    if s.windowBusy g then s.later (s.tick + 1) 0 (.gatewayWindowAccess g off write v)
    else (s.withGate g).modCore (512 + g) (fun c => { c with sp := memPut c.sp off (leBytes 8 v.toNat) })
  else s

/-- GWTLINC: the gateway has completed a collective (R416). -/
def State.gwtlInc (s : State) (g : Nat) : State := s.setReg (gwReg g 2) (s.reg (gwReg g 2) + 1)

/-- BQTAKE: the next block index, or all ones (R416). -/
def State.bqTake (s : State) : Word × State :=
  let n := s.fld 0x1A80 31 0
  if n < s.fld 0x1A88 31 0 then (BitVec.ofNat 64 n, s.setFld 0x1A80 31 0 (n + 1)) else (BitVec.allOnes 64, s)

end Sys2Proof.Machine
end

