-- ==== Sys2Proof/Machine/Port.lean ====
section
/-! DEFINITION. The register block: what a read of a hub register gives and what a write does (R7 and each register's map:
01 R21, R26, R36, R40, 07 R203, 14 R342, 15 R358, R368, R372, R374, R376, 16 R392, 17 R402 to R416, 18 R425 to R434,
19 R435 to R447). Writes whose effect is a step of its own are put to work as that event. -/

namespace Sys2Proof.Machine

/-! ### Reads -/

/-- Bits hi..lo as a mask. -/
def fieldMask (hi lo : Nat) : Nat := 2 ^ (hi + 1) - 2 ^ lo

/-- The context of a debug block, its register. -/
def isDebug (off : Nat) : Bool := 0x6000 ≤ off && off < 0x8000

/-- HALTSTAT (R425). -/
def State.haltStat (s : State) (n : Nat) : Nat :=
  let j := s.jobOf n
  j.state * 2 ^ 62 + min j.causes.length 8 * 2 ^ 48 + bits (s.reg (dbg n 8)) 47 39 * 2 ^ 39 + s.fld (dbg n 8) 31 0

/-- A register of a debug block. -/
def State.debugRead (s : State) (n k : Nat) : Nat :=
  if k = 8 then s.haltStat n
  else if 0x40 ≤ k ∧ k < 0xC0 then
    (match (s.jobOf n).causes[(k - 0x40) / 16]? with
    | some e => if k % 16 = 0 then e.1.toNat else e.2.toNat
    | none => 0)
  else if k = 0 then 0
  else s.reg (dbg n k)

/-- The doubleword of the carve-out at LEGADDR.OFF; beyond it, 0 (R342). -/
def State.legData (s : State) : Nat :=
  let off := s.fld 0x1388 31 3 * 8
  if off + 8 ≤ s.fld 0x1380 2 0 * 2 ^ 30 then leNat (s.carveBytes off 8) else 0

/-- UPDOM (R447). -/
def isUpdom (off : Nat) : Bool := 0x400 ≤ off && off < 0x400 + 32 * 96

/-- Offsets whose registers are write-only or that hold nothing readable: reads return 0 (R7, R235, R377). -/
def readsZero (off : Nat) : Bool :=
  off = 0x110 || off = 0x180 || off = 0x1120 || off = 0x1140 || off = 0x1A00
  || (0x1B00 ≤ off && off < 0x1C00 && off % 16 = 0)
  || (0x2000000 ≤ off && off < 0x2080000) || (0x3040000 ≤ off && off < 0x3042000)

/-- A doubleword of a gateway's window (R415). -/
def State.windowDw (s : State) (off : Nat) : Nat :=
  match s.core (512 + (off - 0x2080000) / 0x10000) with
  | some c => memNat c.sp ((off - 0x2080000) % 0x10000) 8
  | none => 0

/-- What a read of the doubleword at an offset of the register region returns (R7). -/
def State.regRead (s : State) (off : Nat) : Nat :=
  if readsZero off then 0
  else if isDebug off then s.debugRead ((off - 0x6000) / 0x200) (off % 0x200)
  else if isUpdom off then (if off % 32 = 0 then s.gateOf ((off - 0x400) / 32) * 2 ^ 32 else s.reg off)
  else if 0x1800 ≤ off ∧ off < 0x1A00 ∧ off % 32 = 8 then s.gwStat ((off - 0x1800) / 32)
  else if off = 0x1780 then b2n s.locked * 2 ^ 63 + s.fld 0x1780 15 0
  else if off = 0x1390 then s.legData
  else if 0x8218 ≤ off ∧ off < 0x82A0 ∧ off % 32 = 24 then (s.frWord ((off - 0x8200) / 32)).toNat
  else if 0x2080000 ≤ off ∧ off < 0x2180000 then s.windowDw off
  else s.reg off

/-- Bytes of the register region from an offset, doubleword by doubleword. -/
def State.regBytes (s : State) (off n : Nat) : List Byte :=
  let d := (List.range ((off % 8 + n + 7) / 8)).flatMap (fun i => leBytes 8 (s.regRead (off / 8 * 8 + 8 * i)))
  (d.drop (off % 8)).take n

/-! ### Plain fields -/

/-- Bits of a register that a write replaces; every other bit keeps its value (R7). Registers with a rule of their own are
not here. -/
def rwMask (off : Nat) : Nat :=
  if off = 0x100 then 4
  else if off = 0x108 ∨ off = 0x1508 then fieldMask 51 3
  else if 0x300 ≤ off ∧ off < 0x380 then 2 ^ 63 + fieldMask 51 12
  else if 0x1000 ≤ off ∧ off < 0x1080 then 2 ^ 63 + fieldMask 51 12
  else if off = 0x1100 ∨ off = 0x1528 then fieldMask 51 12
  else if off = 0x1118 ∨ off = 0x1510 ∨ off = 0x1520 ∨ off = 0x1A80 ∨ off = 0x1A88 then fieldMask 31 0
  else if 0x1300 ≤ off ∧ off < 0x1380 then 2 ^ 63 + fieldMask 31 12
  else if off = 0x1388 then fieldMask 31 3
  else if off = 0x1500 then 2 ^ 63 + fieldMask 47 0
  else if off = 0x1518 then fieldMask 51 16
  else if 0x1680 ≤ off ∧ off < 0x1700 then 1
  else if 0x1700 ≤ off ∧ off < 0x1780 then fieldMask 47 16
  else if 0x2000 ≤ off ∧ off < 0x3000 then
    (let k := off % 64
     if k = 0 then fieldMask 51 12 else if k = 0x10 then fieldMask 31 0 else if k = 0x28 then fieldMask 63 16
     else if k = 0x30 then fieldMask 63 60 + fieldMask 51 6 else if k = 0x38 then fieldMask 51 6 else 0)
  else if 0x4000 ≤ off ∧ off < 0x5000 then
    (let k := off % 64
     if k = 8 then fieldMask 31 0 else if k = 0x10 ∨ k = 0x18 ∨ k = 0x20 then fieldMask 51 5 else 0)
  else if 0x6000 ≤ off ∧ off < 0x8000 then
    (let k := off % 0x200
     if k = 0x20 then fieldMask 63 0
     else if 0x100 ≤ k then (if k % 16 = 0 then fieldMask 63 0 else fieldMask 63 62 + fieldMask 13 0)
     else 0)
  else if 0x8040 ≤ off ∧ off < 0x80C0 then
    (if off % 32 = 0 then fieldMask 51 12 + fieldMask 3 0 else if off % 32 = 16 ∨ off % 32 = 24 then fieldMask 31 0 else 0)
  else if 0x8200 ≤ off ∧ off < 0x82A0 ∧ off % 32 = 16 then fieldMask 12 0
  else if 0x1000000 ≤ off ∧ off < 0x1020000 then fieldMask 63 0
  else if 0x2200000 ≤ off ∧ off < 0x2218000 then
    (if off % 0x400 < 0x80 then 2 ^ 63 + fieldMask 7 0 else if off % 0x400 < 0x100 then fieldMask 47 0 else 0)
  else if 0x3000000 ≤ off ∧ off < 0x3004000 then
    (let k := off % 64
     if k = 8 then fieldMask 51 12 else if k = 0x10 then fieldMask 51 12 + fieldMask 3 0
     else if k = 0x18 then fieldMask 53 32 else if k = 0x30 then fieldMask 31 0 else 0)
  else if 0x3050000 ≤ off ∧ off < 0x3052000 then
    (if off % 64 = 0 then fieldMask 63 61 + fieldMask 58 48 + fieldMask 42 32 + fieldMask 31 16
     else if off % 64 = 8 then fieldMask 47 0 else 0)
  else 0

/-- A write of the fields that a mask names. -/
def State.putFields (s : State) (off mask v : Nat) : State :=
  s.setReg off (s.reg off - Nat.land (s.reg off) mask + Nat.land v mask)

/-- A write of a field that takes only values in a range. -/
def State.putIn (s : State) (off hi lo least most v : Nat) : State :=
  if least ≤ bits v hi lo && bits v hi lo ≤ most then s.setFld off hi lo (bits v hi lo) else s

/-! ### Registers with rules of their own -/

/-- Some launch is bound to clusters. -/
def State.anyBound (s : State) : Bool := s.launches.any (fun l => l.clusters ≠ [])

/-- RESETCTL (R440): the rung asked for, by stream for rung 1. -/
def State.resetCtl (s : State) (v : Nat) : State :=
  if bit (s.reg 0x118) 63 then s
  else match bits v 2 0 with
    | 1 => (s.setFld 0x118 63 63 1).soon (bits v 13 8) [.resetStream]
    | 2 => (s.setFld 0x118 63 63 1).soon 0 [.firmwareCoreRestart]
    | 3 => (s.setFld 0x118 63 63 1).soon 0 [.commandProcessorReset]
    | _ => s

/-- FQ_RESOLVE (R36). -/
def State.fqResolve (s : State) (v : Nat) : State :=
  match bits v 63 62 with
  | 1 => s.soon 0 [.retry (bits v 31 0)]
  | 2 => s.soon 0 [.abandon (bits v 31 0)]
  | _ => s

/-- TINV (R40). -/
def State.tinvWrite (s : State) (v : Nat) : State :=
  match bits v 63 62 with
  | 0 => s.soon 0 [.tinvPage (bits v 55 52) (bits v 51 16 * 0x10000)]
  | 1 => s.soon 0 [.tinvContext (bits v 55 52)]
  | 2 => s.soon 0 [.tinvAll]
  | _ => s

/-- Ranges of bytes meet. -/
def rangesMeet (a n b m : Nat) : Bool := n ≠ 0 && m ≠ 0 && a < b + m && b < a + n

/-- A range lies wholly in this chip's HBM or second tier (R203). -/
def State.inTier (s : State) (a n : Nat) : Bool :=
  n = 0 || (chipOf a = s.chip && chipOf (a + n - 1) = s.chip
    && (match regionOf (localOf a), regionOf (localOf (a + n - 1)) with
      | .hbm, .hbm => true
      | .ddr, .ddr => true
      | _, _ => false))

/-- FW_CTL (R203): refused for a reserved format, a scale bit with CB4, a range outside the chip's memory, or a view over
its own sources. DESIGN CHOICE: a refused write stores its other fields all the same (assumption 134); a range that the mode
and format do not use is empty and not checked (assumption 135). -/
def State.fwCtl (s : State) (w v : Nat) : State :=
  let fmt := bits v 61 59
  let view := bits v 51 12 * 4096
  let n := s.fld (fwReg w 1) 31 0 * 4096
  let elems := n / 2
  let store := s.fld (fwReg w 2) 51 5 * 32
  let scale := s.fld (fwReg w 3) 51 5 * 32
  let cb := s.fld (fwReg w 4) 51 5 * 32
  let carry := bit v 62
  let codes := if carry then 0 else if fmt = 0 then elems / 2 else elems
  let nel := if carry then (if fmt = 0 then 2 * n else n) else elems
  let scales := if fmt = 0 || bit v 58 then (nel + 63) / 64 * 2 else 0
  let books := if fmt = 0 then 32 else 0
  let bad := 3 ≤ fmt || (bit v 58 && fmt = 0)
    || !(s.inTier view n && s.inTier store codes && s.inTier scale scales && s.inTier cb books)
    || rangesMeet view n store codes || rangesMeet view n scale scales || rangesMeet view n cb books
  let refuse := bit v 63 && bad
  (s.startFills.setReg (fwReg w 0) (bits v 63 58 * 2 ^ 58 + bits v 51 12 * 2 ^ 12 - (if refuse then 2 ^ 63 else 0))).setFld
    (fwReg w 5) 63 63 (b2n refuse)

/-- HALTCTL (R425). -/
def State.haltCtl (s : State) (n v : Nat) : State :=
  let w := BitVec.ofNat 64 v
  match bits v 63 60 with
  | 1 => s.soon n [.hostHalt n w]
  | 2 => s.soon n [.resume n w]
  | 3 => s.soon n [.jobstep n w]
  | 4 => s.soon n [.corestep n w]
  | 5 => s.soon n [.clearcause n w]
  | _ => s

/-- SAVEn is not changed while the context has a pre-empted launch (R392). -/
def State.saveHeld (s : State) (n : Nat) : Bool := 
  s.launches.any (fun l => l.ctx = n && (l.state = .preempting || l.state = .preempted || l.images ≠ []))

/-- GWCTL (R416). -/
def State.gwCtl (s : State) (g v : Nat) : State :=
  let was := bit (s.reg (gwReg g 0)) 63
  let s1 := s.putFields (gwReg g 0) (fieldMask 63 59 + fieldMask 10 0) v
  if bit v 63 && !was then s1.soon (512 + g) [.gatewayRun]
  else if !bit v 63 && was then s1.soon (512 + g) [.gatewayStop]
  else s1

/-- STR_CTL (R358, R439). -/
def State.strCtl (s : State) (m v : Nat) : State :=
  let was := bit (s.reg (strReg m 8)) 63
  if bit v 63 && !was then s.soon m [.streamEnable m (BitVec.ofNat 64 v)]
  else if !bit v 63 && was then s.soon m [.streamDisable m (BitVec.ofNat 64 v)]
  else if s.bootFail then s
  else s.strFields m v

/-- Registers of the hub below 0x2000 with rules of their own; none where the plain fields say it. -/
def State.hubLow (s : State) (off v : Nat) : Option State :=
  if off = 0x110 then some (s.resetCtl v)
  else if off = 0x120 then some (if s.anyBound then s else s.setFld 0x120 6 0 (bits v 6 0))
  else if off = 0x128 then
    (let t := s.putIn 0x128 7 0 33 255 v
     some (if t.budgetWas = 0 then t else { t with budgetWas := t.fld 0x128 7 0 }))
  else if off = 0x180 then some (s.soon 0 [.attreq (BitVec.ofNat 64 v)])
  else if isUpdom off then
    some (if off % 32 ≠ 0 then s
      else if bits v 1 0 = 1 then s.soon 0 [.updomClose ((off - 0x400) / 32)]
      else if bits v 1 0 = 2 then s.soon 0 [.updomOpen ((off - 0x400) / 32)]
      else s)
  else if off = 0x1108 then some (((s.putFields 0x1108 (fieldMask 63 62) v).putIn 0x1108 3 0 6 12 v).soon 0 [.faultRecordDeferred])
  else if off = 0x1118 then some ((s.putFields 0x1118 (fieldMask 31 0) v).soon 0 [.faultRecordDeferred])
  else if off = 0x1120 then some (s.fqResolve v)
  else if off = 0x1140 then some (s.tinvWrite v)
  else if off = 0x1380 then some (if s.anyBound then s else s.putIn 0x1380 2 0 0 4 v)
  else if off = 0x1390 then some (s.soon 0 [.legdataWrite (BitVec.ofNat 64 v)])
  else if off = 0x1400 then some (s.putFields 0x1400 ((if bits v 63 56 ≤ 100 then fieldMask 63 56 else 0) + fieldMask 31 0) v)
  else if 0x1600 ≤ off ∧ off < 0x1680 then
    some (if s.saveHeld ((off - 0x1600) / 8) then s else s.putFields off (2 ^ 63 + fieldMask 51 23 + fieldMask 8 0) v)
  else if 0x1800 ≤ off ∧ off < 0x1A00 then some (if off % 32 = 0 then s.gwCtl ((off - 0x1800) / 32) v else s)
  else if off = 0x1A00 then some (s.soon 0 [.treeset (BitVec.ofNat 64 v)])
  else if 0x1B00 ≤ off ∧ off < 0x1C00 then
    some (if off % 16 = 0 then s.soon 0 [.plan ((off - 0x1B00) / 16) (BitVec.ofNat 64 v)] else s)
  else if 0x1C00 ≤ off ∧ off < 0x2000 then
    (let g := (off - 0x1C00) / 64
     let k := off % 64 / 8
     let still := s.fld (dgReg g 4) 7 0 = 0
     some (if k = 0 then (if still then s.putFields off (fieldMask 63 59 + fieldMask 47 24 + fieldMask 15 0) v else s)
       else if k = 1 then (if still then s.putFields off (fieldMask 51 6) v else s)
       else if k = 2 then (if still then s.putFields off (fieldMask 51 0) v else s)
       else if k = 3 then s.putFields off (fieldMask 53 32) v
       else if k = 4 then s.putFields off (fieldMask 63 32) v
       else s))
  else none

/-- An agent's write at a port: the core whose port it is, in the form of R134. -/
def portCore (off : Nat) : Nat :=
  let k := (off - 0x2000000) / 256
  k / 120 * 128 + k % 120

/-- The same from 0x2000 on; a write that the host or firmware makes at a mailbox port or at a barrier's arrival port is
discarded and noted: it comes from no context (R235, R377; assumption 150 for the entry's context and core). -/
def State.hubHigh (s : State) (off v : Nat) : Option State :=
  if 0x2000 ≤ off ∧ off < 0x3000 then
    (if s.bootFail then some s
     else if off % 64 = 8 then some (s.strCtl ((off - 0x2000) / 64) v)
     else none)
  else if 0x4000 ≤ off ∧ off < 0x5000 then
    (let w := (off - 0x4000) / 64
     if off % 64 = 0 then some (s.soon 0 [.fwCtlWrite w (BitVec.ofNat 64 v)])
     else if off % 64 = 0x28 then some (s.setReg off (s.reg off - Nat.land (s.reg off) (Nat.land v (fieldMask 31 0))))
     else none)
  else if isDebug off then
    (let n := (off - 0x6000) / 0x200
     let k := off % 0x200
     if k = 0 then some (s.haltCtl n v)
     else if k = 0x28 then some (s.putIn off 1 0 0 2 v)
     else if 0x100 ≤ k then some ((s.putFields off (rwMask off) v).bpWritten n)
     else none)
  else if off = 0x8000 then
    (let was := bit (s.reg 0x8000) 63
     let s1 := (s.putFields 0x8000 (2 ^ 63) v).putIn 0x8000 4 0 10 24 v
     some (if bit v 63 && !was then { s1 with survPulses := 0 } else s1))
  else if off = 0x8100 then some (s.soon 0 [.shtrig (BitVec.ofNat 64 v)])
  else if 0x2000000 ≤ off ∧ off < 0x2080000 then
    some (s.note (dieOf (portCore off)) 0x0A 3 (s.ctxOf (portCore off)) (portCore off) 0x1FF)
  else if 0x2080000 ≤ off ∧ off < 0x2180000 then
    some (s.soon 0 [.gatewayWindowAccess ((off - 0x2080000) / 0x10000) (off % 0x10000) true (BitVec.ofNat 64 v)])
  else if 0x3000000 ≤ off ∧ off < 0x3004000 ∧ off % 64 = 0 then
    some ((s.putFields off (fieldMask 63 51) v).setFld off 15 0 (max 1 (bits v 15 0)))
  else if 0x3000000 ≤ off ∧ off < 0x3004000 ∧ off % 64 = 0x20 then
    some (if bit v 7 then s.setFld off 7 7 0 else s)
  else if 0x3040000 ≤ off ∧ off < 0x3042000 then
    some (s.note 4 0x0A 4 (bits (s.reg (0x3000000 + 64 * ((off - 0x3040000) / 32))) 62 59) 0x1FF 0x1FF)
  else if 0x3050000 ≤ off ∧ off < 0x3052000 then
    some ((s.putFields off (rwMask off) v).soon 0 [.encodeJobStart ((off - 0x3050000) / 64)])
  else none

/-- REGISTER_WRITE: a doubleword written at an offset of the register region by the host or by firmware (R7, R21). An offset
that is no doubleword's, or that names no register, changes nothing. Fills under way keep the format windows as they stand
before a write of one (R206). -/
def State.regWrite (s0 : State) (off v : Nat) : State :=
  let s := if 0x4000 ≤ off ∧ off < 0x5000 then s0.startFills else s0
  if off % 8 ≠ 0 then s0
  else match (if off < 0x2000 then s.hubLow off v else s.hubHigh off v) with
    | some t => t
    | none => s.putFields off (rwMask off) v

/-- Blocks that the front end maps into contexts (R235, R372, R377, R404, R409, R412, R415); the others are reached by
firmware and privileged host writes only (R21). -/
def mapped (off : Nat) : Bool :=
  (0x1A00 ≤ off && off < 0x1A18) || (0x1B00 ≤ off && off < 0x2000)
  || (0x1000000 ≤ off && off < 0x1020000) || (0x2000000 ≤ off && off < 0x2180000)
  || (0x3040000 ≤ off && off < 0x3042000)

end Sys2Proof.Machine
end

