-- ==== Sys2Proof/Machine/Access.lean ====
section
/-! DEFINITION. Accesses performed at their homes and their returns (06 R168 to R174, R183, 04 R122 to R124), writes that
agents of the cores make to the register region (08 R235, 15 R372, R377, 17 R404, R415), page walks as steps of their own
(01 R32 to R35), and abandoned faults (01 R36 to R38). -/

namespace Sys2Proof.Machine

/-! ### Arrivals at ports of the register region -/

/-- MAILBOX_PORT_WRITE: an arrival for mailbox m of a core from a core of the same context; anything else is discarded and
noted (R235). -/
def State.mailPort (s : State) (src core m : Nat) (v : Word) : State :=
  let lctx := s.ctxOf src
  if m < 32 && (s.core src).isSome && s.takes lctx core then s.soon core [.mailboxArrival src core m v]
  else s.note (dieOf core) 0x0A 3 lctx core src

/-- A gateway's window takes an access of an agent of its context; anything else is discarded and noted (R415). -/
def State.windowTakes (s : State) (off lctx : Nat) : Bool :=
  let ctl := s.reg (gwReg ((off - 0x2080000) / 0x10000) 0)
  bits ctl 62 59 = lctx

/-- An access to a gateway's window waits for a cycle in which its program leaves the port free (R415). -/
def State.windowWaits (s : State) (r : Req) : Bool :=
  chipOf r.pa = s.chip && regionOf (localOf r.pa) = .regs && 0x2080000 ≤ regOff r.pa && regOff r.pa < 0x2180000
  && s.windowTakes (regOff r.pa) r.lctx && s.windowBusy ((regOff r.pa - 0x2080000) / 0x10000)

/-- It is tried again in the next cycle. -/
def State.nextCycleTry (s : State) (id : Nat) : State := s.putReq id (fun r => { r with home := 1 })

/-- One arrival at a frame barrier from a context, counted when its port is written (R377). -/
def State.portArrival (s : State) (b lctx src : Nat) : State :=
  let ctl := s.reg (0x3000000 + 64 * b)
  if bit ctl 63 && bits ctl 62 59 = lctx then s.soon b [.barrierArrival b 1]
  else s.note 4 0x0A 4 lctx 0x1FF src

/-- A doubleword with the bytes of a write in place: what is not written is as a read gives it. -/
def State.mergeDw (s : State) (at_ off : Nat) (data : List (Option Byte)) : Nat :=
  leNat ((List.zip (List.range 8) (leBytes 8 (s.regRead at_))).map (fun e =>
    if at_ + e.1 < off then e.2
    else match data[at_ + e.1 - off]? with
      | some (some b) => b
      | _ => e.2))

/-- Aligned doublewords that a range touches. -/
def dwsIn (off n : Nat) : List Nat := (List.range ((off % 8 + n + 7) / 8)).map (fun i => off / 8 * 8 + 8 * i)

/-- Bytes of a write that fall in the aligned `n` bytes at an offset. -/
def bytesIn (off : Nat) (data : List (Option Byte)) (at_ n : Nat) : Nat :=
  ((List.range n).filter (fun i => off ≤ at_ + i && ((data.getD (at_ + i - off) none).isSome))).length

/-- Aligned doublewords of which a write has a byte. -/
def dwsHit (off : Nat) (data : List (Option Byte)) : List Nat :=
  (dwsIn off data.length).filter (fun a => bytesIn off data a 8 ≠ 0)

/-- A write that an agent of a core or gateway makes in the register region (R21, R235, R372, R377, R404, R415), as it is
performed: one line with the bytes written (R173). `hlp` says that the agent is a helper. Of a mailbox port a doubleword
written whole is one arrival. -/
def State.agentRegWrite (s : State) (core lctx : Nat) (hlp : Bool) (off : Nat) (data : List (Option Byte)) : State :=
  let n := data.length
  let ds := dwsHit off data
  let tgt (a : Nat) : Nat := portCore a
  let word (a : Nat) : Word := BitVec.ofNat 64 (s.mergeDw a off data)
  if 0x2000000 ≤ off ∧ off < 0x2080000 then
    let good := ds.filter (fun a => hlp && bytesIn off data a 8 = 8)
    (ds.filter (fun a => !good.contains a)).foldl (fun st a => st.note (dieOf (tgt a)) 0x0A 3 lctx (tgt a) core)
      (s.soon core (good.map (fun a => Instr.mailboxPortWrite core (tgt a) (a % 256 / 8) (word a))))
  else if 0x2080000 ≤ off ∧ off < 0x2180000 then
    (if s.windowTakes off lctx then
      s.soon core (ds.map (fun a => Instr.gatewayWindowAccess ((a - 0x2080000) / 0x10000) (a % 0x10000) true (word a)))
     else s.note 4 0x0A 5 lctx 0x1FF core)
  else if 0x3040000 ≤ off ∧ off < 0x3042000 then
    ((List.range ((off % 32 + n + 31) / 32)).filter (fun i => bytesIn off data (off / 32 * 32 + 32 * i) 32 ≠ 0)).foldl
      (fun st i => st.portArrival ((off - 0x3040000) / 32 + i) lctx core) s
  else if mapped off then s.soon 0 (ds.map (fun a => Instr.registerWrite a (word a)))
  else s

/-! ### Accesses performed (R168 to R174) -/

/-- Free bytes: what another chip's register block answers is not this chip's (assumption 4). -/
def State.freeBytes (s : State) (n : Nat) : List Byte × State :=
  ((List.range n).map (fun i => Config.drawByte (s.draws + i)), { s with draws := s.draws + n })

/-- What an agent's read in the register region gives: of a gateway's window outside its context nothing (R415); of what the
front end maps to no context, free bytes, and nothing comes of it (R21, R342; assumption 4). -/
def State.readRegion (s : State) (core lctx off n : Nat) : List Byte × State :=
  if 0x2080000 ≤ off ∧ off < 0x2180000 ∧ !s.windowTakes off lctx then
    (List.replicate n 0, s.note 4 0x0A 5 lctx 0x1FF core)
  else if mapped off then (s.regBytes off n, s)
  else s.freeBytes n

/-- `n` bytes at a physical address as an agent of a core reads them. -/
def State.readAt (s : State) (core lctx coh pa n : Nat) : List Byte × State :=
  match regionOf (localOf pa) with
  | .regs => if chipOf pa = s.chip then s.readRegion core lctx (regOff pa) n else s.freeBytes n
  | _ => s.homeRead coh pa (n / 64 + 2) n

/-- The bytes a read asks of the home: its own, or its whole line for the helper cache (R122). -/
def reqSpan (r : Req) : Nat × Nat := if r.fill then (r.pa / 64 * 64, 64) else (r.pa, r.len)

/-- A helper's or gateway's access: through the helpers' path of its core. -/
def byPath (r : Req) : Bool :=
  match r.agent with
  | .helper _ => true
  | .gateway => true
  | _ => false

/-- Bytes read from `pa` on, under the bytes of writes. -/
def underWrites (l : List Req) (pa : Nat) (bs : List Byte) : List Byte :=
  l.foldl (fun a q => (List.zip (List.range a.length) a).map (fun e =>
    match (if q.pa ≤ pa + e.1 then q.data.getD (pa + e.1 - q.pa) none else none) with
    | some b => b
    | none => e.2)) bs

/-- Writes of the core's helper path to the line of a request that left before it and have not been performed. -/
def State.ownWrites (s : State) (r : Req) : List Req :=
  (s.reqs.takeWhile (fun q => q.id ≠ r.id)).filter (fun q =>
    q.core = r.core && byPath q && q.op = .write && undone q && q.pa / 64 = r.pa / 64)

/-- A later write of the same path has been performed: of an earlier one under way, the bytes that it wrote count as written
before it. -/
def State.passWrite (s : State) (r : Req) : State :=
  let l := (s.ownWrites r).map (·.id)
  { s with reqs := s.reqs.map (fun q => if l.contains q.id then { q with
      data := (List.zip (List.range q.data.length) q.data).map (fun e =>
        if r.pa ≤ q.pa + e.1 && (r.data.getD (q.pa + e.1 - r.pa) none).isSome then none else e.2) } else q) }

/-- HOME_READ: a read is performed at its home (R168, R174, R204). What a helper reads has its core's own earlier writes of the
line in it, those still on their way to the home included (R176). -/
def State.homeReadAt (s : State) (id : Nat) : State :=
  match s.reqs.find? (fun r => r.id = id) with
  | none => s
  | some r =>
    if r.look || r.got.isSome || r.op ≠ .read then s
    else if s.windowWaits r then s.nextCycleTry id
    else
      let x := s.readAt r.core r.lctx (reqCoh r) (reqSpan r).1 (reqSpan r).2
      let bs := if byPath r && s.cached (reqCoh r) r.pa then underWrites (s.ownWrites r) (reqSpan r).1 x.1 else x.1
      { x.2.putReq id (fun q => { q with got := some bs, perf := x.2.seq + 1 }) with seq := x.2.seq + 1 }

/-- A posted write to host memory, one of a COH = 10 page, has been performed: the core's next PHASE flushes it (R184). -/
def hostWritten (s : State) (r : Req) (c : Core) : Core :=
  if reqCoh r = 2 && chipOf r.pa = s.chip && regionOf (localOf r.pa) = .host then { c with hostDirty := 1 } else c

/-- HOME_WRITE: a write is performed at its home (R168, R173, R205). -/
def State.homeWriteAt (s : State) (id : Nat) : State :=
  match s.reqs.find? (fun r => r.id = id) with
  | none => s
  | some r =>
    if r.look || r.got.isSome || r.op ≠ .write then s
    else if s.windowWaits r then s.nextCycleTry id
    else
      let hlp : Bool := match r.agent with
        | .helper _ => r.core < 512
        | _ => false
      let s0 := match regionOf (localOf r.pa) with
        | .regs => if chipOf r.pa = s.chip then s.agentRegWrite r.core r.lctx hlp (regOff r.pa) r.data else s
        | _ => (if byPath r then s.passWrite r else s).homeWrite (reqCoh r) r.pa (r.data.length / 64 + 2) r.data
      let s1 := s0.modCore r.core (hostWritten s r)
      match r.agent with
      | .queue q => (s1.putReq id (fun k => { k with got := some [], ret := 0 })).burstReturn r.core q
      | _ => (s1.modCore r.core (fun c => reqOver r { c with gwOut := c.gwOut - 1 })).dropReq id

/-- The value an atomic finds, and the state with the new one: at an expand view the decoded value, and nothing is written
(R123, R124, R205). -/
def State.atomicAt (s : State) (r : Req) (fn : Nat) (old y : Word) : Word × State :=
  let x := s.readAt r.core r.lctx (reqCoh r) r.pa 8
  let v := BitVec.ofNat 64 (leNat x.1)
  let new := leBytes 8 (atomNew fn v old y).toNat
  (v, match regionOf (localOf r.pa) with
    | .regs => if chipOf r.pa = s.chip then x.2.agentRegWrite r.core r.lctx (r.core < 512) (regOff r.pa) (new.map some) else x.2
    | _ =>
      if chipOf r.pa = s.chip && (x.2.window (r.pa / 64 * 64)).isSome then x.2
      else x.2.homeWrite (reqCoh r) r.pa 2 (new.map some))

/-- HOME_ATOMIC: an atomic is performed at its home (R123, R124, R185). -/
def State.homeAtomicAt (s : State) (id : Nat) : State :=
  match s.reqs.find? (fun r => r.id = id) with
  | none => s
  | some r => match r.op with
    | .atomic fn old y =>
      if r.look || r.got.isSome then s
      else if s.windowWaits r then s.nextCycleTry id
      else
        let x := s.atomicAt r fn old y
        (x.2.modCore r.core (fun c => hostWritten s r { c with gwOut := c.gwOut - 1 })).putReq id (fun q =>
          { q with got := some (leBytes 8 x.1.toNat) })
    | _ => s

/-- A value read is at its helper or gateway, and its register holds it (R122, R123, R171, R414). -/
def State.valueBack (s : State) (r : Req) (v : Word) : State :=
  s.modCore r.core (fun c =>
    let c1 := reqOver r c
    match r.agent with
    | .helper h => landEff ⟨1, .helper h, 0, 0, 2, 0, []⟩ c1 (.xreg h r.dst v)
    | _ => landEff ⟨1, .gate, 0, 0, 2, 0, []⟩ c1 (.sreg r.dst v))

/-- The data of a helper's load has come to its core and its value returns two cycles later (R171, R175). -/
def loadComes (r : Req) : Bool := r.op = .read && r.mark = 0 && (match r.agent with
  | .helper _ => true
  | _ => false)

/-- The helper whose requests an agent's are kept under: a gateway's stand with number 0. -/
def helperNo : Agent → Nat
  | .helper h => h
  | _ => 0

/-- GLOBAL_READ_RETURN: the data of a read or the old value of an atomic is at its core (R122, R123, R171). -/
def State.readReturn (s : State) (id : Nat) : State :=
  match s.reqs.find? (fun r => r.id = id) with
  | none => s
  | some r => match r.got with
    | none => s
    | some d =>
      if r.ret ≠ 0 then s
      else match r.agent with
        | .queue q => s.burstReturn r.core q
        | .fill => s.fillReturn r.core
        | .hubAgent => (s.modCore r.core hostBack).dropReq id
        | a => match s.core r.core with
          | none => s.dropReq id
          | some c =>
            if c.frozen then s
            else
              let asked := (c.helper (helperNo a)).reqs.contains id
              let bs := if r.fill then (d.drop (r.pa % 64)).take r.len else d
              let kept := asked && loadComes r
              let s1 := if kept then s.putReq id (valueReady bs 2) else s.dropReq id
              let s2 := if !r.fill then s1
                else if r.stale then s1.hcPass r.core r.lctx (r.pa / 64) r.perf
                else if storeFill r then (s1.hcInsert r.core r.lctx (r.pa / 64) r.perf d).sbDrain r.core
                else s1.hcInsert r.core r.lctx (r.pa / 64) r.perf d
              if asked && !kept then s2.valueBack r (BitVec.ofNat 64 (leNat bs)) else s2

/-- CXL_CACHE_SNOOP: the host reads or takes a line that the hub home holds under CXL.cache: the home writes it back, and
drops it when it is taken (R183). -/
def State.snoop (s : State) (line : Nat) (inv : Bool) : State := s.cleanLines inv (fun e => e.line = line && e.cxl)

/-! ### Page walks (R32 to R35) -/

/-- The agent a number names: 16 × core + helper 0 to 9, queue 10 to 13, fill path 14; from 8,192 on the 16 gateways, then
the video encoders. -/
def walkAgent (a : Nat) : Nat × Agent :=
  if 8208 ≤ a then (512 + (a - 8208), .hubAgent)
  else if 8192 ≤ a then (512 + (a - 8192), .gateway)
  else if a % 16 < 10 then (a / 16, .helper (a % 16))
  else if a % 16 < 14 then (a / 16, .queue (a % 16 - 10))
  else if a % 16 = 14 then (a / 16, .fill)
  else (a / 16, .helper 9)

/-- Bytes of an engine's command that are complete (R35). -/
def cursorOf (c : Core) : Agent → Nat
  | .queue q => ((c.cq q).cmds.head?.map (·.cursor)).getD 0
  | .fill => (c.mat.fill.map (·.step)).getD 0
  | _ => 0

/-- The fault of a walk stops the agent (R35, R37, R38). -/
def State.walkFault (s : State) (num : Nat) (ag : Agent) (ctx va cause level : Nat) (write atom : Bool) : State :=
  let rec_ (cur : Nat) : State := s.faultRecord num ag ctx cause va va write atom level cur 0
  match s.core num with
  | none => rec_ 0
  | some c => match ag with
    | .helper h => s.helperFault num h ctx cause level va write atom (c.helper h).pc (c.helper h).pos
    | .queue q => (rec_ (cursorOf c ag)).setCore num (c.setCq q { c.cq q with fault := true })
    | .fill => (rec_ (cursorOf c ag)).setCore num { c with mat := { c.mat with fault := true } }
    | .gateway => (rec_ 0).setCore num { c with run := .stopped, trapRec0 := trapRecord cause 2 0 c.p.pc 1 }
    | .hubAgent => rec_ 0

/-- PAGE_WALK: a walk on behalf of an agent installs the leaf or faults. -/
def State.pageWalk (s : State) (a ctx va : Nat) (write atom : Bool) : State :=
  let w := walkAgent a
  let k : Acces := if atom then .atomic 0 else if write then .write else .read
  if 2 ^ 52 ≤ va then s.walkFault w.1 w.2 ctx va 0x05 7 write atom
  else match s.walkFor w.1 w.2 ctx va k with
    | (.ok _, s1) => s1
    | (.error e, s1) => s1.walkFault w.1 w.2 ctx va e.1 e.2 write atom

/-! ### Abandoned faults (R36 to R38) -/

/-- A helper whose fault is abandoned: free as by HALT, its status ABANDONED (R37). -/
def helperLeaves (h : Nat) (c : Core) : Core :=
  let x := c.helper h
  c.setHelper h { helper0 with st := .abandoned, cause := x.cause, pc := x.pc, pos := x.pos, adv := x.adv, iss := x.iss,
                               dport := x.dport, dtok := x.dtok, trapv := x.trapv, reqs := x.reqs, gdst := x.gdst }

/-- The launch whose core a fault names. -/
def State.faultLaunch (s : State) (code : Nat) : Nat :=
  if 0x10000 ≤ code then (code - 0x10000) / 512
  else match s.core code with
    | some c => c.launch
    | none => 0

/-- ABANDON of an entry (R36): ignored unless it is written and unresolved. -/
def State.abandonEntry (s : State) (entry : Nat) : State :=
  match s.faults.find? (fun e => e.written && e.entry = entry) with
  | none => s
  | some e =>
    let s1 := { s with faults := s.faults.erase e }
    let kill := match s1.launchOf (s1.faultLaunch e.core) with
      | some l => if e.core < 0x10000 then s1.endLaunch l.id 4 0 else s1.finish l.id 4 0
      | none => s1
    match e.agent with
    | .helper h => s1.modAgent e.core (helperLeaves h)
    | .queue _ => kill
    | .fill => kill
    | .gateway => s1.modCore e.core (fun c => { c with trapRec0 := 0 })
    | .hubAgent => { s1 with enc := s1.enc.filter (fun j => !(j.running && j.sess / 8 = e.core - 512)) }

end Sys2Proof.Machine
end

