-- ==== Sys2Proof/Machine/Firmware.lean ====
section
/-! DEFINITION. Firmware: the capability list (19 R436, R437), resets and boot (R440, R441), attestation (R443), the
heartbeat (R440), power of clusters and upper-core domains (R444, R446, R447, R454, R455). -/

namespace Sys2Proof.Machine

/-! ### The capability list (R436, R437, R441) -/

/-- One record: the offset of the next, its ID and doublewords 1 to 3. -/
def capRecord (next id d1 d2 d3 : Nat) : List Word :=
  [next * 2 ^ 32 + 2 ^ 24 + id, d1, d2, d3].map (BitVec.ofNat 64)

/-- The capability list as BAR0 shows it: device, hub registers, features; in recovery the device record alone. -/
def State.capList (s : State) : List Word :=
  let dev (next : Nat) : List Word := capRecord next 1 (0x46400053 * 2 ^ 32 + (Config.identity 1).toNat % 2 ^ 16)
    (Config.identity 0).toNat (b2n s.bootFail)
  if s.bootFail then dev 0
  else dev 32 ++ capRecord 64 2 (Config.identity 3).toNat 0x3052000 0 ++ capRecord 0 3 s.caps Config.ddrGiB 0

/-- What a host read of the doubleword at a BAR0 offset gives: the capability list at offset 0, the hub register block at the
offset that the list's hub record names (R435, R436); elsewhere nothing is mapped. -/
def State.barRead (s : State) (off : Nat) : Nat :=
  let base := (Config.identity 3).toNat
  if off / 8 < s.capList.length then (s.capList.getD (off / 8) 0).toNat
  else if !s.bootFail && base ≤ off && off < base + 0x3052000 then s.regRead (off - base)
  else 0

/-- A host write of the doubleword at a BAR0 offset: only the hub register block takes one (R435). -/
def State.barWrite (s : State) (off v : Nat) : State :=
  let base := (Config.identity 3).toNat
  if !s.bootFail && base ≤ off && off < base + 0x3052000 then s.regWrite (off - base) v else s

/-! ### Boot (R435, R441, R444) -/

/-- The firmware image is read and checked: whether it passes, and the number under which its digest stands. -/
def State.verify (s : State) : (Bool × Nat) × State := ((Config.imageGood s.draws, s.draws), { s with draws := s.draws + 1 })

/-- The boot ROM's part after link training, whose outcome is free (R435): MEAS0 is extended by the digest of the verified stage,
which is noted as a milestone of a free code (R434); a failed check leaves the device in recovery. Then the clusters are powered,
stack by stack. -/
def State.boot (s : State) : State :=
  let m := s.drawBit
  let v := (m.2.setFld 0x100 1 0 (b2n m.1)).verify
  if v.1.1 then
    let h := Config.sha3 (List.replicate 64 0 ++ leBytes 64 (Config.imageDigest v.1.2).toNat)
    let code := v.2.drawIn 0 0xFFFFFFFF
    ({ code.2 with meas := h, bootFail := false, fwBusy := false, sram := [] }.note 4 9 0 0 0x1FF code.1).later
      (s.tick + 4700) 0 (.clusterPowerUp 0)
  else { v.2 with meas := 0, bootFail := true, fwBusy := false, sram := [] }

/-- State that no reset of the chip touches: the graticule's value, what outside agents will do, and the model's own
counters. -/
def State.fresh (s : State) : State :=
  { State.reset with tick := s.tick, inputs := s.inputs, wire := s.wire, draws := s.draws, seq := s.seq, agenda := s.agenda }

/-- Flight-recorder entries and registers kept over a reset (R434). -/
def State.keepRecorder (s old : State) : State :=
  (List.range 5).foldl (fun st d => (List.range 3).foldl (fun t k =>
    t.setReg (0x8200 + 32 * d + 8 * k) (old.reg (0x8200 + 32 * d + 8 * k))) st) { s with frec := old.frec }

/-- Memory with every dirty L2 line written back. -/
def State.drained (s : State) : Memory := (s.l2.foldl State.writeBack s).mem

/-- Memory that is not this chip's own: the host's, behind its window, and other chips' (R27). -/
def State.outsideMem (s : State) : Memory := s.mem.filter (fun e => chipOf e.1 ≠ s.chip || regionOf (localOf e.1) = .host)

/-- POWER_ON (R441). -/
def State.powerUp (s : State) : State := { s.fresh with mem := s.outsideMem }.boot

/-! ### The reset ladder (R440) -/

/-- A rung begins: it is noted and ends within its time. -/
def State.rungBegins (s : State) (rung most : Nat) : State :=
  let s1 := (s.note 4 4 rung 0 0x1FF 0).setFld 0x118 63 63 1
  let d := s1.drawIn 1 most
  d.2.later (s.tick + d.1) 0 (.resetRungComplete rung)

/-- RESET_STREAM: rung 1. -/
def State.rungOne (s : State) (m : Nat) : State := (s.resetStream m).rungBegins 1 940000

/-- FIRMWARE_CORE_RESTART: rung 2. -/
def State.rungTwo (s : State) : State := { s with fwBusy := true }.rungBegins 2 9400000

/-- Every context killed, retained images and unconsumed packets discarded (rungs 3 and 4). -/
def State.killEverything (s : State) : State :=
  let s1 := (List.range 16).foldl (fun st n => st.killCtx n true none) { s with fwBusy := true }
  { (List.range 64).foldl (fun st m => { st.setFld (strReg m 0x18) 31 0 (st.tailOf m) with
      extra := spSet 0 st.extra m 0 }) s1 with retained := [], recording := [] }

/-- COMMAND_PROCESSOR_RESET: rung 3. -/
def State.rungThree (s : State) : State := s.killEverything.rungBegins 3 47000000

/-- A rung of the ladder, or its power-up, that is under way ends with it not complete: what it still had to do is dropped. -/
def State.dropRungs (s : State) : State :=
  { s with rungUp := 0, timers := s.timers.filter (fun e => match e.2.2 with
    | .resetRungComplete r => 4 < r
    | _ => true) }

/-- FUNCTION_LEVEL_RESET: rung 4, in place of a lower rung under way: BUSY stays until this one is complete. -/
def State.rungFour (s : State) : State := s.dropRungs.killEverything.rungBegins 4 93500000

/-- SECONDARY_BUS_RESET: rung 5, as power-on; the flight recorder survives and RESETSTAT.DONE is cleared. -/
def State.rungFive (s : State) : State :=
  ({ s.fresh with mem := s.outsideMem, fwBusy := true }.keepRecorder s).rungBegins 5 939500000

/-- Eplek slot tables built again from STR_CTL, in stream order (R439, R440). -/
def State.rebuildSlots (s : State) : State :=
  (List.range 64).foldl (fun st m => if bit (st.reg (strReg m 8)) 63 then st.placeSlots m else st)
    { s with slots := List.replicate 4 (List.replicate 64 none), freeing := [] }

/-- The discarded packets of every stream no longer hold DONE back. -/
def State.settleStreams (s : State) : State :=
  { (List.range 64).foldl (fun st m => st.setFld (strReg m 0x20) 31 0 (st.headOf m)) s with finished := [] }

/-- RESETSTAT once a rung is over. -/
def State.rungOver (s : State) (rung : Nat) : State :=
  ((s.setFld 0x118 63 63 0).setFld 0x118 34 32 rung).countMod 0x118 31 0 1

/-- A rung that ends with the boot and the power-up: it is over once the last cluster is powered, or when the boot fails (R440,
R444). -/
def State.bootRung (s : State) (rung : Nat) : State :=
  let t := { s with rungUp := rung }.boot
  if t.bootFail then { t with rungUp := 0 }.rungOver rung else t

/-- The power-up of a rung has ended. -/
def State.rungUpOver (s : State) : State :=
  if s.rungUp = 0 then s else { s with rungUp := 0 }.rungOver s.rungUp

/-- RESET_RUNG_COMPLETE: what a rung leaves; rungs 3 and 4 wait for the kills they began (R191, R440). An image that fails its
check at rung 2 leaves the device in recovery as at boot (assumption 131). -/
def State.rungComplete (s : State) (rung : Nat) : State :=
  let busy := s.launches.any leaving
  match rung with
  | 2 =>
    let v := s.verify
    ({ v.2 with fwBusy := false, frames := 0, sram := [], bootFail := !v.1.1 }.rebuildSlots).rungOver 2
  | 3 => if busy then s.later (s.tick + 1) 0 (.resetRungComplete 3)
         else ({ s with fwBusy := false }.settleStreams).rungOver 3
  | 4 =>
    if busy then s.later (s.tick + 1) 0 (.resetRungComplete 4)
    else (({ s.fresh with mem := s.drained }.keepRecorder s).setReg 0x118 (s.reg 0x118)).bootRung 4
  | 5 => s.bootRung 5
  | n => s.rungOver n

/-! ### Attestation and heartbeat (R440, R443) -/

def isHost (pa : Nat) : Bool := regionOf (localOf pa) = .host

/-- ATTREQ: ignored while a report is in progress. -/
def State.attReq (s : State) (v : Nat) : State :=
  if s.timers.any (fun e => e.2.2 = .attestationReport) then s
  else
    let s1 := (s.setReg 0x180 (bits v 51 12 * 4096)).setFld 0x188 63 63 0
    let d := s1.drawIn 1 18800000
    d.2.later (s.tick + d.1) 0 .attestationReport

/-- The hash of a context's key, or zero. -/
def State.keyHash (s : State) (n : Nat) : List Byte :=
  let w := s.reg (0x300 + 8 * n)
  if bit w 63 then leBytes 64 (Config.sha3 (memBytes s.drained (bits w 51 12 * 4096) 2592)).toNat else List.replicate 64 0

/-- The report but for its signature. -/
def State.report (s : State) (nonce : List Byte) : List Byte :=
  nonce ++ leBytes 64 s.meas.toNat ++ (List.range 3).flatMap (fun i => leBytes 8 (Config.identity i).toNat)
  ++ (List.range 16).flatMap s.keyHash

/-- ATTESTATION_REPORT: the report is written behind the nonce and ATTSTAT set. -/
def State.attest (s : State) : State :=
  let base := s.reg 0x180
  let r := s.homeRead 2 base 3 64
  let body := r.2.report r.1
  let all := body ++ Config.deviceSig body
  let s1 := if isHost base then r.2.homeWrite 2 (base + 64) (all.length / 64 + 2) (all.map some) else r.2
  s1.setFld 0x188 63 63 1

/-- HEARTBEAT: frames since firmware start, as a posted write to the host. -/
def State.beat (s : State) : State :=
  let a := s.reg 0x108
  if isHost a then s.homeWrite 2 a 2 ((leBytes 8 s.frames).map some) else s

/-! ### Power (R444, R446) -/

def State.powered (s : State) (cl : Nat) : Bool := (spGet cluster0 s.clusters cl).powered

/-- CLUSTER_POWER_UP: one cluster; the next 4,700 cycles later (R444). -/
def State.clusterUp (s : State) (cl : Nat) : State :=
  if 96 ≤ cl || s.powered cl then s
  else
    let s1 := { s with clusters := spSet cluster0 s.clusters cl { spGet cluster0 s.clusters cl with powered := true } }
    let s2 := s1.countMod 0x130 14 8 1
    let s3 := if cl % 24 = 23 then s2.setFld 0x130 (cl / 24) (cl / 24) 1 else s2
    (if cl < 95 then s3.later (s.tick + 4700) 0 (.clusterPowerUp (cl + 1)) else s3.rungUpOver).decide

/-- A thermal event's temperature is a free value. -/
def State.noteHeat (s : State) (cause : Nat) : State :=
  let d := s.drawIn 0 255
  d.2.note 4 8 cause 0 0x1FF d.1

/-- THERMAL_THROTTLE: BUDGET falls, how far is free, to 33 at the least (R446). -/
def State.throttle (s : State) : State :=
  let b := s.fld 0x128 7 0
  let d := s.drawIn 33 (max 33 (b - 1))
  ({ d.2 with budgetWas := if s.budgetWas = 0 then b else s.budgetWas }.setFld 0x128 7 0 d.1).noteHeat 1

/-- THERMAL_THROTTLE_END: BUDGET rises again, at most to what it was (R446). -/
def State.throttleEnd (s : State) : State :=
  let b := s.fld 0x128 7 0
  if b < s.budgetWas then
    let d := s.drawIn (b + 1) s.budgetWas
    ({ d.2 with budgetWas := if d.1 = s.budgetWas then 0 else s.budgetWas }.setFld 0x128 7 0 d.1).noteHeat 2
  else { s with budgetWas := 0 }.noteHeat 2

/-- THERMAL_TRIP: every launch is killed, the stacks are powered off, a power-up under way ends (R446). -/
def State.trip (s : State) : State :=
  let s1 := s.launches.foldl (fun st l => st.finish l.id 4 0) s
  let s2 := { s1 with
    mem := s1.drained, l2 := [], retained := [], reqs := s1.reqs.filter (fun r => 512 ≤ r.core),
    msgs := s1.msgs.filter (fun m => 512 ≤ m.src), parked := [],
    clusters := s1.clusters.filterMap (fun (e : Nat × Cluster) =>
      if e.2.gate = 0 then none else some (e.1, { cluster0 with gate := e.2.gate })) }
  ({ s2 with timers := s2.timers.filter (fun e => match e.2.2 with
      | .clusterPowerUp _ => false
      | _ => true) }.setReg 0x130 0).rungUpOver.noteHeat 3

/-! ### Upper-core domains (R447, R454, R455) -/

/-- UPDOM_CLOSE. -/
def State.domainCloses (s : State) (cl : Nat) : State := if s.gateOf cl = 0 then s.setGate cl 1 else s

/-- An upper core after its domain has closed: its part in the launch is over and nothing of its contents is left (R455);
what it holds reads as after a launch begins (DESIGN CHOICE, assumption 144). -/
def closedCore (c : Core) : Core :=
  { coreAtLaunch c.num c.upper c.launch c.lctx c.index c.taskid c.entry with
    run := .ended, frozen := c.frozen, preempt := c.preempt, retain := c.retain, fences := c.fences }

/-- DOMAIN_CLOSE, at the end of a cycle at whose start the domain could close: what the upper core held is lost, its retained
image with it. -/
def State.domainClosed (s : State) (cl : Nat) : State :=
  if s.gateOf cl = 1 then
    { s.setGate cl 2 with retained := s.retained.filter (fun r => r.num ≠ some (coreIn cl 4)) }.modCore (coreIn cl 4) closedCore
  else s

/-- DOMAIN_OPENED, 4,700 cycles after the request. -/
def State.domainOpens (s : State) (cl : Nat) : State := if s.gateOf cl = 2 then s.setGate cl 0 else s

end Sys2Proof.Machine
end

