-- ==== Sys2Proof/Machine/Swap.lean ====
section
/-! DEFINITION. Sequence swap (15 R374, R375, 01 R39, R43), frame barriers and encode jobs (R376 to R378), and errors in
protected storage (02 R54, R73, 16 R379, R380). -/

namespace Sys2Proof.Machine

/-! ### Sequence swap (R374, R375) -/

def State.swapOn (s : State) : Bool := bit (s.reg 0x1500) 63
def State.lowWm (s : State) : Nat := s.fld 0x1500 47 24
def State.highWm (s : State) : Nat := s.fld 0x1500 23 0
def State.poolCount (s : State) : Nat := s.fld 0x1510 31 0

/-- A doubleword of memory as the hub would read it, without the reading's own effects. -/
def State.peek (s : State) (pa n : Nat) : Nat := (s.physNat pa n)

/-- Address of a frame number's place in the pool. -/
def State.poolAt (s : State) (i : Nat) : Nat := s.fld 0x1508 51 3 * 8 + 8 * i

def State.seqBase (s : State) : Nat := s.fld 0x1528 51 12 * 4096

/-- Page list of a slot: its address and its entries' number. -/
def State.slotList (s : State) (k : Nat) : Nat × Nat :=
  (s.peek (s.seqBase + 256 + 16 * k) 8, s.peek (s.seqBase + 264 + 16 * k) 8)

/-- Slot a is chosen before slot b: lower priority, then lower number. -/
def lowerSlot (a b : Nat × Nat) : Bool := a.2 < b.2

/-- The leaf of a page: its address and value. -/
def State.leafOf (s : State) (ctx va : Nat) : Option (Nat × Nat) × State :=
  if !bit (s.reg (0x1000 + 8 * ctx)) 63 then (none, s)
  else
    let w := s.walk 0 .hubAgent ctx va
    match w.1.res with
    | .ok (at_, v, _) => (some (at_, v), w.2)
    | .error _ => (none, w.2)

def leafSeq (v : Nat) : Nat := bits v 11 4

/-- Some page of a slot's list is still resident: its leaf names the slot, with SWAP 00 or, its move not yet made, 01. -/
def State.slotResident (s : State) (k : Nat) : Bool :=
  let l := s.slotList k
  (List.range l.2).any (fun i =>
    let e := s.peek (l.1 + 8 * i) 8
    match (s.leafOf (bits e 63 60) (bits e 51 16 * 0x10000)).1 with
    | some x => leafSeq x.2 = k && leafSize x.2 = 0 && leafSwap x.2 ≤ 1
    | none => false)

/-- The resident slot of lowest priority; 255 is never chosen, nor a slot that has had its turn since the pool fell short. -/
def State.swapPick (s : State) : Option Nat :=
  let c := ((List.range 256).filter (fun k => !s.swapGone.contains k)).map (fun k => (k, s.peek (s.seqBase + k) 1))
  let ok := c.filter (fun e => e.2 < 255 && s.slotResident e.1)
  (ok.foldl (fun (m : Option (Nat × Nat)) e => match m with
    | some x => if lowerSlot e x then some e else m
    | none => some e) none).map (·.1)

/-- The next free page of the swap area. -/
def State.swapFree (s : State) : Option Nat := (List.range (s.fld 0x1520 31 0)).find? (fun i => !s.swapUsed.contains i)

def State.swapBase (s : State) : Nat := s.fld 0x1518 51 16 * 0x10000

/-- A TINV of one page. -/
def pageTinv (ctx va : Nat) : Word := BitVec.ofNat 64 (ctx * 2 ^ 52 + va / 0x10000 * 0x10000)

/-- The engine goes on in its own time, behind all launch traffic. -/
def State.swapNext (s : State) (ctx slot : Nat) : State :=
  let d := s.drawIn 1 0xFFFFFFFF
  d.2.later (s.tick + d.1) 0 (.swapOut ctx slot)

/-- A SWAPPED fault on a slot waits, or was met since the slot's turn began, be it resolved by now (R375). -/
def State.slotWanted (s : State) (k : Nat) : Bool :=
  ((s.faults.filter (fun e => e.cause = 6)).map (fun e => (e.ctx, e.page)) ++ s.swapFaults).any (fun e =>
    match (s.leafOf e.1 e.2).1 with
    | some l => leafSeq l.2 = k
    | none => false)

/-- A slot's pages are all out, or its swap-out ends: the next slot's turn while the pool is short. -/
def State.swapSlotDone (s : State) (k : Nat) : State :=
  let s1 := { s with swapAct := none, swapGone := s.swapGone ++ [k], swapFaults := [] }
  if s1.poolCount < s1.highWm then
    match s1.swapPick with
    | some n => { s1 with swapAct := some (n, 0) }.swapNext 0 n
    | none => s1
  else s1

/-- Steps 3 to 5 of a page: copied to the swap area, its leaf rewritten, its frame pushed. -/
def State.swapPage (s : State) (at_ v page : Nat) : State :=
  let host := s.swapBase + 0x10000 * page
  let r := s.physRead (leafFrame v) 0x10000
  let s1 := r.2.homeWrite 2 host 1026 (r.1.map some)
  let s2 := s1.physWrite at_ (leBytes 8 (setBits (setBits v 59 58 2) 51 16 (host / 0x10000)))
  let s3 := (s2.physWrite (s2.poolAt s2.poolCount) (leBytes 8 (leafFrame v))).setFld 0x1510 31 0 (s2.poolCount + 1)
  { s3 with swapUsed := page :: s3.swapUsed }.countSat 0x1530 63 32 1

/-- The engine's turn at entry `i` of a slot's list: a resident page of the slot is marked and invalidated, then moved once
the invalidation has completed and no access by an old translation is left (R43); any other entry is passed. -/
def State.swapEntry (s : State) (k i : Nat) : State :=
  let e := s.peek ((s.slotList k).1 + 8 * i) 8
  let ctx := bits e 63 60
  let va := bits e 51 16 * 0x10000
  let l := s.leafOf ctx va
  let skip (t : State) : State := { t with swapAct := some (k, i + 1) }.swapNext ctx k
  match l.1 with
  | none => skip l.2
  | some (at_, v) =>
    if leafSeq v ≠ k || leafSize v ≠ 0 then skip l.2
    else if leafSwap v = 0 then
      if 9 ≤ l.2.tinv.length then l.2.swapNext ctx k
      else
        let s1 := l.2.physWrite at_ (leBytes 8 (setBits v 59 58 1))
        (s1.tinvPush (pageTinv ctx va)).swapNext ctx k
    else if leafSwap v = 1 then
      let frame := [(leafFrame v, 0x10000)]
      if l.2.tinv.contains (pageTinv ctx va) then l.2.swapNext ctx k
      else if l.2.framesBusy frame l.2.seq l.2.walksEnd then (l.2.framesFlush frame).swapNext ctx k
      else match l.2.swapFree with
        | none => { l.2 with swapAct := none }
        | some page =>
          let s1 := l.2.swapPage at_ v page
          if s1.slotWanted k then s1.swapSlotDone k
          else if s1.highWm ≤ s1.poolCount then { s1 with swapAct := none }
          else skip s1
    else skip l.2

/-- SWAP_OUT: the engine starts when the pool is short, and goes on with the slot under way. -/
def State.swapOutStep (s : State) (ctx slot : Nat) : State :=
  if !s.swapOn then { s with swapAct := none }
  else match s.swapAct with
    | none =>
      if s.poolCount < s.lowWm then
        { s with swapAct := some (slot, 0), swapGone := [], swapFaults := [] }.setFld 0x1530 15 8 slot |>.swapNext ctx slot
      else s
    | some (k, i) =>
      let s1 := s.setFld 0x1530 15 8 k
      if (s1.slotList k).2 ≤ i then s1.swapSlotDone k else s1.swapEntry k i

/-- The start of the engine, looked at in slot 63 of a frame (R438) while it stands: the slot it would choose. -/
def State.swapDue (s : State) : Option Nat :=
  if s.tick % 30080 = 63 * 470 && !s.fwBusy && !s.bootFail && s.swapOn && s.swapAct = none && s.poolCount < s.lowWm && s.swapFree.isSome then
    { s with swapGone := [] }.swapPick
  else none

/-- SWAP_IN: the page of a SWAPPED fault comes back to a frame of the pool, or waits for one, and the fault is retried
(R39, R375). DESIGN CHOICE (assumption 149): a fault whose leaf no longer walks by then, or is resident again, is retried at
once, without a page made resident; its access then meets the tables as they stand. -/
def State.swapInStep (s : State) (entry : Nat) : State :=
  match s.faults.find? (fun e => e.written && e.entry = entry) with
  | none => s
  | some e =>
    let wait (t : State) : State := t.later (t.slot63 0) 0 (.swapIn entry)
    let l := s.leafOf e.ctx e.page
    match l.1 with
    | none => l.2.retryEntry entry
    | some (at_, v) =>
      if leafSwap v = 0 then l.2.retryEntry entry
      else if leafSwap v = 1 || l.2.fwBusy || !l.2.swapOn || l.2.poolCount = 0 then wait l.2
      else
        let n := l.2.poolCount - 1
        let frame := bits (l.2.peek (l.2.poolAt n) 8) 51 16 * 0x10000
        let r := l.2.homeRead 2 (leafFrame v) 1026 0x10000
        let s1 := (r.2.physWrite frame r.1).setFld 0x1510 31 0 n
        let s2 := s1.physWrite at_ (leBytes 8 (setBits (setBits v 59 58 0) 51 16 (frame / 0x10000)))
        let page := (leafFrame v - s2.swapBase) / 0x10000
        ({ s2 with swapUsed := s2.swapUsed.erase page, swapGone := s2.swapGone.erase (leafSeq v) }.countSat
          0x1530 31 16 1).retryEntry entry

/-! ### Frame barriers (R376 to R378) -/

/-- The session a barrier starts jobs on: 8 × ENC + SESS. -/
def State.barSess (s : State) (b : Nat) : Nat := 8 * s.fld (barReg b 0) 57 54 + s.fld (barReg b 0) 53 51

/-- The completion of a trigger: DONE and the post (R378). -/
def State.triggerDone (s : State) (b : Nat) : State :=
  (s.countMod (barReg b 4) 63 32 1).postWord (s.fld (barReg b 0) 62 59) (s.reg (barReg b 3))

/-- One trigger (R378). -/
def State.barTrigger (s : State) (b : Nat) : State :=
  if bit (s.reg (barReg b 0)) 58 then
    if 4 ≤ s.fld (barReg b 4) 15 8 then s.setFld (barReg b 4) 7 7 1
    else
      let j : EncJob := ⟨b, s.barSess b, BitVec.ofNat 64 (s.reg (barReg b 1)), BitVec.ofNat 64 (s.reg (barReg b 2)), false⟩
      ({ s with enc := s.enc ++ [j] }.countMod (barReg b 4) 15 8 1).soon 0 [.encodeJobStart j.sess]
  else s.triggerDone b

/-- Triggers while the count reaches the target; what is over counts toward the next frame (R378). -/
def State.barCount (s : State) (b : Nat) : Nat → Nat → State
  | 0, n => s.setFld (barReg b 4) 31 16 n
  | k + 1, n =>
    let t := max 1 (s.fld (barReg b 0) 15 0)
    if t ≤ n then State.barCount (s.barTrigger b) b k (n - t) else s.setFld (barReg b 4) 31 16 n

/-- BARRIER_ARRIVAL: arrivals of one cycle, counted together (R378). -/
def State.barArrive (s : State) (b n : Nat) : State :=
  let c := s.fld (barReg b 4) 31 16 + n
  s.barCount b c c

/-! ### Encode jobs (R378) -/

/-- A session runs no job. -/
def State.sessIdle (s : State) (e : Nat) : Bool := !s.enc.any (fun j => j.running && j.sess = e)

/-- A list with its first element that satisfies a test changed. -/
def modFirst {α : Type} (p : α → Bool) (f : α → α) : List α → List α
  | [] => []
  | x :: l => if p x then f x :: l else x :: modFirst p f l

/-- ENCODE_JOB_START: a session takes its next job once its previous one has completed. -/
def State.encStart (s : State) (e : Nat) : State :=
  let waits (j : EncJob) : Bool := !j.running && j.sess = e
  if s.sessIdle e && Config.encoders && bit (s.reg (0x3050000 + 64 * e)) 63 then
    match s.enc.find? waits with
    | none => s
    | some j =>
      let s1 := { s with enc := modFirst waits (fun k => { k with running := true }) s.enc }
      let q := s1.fld (barReg j.bar 4) 15 8
      let d := (s1.setFld (barReg j.bar 4) 15 8 (q - 1)).drawIn 1 1950000
      d.2.later (s.tick + d.1) 0 (.encodeJobComplete e)
  else s

/-- A range of a context that an encoder cannot reach, page by page: the fault's cause, level and address. -/
def State.encFault (s : State) (ctx : Nat) (k : Acces) : Nat → Nat → Nat → Option (Nat × Nat × Nat) × State
  | 0, _, _ => (none, s)
  | m + 1, va, n =>
    if n = 0 then (none, s)
    else match s.xlate 0 .hubAgent ctx va k with
      | (.error e, s1) => (some (e.1, e.2, va), s1)
      | (.ok _, s1) =>
        let step := min n (0x10000 - va % 0x10000)
        State.encFault s1 ctx k m (va + step) (n - step)

/-- Bytes of a frame: luma and half as much chroma, at one or two bytes a sample in rows of PITCH bytes. -/
def frameBytes (cfg : Nat) : Nat := bits cfg 31 16 * bits cfg 42 32 * 3 / 2

/-- ENCODE_JOB_COMPLETE: the bitstream goes into the ring, with wrap; without room, or behind a fault, the job waits. -/
def State.encDone (s : State) (e : Nat) : State :=
  match s.enc.find? (fun j => j.running && j.sess = e) with
  | none => s
  | some j =>
    let b := j.bar
    let ctx := s.fld (barReg b 0) 62 59
    let again (t : State) : State := t.later (s.tick + 1) 0 (.encodeJobComplete e)
    let size := 2 ^ (bits j.ring.toNat 3 0 + 12)
    let base := bits j.ring.toNat 51 12 * 4096
    let frame := bits j.frame.toNat 51 12 * 4096
    let len := Config.streamLen s.seq
    let used := (s.fld (barReg b 5) 31 0 + 2 ^ 32 - s.fld (barReg b 6) 31 0) % 2 ^ 32
    if size < used + len then again s
    else
      let n := frameBytes (s.reg (0x3050000 + 64 * e))
      let f1 := s.encFault ctx .read (n / 0x10000 + 2) frame n
      let f2 := match f1.1 with
        | some x => (some x, f1.2)
        | none => f1.2.encFault ctx .write (size / 0x10000 + 2) base size
      match f2.1 with
      | some x => f2.2.faultRecord (512 + e / 8) .hubAgent ctx x.1 x.2.2 x.2.2 f1.1.isNone false x.2.1 0 0
      | none =>
        let d := (List.range len).map (Config.streamByte s.seq)
        let o := s.fld (barReg b 5) 31 0 % size
        let m := min len (size - o)
        let s1 := (f2.2.ctxPut ctx (base + o) (d.take m)).ctxPut ctx base (d.drop m)
        let s2 := { s1 with seq := s1.seq + 1, enc := s1.enc.erase j }.countMod (barReg b 5) 31 0 len
        (s2.triggerDone b).soon 0 [.encodeJobStart e]

/-! ### Errors in protected storage (R54, R73, R379) -/

/-- A queue's head command fails as by a fault of its own (R73, R145). -/
def queueEcc (q : Nat) (c : Core) : Core :=
  match (c.cq q).cmds with
  | k :: l => copyStop q (c.setCq q { c.cq q with cmds := { k with cause := some cLOCALECC } :: l })
  | [] => c

/-- A matrix command leaves its unit with its work unfinished. -/
def matDrop (no : Nat) (c : Core) : Core :=
  let keep (u : Option MUnit) : Option MUnit := u.filter (fun x => x.no ≠ no)
  { c with mat := { c.mat with runs := c.mat.runs.filter (fun r => r.no ≠ no), mcode := keep c.mat.mcode, fill := keep c.mat.fill,
                               swap := keep c.mat.swap, swapTx := keep c.mat.swapTx } }

/-- The matrix command that read the error stops as for a fault: the first at work among those that read the scratchpad or the
B-store, else the first waiting (R73, R284). -/
def matEcc (c : Core) : Core :=
  let reads := c.mat.cmds.filter (fun k => !k.done && k.c.op ≠ 0x11)
  match (reads.find? (·.started)).orElse (fun _ => reads.head?) with
  | some k => matFail k cLOCALECC (matDrop k.no c)
  | none => c

/-- A slot of a bundle reads the storage of an error's row: 0 the grid file, else the own scratchpad or the spill memory. -/
def slotReads (row : Nat) (fo : Focus) (c : Core) (i : Instr) : Bool :=
  if row = 0 then gridReads i ≠ [] else ownAccs fo c i ≠ [] || (match i with
    | .spld _ _ => true
    | _ => false)

/-- The lowest slot of the primary's next bundle that reads the storage of an error's row (R391). DESIGN CHOICE: V0 where the
error is told of a bundle that reads none (assumption 27). -/
def State.eccSlot (s : State) (num row : Nat) (c : Core) : Nat :=
  let ops := (s.nextSlots num c.p).map okOr
  ((List.range 8).find? (fun k => slotReads row (primFocus num c k 1 0 0) c (ops.getD k .nilI))).getD 3

/-- A read of the primary's next bundle meets the error: the trap is raised in the cycle that bundle is due in, which does not
issue (R386). -/
def nextTrap (cause slot : Nat) (c : Core) : Core :=
  { c with p := { c.p with pend := c.p.pend ++ [⟨1, .prim, c.p.iss * 8 + slot, slotBundle c.p slot, slot, 0, [.trap cause 0]⟩] } }

/-- An uncorrectable error in scratchpad, spill or B-store, by its reader: 0 the primary (in `slot`), 1 + h helper h, 16 + q
queue q, 20 the matrix engine. -/
def localEcc (loc slot : Nat) (c : Core) : Core :=
  if loc = 0 then nextTrap cLOCALECC slot c
  else if loc ≤ 10 then helperTrap (loc - 1) cLOCALECC (c.helper (loc - 1)).pc (c.helper (loc - 1)).pos c
  else if 16 ≤ loc ∧ loc < 20 then queueEcc (loc - 16) c
  else if loc = 20 then matEcc c
  else c

/-- An uncorrectable error in the helper cache: a clean line goes, to be fetched again; a dirty one ends the launch. -/
def State.cacheEcc (s : State) (num loc : Nat) (c : Core) : State :=
  match c.hc[loc]? with
  | none => s
  | some e =>
    if e.dirty = 0 then s.setCore num (hcDrop e.line c) else (s.killCtx c.lctx false (some (c.launch, cMEMECC))).decide

/-- A corrected error in storage that counts them (R54). -/
def countCe (c : Core) : Core := { c with cecnt := min (c.cecnt + 1) 0xFFFF }

/-- STORAGE_ERROR: rows of R73 in order: 0 grid file, 1 scratchpad, spill memory and B-store, 2 helper cache, 3 accumulator
banks, 4 code store, 6 the shadow (R389); 5 the doubleword of memory at `loc`, whose error a page walk meets (R32). Parity finds and does not
correct. The fatal ones act as a kill of the context (R379, R399). -/
def State.storageError (s : State) (num row : Nat) (unc : Bool) (loc : Nat) : State :=
  if row = 5 then (if unc then { s with poison := (loc / 8 * 8) :: s.poison } else s) else
  match s.core num with
  | none => s
  | some c =>
    let s1 := s.note (dieOf num) 5 (b2n (unc || row = 0 || row = 3)) c.lctx num row
    let live := c.run ≠ .ended && c.run ≠ .idle && num < 512
    if !live then s1
    else if row = 0 then s1.setCore num (nextTrap cGRIDPARITY (s.eccSlot num 0 c) c)
    else if row = 6 then (if unc then (s1.killCtx c.lctx false (some (c.launch, cMEMECC))).decide else s1)
    else if row = 3 then (s1.killCtx c.lctx false (some (c.launch, cACCECC))).decide
    else if !unc then (if row = 1 ∨ row = 2 then s1.setCore num (countCe c) else s1)
    else if row = 1 then s1.setCore num (localEcc loc (s.eccSlot num 1 c) c)
    else if row = 2 then s1.cacheEcc num loc c
    else if row = 4 then (s1.killCtx c.lctx false (some (c.launch, cCODEECC))).decide
    else s1

/-! ### Events of a core -/

/-- MAILBOX_ARRIVAL (R231, R233): a stall outside the inbox of a kernel without an entry for it is noted. -/
def State.mailArrives (s : State) (core m : Nat) (v : Word) : State :=
  match s.core core with
  | none => s
  | some c =>
    let d := placeMail m v c
    let s1 := s.setCore core d
    if c.recvHeld.length < d.recvHeld.length && c.inboxEntry.isNone then s1.note (dieOf core) 0x0B 0 c.lctx core m else s1

/-- FLAG_POST_ARRIVAL (R53, R134). -/
def State.flagArrives (s : State) (core f n : Nat) : State := s.modCore core (fun c => flagInc c (f % 32) n)

/-- HANDLE_ADVANCE_ARRIVAL (R128): added without checks. -/
def State.handleArrives (s : State) (core h : Nat) (prod : Bool) (n : Nat) : State :=
  s.modCore core (fun c => { c with handles := spSet 0 c.handles (h % 16) (handleAdd (rdHandle c (h % 16)) prod n) })

/-- LEGDATA_READ: OFF moves on (R342). -/
def State.legNext (s : State) : State := s.setFld 0x1388 31 3 (s.fld 0x1388 31 3 + 1)

/-- LEGDATA_WRITE: beyond the carve-out it is ignored; OFF moves on (R342). -/
def State.legWrite (s : State) (v : Word) : State :=
  let off := s.fld 0x1388 31 3 * 8
  let s1 := if off + 8 ≤ s.fld 0x1380 2 0 * 2 ^ 30 then s.physWrite (s.chip * 2 ^ 45 + s.carveLo + off) (leBytes 8 v.toNat)
    else s
  s1.legNext

/-- THE START OF A CYCLE, with the start of the swap engine where the pool is short. -/
def State.startCycle (s : State) : State :=
  let t := s.newCycle
  match s.swapDue with
  | some k => { t with agenda := Work.event 0 (.swapOut 0 k) :: t.agenda }
  | none => t

end Sys2Proof.Machine
end

