-- ==== Sys2Proof/Machine/Guard.lean ====
section
/-! DEFINITION. How a meaning reaches the core its slot belongs to: the checks of decode first (03 R98 to R100), then the
operation; and what single events do to a core (16 R386, R458, 17 R411, R416). -/

namespace Sys2Proof.Machine

/-- What an instruction's execution answers. -/
abbrev Out := Host.Outcome State Fault Refusal

/-- An operation of one core: illegal forms trap ILLEGAL, others take effect. -/
def onCore (i : Instr) (f : Focus → Core → Core) (s : State) : Out :=
  match s.core s.focus.core with
  | none => .fault .noCore
  | some c => .next (s.setCore s.focus.core (if legal s.focus c i then f s.focus c else takeTrap s.focus cILLEGAL 0 c))

/-- An operation that reaches beyond its core. -/
def onState (i : Instr) (f : Focus → Core → State) (s : State) : Out :=
  match s.core s.focus.core with
  | none => .fault .noCore
  | some c => .next (if legal s.focus c i then f s.focus c else s.setCore s.focus.core (takeTrap s.focus cILLEGAL 0 c))

/-- The tree a route word names takes the core's list: installed, of the core's context, with that node (R310, R411). -/
def State.treeTakes (s : State) (c : Core) (w : Nat) : Bool :=
  match s.trees.find? (fun e => e.1 = bits w 7 0) with
  | some e => e.2.ctx = c.lctx && bits w 15 8 < e.2.nodes.length
  | none => false

/-- The result whose trap cycle this is: of the earliest-issued operation, then of the lowest slot (R458). -/
def firstDue : List Pend → Option (Pend × Nat × Word)
  | [] => none
  | e :: l =>
    let mine : Option (Nat × Word) := if e.rem ≤ 1 then
        e.effs.findSome? (fun x => match x with
          | .trap k v => some (k, v)
          | _ => none) else none
    match mine, firstDue l with
    | some m, some r => if e.ord ≤ r.1.ord then some (e, m) else some r
    | some m, none => some (e, m)
    | none, r => r

/-- DEFERRED_TRAP (R458): the record names the trapping operation's bundle and slot. -/
def deferTrap (jobt : Nat) (c : Core) : Core :=
  match firstDue c.p.pend with
  | some r => primTrap r.2.1 r.1.slot r.1.bundle r.2.2 jobt c
  | none => c

/-- ROLLBACK_RESTORE_END (R379, R386): a soft failure's region issues again; another trap is the policy's. -/
def State.restoreEnds (s : State) (num : Nat) : State :=
  match s.core num with
  | none => s
  | some c => match c.run with
    | .restore _ true _ => s.setCore num (endRestore c)
    | .restore _ false cause =>
      if s.polOf c.lctx = 1 then
        (s.setCore num { endRestore c with run := .run }).trigger c.lctx 0x38 (some num) 15 (bits c.trapRec0.toNat 44 31) cause
      else (s.setCore num (endRestore c)).killCtx c.lctx false (some (c.launch, cause))
    | _ => s

/-- BQTAKE (R416): a gateway's read takes the next index. -/
def State.bqTo (s : State) (gw d : Nat) : State :=
  let r := s.bqTake
  r.2.modCore (512 + gw) (fun c => retireS ⟨512 + gw, .gate, 0, 0, 1, 0, 0⟩ 1 0 d r.1 c)

end Sys2Proof.Machine
end

