-- ==== Sys2Proof/Machine/ExecControl.lean ====
section
/-! DEFINITION. Meanings: The I class: control registers, clocks, mailboxes, transfers, HALT, START and TRAP (09 R246 to R258). -/

namespace Sys2Proof.Machine

/-- MFC (R246). -/
def execMfc (d : BitVec 6) (n : BitVec 12) (st : State) : Out :=
  onState (.mfc d n) (fun fo k => if n.toNat = 0x600 then st.soon fo.core [.bqtake (fo.core - 512) d.toNat] else st.setCore fo.core (opMfc d n fo k)) st

/-- MTC (R246). -/
def execMtc (d : BitVec 6) (n : BitVec 12) (st : State) : Out :=
  onState (.mtc d n) (fun fo k => if n.toNat = 0x601 then st.soon fo.core [.gwtlinc] else st.setCore fo.core (opMtc d n fo k)) st

/-- RDT (R249). -/
def execRdt (d : BitVec 6) (f : BitVec 6) (st : State) : Out :=
  onCore (.rdt d f) (opRdt d f) st

/-- TAKEM (R250). -/
def execTakem (d : BitVec 6) (m : BitVec 5) (st : State) : Out :=
  onCore (.takem d m) (opTakem d m) st

/-- BR (R252). -/
def execBr (c : BitVec 2) (p : BitVec 2) (o : BitVec 18) (st : State) : Out :=
  onCore (.br c p o) (opBr c p o) st

/-- BRZ (R252). -/
def execBrz (x : BitVec 6) (o : BitVec 18) (st : State) : Out :=
  onCore (.brz x o) (opBrz x o) st

/-- BRNZ (R252). -/
def execBrnz (x : BitVec 6) (o : BitVec 18) (st : State) : Out :=
  onCore (.brnz x o) (opBrnz x o) st

/-- JMP (R252). -/
def execJmp (x : BitVec 6) (st : State) : Out :=
  onCore (.jmp x) (opJmp x) st

/-- CALL (R252). -/
def execCall (o : BitVec 18) (st : State) : Out :=
  onCore (.call o) (opCall o) st

/-- LOOP (R252). -/
def execLoop (l : BitVec 2) (o : BitVec 18) (st : State) : Out :=
  onCore (.loop l o) (opLoop l o) st

/-- REP (R254). -/
def execRep (r : BitVec 6) (n : BitVec 4) (c : BitVec 14) (st : State) : Out :=
  onCore (.rep r n c) (opRep r n c) st

/-- HALT (R256). -/
def execHalt (m : BitVec 4) (st : State) : Out :=
  onCore (.halt m) (opHalt m) st

/-- START (R223). -/
def execStart (d : BitVec 6) (h : BitVec 4) (e : BitVec 14) (st : State) : Out :=
  onCore (.start d h e) (opStart d h e) st

/-- TRAP (R258). -/
def execTrap (d : BitVec 6) (c : BitVec 8) (st : State) : Out :=
  onCore (.trap d c) (opTrap d c) st

end Sys2Proof.Machine
end

