-- ==== Sys2Proof/Machine/ExecEngine.lean ====
section
/-! DEFINITION. Meanings: The E class: engine commands and SENDM (05, 11, 08 R230). -/

namespace Sys2Proof.Machine

/-- MMUL (R292). -/
def execMmul (x : BitVec 6) (y : BitVec 6) (z : BitVec 6) (l : BitVec 1) (b : BitVec 1) (st : State) : Out :=
  onCore (.mmul x y z l b) (fun fo k => matCmd 0x10 (rdS fo k x.toNat) (rdS fo k y.toNat) (rdS fo k z.toNat) (2 * l.toNat + b.toNat) fo k) st

/-- MDRAIN (R295). -/
def execMdrain (x : BitVec 6) (y : BitVec 6) (z : BitVec 6) (b : BitVec 1) (st : State) : Out :=
  onCore (.mdrain x y z b) (fun fo k => matCmd 0x11 (rdS fo k x.toNat) (rdS fo k y.toNat) (rdS fo k z.toNat) b.toNat fo k) st

/-- BFILL (R294). -/
def execBfill (x : BitVec 6) (y : BitVec 6) (z : BitVec 6) (st : State) : Out :=
  onCore (.bfill x y z) (fun fo k => matCmd 0x12 (rdS fo k x.toNat) (rdS fo k y.toNat) (rdS fo k z.toNat) 0 fo k) st

/-- MCODE (R293). -/
def execMcode (x : BitVec 6) (st : State) : Out :=
  onCore (.mcode x) (fun fo k => matCmd 0x13 (rdS fo k x.toNat) 0 0 0 fo k) st

/-- SWAP (R296). -/
def execSwap (x : BitVec 6) (y : BitVec 6) (z : BitVec 6) (st : State) : Out :=
  onCore (.swap x y z) (fun fo k => matCmd 0x14 (rdS fo k x.toNat) (rdS fo k y.toNat) (rdS fo k z.toNat) 0 fo k) st

/-- CPY (R150). -/
def execCpy (x : BitVec 6) (y : BitVec 6) (z : BitVec 6) (q : BitVec 2) (st : State) : Out :=
  onCore (.cpy x y z q) (fun fo k => engCmd 0x20 q.toNat (rdS fo k x.toNat) (rdS fo k y.toNat) (rdS fo k z.toNat) 0 fo k) st

/-- CPYT (R152). -/
def execCpyt (x : BitVec 6) (z : BitVec 6) (q : BitVec 2) (st : State) : Out :=
  onCore (.cpyt x z q) (fun fo k => engCmd 0x21 q.toNat (rdS fo k x.toNat) 0 (rdS fo k z.toNat) 0 fo k) st

/-- CGATH (R153). -/
def execCgath (x : BitVec 6) (z : BitVec 6) (q : BitVec 2) (st : State) : Out :=
  onCore (.cgath x z q) (fun fo k => engCmd 0x22 q.toNat (rdS fo k x.toNat) 0 (rdS fo k z.toNat) 0 fo k) st

/-- CSCAT (R153). -/
def execCscat (x : BitVec 6) (z : BitVec 6) (q : BitVec 2) (st : State) : Out :=
  onCore (.cscat x z q) (fun fo k => engCmd 0x23 q.toNat (rdS fo k x.toNat) 0 (rdS fo k z.toNat) 0 fo k) st

/-- CSEAL (R154). -/
def execCseal (x : BitVec 6) (q : BitVec 2) (st : State) : Out :=
  onCore (.cseal x q) (opCseal x q) st

/-- CTIME (R155). -/
def execCtime (x : BitVec 6) (q : BitVec 2) (st : State) : Out :=
  onCore (.ctime x q) (fun fo k => engCmd 0x25 q.toNat (rdS fo k x.toNat) 0 0 0 fo k) st

/-- CNEXT (R156). -/
def execCnext (x : BitVec 6) (y : BitVec 6) (z : BitVec 6) (q : BitVec 2) (l : BitVec 1) (b : BitVec 1) (st : State) : Out :=
  onCore (.cnext x y z q l b) (fun fo k => opCnext q.toNat (rdS fo k x.toNat) (rdS fo k y.toNat) (rdS fo k z.toNat) (2 * l.toNat + b.toNat) fo k) st

/-- SENDM (R230). -/
def execSendm (x : BitVec 6) (y : BitVec 6) (m : BitVec 5) (st : State) : Out :=
  onCore (.sendm x y m) (opSendm x y m) st

/-- EQRY (R157). -/
def execEqry (x : BitVec 6) (y : BitVec 6) (st : State) : Out :=
  onCore (.eqry x y) (opEqry x y) st

end Sys2Proof.Machine
end

