-- ==== Sys2Proof/Machine/ExecHub.lean ====
section
/-! DEFINITION. Meanings: Events of the hub, the links, debugging, the host and power (14, 15, 17 to 19). -/

namespace Sys2Proof.Machine

/-- LAUNCH_PACKET (R359). -/
def execLaunchPacket (s : State) : Out := .next (s.launchPacket s.focus.core)

/-- REPLAY (R371). -/
def execReplay (s : State) : Out := .next (s.replayPacket s.focus.core)

/-- KILL (R399). -/
def execKill (s : State) : Out := .next (s.killPacket s.focus.core)

/-- RECORD (R371). -/
def execRecord (s : State) : Out := .next (s.recordPacket s.focus.core)

/-- STAGE_RELEASE (R364). -/
def execStageRelease (launch : Nat) (s : State) : Out := .next (s.stageRelease launch)

/-- LAUNCH_COMPLETE (R361). -/
def execLaunchComplete (launch : Nat) (s : State) : Out := .next (s.launchComplete launch)

/-- PREEMPTION_END (R397). -/
def execPreemptionEnd (launch : Nat) (s : State) : Out := .next (s.preemptStep launch)

/-- KILL_COMPLETE (R191). -/
def execKillComplete (ctx : Nat) (s : State) : Out := .next (s.killStep ctx)

/-- SCHEDULER_WINDOW (R368). -/
def execSchedulerWindow (s : State) : Out := .next (s.newWindow)

/-- REPLAY_PASS (R433). -/
def execReplayPass (launch : Nat) (s : State) : Out := .next (s.replayPass launch)

/-- SWAP_OUT (R375). -/
def execSwapOut (ctx slot : Nat) (s : State) : Out := .next (s.swapOutStep ctx slot)

/-- SWAP_IN (R375). -/
def execSwapIn (entry : Nat) (s : State) : Out := .next (s.swapInStep entry)

/-- BARRIER_ARRIVAL (R378). -/
def execBarrierArrival (b n : Nat) (s : State) : Out := .next (s.barArrive b n)

/-- ENCODE_JOB_START (R378). -/
def execEncodeJobStart (e : Nat) (s : State) : Out := .next (s.encStart e)

/-- ENCODE_JOB_COMPLETE (R378). -/
def execEncodeJobComplete (e : Nat) (s : State) : Out := .next (s.encDone e)

/-- BREAKPOINT (R418). -/
def execBreakpoint (s : State) : Out := .next (s.breakpointAt s.focus.core)

/-- HALT_FLIT (R420). -/
def execHaltFlit (s : State) : Out := .next (s.haltFlit s.focus.core)

/-- STOP_TICK (R422). -/
def execStopTick (s : State) : Out := .next (s.stopTick s.focus.core)

/-- HOST_HALT (R425). -/
def execHostHalt (b : Nat) (v : Word) (s : State) : Out := .next (s.hostHalt b)

/-- RESUME (R424). -/
def execResume (b : Nat) (v : Word) (s : State) : Out := .next (s.askResume b none)

/-- JOBSTEP (R424). -/
def execJobstep (b : Nat) (v : Word) (s : State) : Out := .next (s.askResume b (some (bits v.toNat 19 0 + 1)))

/-- CORESTEP (R424). -/
def execCorestep (b : Nat) (v : Word) (s : State) : Out := .next (s.askCoreStep b (bits v.toNat 56 48))

/-- CLEARCAUSE (R425). -/
def execClearcause (b : Nat) (v : Word) (s : State) : Out := .next (s.clearCause b)

/-- RESUME_AT_TICK (R424). -/
def execResumeAtTick (s : State) : Out := .next (s.resumeAt s.focus.core)

/-- JOBSTEP_END (R424). -/
def execJobstepEnd (s : State) : Out := .next (s.jobstepEnd s.focus.core)

/-- CORESTEP_AT_TICK (R424). -/
def execCorestepAtTick (s : State) : Out := .next (s.corestepAt s.focus.core)

/-- SURVEY_PULSE (R426). -/
def execSurveyPulse (s : State) : Out := .next (s.surveyPulse)

/-- SHTRIG (R431). -/
def execShtrig (v : Word) (s : State) : Out := .next (s.shtrig v.toNat)

/-- SHADOW_TRIGGER (R431). -/
def execShadowTrigger (s : State) : Out := .next (s.shadowTrigger)

/-- FRDATA (R434). -/
def execFrdata (die : Nat) (s : State) : Out := .next (s.frNext die)

/-- LINK_FLIT_RECEIVE (R401). -/
def execLinkFlitReceive (port : Nat) (good : Bool) (s : State) : Out := .next (s.flit port good)

/-- LINK_DOWN (R402). -/
def execLinkDown (port : Nat) (s : State) : Out := .next (s.linkDown port)

/-- LINK_UP (R402). -/
def execLinkUp (port peer : Nat) (s : State) : Out := .next (s.linkUp port peer)

/-- DISCIPLINE_SEND (R403). -/
def execDisciplineSend (s : State) : Out := .next (s)

/-- GRATICULE_DISCIPLINE (R403). -/
def execGraticuleDiscipline (port stamp : Nat) (s : State) : Out := .next (s.discipline stamp)

/-- PLAN (R405). -/
def execPlan (slot : Nat) (v : Word) (s : State) : Out := .next (s.planStart slot v.toNat)

/-- PLAN_LATE (R405). -/
def execPlanLate (slot : Nat) (s : State) : Out := .next (s.planLate slot)

/-- PLAN_PHASE (R407). -/
def execPlanPhase (slot phase : Nat) (s : State) : Out := .next (s.planPhase slot phase)

/-- PLAN_COMPLETE (R407). -/
def execPlanComplete (slot : Nat) (s : State) : Out := .next (s.planComplete slot)

/-- TREESET (R409). -/
def execTreeset (v : Word) (s : State) : Out := .next (s.treeSet v.toNat)

/-- TREE_CHECK_DONE (R410). -/
def execTreeCheckDone (s : State) : Out := .next (s.treeChecked)

/-- TREE_NODE_INPUT (R411). -/
def execTreeNodeInput (tree node : Nat) (data : List (Lane × Lane)) (s : State) : Out := .next (s.treeInput tree node data)

/-- TREE_ROOT_DELIVERY (R411). -/
def execTreeRootDelivery (tree : Nat) (s : State) : Out := .next (s.treeDeliver tree)

/-- DISPATCH_DELIVERY (R413). -/
def execDispatchDelivery (group ex : Nat) (data : List (Lane × Lane)) (s : State) : Out := .next (s.dispatchList s.focus.core group ex data)

/-- GATEWAY_RUN (R416). -/
def execGatewayRun (s : State) : Out := .next (s.gateRun (s.focus.core - 512))

/-- GATEWAY_STOP (R416). -/
def execGatewayStop (s : State) : Out := .next (s.gateStop (s.focus.core - 512))

/-- MAJOR_FRAME (R438). -/
def execMajorFrame (s : State) : Out := .next (s.majorFrame)

/-- STREAM_POLL (R438). -/
def execStreamPoll (s : State) : Out := .next (s.pollStream s.focus.core)

/-- HEARTBEAT (R440). -/
def execHeartbeat (s : State) : Out := .next (s.beat)

/-- STREAM_ENABLE (R439). -/
def execStreamEnable (stream : Nat) (v : Word) (s : State) : Out := .next (s.enableStream stream v.toNat)

/-- STREAM_DISABLE (R439). -/
def execStreamDisable (stream : Nat) (v : Word) (s : State) : Out := .next (s.disableStream stream v.toNat)

/-- RESET_STREAM (R440). -/
def execResetStream (s : State) : Out := .next (s.rungOne s.focus.core)

/-- FIRMWARE_CORE_RESTART (R440). -/
def execFirmwareCoreRestart (s : State) : Out := .next (s.rungTwo)

/-- COMMAND_PROCESSOR_RESET (R440). -/
def execCommandProcessorReset (s : State) : Out := .next (s.rungThree)

/-- FUNCTION_LEVEL_RESET (R440). -/
def execFunctionLevelReset (s : State) : Out := .next (s.rungFour)

/-- SECONDARY_BUS_RESET (R440). -/
def execSecondaryBusReset (s : State) : Out := .next (s.rungFive)

/-- RESET_RUNG_COMPLETE (R440). -/
def execResetRungComplete (rung : Nat) (s : State) : Out := .next (s.rungComplete rung)

/-- POWER_ON (R441). -/
def execPowerOn (s : State) : Out := .next (s.powerUp)

/-- CLUSTER_POWER_UP (R444). -/
def execClusterPowerUp (cluster : Nat) (s : State) : Out := .next (s.clusterUp cluster)

/-- ATTREQ (R443). -/
def execAttreq (v : Word) (s : State) : Out := .next (s.attReq v.toNat)

/-- ATTESTATION_REPORT (R443). -/
def execAttestationReport (s : State) : Out := .next (s.attest)

/-- THERMAL_THROTTLE (R446). -/
def execThermalThrottle (s : State) : Out := .next (s.throttle)

/-- THERMAL_THROTTLE_END (R446). -/
def execThermalThrottleEnd (s : State) : Out := .next (s.throttleEnd)

/-- THERMAL_TRIP (R446). -/
def execThermalTrip (stack : Nat) (s : State) : Out := .next (s.trip)

/-- UPDOM_CLOSE (R454). -/
def execUpdomClose (cluster : Nat) (s : State) : Out := .next (s.domainCloses cluster)

/-- UPDOM_OPEN (R447). -/
def execUpdomOpen (cluster : Nat) (s : State) : Out := .next (s.openDomain cluster)

/-- DOMAIN_CLOSE (R455). -/
def execDomainClose (cluster : Nat) (s : State) : Out := .next (s.domainClosed cluster)

/-- DOMAIN_OPENED (R447). -/
def execDomainOpened (cluster : Nat) (s : State) : Out := .next (s.domainOpens cluster)

/-- BREAKPOINT_TAKES_EFFECT (R425). -/
def execBreakpointTakesEffect (s : State) : Out := .next (s.bpEffect s.focus.core)

/-- CXL_CACHE_SNOOP (R183). -/
def execCxlCacheSnoop (line : Nat) (inv : Bool) (s : State) : Out := .next (s.snoop line inv)

end Sys2Proof.Machine
end

