-- ==== Sys2Proof/Machine/ExecMem.lean ====
section
/-! DEFINITION. Meanings: The M class: local and global memory, images, handles and the lift FIFO (04 R109 to R131). -/

namespace Sys2Proof.Machine

/-- LD (R115). -/
def execLd (d : BitVec 6) (x : BitVec 6) (w : BitVec 2) (i : BitVec 10) (st : State) : Out :=
  onCore (.ld d x w i) (opLoad (.ld d x w i) x w.toNat i) st

/-- ST (R115). -/
def execSt (d : BitVec 6) (x : BitVec 6) (w : BitVec 2) (i : BitVec 10) (st : State) : Out :=
  onCore (.st d x w i) (opStore (.st d x w i) d x w.toNat i) st

/-- LDACQ (R116). -/
def execLdacq (d : BitVec 6) (x : BitVec 6) (i : BitVec 10) (st : State) : Out :=
  onCore (.ldacq d x i) (opLoad (.ldacq d x i) x 3 i) st

/-- STREL (R116). -/
def execStrel (d : BitVec 6) (x : BitVec 6) (i : BitVec 10) (st : State) : Out :=
  onCore (.strel d x i) (opStore (.strel d x i) d x 3 i) st

/-- XLD (R64). -/
def execXld (d : BitVec 6) (x : BitVec 6) (w : BitVec 2) (i : BitVec 10) (st : State) : Out :=
  onCore (.xld d x w i) (opXld (.xld d x w i) x w.toNat i) st

/-- XST (R64). -/
def execXst (d : BitVec 6) (x : BitVec 6) (w : BitVec 2) (i : BitVec 10) (st : State) : Out :=
  onCore (.xst d x w i) (opXst d x w.toNat i) st

/-- VLD (R118). -/
def execVld (g : BitVec 8) (a : BitVec 4) (k : BitVec 3) (d : BitVec 8) (st : State) : Out :=
  onCore (.vld g a k d) (opVld (.vld g a k d) a k d) st

/-- VST (R118). -/
def execVst (g : BitVec 8) (a : BitVec 4) (k : BitVec 3) (d : BitVec 8) (st : State) : Out :=
  onCore (.vst g a k d) (opVst (.vst g a k d) g a k d) st

/-- VLDX (R119). -/
def execVldx (g : BitVec 8) (a : BitVec 4) (i : BitVec 8) (st : State) : Out :=
  onCore (.vldx g a i) (opVldx (.vldx g a i) a i) st

/-- VSTX (R119). -/
def execVstx (g : BitVec 8) (a : BitVec 4) (i : BitVec 8) (st : State) : Out :=
  onCore (.vstx g a i) (opVstx (.vstx g a i) g a i) st

/-- GLD (R122). -/
def execGld (d : BitVec 6) (x : BitVec 6) (w : BitVec 2) (i : BitVec 10) (st : State) : Out :=
  onState (.gld d x w i) (fun fo k => st.gld fo d x w.toNat i k) st

/-- GST (R122). -/
def execGst (d : BitVec 6) (x : BitVec 6) (w : BitVec 2) (i : BitVec 10) (st : State) : Out :=
  onState (.gst d x w i) (fun fo k => st.gst fo d x w.toNat i k) st

/-- GATOM (R123). -/
def execGatom (d : BitVec 6) (x : BitVec 6) (y : BitVec 6) (o : BitVec 2) (f : BitVec 4) (st : State) : Out :=
  onState (.gatom d x y o f) (fun fo k => st.gatom fo d x y o.toNat f.toNat k) st

/-- CINV (R125). -/
def execCinv (x : BitVec 6) (i : BitVec 10) (st : State) : Out :=
  onState (.cinv x i) (fun fo k => st.cacheLine fo x i true k) st

/-- CCLEAN (R125). -/
def execCclean (x : BitVec 6) (i : BitVec 10) (st : State) : Out :=
  onState (.cclean x i) (fun fo k => st.cacheLine fo x i false k) st

/-- QLD (R120). -/
def execQld (r : BitVec 4) (a : BitVec 4) (k : BitVec 3) (st : State) : Out :=
  onCore (.qld r a k) (opQld (.qld r a k) a k) st

/-- QST (R120). -/
def execQst (r : BitVec 4) (a : BitVec 4) (k : BitVec 3) (st : State) : Out :=
  onCore (.qst r a k) (opQst (.qst r a k) r a k) st

/-- KLD (R121). -/
def execKld (r : BitVec 3) (a : BitVec 4) (k : BitVec 3) (st : State) : Out :=
  onCore (.kld r a k) (opKld (.kld r a k) a k) st

/-- KST (R121). -/
def execKst (r : BitVec 3) (a : BitVec 4) (k : BitVec 3) (st : State) : Out :=
  onCore (.kst r a k) (opKst (.kst r a k) r a k) st

/-- LIFT (R129). -/
def execLift (g : BitVec 8) (st : State) : Out :=
  onCore (.lift g) (opLift g) st

/-- LPOP (R129). -/
def execLpop (g : BitVec 8) (st : State) : Out :=
  onCore (.lpop g) (opLpop g) st

/-- HPUSH (R126). -/
def execHpush (g : BitVec 8) (h : BitVec 4) (st : State) : Out :=
  onCore (.hpush g h) (opHpush (.hpush g h) g h) st

/-- HPOP (R126). -/
def execHpop (g : BitVec 8) (h : BitVec 4) (st : State) : Out :=
  onCore (.hpop g h) (opHpop (.hpop g h) h) st

end Sys2Proof.Machine
end

