-- ==== Sys2Proof/Machine/ExecNil.lean ====
section
/-! DEFINITION. Meanings: Empty slots and holds (03 R80). -/

namespace Sys2Proof.Machine

/-- NIL_I (R80). -/
def execNilI (st : State) : Out :=
  onCore (.nilI) (fun _ k => k) st

/-- NIL_M (R80). -/
def execNilM (st : State) : Out :=
  onCore (.nilM) (fun _ k => k) st

/-- NIL_V (R80). -/
def execNilV (st : State) : Out :=
  onCore (.nilV) (fun _ k => k) st

/-- NIL_K (R80). -/
def execNilK (st : State) : Out :=
  onCore (.nilK) (fun _ k => k) st

/-- NIL_E (R80). -/
def execNilE (st : State) : Out :=
  onCore (.nilE) (fun _ k => k) st

/-- NIL_Y (R80). -/
def execNilY (st : State) : Out :=
  onCore (.nilY) (fun _ k => k) st

/-- HOLD_I (R80). -/
def execHoldI (st : State) : Out :=
  onCore (.holdI) (fun _ k => k) st

/-- HOLD_M (R80). -/
def execHoldM (st : State) : Out :=
  onCore (.holdM) (fun _ k => k) st

/-- HOLD_V (R80). -/
def execHoldV (st : State) : Out :=
  onCore (.holdV) (fun _ k => k) st

/-- HOLD_K (R80). -/
def execHoldK (st : State) : Out :=
  onCore (.holdK) (fun _ k => k) st

/-- HOLD_E (R80). -/
def execHoldE (st : State) : Out :=
  onCore (.holdE) (fun _ k => k) st

/-- HOLD_Y (R80). -/
def execHoldY (st : State) : Out :=
  onCore (.holdY) (fun _ k => k) st

end Sys2Proof.Machine
end

