-- ==== Sys2Proof/Machine/ExecPart.lean ====
section
/-! DEFINITION. Meanings: Events of cores, memory and engines (01, 02, 04 to 08, 11, 16). -/

namespace Sys2Proof.Machine

/-- DEFERRED_TRAP (R458). -/
def execDeferredTrap (s : State) : Out := .next (s.modCore s.focus.core (deferTrap s.focus.jobt))

/-- ROLLBACK_RESTORE_END (R386). -/
def execRollbackRestoreEnd (s : State) : Out := .next (s.restoreEnds s.focus.core)

/-- HELPER_BUNDLE_ILLEGAL (R90). -/
def execHelperBundleIllegal (core h : Nat) (s : State) : Out := .next (s.bundleIllegal core h)

/-- STORAGE_ERROR (R73). -/
def execStorageError (core row : Nat) (unc : Bool) (loc : Nat) (s : State) : Out := .next (s.storageError core row unc loc)

/-- CORE_PART_END (R226). -/
def execCorePartEnd (s : State) : Out := .next (s.endPart s.focus.core)

/-- INBOXPOP (R234). -/
def execInboxpop (s : State) : Out := .next (s.modCore s.focus.core (fun c => inboxRemove c.inbox.head? c))

/-- HCTL_FREE (R225). -/
def execHctlFree (core h : Nat) (s : State) : Out := .next (s.modCore core (freeHelper h))

/-- HISTSEL_CLR (R298). -/
def execHistselClr (core tid : Nat) (s : State) : Out := .next (s.modCore core (clearHist tid))

/-- EGRAPH_WRITE (R159). -/
def execEgraphWrite (core : Nat) (v : Word) (s : State) : Out := .next (s.modCore core (applyMtc 0x1C v))

/-- BQTAKE (R416). -/
def execBqtake (gw d : Nat) (s : State) : Out := .next (s.bqTo gw d)

/-- GWTLINC (R416). -/
def execGwtlinc (s : State) : Out := .next (s.gwtlInc (s.focus.core - 512))

/-- REGISTER_WRITE (R7). -/
def execRegisterWrite (off : Nat) (v : Word) (s : State) : Out := .next (s.regWrite off v.toNat)

/-- HOME_READ (R174). -/
def execHomeRead (id : Nat) (s : State) : Out := .next (s.homeReadAt id)

/-- HOME_WRITE (R173). -/
def execHomeWrite (id : Nat) (s : State) : Out := .next (s.homeWriteAt id)

/-- HOME_ATOMIC (R124). -/
def execHomeAtomic (id : Nat) (s : State) : Out := .next (s.homeAtomicAt id)

/-- GLOBAL_READ_RETURN (R171). -/
def execGlobalReadReturn (id : Nat) (s : State) : Out := .next (s.readReturn id)

/-- STORE_BUFFER_DRAIN (R69). -/
def execStoreBufferDrain (s : State) : Out := .next (s.sbDrain s.focus.core)

/-- PAGE_WALK (R32). -/
def execPageWalk (agent ctx va : Nat) (write atomic : Bool) (s : State) : Out := .next (s.pageWalk agent ctx va write atomic)

/-- FAULT_RECORD_DEFERRED (R36). -/
def execFaultRecordDeferred (s : State) : Out := .next (s.faultDeferred)

/-- RETRY (R36). -/
def execRetry (entry : Nat) (s : State) : Out := .next (s.retryEntry entry)

/-- ABANDON (R36). -/
def execAbandon (entry : Nat) (s : State) : Out := .next (s.abandonEntry entry)

/-- TINV_PAGE (R40). -/
def execTinvPage (ctx va : Nat) (s : State) : Out := .next (s.tinvPush (pageTinv ctx va))

/-- TINV_CONTEXT (R40). -/
def execTinvContext (ctx : Nat) (s : State) : Out := .next (s.tinvPush (BitVec.ofNat 64 (2 ^ 62 + ctx % 16 * 2 ^ 52)))

/-- TINV_ALL (R40). -/
def execTinvAll (s : State) : Out := .next (s.tinvPush (BitVec.ofNat 64 (2 ^ 63)))

/-- TINV_COMPLETE (R41). -/
def execTinvComplete (s : State) : Out := .next (s.tinvDone)

/-- FW_CTL_WRITE (R203). -/
def execFwCtlWrite (w : Nat) (v : Word) (s : State) : Out := .next (s.fwCtl w v.toNat)

/-- LEGDATA_READ (R342). -/
def execLegdataRead (s : State) : Out := .next (s.legNext)

/-- LEGDATA_WRITE (R342). -/
def execLegdataWrite (v : Word) (s : State) : Out := .next (s.legWrite v)

/-- FLAG_POST_ARRIVAL (R134). -/
def execFlagPostArrival (src core f n : Nat) (s : State) : Out := .next (s.flagArrives core f n)

/-- MAILBOX_ARRIVAL (R231). -/
def execMailboxArrival (src core m : Nat) (v : Word) (s : State) : Out := .next (s.mailArrives core (m % 32) v)

/-- MAILBOX_PORT_WRITE (R235). -/
def execMailboxPortWrite (src core m : Nat) (v : Word) (s : State) : Out := .next (s.mailPort src core m v)

/-- HANDLE_ADVANCE_ARRIVAL (R128). -/
def execHandleAdvanceArrival (src core h : Nat) (prod : Bool) (n : Nat) (s : State) : Out := .next (s.handleArrives core h prod n)

/-- CLUSTER_WINDOW_STORE (R64). -/
def execClusterWindowStore (src core addr : Nat) (data : List Byte) (s : State) : Out := .next (s.modCore core (spPut addr data))

/-- GATEWAY_WINDOW_ACCESS (R415). -/
def execGatewayWindowAccess (gw off : Nat) (write : Bool) (v : Word) (s : State) : Out := .next (s.gateWindow gw off write v)

/-- COPY_COMMAND_START (R141). -/
def execCopyCommandStart (core q : Nat) (s : State) : Out := .next (s.modCore core (copyStart q))

/-- COPY_BURST (R150). -/
def execCopyBurst (core q : Nat) (s : State) : Out := .next (s.copyBurst core q)

/-- COPY_COMMAND_COMPLETE (R142). -/
def execCopyCommandComplete (core q : Nat) (s : State) : Out := .next (s.copyComplete core q)

/-- TIMED_COMMAND_DUE (R155). -/
def execTimedCommandDue (core q : Nat) (s : State) : Out := .next (s.modCore core (fun c => timedStart q (s.jobTime c.lctx) c))

/-- QUEUE_STOP (R145). -/
def execQueueStop (core q : Nat) (s : State) : Out := .next (s.modCore core (copyStop q))

/-- MMUL_START (R285). -/
def execMmulStart (s : State) : Out := .next (s.modCore s.focus.core mmulStart)

/-- MMUL_COMPLETE (R292). -/
def execMmulComplete (s : State) : Out := .next (s.modCore s.focus.core mmulComplete)

/-- MCODE_START (R293). -/
def execMcodeStart (s : State) : Out := .next (s.modCore s.focus.core mcodeStart)

/-- MCODE_COMPLETE (R293). -/
def execMcodeComplete (s : State) : Out := .next (s.modCore s.focus.core mcodeComplete)

/-- BFILL_START (R294). -/
def execBfillStart (s : State) : Out := .next (s.modCore s.focus.core bfillStart)

/-- BFILL_COMPLETE (R294). -/
def execBfillComplete (s : State) : Out := .next (s.modCore s.focus.core bfillComplete)

/-- MDRAIN_START (R295). -/
def execMdrainStart (s : State) : Out := .next (s.modCore s.focus.core mdrainStart)

/-- MDRAIN_COMPLETE (R295). -/
def execMdrainComplete (s : State) : Out := .next (s.drainOver s.focus.core)

/-- SWAP_EXCHANGE_START (R296). -/
def execSwapExchangeStart (s : State) : Out := .next (s.swapStart s.focus.core)

/-- SWAP_COMPLETE (R296). -/
def execSwapComplete (s : State) : Out := .next (s.modCore s.focus.core swapComplete)

/-- MATRIX_TIMELINE_STOP (R297). -/
def execMatrixTimelineStop (s : State) : Out :=
  .next (s.modCore s.focus.core (fun c => matStop (s.partnerAccepted c) c))

end Sys2Proof.Machine
end

