-- ==== Sys2Proof/Machine/ExecScalar.lean ====
section
/-! DEFINITION. Meanings: The I class: integer, pointer, floating-point and spill operations (09 R240 to R245, 04 R117). -/

namespace Sys2Proof.Machine

/-- ADD (R241). -/
def execAdd (d : BitVec 6) (x : BitVec 6) (y : BitVec 6) (st : State) : Out :=
  onCore (.add d x y) (alu2 (fun a b => a + b) 1 d x y) st

/-- SUB (R241). -/
def execSub (d : BitVec 6) (x : BitVec 6) (y : BitVec 6) (st : State) : Out :=
  onCore (.sub d x y) (alu2 (fun a b => a - b) 1 d x y) st

/-- ADDI (R241). -/
def execAddi (d : BitVec 6) (x : BitVec 6) (i : BitVec 12) (st : State) : Out :=
  onCore (.addi d x i) (alu1 (fun a => a + imm12 i) d x) st

/-- ADDSH (R241). -/
def execAddsh (d : BitVec 6) (x : BitVec 6) (y : BitVec 6) (s : BitVec 2) (st : State) : Out :=
  onCore (.addsh d x y s) (alu2 (fun a b => (a <<< s.toNat) + b) 1 d x y) st

/-- MUL (R241). -/
def execMul (d : BitVec 6) (x : BitVec 6) (y : BitVec 6) (st : State) : Out :=
  onCore (.mul d x y) (alu2 (fun a b => a * b) 3 d x y) st

/-- MULH (R241). -/
def execMulh (d : BitVec 6) (x : BitVec 6) (y : BitVec 6) (st : State) : Out :=
  onCore (.mulh d x y) (alu2 mulHi 3 d x y) st

/-- MULHN (R241). -/
def execMulhn (d : BitVec 6) (x : BitVec 6) (y : BitVec 6) (st : State) : Out :=
  onCore (.mulhn d x y) (alu2 mulHiN 3 d x y) st

/-- DIV (R242). -/
def execDiv (d : BitVec 6) (x : BitVec 6) (y : BitVec 6) (st : State) : Out :=
  onCore (.div d x y) (alu2 divS 18 d x y) st

/-- DIVN (R242). -/
def execDivn (d : BitVec 6) (x : BitVec 6) (y : BitVec 6) (st : State) : Out :=
  onCore (.divn d x y) (alu2 divN 18 d x y) st

/-- AND (R241). -/
def execAnd (d : BitVec 6) (x : BitVec 6) (y : BitVec 6) (st : State) : Out :=
  onCore (.and d x y) (alu2 (fun a b => a &&& b) 1 d x y) st

/-- OR (R241). -/
def execOr (d : BitVec 6) (x : BitVec 6) (y : BitVec 6) (st : State) : Out :=
  onCore (.or d x y) (alu2 (fun a b => a ||| b) 1 d x y) st

/-- XOR (R241). -/
def execXor (d : BitVec 6) (x : BitVec 6) (y : BitVec 6) (st : State) : Out :=
  onCore (.xor d x y) (alu2 (fun a b => a ^^^ b) 1 d x y) st

/-- ANDN (R241). -/
def execAndn (d : BitVec 6) (x : BitVec 6) (y : BitVec 6) (st : State) : Out :=
  onCore (.andn d x y) (alu2 (fun a b => a &&& ~~~ b) 1 d x y) st

/-- ANDI (R241). -/
def execAndi (d : BitVec 6) (x : BitVec 6) (i : BitVec 12) (st : State) : Out :=
  onCore (.andi d x i) (alu1 (fun a => a &&& i.setWidth 64) d x) st

/-- ORI (R241). -/
def execOri (d : BitVec 6) (x : BitVec 6) (i : BitVec 12) (st : State) : Out :=
  onCore (.ori d x i) (alu1 (fun a => a ||| i.setWidth 64) d x) st

/-- XORI (R241). -/
def execXori (d : BitVec 6) (x : BitVec 6) (i : BitVec 12) (st : State) : Out :=
  onCore (.xori d x i) (alu1 (fun a => a ^^^ i.setWidth 64) d x) st

/-- SHL (R241). -/
def execShl (d : BitVec 6) (x : BitVec 6) (y : BitVec 6) (st : State) : Out :=
  onCore (.shl d x y) (alu2 (fun a b => a <<< shAmt b) 1 d x y) st

/-- SHR (R241). -/
def execShr (d : BitVec 6) (x : BitVec 6) (y : BitVec 6) (st : State) : Out :=
  onCore (.shr d x y) (alu2 (fun a b => a >>> shAmt b) 1 d x y) st

/-- SAR (R241). -/
def execSar (d : BitVec 6) (x : BitVec 6) (y : BitVec 6) (st : State) : Out :=
  onCore (.sar d x y) (alu2 (fun a b => a.sshiftRight (shAmt b)) 1 d x y) st

/-- ROL (R241). -/
def execRol (d : BitVec 6) (x : BitVec 6) (y : BitVec 6) (st : State) : Out :=
  onCore (.rol d x y) (alu2 (fun a b => a.rotateLeft (shAmt b)) 1 d x y) st

/-- SHLI (R241). -/
def execShli (d : BitVec 6) (x : BitVec 6) (a : BitVec 6) (st : State) : Out :=
  onCore (.shli d x a) (alu1 (fun v => v <<< a.toNat) d x) st

/-- SHRI (R241). -/
def execShri (d : BitVec 6) (x : BitVec 6) (a : BitVec 6) (st : State) : Out :=
  onCore (.shri d x a) (alu1 (fun v => v >>> a.toNat) d x) st

/-- SARI (R241). -/
def execSari (d : BitVec 6) (x : BitVec 6) (a : BitVec 6) (st : State) : Out :=
  onCore (.sari d x a) (alu1 (fun v => v.sshiftRight a.toNat) d x) st

/-- CMP (R241). -/
def execCmp (d : BitVec 6) (x : BitVec 6) (y : BitVec 6) (n : BitVec 1) (st : State) : Out :=
  onCore (.cmp d x y n) (alu2 (fun a b => cmpW (if n = 1 then decide (a.toNat < b.toNat) else decide (a.toInt < b.toInt)) (a == b)) 1 d x y) st

/-- CMPI (R241). -/
def execCmpi (d : BitVec 6) (x : BitVec 6) (i : BitVec 12) (st : State) : Out :=
  onCore (.cmpi d x i) (alu1 (fun a => cmpW (decide (a.toInt < (imm12 i).toInt)) (a == imm12 i)) d x) st

/-- MIN (R241). -/
def execMin (d : BitVec 6) (x : BitVec 6) (y : BitVec 6) (st : State) : Out :=
  onCore (.min d x y) (alu2 (fun a b => if a.toInt ≤ b.toInt then a else b) 1 d x y) st

/-- MAX (R241). -/
def execMax (d : BitVec 6) (x : BitVec 6) (y : BitVec 6) (st : State) : Out :=
  onCore (.max d x y) (alu2 (fun a b => if a.toInt ≤ b.toInt then b else a) 1 d x y) st

/-- MINN (R241). -/
def execMinn (d : BitVec 6) (x : BitVec 6) (y : BitVec 6) (st : State) : Out :=
  onCore (.minn d x y) (alu2 (fun a b => if a.toNat ≤ b.toNat then a else b) 1 d x y) st

/-- MAXN (R241). -/
def execMaxn (d : BitVec 6) (x : BitVec 6) (y : BitVec 6) (st : State) : Out :=
  onCore (.maxn d x y) (alu2 (fun a b => if a.toNat ≤ b.toNat then b else a) 1 d x y) st

/-- SEL (R241). -/
def execSel (d : BitVec 6) (x : BitVec 6) (y : BitVec 6) (s : BitVec 6) (st : State) : Out :=
  onCore (.sel d x y s) (opSel d x y s) st

/-- MOVI (R241). -/
def execMovi (d : BitVec 6) (i : BitVec 18) (st : State) : Out :=
  onCore (.movi d i) (opMovi d i) st

/-- LUI (R241). -/
def execLui (d : BitVec 6) (i : BitVec 18) (st : State) : Out :=
  onCore (.lui d i) (opLui d i) st

/-- CLZ (R241). -/
def execClz (d : BitVec 6) (x : BitVec 6) (st : State) : Out :=
  onCore (.clz d x) (alu1 (fun a => BitVec.ofNat 64 (clzN 64 a.toNat)) d x) st

/-- CTZ (R241). -/
def execCtz (d : BitVec 6) (x : BitVec 6) (st : State) : Out :=
  onCore (.ctz d x) (alu1 (fun a => BitVec.ofNat 64 (ctzN 64 a.toNat)) d x) st

/-- POPC (R241). -/
def execPopc (d : BitVec 6) (x : BitVec 6) (st : State) : Out :=
  onCore (.popc d x) (alu1 (fun a => BitVec.ofNat 64 (popN 64 a.toNat)) d x) st

/-- BFX (R241). -/
def execBfx (d : BitVec 6) (x : BitVec 6) (p : BitVec 6) (l : BitVec 6) (st : State) : Out :=
  onCore (.bfx d x p l) (alu1 (fun a => bfxW a p.toNat (l.toNat + 1)) d x) st

/-- BFI (R241). -/
def execBfi (d : BitVec 6) (x : BitVec 6) (p : BitVec 6) (l : BitVec 6) (st : State) : Out :=
  onCore (.bfi d x p l) (opBfi d x p l) st

/-- ADDA (R243). -/
def execAdda (d : BitVec 4) (x : BitVec 4) (i : BitVec 12) (st : State) : Out :=
  onCore (.adda d x i) (opAdda d x i) st

/-- MVA (R243). -/
def execMva (d : BitVec 4) (x : BitVec 6) (st : State) : Out :=
  onCore (.mva d x) (opMva d x) st

/-- MVS (R243). -/
def execMvs (d : BitVec 6) (x : BitVec 4) (st : State) : Out :=
  onCore (.mvs d x) (opMvs d x) st

/-- SPLD (R117). -/
def execSpld (d : BitVec 6) (o : BitVec 12) (st : State) : Out :=
  onCore (.spld d o) (opSpld d o) st

/-- SPST (R117). -/
def execSpst (d : BitVec 6) (o : BitVec 12) (st : State) : Out :=
  onCore (.spst d o) (opSpst d o) st

/-- FADD (R244). -/
def execFadd (d : BitVec 6) (x : BitVec 6) (y : BitVec 6) (st : State) : Out :=
  onCore (.fadd d x y) (fop2 (fpAdd fmt32) 4 d x y) st

/-- FSUB (R244). -/
def execFsub (d : BitVec 6) (x : BitVec 6) (y : BitVec 6) (st : State) : Out :=
  onCore (.fsub d x y) (fop2 (fpSub fmt32) 4 d x y) st

/-- FMUL (R244). -/
def execFmul (d : BitVec 6) (x : BitVec 6) (y : BitVec 6) (st : State) : Out :=
  onCore (.fmul d x y) (fop2 (fpMul fmt32) 4 d x y) st

/-- FMA (R244). -/
def execFma (d : BitVec 6) (x : BitVec 6) (y : BitVec 6) (z : BitVec 6) (st : State) : Out :=
  onCore (.fma d x y z) (opFma d x y z) st

/-- FMIN (R244). -/
def execFmin (d : BitVec 6) (x : BitVec 6) (y : BitVec 6) (st : State) : Out :=
  onCore (.fmin d x y) (fop2 (fun a b => (fpMin fmt32 a b, fNone)) 1 d x y) st

/-- FMAX (R244). -/
def execFmax (d : BitVec 6) (x : BitVec 6) (y : BitVec 6) (st : State) : Out :=
  onCore (.fmax d x y) (fop2 (fun a b => (fpMax fmt32 a b, fNone)) 1 d x y) st

/-- FCMP (R244). -/
def execFcmp (d : BitVec 6) (x : BitVec 6) (y : BitVec 6) (c : BitVec 3) (st : State) : Out :=
  onCore (.fcmp d x y c) (opFcmp d x y c) st

/-- FCVT (R245). -/
def execFcvt (d : BitVec 6) (x : BitVec 6) (r : BitVec 1) (c : BitVec 5) (st : State) : Out :=
  onCore (.fcvt d x r c) (opFcvt d x r c) st

end Sys2Proof.Machine
end

