-- ==== Sys2Proof/Machine/ExecSort.lean ====
section
/-! DEFINITION. Meanings: The K class: lists, sampling and grammars (12). -/

namespace Sys2Proof.Machine

/-- KCLR (R305). -/
def execKclr (c : BitVec 3) (st : State) : Out :=
  onCore (.kclr c) (fun fo => kLane (.kclr c) fo (opKclr c fo)) st

/-- KMERGE (R306). -/
def execKmerge (c : BitVec 3) (g : BitVec 8) (a : BitVec 4) (m : BitVec 1) (st : State) : Out :=
  onCore (.kmerge c g a m) (fun fo => kLane (.kmerge c g a m) fo (opKmerge (.kmerge c g a m) g a m fo)) st

/-- KMERGEL (R306). -/
def execKmergel (c : BitVec 3) (g : BitVec 8) (a : BitVec 4) (m : BitVec 1) (st : State) : Out :=
  onCore (.kmergel c g a m) (fun fo => kLane (.kmergel c g a m) fo (opKmergel c g a m fo)) st

/-- KSORT (R308). -/
def execKsort (c : BitVec 3) (g : BitVec 8) (s : BitVec 1) (st : State) : Out :=
  onCore (.ksort c g s) (fun fo => kLane (.ksort c g s) fo (opKsort c g s fo)) st

/-- KTOP (R309). -/
def execKtop (c : BitVec 3) (g : BitVec 8) (i : BitVec 1) (st : State) : Out :=
  onCore (.ktop c g i) (fun fo => kLane (.ktop c g i) fo (opKtop c g i fo)) st

/-- KSAMP (R312). -/
def execKsamp (c : BitVec 3) (g : BitVec 8) (a : BitVec 4) (p : BitVec 2) (st : State) : Out :=
  onCore (.ksamp c g a p) (fun fo => kLane (.ksamp c g a p) fo (opKsamp (.ksamp c g a p) c g a p fo)) st

/-- KMASK (R307). -/
def execKmask (c : BitVec 3) (st : State) : Out :=
  onCore (.kmask c) (fun fo => kLane (.kmask c) fo (opKmask c fo)) st

/-- KSEND (R310): the lane first, then the route word and the tree (R301). -/
def execKsend (c : BitVec 3) (a : BitVec 4) (st : State) : Out :=
  onState (.ksend c a) (fun fo k => st.setCore fo.core (kLane (.ksend c a) fo (fun d =>
    if st.treeTakes d (rdA fo d a.toNat).toNat then opKsend c a fo d else takeTrap fo cPOSTTARGET 0 d) k)) st

/-- GSET_LD (R316). -/
def execGsetLd (a : BitVec 4) (st : State) : Out :=
  onCore (.gsetLd a) (fun fo => kLane (.gsetLd a) fo (opGsetRead (.gsetLd a) a fo)) st

/-- GSET_ST (R316). -/
def execGsetSt (a : BitVec 4) (st : State) : Out :=
  onCore (.gsetSt a) (fun fo => kLane (.gsetSt a) fo (opGsetSt (.gsetSt a) a fo)) st

/-- GSET_RS (R316). -/
def execGsetRs (a : BitVec 4) (st : State) : Out :=
  onCore (.gsetRs a) (fun fo => kLane (.gsetRs a) fo (opGsetRead (.gsetRs a) a fo)) st

/-- GSET_FL (R316). -/
def execGsetFl (st : State) : Out :=
  onCore (.gsetFl) (fun fo => kLane (.gsetFl) fo (opGsetFl fo)) st

/-- GSTEP (R318). -/
def execGstep (a : BitVec 4) (st : State) : Out :=
  onCore (.gstep a) (fun fo => kLane (.gstep a) fo (opGstep (.gstep a) a fo)) st

/-- GMASK (R317). -/
def execGmask (k : BitVec 3) (st : State) : Out :=
  onCore (.gmask k) (fun fo => kLane (.gmask k) fo (opGmask (.gmask k) k fo)) st

end Sys2Proof.Machine
end

