-- ==== Sys2Proof/Machine/ExecSync.lean ====
section
/-! DEFINITION. Meanings: The Y class: waits, posts, checkpoints (04 R132 to R137, 08, 15, 16). -/

namespace Sys2Proof.Machine

/-- FWAIT (R133). -/
def execFwait (f : BitVec 5) (n : BitVec 13) (st : State) : Out :=
  onCore (.fwait f n) (opFwait f n) st

/-- FPOST (R133). -/
def execFpost (f : BitVec 5) (n : BitVec 13) (st : State) : Out :=
  onCore (.fpost f n) (opFpost f n) st

/-- FPOSTX (R133). -/
def execFpostx (f : BitVec 5) (r : BitVec 6) (n : BitVec 7) (st : State) : Out :=
  onCore (.fpostx f r n) (opFpostx f r n) st

/-- TWAIT (R164). -/
def execTwait (t : BitVec 5) (r : BitVec 6) (st : State) : Out :=
  onCore (.twait t r) (fun fo k => waitOp (.twait t r) fo id k) st

/-- HWAIT (R127). -/
def execHwait (h : BitVec 4) (n : BitVec 13) (st : State) : Out :=
  onCore (.hwait h n) (fun fo k => waitOp (.hwait h n) fo id k) st

/-- HFREE (R127). -/
def execHfree (h : BitVec 4) (n : BitVec 13) (st : State) : Out :=
  onCore (.hfree h n) (fun fo k => waitOp (.hfree h n) fo id k) st

/-- HADV (R127). -/
def execHadv (h : BitVec 4) (s : BitVec 1) (c : BitVec 12) (st : State) : Out :=
  onCore (.hadv h s c) (opHadv h s c) st

/-- MWAIT (R135). -/
def execMwait (m : BitVec 5) (st : State) : Out :=
  onCore (.mwait m) (fun fo k => waitOp (.mwait m) fo id k) st

/-- LWAIT (R129). -/
def execLwait (n : BitVec 13) (st : State) : Out :=
  onCore (.lwait n) (fun fo k => waitOp (.lwait n) fo id k) st

/-- PHASE (R136). -/
def execPhase (st : State) : Out :=
  onCore (.phase) (fun fo k => waitOp (.phase) fo id k) st

/-- FENCE (R137). -/
def execFence (st : State) : Out :=
  onCore (.fence) (fun fo k => waitOp (.fence) fo id k) st

/-- CKPT (R381). -/
def execCkpt (st : State) : Out :=
  onCore (.ckpt) (fun _ k => opCkpt k) st

/-- CHK (R373). -/
def execChk (r : BitVec 5) (st : State) : Out :=
  onCore (.chk r) (opChk r) st

/-- BARA (R377). -/
def execBara (b : BitVec 5) (c : BitVec 3) (st : State) : Out :=
  onCore (.bara b c) (opBara b c) st

end Sys2Proof.Machine
end

