-- ==== Sys2Proof/Machine/ExecVec.lean ====
section
/-! DEFINITION. Meanings: The V class: vector, distribution and tap operations (10, 13, 14). -/

namespace Sys2Proof.Machine

/-- VADD (R266). -/
def execVadd (t : BitVec 3) (p : BitVec 2) (d : BitVec 9) (x : BitVec 9) (y : BitVec 9) (st : State) : Out :=
  onCore (.vadd t p d x y) (opV (.vadd t p d x y)) st

/-- VSUB (R266). -/
def execVsub (t : BitVec 3) (p : BitVec 2) (d : BitVec 9) (x : BitVec 9) (y : BitVec 9) (st : State) : Out :=
  onCore (.vsub t p d x y) (opV (.vsub t p d x y)) st

/-- VMUL (R266). -/
def execVmul (t : BitVec 3) (p : BitVec 2) (d : BitVec 9) (x : BitVec 9) (y : BitVec 9) (st : State) : Out :=
  onCore (.vmul t p d x y) (opV (.vmul t p d x y)) st

/-- VFMA (R266). -/
def execVfma (t : BitVec 3) (p : BitVec 2) (d : BitVec 9) (x : BitVec 9) (y : BitVec 9) (st : State) : Out :=
  onCore (.vfma t p d x y) (opV (.vfma t p d x y)) st

/-- VFMS (R266). -/
def execVfms (t : BitVec 3) (p : BitVec 2) (d : BitVec 9) (x : BitVec 9) (y : BitVec 9) (st : State) : Out :=
  onCore (.vfms t p d x y) (opV (.vfms t p d x y)) st

/-- VMIN (R266). -/
def execVmin (t : BitVec 3) (p : BitVec 2) (d : BitVec 9) (x : BitVec 9) (y : BitVec 9) (st : State) : Out :=
  onCore (.vmin t p d x y) (opV (.vmin t p d x y)) st

/-- VMAX (R266). -/
def execVmax (t : BitVec 3) (p : BitVec 2) (d : BitVec 9) (x : BitVec 9) (y : BitVec 9) (st : State) : Out :=
  onCore (.vmax t p d x y) (opV (.vmax t p d x y)) st

/-- VABS (R266). -/
def execVabs (t : BitVec 3) (p : BitVec 2) (d : BitVec 9) (x : BitVec 9) (st : State) : Out :=
  onCore (.vabs t p d x) (opV (.vabs t p d x)) st

/-- VNEG (R266). -/
def execVneg (t : BitVec 3) (p : BitVec 2) (d : BitVec 9) (x : BitVec 9) (st : State) : Out :=
  onCore (.vneg t p d x) (opV (.vneg t p d x)) st

/-- VCMP (R267). -/
def execVcmp (t : BitVec 3) (p : BitVec 2) (q : BitVec 2) (c : BitVec 3) (n : BitVec 1) (x : BitVec 9) (y : BitVec 9) (st : State) : Out :=
  onCore (.vcmp t p q c n x y) (opV (.vcmp t p q c n x y)) st

/-- VSEL (R268). -/
def execVsel (t : BitVec 3) (p : BitVec 2) (d : BitVec 9) (x : BitVec 9) (y : BitVec 9) (st : State) : Out :=
  onCore (.vsel t p d x y) (opV (.vsel t p d x y)) st

/-- VCVT (R269). -/
def execVcvt (t : BitVec 3) (p : BitVec 2) (d : BitVec 9) (x : BitVec 9) (f : BitVec 3) (n : BitVec 1) (z : BitVec 1) (s : BitVec 1) (st : State) : Out :=
  onCore (.vcvt t p d x f n z s) (opV (.vcvt t p d x f n z s)) st

/-- VAND (R271). -/
def execVand (t : BitVec 3) (p : BitVec 2) (d : BitVec 9) (x : BitVec 9) (y : BitVec 9) (st : State) : Out :=
  onCore (.vand t p d x y) (opV (.vand t p d x y)) st

/-- VOR (R271). -/
def execVor (t : BitVec 3) (p : BitVec 2) (d : BitVec 9) (x : BitVec 9) (y : BitVec 9) (st : State) : Out :=
  onCore (.vor t p d x y) (opV (.vor t p d x y)) st

/-- VXOR (R271). -/
def execVxor (t : BitVec 3) (p : BitVec 2) (d : BitVec 9) (x : BitVec 9) (y : BitVec 9) (st : State) : Out :=
  onCore (.vxor t p d x y) (opV (.vxor t p d x y)) st

/-- VSHL (R271). -/
def execVshl (t : BitVec 3) (p : BitVec 2) (d : BitVec 9) (x : BitVec 9) (y : BitVec 9) (st : State) : Out :=
  onCore (.vshl t p d x y) (opV (.vshl t p d x y)) st

/-- VSHR (R271). -/
def execVshr (t : BitVec 3) (p : BitVec 2) (d : BitVec 9) (x : BitVec 9) (y : BitVec 9) (st : State) : Out :=
  onCore (.vshr t p d x y) (opV (.vshr t p d x y)) st

/-- VSAR (R271). -/
def execVsar (t : BitVec 3) (p : BitVec 2) (d : BitVec 9) (x : BitVec 9) (y : BitVec 9) (st : State) : Out :=
  onCore (.vsar t p d x y) (opV (.vsar t p d x y)) st

/-- VRCP (R273). -/
def execVrcp (t : BitVec 3) (p : BitVec 2) (d : BitVec 9) (x : BitVec 9) (st : State) : Out :=
  onCore (.vrcp t p d x) (opV (.vrcp t p d x)) st

/-- VRSQ (R273). -/
def execVrsq (t : BitVec 3) (p : BitVec 2) (d : BitVec 9) (x : BitVec 9) (st : State) : Out :=
  onCore (.vrsq t p d x) (opV (.vrsq t p d x)) st

/-- VEXP2 (R274). -/
def execVexp2 (t : BitVec 3) (p : BitVec 2) (d : BitVec 9) (x : BitVec 9) (st : State) : Out :=
  onCore (.vexp2 t p d x) (opV (.vexp2 t p d x)) st

/-- VLOG2 (R275). -/
def execVlog2 (t : BitVec 3) (p : BitVec 2) (d : BitVec 9) (x : BitVec 9) (st : State) : Out :=
  onCore (.vlog2 t p d x) (opV (.vlog2 t p d x)) st

/-- VTANH (R276). -/
def execVtanh (t : BitVec 3) (p : BitVec 2) (d : BitVec 9) (x : BitVec 9) (st : State) : Out :=
  onCore (.vtanh t p d x) (opV (.vtanh t p d x)) st

/-- VRED (R277). -/
def execVred (t : BitVec 3) (p : BitVec 2) (d : BitVec 9) (x : BitVec 9) (o : BitVec 2) (n : BitVec 1) (st : State) : Out :=
  onCore (.vred t p d x o n) (opV (.vred t p d x o n)) st

/-- VSCAN (R278). -/
def execVscan (t : BitVec 3) (p : BitVec 2) (d : BitVec 9) (x : BitVec 9) (o : BitVec 2) (n : BitVec 1) (st : State) : Out :=
  onCore (.vscan t p d x o n) (opV (.vscan t p d x o n)) st

/-- VPERM (R279). -/
def execVperm (t : BitVec 3) (p : BitVec 2) (d : BitVec 9) (x : BitVec 9) (y : BitVec 9) (st : State) : Out :=
  onCore (.vperm t p d x y) (opV (.vperm t p d x y)) st

/-- VBC (R279). -/
def execVbc (t : BitVec 3) (p : BitVec 2) (d : BitVec 9) (x : BitVec 9) (l : BitVec 6) (st : State) : Out :=
  onCore (.vbc t p d x l) (opV (.vbc t p d x l)) st

/-- VIOTA (R279). -/
def execViota (t : BitVec 3) (p : BitVec 2) (d : BitVec 9) (st : State) : Out :=
  onCore (.viota t p d) (opV (.viota t p d)) st

/-- VMOV (R279). -/
def execVmov (t : BitVec 3) (p : BitVec 2) (d : BitVec 9) (x : BitVec 9) (st : State) : Out :=
  onCore (.vmov t p d x) (opV (.vmov t p d x)) st

/-- VRAND (R280). -/
def execVrand (t : BitVec 3) (p : BitVec 2) (d : BitVec 9) (x : BitVec 9) (y : BitVec 9) (st : State) : Out :=
  onCore (.vrand t p d x y) (opV (.vrand t p d x y)) st

/-- VCLAMP (R270). -/
def execVclamp (t : BitVec 3) (p : BitVec 2) (d : BitVec 9) (x : BitVec 9) (y : BitVec 9) (st : State) : Out :=
  onCore (.vclamp t p d x y) (opV (.vclamp t p d x y)) st

/-- VPACK (R281). -/
def execVpack (t : BitVec 3) (p : BitVec 2) (d : BitVec 9) (x : BitVec 9) (f : BitVec 3) (n : BitVec 1) (z : BitVec 1) (s : BitVec 1) (st : State) : Out :=
  onCore (.vpack t p d x f n z s) (opV (.vpack t p d x f n z s)) st

/-- VUNPK (R282). -/
def execVunpk (t : BitVec 3) (p : BitVec 2) (d : BitVec 9) (x : BitVec 9) (f : BitVec 3) (n : BitVec 1) (z : BitVec 1) (s : BitVec 1) (st : State) : Out :=
  onCore (.vunpk t p d x f n z s) (opV (.vunpk t p d x f n z s)) st

/-- BADDQ (R283). -/
def execBaddq (t : BitVec 3) (p : BitVec 2) (d : BitVec 9) (x : BitVec 9) (y : BitVec 9) (st : State) : Out :=
  onCore (.baddq t p d x y) (opV (.baddq t p d x y)) st

/-- TAP (R347). -/
def execTap (t : BitVec 3) (p : BitVec 2) (x : BitVec 9) (r : BitVec 6) (st : State) : Out :=
  onCore (.tap t p x r) (opV (.tap t p x r)) st

/-- TAPFIN (R348). -/
def execTapfin (t : BitVec 3) (p : BitVec 2) (d : BitVec 9) (r : BitVec 6) (st : State) : Out :=
  onCore (.tapfin t p d r) (opV (.tapfin t p d r)) st

/-- VSTEER (R349). -/
def execVsteer (t : BitVec 3) (p : BitVec 2) (d : BitVec 9) (x : BitVec 9) (r : BitVec 6) (st : State) : Out :=
  onCore (.vsteer t p d x r) (opV (.vsteer t p d x r)) st

/-- QSET (R329). -/
def execQset (t : BitVec 3) (p : BitVec 2) (d : BitVec 4) (x : BitVec 9) (y : BitVec 9) (st : State) : Out :=
  onCore (.qset t p d x y) (opV (.qset t p d x y)) st

/-- QADD (R330). -/
def execQadd (t : BitVec 3) (p : BitVec 2) (d : BitVec 4) (x : BitVec 4) (y : BitVec 4) (st : State) : Out :=
  onCore (.qadd t p d x y) (opV (.qadd t p d x y)) st

/-- QMUL (R330). -/
def execQmul (t : BitVec 3) (p : BitVec 2) (d : BitVec 4) (x : BitVec 4) (y : BitVec 4) (st : State) : Out :=
  onCore (.qmul t p d x y) (opV (.qmul t p d x y)) st

/-- QSCALE (R331). -/
def execQscale (t : BitVec 3) (p : BitVec 2) (d : BitVec 4) (x : BitVec 4) (y : BitVec 9) (st : State) : Out :=
  onCore (.qscale t p d x y) (opV (.qscale t p d x y)) st

/-- QSHIFT (R331). -/
def execQshift (t : BitVec 3) (p : BitVec 2) (d : BitVec 4) (x : BitVec 4) (y : BitVec 9) (st : State) : Out :=
  onCore (.qshift t p d x y) (opV (.qshift t p d x y)) st

/-- QMIX (R332). -/
def execQmix (t : BitVec 3) (p : BitVec 2) (d : BitVec 4) (x : BitVec 4) (y : BitVec 9) (st : State) : Out :=
  onCore (.qmix t p d x y) (opV (.qmix t p d x y)) st

/-- QCOND (R333). -/
def execQcond (t : BitVec 3) (p : BitVec 2) (d : BitVec 4) (x : BitVec 4) (n : BitVec 3) (st : State) : Out :=
  onCore (.qcond t p d x n) (opV (.qcond t p d x n)) st

/-- QMOM (R337). -/
def execQmom (t : BitVec 3) (p : BitVec 2) (d : BitVec 9) (x : BitVec 4) (s : BitVec 2) (st : State) : Out :=
  onCore (.qmom t p d x s) (opV (.qmom t p d x s)) st

/-- QQUANT (R338). -/
def execQquant (t : BitVec 3) (p : BitVec 2) (d : BitVec 9) (x : BitVec 4) (y : BitVec 9) (st : State) : Out :=
  onCore (.qquant t p d x y) (opV (.qquant t p d x y)) st

/-- QTAG (R334). -/
def execQtag (t : BitVec 3) (p : BitVec 2) (d : BitVec 4) (m : BitVec 16) (st : State) : Out :=
  onCore (.qtag t p d m) (opV (.qtag t p d m)) st

/-- QSAMP (R338). -/
def execQsamp (t : BitVec 3) (p : BitVec 2) (d : BitVec 9) (x : BitVec 4) (y : BitVec 9) (st : State) : Out :=
  onCore (.qsamp t p d x y) (opV (.qsamp t p d x y)) st

end Sys2Proof.Machine
end

