-- ==== Sys2Proof/Machine/Dispatch.lean ====
section
/-! DEFINITION. The meaning of every instruction, one arm each. -/

namespace Sys2Proof.Machine

def exec (i : Instr) (s : State) : Host.Outcome State Fault Refusal :=
  match i with
  | .add d x y => Sys2Proof.Machine.execAdd d x y s
  | .sub d x y => Sys2Proof.Machine.execSub d x y s
  | .addi d x im => Sys2Proof.Machine.execAddi d x im s
  | .addsh d x y sf => Sys2Proof.Machine.execAddsh d x y sf s
  | .mul d x y => Sys2Proof.Machine.execMul d x y s
  | .mulh d x y => Sys2Proof.Machine.execMulh d x y s
  | .mulhn d x y => Sys2Proof.Machine.execMulhn d x y s
  | .div d x y => Sys2Proof.Machine.execDiv d x y s
  | .divn d x y => Sys2Proof.Machine.execDivn d x y s
  | .and d x y => Sys2Proof.Machine.execAnd d x y s
  | .or d x y => Sys2Proof.Machine.execOr d x y s
  | .xor d x y => Sys2Proof.Machine.execXor d x y s
  | .andn d x y => Sys2Proof.Machine.execAndn d x y s
  | .andi d x im => Sys2Proof.Machine.execAndi d x im s
  | .ori d x im => Sys2Proof.Machine.execOri d x im s
  | .xori d x im => Sys2Proof.Machine.execXori d x im s
  | .shl d x y => Sys2Proof.Machine.execShl d x y s
  | .shr d x y => Sys2Proof.Machine.execShr d x y s
  | .sar d x y => Sys2Proof.Machine.execSar d x y s
  | .rol d x y => Sys2Proof.Machine.execRol d x y s
  | .shli d x a => Sys2Proof.Machine.execShli d x a s
  | .shri d x a => Sys2Proof.Machine.execShri d x a s
  | .sari d x a => Sys2Proof.Machine.execSari d x a s
  | .cmp d x y n => Sys2Proof.Machine.execCmp d x y n s
  | .cmpi d x im => Sys2Proof.Machine.execCmpi d x im s
  | .min d x y => Sys2Proof.Machine.execMin d x y s
  | .max d x y => Sys2Proof.Machine.execMax d x y s
  | .minn d x y => Sys2Proof.Machine.execMinn d x y s
  | .maxn d x y => Sys2Proof.Machine.execMaxn d x y s
  | .sel d x y sf => Sys2Proof.Machine.execSel d x y sf s
  | .movi d im => Sys2Proof.Machine.execMovi d im s
  | .lui d im => Sys2Proof.Machine.execLui d im s
  | .clz d x => Sys2Proof.Machine.execClz d x s
  | .ctz d x => Sys2Proof.Machine.execCtz d x s
  | .popc d x => Sys2Proof.Machine.execPopc d x s
  | .bfx d x p l => Sys2Proof.Machine.execBfx d x p l s
  | .bfi d x p l => Sys2Proof.Machine.execBfi d x p l s
  | .adda d x im => Sys2Proof.Machine.execAdda d x im s
  | .mva d x => Sys2Proof.Machine.execMva d x s
  | .mvs d x => Sys2Proof.Machine.execMvs d x s
  | .spld d o => Sys2Proof.Machine.execSpld d o s
  | .spst d o => Sys2Proof.Machine.execSpst d o s
  | .fadd d x y => Sys2Proof.Machine.execFadd d x y s
  | .fsub d x y => Sys2Proof.Machine.execFsub d x y s
  | .fmul d x y => Sys2Proof.Machine.execFmul d x y s
  | .fma d x y z => Sys2Proof.Machine.execFma d x y z s
  | .fmin d x y => Sys2Proof.Machine.execFmin d x y s
  | .fmax d x y => Sys2Proof.Machine.execFmax d x y s
  | .fcmp d x y c => Sys2Proof.Machine.execFcmp d x y c s
  | .fcvt d x r c => Sys2Proof.Machine.execFcvt d x r c s
  | .mfc d n => Sys2Proof.Machine.execMfc d n s
  | .mtc d n => Sys2Proof.Machine.execMtc d n s
  | .rdt d f => Sys2Proof.Machine.execRdt d f s
  | .takem d m => Sys2Proof.Machine.execTakem d m s
  | .br c p o => Sys2Proof.Machine.execBr c p o s
  | .brz x o => Sys2Proof.Machine.execBrz x o s
  | .brnz x o => Sys2Proof.Machine.execBrnz x o s
  | .jmp x => Sys2Proof.Machine.execJmp x s
  | .call o => Sys2Proof.Machine.execCall o s
  | .loop l o => Sys2Proof.Machine.execLoop l o s
  | .rep r n c => Sys2Proof.Machine.execRep r n c s
  | .halt m => Sys2Proof.Machine.execHalt m s
  | .start d h e => Sys2Proof.Machine.execStart d h e s
  | .trap d c => Sys2Proof.Machine.execTrap d c s
  | .ld d x w im => Sys2Proof.Machine.execLd d x w im s
  | .st d x w im => Sys2Proof.Machine.execSt d x w im s
  | .ldacq d x im => Sys2Proof.Machine.execLdacq d x im s
  | .strel d x im => Sys2Proof.Machine.execStrel d x im s
  | .xld d x w im => Sys2Proof.Machine.execXld d x w im s
  | .xst d x w im => Sys2Proof.Machine.execXst d x w im s
  | .vld g a k d => Sys2Proof.Machine.execVld g a k d s
  | .vst g a k d => Sys2Proof.Machine.execVst g a k d s
  | .vldx g a im => Sys2Proof.Machine.execVldx g a im s
  | .vstx g a im => Sys2Proof.Machine.execVstx g a im s
  | .gld d x w im => Sys2Proof.Machine.execGld d x w im s
  | .gst d x w im => Sys2Proof.Machine.execGst d x w im s
  | .gatom d x y o f => Sys2Proof.Machine.execGatom d x y o f s
  | .cinv x im => Sys2Proof.Machine.execCinv x im s
  | .cclean x im => Sys2Proof.Machine.execCclean x im s
  | .qld r a k => Sys2Proof.Machine.execQld r a k s
  | .qst r a k => Sys2Proof.Machine.execQst r a k s
  | .kld r a k => Sys2Proof.Machine.execKld r a k s
  | .kst r a k => Sys2Proof.Machine.execKst r a k s
  | .lift g => Sys2Proof.Machine.execLift g s
  | .lpop g => Sys2Proof.Machine.execLpop g s
  | .hpush g h => Sys2Proof.Machine.execHpush g h s
  | .hpop g h => Sys2Proof.Machine.execHpop g h s
  | .vadd t p d x y => Sys2Proof.Machine.execVadd t p d x y s
  | .vsub t p d x y => Sys2Proof.Machine.execVsub t p d x y s
  | .vmul t p d x y => Sys2Proof.Machine.execVmul t p d x y s
  | .vfma t p d x y => Sys2Proof.Machine.execVfma t p d x y s
  | .vfms t p d x y => Sys2Proof.Machine.execVfms t p d x y s
  | .vmin t p d x y => Sys2Proof.Machine.execVmin t p d x y s
  | .vmax t p d x y => Sys2Proof.Machine.execVmax t p d x y s
  | .vabs t p d x => Sys2Proof.Machine.execVabs t p d x s
  | .vneg t p d x => Sys2Proof.Machine.execVneg t p d x s
  | .vcmp t p q c n x y => Sys2Proof.Machine.execVcmp t p q c n x y s
  | .vsel t p d x y => Sys2Proof.Machine.execVsel t p d x y s
  | .vcvt t p d x f n z sf => Sys2Proof.Machine.execVcvt t p d x f n z sf s
  | .vand t p d x y => Sys2Proof.Machine.execVand t p d x y s
  | .vor t p d x y => Sys2Proof.Machine.execVor t p d x y s
  | .vxor t p d x y => Sys2Proof.Machine.execVxor t p d x y s
  | .vshl t p d x y => Sys2Proof.Machine.execVshl t p d x y s
  | .vshr t p d x y => Sys2Proof.Machine.execVshr t p d x y s
  | .vsar t p d x y => Sys2Proof.Machine.execVsar t p d x y s
  | .vrcp t p d x => Sys2Proof.Machine.execVrcp t p d x s
  | .vrsq t p d x => Sys2Proof.Machine.execVrsq t p d x s
  | .vexp2 t p d x => Sys2Proof.Machine.execVexp2 t p d x s
  | .vlog2 t p d x => Sys2Proof.Machine.execVlog2 t p d x s
  | .vtanh t p d x => Sys2Proof.Machine.execVtanh t p d x s
  | .vred t p d x o n => Sys2Proof.Machine.execVred t p d x o n s
  | .vscan t p d x o n => Sys2Proof.Machine.execVscan t p d x o n s
  | .vperm t p d x y => Sys2Proof.Machine.execVperm t p d x y s
  | .vbc t p d x l => Sys2Proof.Machine.execVbc t p d x l s
  | .viota t p d => Sys2Proof.Machine.execViota t p d s
  | .vmov t p d x => Sys2Proof.Machine.execVmov t p d x s
  | .vrand t p d x y => Sys2Proof.Machine.execVrand t p d x y s
  | .vclamp t p d x y => Sys2Proof.Machine.execVclamp t p d x y s
  | .vpack t p d x f n z sf => Sys2Proof.Machine.execVpack t p d x f n z sf s
  | .vunpk t p d x f n z sf => Sys2Proof.Machine.execVunpk t p d x f n z sf s
  | .baddq t p d x y => Sys2Proof.Machine.execBaddq t p d x y s
  | .tap t p x r => Sys2Proof.Machine.execTap t p x r s
  | .tapfin t p d r => Sys2Proof.Machine.execTapfin t p d r s
  | .vsteer t p d x r => Sys2Proof.Machine.execVsteer t p d x r s
  | .qset t p d x y => Sys2Proof.Machine.execQset t p d x y s
  | .qadd t p d x y => Sys2Proof.Machine.execQadd t p d x y s
  | .qmul t p d x y => Sys2Proof.Machine.execQmul t p d x y s
  | .qscale t p d x y => Sys2Proof.Machine.execQscale t p d x y s
  | .qshift t p d x y => Sys2Proof.Machine.execQshift t p d x y s
  | .qmix t p d x y => Sys2Proof.Machine.execQmix t p d x y s
  | .qcond t p d x n => Sys2Proof.Machine.execQcond t p d x n s
  | .qmom t p d x sf => Sys2Proof.Machine.execQmom t p d x sf s
  | .qquant t p d x y => Sys2Proof.Machine.execQquant t p d x y s
  | .qtag t p d m => Sys2Proof.Machine.execQtag t p d m s
  | .qsamp t p d x y => Sys2Proof.Machine.execQsamp t p d x y s
  | .kclr c => Sys2Proof.Machine.execKclr c s
  | .kmerge c g a m => Sys2Proof.Machine.execKmerge c g a m s
  | .kmergel c g a m => Sys2Proof.Machine.execKmergel c g a m s
  | .ksort c g sf => Sys2Proof.Machine.execKsort c g sf s
  | .ktop c g im => Sys2Proof.Machine.execKtop c g im s
  | .ksamp c g a p => Sys2Proof.Machine.execKsamp c g a p s
  | .kmask c => Sys2Proof.Machine.execKmask c s
  | .ksend c a => Sys2Proof.Machine.execKsend c a s
  | .gsetLd a => Sys2Proof.Machine.execGsetLd a s
  | .gsetSt a => Sys2Proof.Machine.execGsetSt a s
  | .gsetRs a => Sys2Proof.Machine.execGsetRs a s
  | .gstep a => Sys2Proof.Machine.execGstep a s
  | .gmask k => Sys2Proof.Machine.execGmask k s
  | .mmul x y z l b => Sys2Proof.Machine.execMmul x y z l b s
  | .mdrain x y z b => Sys2Proof.Machine.execMdrain x y z b s
  | .bfill x y z => Sys2Proof.Machine.execBfill x y z s
  | .mcode x => Sys2Proof.Machine.execMcode x s
  | .swap x y z => Sys2Proof.Machine.execSwap x y z s
  | .cpy x y z q => Sys2Proof.Machine.execCpy x y z q s
  | .cpyt x z q => Sys2Proof.Machine.execCpyt x z q s
  | .cgath x z q => Sys2Proof.Machine.execCgath x z q s
  | .cscat x z q => Sys2Proof.Machine.execCscat x z q s
  | .cseal x q => Sys2Proof.Machine.execCseal x q s
  | .ctime x q => Sys2Proof.Machine.execCtime x q s
  | .cnext x y z q l b => Sys2Proof.Machine.execCnext x y z q l b s
  | .sendm x y m => Sys2Proof.Machine.execSendm x y m s
  | .eqry x y => Sys2Proof.Machine.execEqry x y s
  | .fwait f n => Sys2Proof.Machine.execFwait f n s
  | .fpost f n => Sys2Proof.Machine.execFpost f n s
  | .fpostx f r n => Sys2Proof.Machine.execFpostx f r n s
  | .twait t r => Sys2Proof.Machine.execTwait t r s
  | .hwait h n => Sys2Proof.Machine.execHwait h n s
  | .hfree h n => Sys2Proof.Machine.execHfree h n s
  | .hadv h sf c => Sys2Proof.Machine.execHadv h sf c s
  | .mwait m => Sys2Proof.Machine.execMwait m s
  | .lwait n => Sys2Proof.Machine.execLwait n s
  | .chk r => Sys2Proof.Machine.execChk r s
  | .bara b c => Sys2Proof.Machine.execBara b c s
  | .helperBundleIllegal core h => Sys2Proof.Machine.execHelperBundleIllegal core h s
  | .storageError core row unc loc => Sys2Proof.Machine.execStorageError core row unc loc s
  | .hctlFree core h => Sys2Proof.Machine.execHctlFree core h s
  | .histselClr core tid => Sys2Proof.Machine.execHistselClr core tid s
  | .egraphWrite core v => Sys2Proof.Machine.execEgraphWrite core v s
  | .bqtake gw d => Sys2Proof.Machine.execBqtake gw d s
  | .registerWrite off v => Sys2Proof.Machine.execRegisterWrite off v s
  | .homeRead id => Sys2Proof.Machine.execHomeRead id s
  | .homeWrite id => Sys2Proof.Machine.execHomeWrite id s
  | .homeAtomic id => Sys2Proof.Machine.execHomeAtomic id s
  | .globalReadReturn id => Sys2Proof.Machine.execGlobalReadReturn id s
  | .pageWalk agent ctx va write atomic => Sys2Proof.Machine.execPageWalk agent ctx va write atomic s
  | .retry entry => Sys2Proof.Machine.execRetry entry s
  | .abandon entry => Sys2Proof.Machine.execAbandon entry s
  | .tinvPage ctx va => Sys2Proof.Machine.execTinvPage ctx va s
  | .tinvContext ctx => Sys2Proof.Machine.execTinvContext ctx s
  | .fwCtlWrite w v => Sys2Proof.Machine.execFwCtlWrite w v s
  | .legdataWrite v => Sys2Proof.Machine.execLegdataWrite v s
  | .flagPostArrival src core f n => Sys2Proof.Machine.execFlagPostArrival src core f n s
  | .mailboxArrival src core m v => Sys2Proof.Machine.execMailboxArrival src core m v s
  | .mailboxPortWrite src core m v => Sys2Proof.Machine.execMailboxPortWrite src core m v s
  | .handleAdvanceArrival src core h prod n => Sys2Proof.Machine.execHandleAdvanceArrival src core h prod n s
  | .clusterWindowStore src core addr data => Sys2Proof.Machine.execClusterWindowStore src core addr data s
  | .gatewayWindowAccess gw off write v => Sys2Proof.Machine.execGatewayWindowAccess gw off write v s
  | .copyCommandStart core q => Sys2Proof.Machine.execCopyCommandStart core q s
  | .copyBurst core q => Sys2Proof.Machine.execCopyBurst core q s
  | .copyCommandComplete core q => Sys2Proof.Machine.execCopyCommandComplete core q s
  | .timedCommandDue core q => Sys2Proof.Machine.execTimedCommandDue core q s
  | .queueStop core q => Sys2Proof.Machine.execQueueStop core q s
  | .stageRelease launch => Sys2Proof.Machine.execStageRelease launch s
  | .launchComplete launch => Sys2Proof.Machine.execLaunchComplete launch s
  | .preemptionEnd launch => Sys2Proof.Machine.execPreemptionEnd launch s
  | .killComplete ctx => Sys2Proof.Machine.execKillComplete ctx s
  | .replayPass launch => Sys2Proof.Machine.execReplayPass launch s
  | .swapOut ctx slot => Sys2Proof.Machine.execSwapOut ctx slot s
  | .swapIn entry => Sys2Proof.Machine.execSwapIn entry s
  | .barrierArrival b n => Sys2Proof.Machine.execBarrierArrival b n s
  | .encodeJobStart e => Sys2Proof.Machine.execEncodeJobStart e s
  | .encodeJobComplete e => Sys2Proof.Machine.execEncodeJobComplete e s
  | .hostHalt b v => Sys2Proof.Machine.execHostHalt b v s
  | .resume b v => Sys2Proof.Machine.execResume b v s
  | .jobstep b v => Sys2Proof.Machine.execJobstep b v s
  | .corestep b v => Sys2Proof.Machine.execCorestep b v s
  | .clearcause b v => Sys2Proof.Machine.execClearcause b v s
  | .shtrig v => Sys2Proof.Machine.execShtrig v s
  | .frdata die => Sys2Proof.Machine.execFrdata die s
  | .linkFlitReceive port good => Sys2Proof.Machine.execLinkFlitReceive port good s
  | .linkDown port => Sys2Proof.Machine.execLinkDown port s
  | .linkUp port peer => Sys2Proof.Machine.execLinkUp port peer s
  | .graticuleDiscipline port stamp => Sys2Proof.Machine.execGraticuleDiscipline port stamp s
  | .plan slot v => Sys2Proof.Machine.execPlan slot v s
  | .planLate slot => Sys2Proof.Machine.execPlanLate slot s
  | .planPhase slot phase => Sys2Proof.Machine.execPlanPhase slot phase s
  | .planComplete slot => Sys2Proof.Machine.execPlanComplete slot s
  | .treeset v => Sys2Proof.Machine.execTreeset v s
  | .treeNodeInput tree node data => Sys2Proof.Machine.execTreeNodeInput tree node data s
  | .treeRootDelivery tree => Sys2Proof.Machine.execTreeRootDelivery tree s
  | .dispatchDelivery group ex data => Sys2Proof.Machine.execDispatchDelivery group ex data s
  | .streamEnable stream v => Sys2Proof.Machine.execStreamEnable stream v s
  | .streamDisable stream v => Sys2Proof.Machine.execStreamDisable stream v s
  | .resetRungComplete rung => Sys2Proof.Machine.execResetRungComplete rung s
  | .clusterPowerUp cluster => Sys2Proof.Machine.execClusterPowerUp cluster s
  | .attreq v => Sys2Proof.Machine.execAttreq v s
  | .thermalTrip stack => Sys2Proof.Machine.execThermalTrip stack s
  | .updomClose cluster => Sys2Proof.Machine.execUpdomClose cluster s
  | .updomOpen cluster => Sys2Proof.Machine.execUpdomOpen cluster s
  | .domainClose cluster => Sys2Proof.Machine.execDomainClose cluster s
  | .domainOpened cluster => Sys2Proof.Machine.execDomainOpened cluster s
  | .cxlCacheSnoop line inv => Sys2Proof.Machine.execCxlCacheSnoop line inv s
  | .nilI => Sys2Proof.Machine.execNilI s
  | .nilM => Sys2Proof.Machine.execNilM s
  | .nilV => Sys2Proof.Machine.execNilV s
  | .nilK => Sys2Proof.Machine.execNilK s
  | .nilE => Sys2Proof.Machine.execNilE s
  | .nilY => Sys2Proof.Machine.execNilY s
  | .holdI => Sys2Proof.Machine.execHoldI s
  | .holdM => Sys2Proof.Machine.execHoldM s
  | .holdV => Sys2Proof.Machine.execHoldV s
  | .holdK => Sys2Proof.Machine.execHoldK s
  | .holdE => Sys2Proof.Machine.execHoldE s
  | .holdY => Sys2Proof.Machine.execHoldY s
  | .gsetFl => Sys2Proof.Machine.execGsetFl s
  | .phase => Sys2Proof.Machine.execPhase s
  | .fence => Sys2Proof.Machine.execFence s
  | .ckpt => Sys2Proof.Machine.execCkpt s
  | .deferredTrap => Sys2Proof.Machine.execDeferredTrap s
  | .rollbackRestoreEnd => Sys2Proof.Machine.execRollbackRestoreEnd s
  | .corePartEnd => Sys2Proof.Machine.execCorePartEnd s
  | .inboxpop => Sys2Proof.Machine.execInboxpop s
  | .gwtlinc => Sys2Proof.Machine.execGwtlinc s
  | .storeBufferDrain => Sys2Proof.Machine.execStoreBufferDrain s
  | .faultRecordDeferred => Sys2Proof.Machine.execFaultRecordDeferred s
  | .tinvAll => Sys2Proof.Machine.execTinvAll s
  | .tinvComplete => Sys2Proof.Machine.execTinvComplete s
  | .legdataRead => Sys2Proof.Machine.execLegdataRead s
  | .mmulStart => Sys2Proof.Machine.execMmulStart s
  | .mmulComplete => Sys2Proof.Machine.execMmulComplete s
  | .mcodeStart => Sys2Proof.Machine.execMcodeStart s
  | .mcodeComplete => Sys2Proof.Machine.execMcodeComplete s
  | .bfillStart => Sys2Proof.Machine.execBfillStart s
  | .bfillComplete => Sys2Proof.Machine.execBfillComplete s
  | .mdrainStart => Sys2Proof.Machine.execMdrainStart s
  | .mdrainComplete => Sys2Proof.Machine.execMdrainComplete s
  | .swapExchangeStart => Sys2Proof.Machine.execSwapExchangeStart s
  | .swapComplete => Sys2Proof.Machine.execSwapComplete s
  | .matrixTimelineStop => Sys2Proof.Machine.execMatrixTimelineStop s
  | .launchPacket => Sys2Proof.Machine.execLaunchPacket s
  | .replay => Sys2Proof.Machine.execReplay s
  | .kill => Sys2Proof.Machine.execKill s
  | .record => Sys2Proof.Machine.execRecord s
  | .schedulerWindow => Sys2Proof.Machine.execSchedulerWindow s
  | .breakpoint => Sys2Proof.Machine.execBreakpoint s
  | .haltFlit => Sys2Proof.Machine.execHaltFlit s
  | .stopTick => Sys2Proof.Machine.execStopTick s
  | .resumeAtTick => Sys2Proof.Machine.execResumeAtTick s
  | .jobstepEnd => Sys2Proof.Machine.execJobstepEnd s
  | .corestepAtTick => Sys2Proof.Machine.execCorestepAtTick s
  | .surveyPulse => Sys2Proof.Machine.execSurveyPulse s
  | .shadowTrigger => Sys2Proof.Machine.execShadowTrigger s
  | .disciplineSend => Sys2Proof.Machine.execDisciplineSend s
  | .treeCheckDone => Sys2Proof.Machine.execTreeCheckDone s
  | .gatewayRun => Sys2Proof.Machine.execGatewayRun s
  | .gatewayStop => Sys2Proof.Machine.execGatewayStop s
  | .majorFrame => Sys2Proof.Machine.execMajorFrame s
  | .streamPoll => Sys2Proof.Machine.execStreamPoll s
  | .heartbeat => Sys2Proof.Machine.execHeartbeat s
  | .resetStream => Sys2Proof.Machine.execResetStream s
  | .firmwareCoreRestart => Sys2Proof.Machine.execFirmwareCoreRestart s
  | .commandProcessorReset => Sys2Proof.Machine.execCommandProcessorReset s
  | .functionLevelReset => Sys2Proof.Machine.execFunctionLevelReset s
  | .secondaryBusReset => Sys2Proof.Machine.execSecondaryBusReset s
  | .powerOn => Sys2Proof.Machine.execPowerOn s
  | .attestationReport => Sys2Proof.Machine.execAttestationReport s
  | .thermalThrottle => Sys2Proof.Machine.execThermalThrottle s
  | .thermalThrottleEnd => Sys2Proof.Machine.execThermalThrottleEnd s
  | .breakpointTakesEffect => Sys2Proof.Machine.execBreakpointTakesEffect s

end Sys2Proof.Machine
end

