-- ==== Sys2Proof/Machine/Turn.lean ====
section
/-! DEFINITION. What a step does around an instruction: the work of a cycle that executes none, the focus of an event, and
how a word is put where the next step fetches (03 R79, 08 R214). -/

namespace Sys2Proof.Machine

/-- The work of a cycle that executes no instruction of its own: it changes the part and may put events to work. -/
def State.doWork (s : State) (w : Work) : State :=
  match w with
  | .beginCore n => s.beginCore n
  | .ports n => s.portsTurn n
  | .matrix n => s.matrixPhase n
  | .matrixRun n => s.matrixGo n
  | .copy n => s.copyPhase n
  | .pick n => s.pickPhase n
  | .lateK n => s.modCore n lateKs
  | .endCore n => s.finishCore n
  | .endCycle => s.endCycle
  | .settle => s.settle
  | .nextTick => s.endTick
  | .slot _ _ _ => s
  | .event _ _ => s

/-- The focus of an event about `unit`: the job time is that of the launch of the core it names, if it names one. -/
def State.eventFocus (s : State) (unit : Nat) : Focus :=
  match s.core unit with
  | some c => { s.focus with core := unit, jobt := s.jobTime c.lctx, grat := s.tick }
  | none => { s.focus with core := unit, grat := s.tick }

/-- The operation that a slot put to work executes, with its focus: none when nothing is executed, the state being then as
given (a dead slot, an illegal word, a pick that is held or denied). -/
def State.fetchSlot (s : State) (num : Nat) (who : Ctx) (slot : Nat) : Except State (Focus × Core × Instr) :=
  match s.core num with
  | none => .error s
  | some c =>
    if slotDead who c then .error s
    else
      let fo := s.slotFocus num who slot c
      match s.slotInstr num who slot c with
      | .error _ => .error (s.slotIllegal fo)
      | .ok i => match s.slotHeld who fo c i with
        | some t => .error t
        | none => .ok (fo, c, i)

/-- Classes that share a width, in the order `decodeTableWord` tries them; the first that reads the word as an operation. -/
def tableClass (nbits w : Nat) : Cls :=
  let ok (c : Cls) : Bool := match decodeSlot c (w % 2 ^ c.width) with
    | .ok _ => true
    | .error _ => false
  if nbits = 32 then (if ok .I then .I else if ok .M then .M else .E)
  else if nbits = 24 then (if ok .K then .K else .Y)
  else .V

/-- The slot a class's word is placed in: I1 and V1, which take every operation of their classes (R98 case 5). -/
def classSlot : Cls → Nat
  | .I => 1
  | .M => 2
  | .V => 4
  | .K => 5
  | .E => 6
  | .Y => 7

/-- A core bound to a launch for the purpose of `withFetchWord`: the one already there, else one as at a stage's release;
its primary runs at bundle 0 and its helper 0 is LIVE at the slot's place in bundle 0. -/
def fetchCore (old : Option Core) (num slot : Nat) : Core :=
  let c := old.getD (coreAtLaunch num (decide (96 ≤ num % 128)) 0 0 0 0 0)
  let x := c.helper 0
  { c with
    run := .run, frozen := false, p := { c.p with pc := 0, rep := none, xfer := none },
    cyc := { c.cyc with trapped := false },
    helpers := setAt c.helpers 0 { x with st := .live, pc := 0, pos := slotPos slot, next := none } }

/-- The state with a word of a class standing in bundle 0 of the core that can run it, and that slot the next work: a
helper's slot for the operations only helpers may issue, an upper core for LPOP. -/
def State.placeWord (s : State) (k : Cls) (w : Nat) : State :=
  let i := match decodeSlot k w with
    | .ok i => i
    | .error _ => .nilI
  let num := match i with
    | .lpop _ => 96
    | _ => 0
  let slot := classSlot k
  let who := if helperOnly i then Ctx.helper 0 else Ctx.prim
  let cl := spGet cluster0 s.clusters (clusterNo num)
  { s with
    clusters := spSet cluster0 s.clusters (clusterNo num)
      { cl with code := spSet 0 cl.code 0 (BitVec.ofNat 256 (bundleOf slot w)) },
    cores := insCore s.cores num (fetchCore (s.core num) num slot),
    agenda := [.slot num who slot] }

end Sys2Proof.Machine
end

