-- ==== Sys2Proof/Machine/Step.lean ====
section
/-! DEFINITION. One step: one piece of the work of the cycle under way (00 R4, 02 R62). -/

namespace Sys2Proof.Machine

/-- A slot's operation: fetched and decoded, executed, and what follows it. -/
def State.runSlot (s : State) (num : Nat) (who : Ctx) (slot : Nat) : Host.Outcome State Fault Refusal :=
  match s.fetchSlot num who slot with
  | .error t => .next t
  | .ok (fo, c, i) => match exec i { s with focus := fo } with
    | .next t => .next (slotDone who fo c i t)
    | .fault f => .fault f
    | .refused r => .refused r

/-- ONE STEP: the first piece of work of the cycle under way; with none left, a new cycle begins. -/
def step (s : State) : Host.Outcome State Fault Refusal :=
  match s.agenda with
  | [] => .next s.startCycle
  | .slot num who slot :: rest => { s with agenda := rest }.runSlot num who slot
  | .event unit i :: rest => exec i { s with agenda := rest, focus := s.eventFocus unit }
  | w :: rest => .next ({ s with agenda := rest }.doWork w)

/-- `s` with an instruction of the opcode table's numbering where the next step fetches. -/
def State.withFetchWord (s : State) (nbits w : Nat) : State :=
  let k := tableClass nbits w
  s.placeWord k (w % 2 ^ k.width)

end Sys2Proof.Machine
end

