-- ==== Sys2Proof/Laws/PerInstr.lean ====
section
/-! SUPPORT. Statements made one constructor at a time: decoding what encoding wrote. -/

namespace Sys2Proof.Laws.RoundTrip

/-- A well-formed slot operation, encoded and decoded in its class, is itself (03 R81 to R97); an event of the part has no
class and no word. -/
def Statement (i : Instr) : Prop := ∀ k, classOf i = some k → wf i = true → decodeSlot k (encode i) = .ok i

theorem add (d : BitVec 6) (x : BitVec 6) (y : BitVec 6) : Statement (Instr.add d x y) := by
  intro k hk hw
  cases hk
  have b_d := d.isLt
  have b_x := x.isLt
  have b_y := y.isLt
  obtain ⟨u, h0⟩ : ∃ u, encodeI (Instr.add d x y) = u := ⟨_, rfl⟩
  show decodeI (encodeI (Instr.add d x y)) = _
  rw [h0]
  have hu : 0x10000000 + d.toNat * 2 ^ 18 + x.toNat * 2 ^ 12 + y.toNat * 2 ^ 6 = u := h0
  have he : u / 2 ^ 24 = 0x10 := by omega
  have hc : u % 64 = 0 := by omega
  have f_d : fld 6 18 u = d := by
    apply BitVec.eq_of_toNat_eq; simp only [fld, BitVec.toNat_ofNat]; omega
  have f_x : fld 6 12 u = x := by
    apply BitVec.eq_of_toNat_eq; simp only [fld, BitVec.toNat_ofNat]; omega
  have f_y : fld 6 6 u = y := by
    apply BitVec.eq_of_toNat_eq; simp only [fld, BitVec.toNat_ofNat]; omega
  unfold decodeI
  rw [he]
  show (if u % 64 = 0 then Sys2Proof.chk (Instr.add (fld 6 18 u) (fld 6 12 u) (fld 6 6 u)) else .error .reserved) = _
  rw [if_pos hc, f_d, f_x, f_y]
  exact if_pos hw

theorem sub (d : BitVec 6) (x : BitVec 6) (y : BitVec 6) : Statement (Instr.sub d x y) := by
  intro k hk hw
  cases hk
  have b_d := d.isLt
  have b_x := x.isLt
  have b_y := y.isLt
  obtain ⟨u, h0⟩ : ∃ u, encodeI (Instr.sub d x y) = u := ⟨_, rfl⟩
  show decodeI (encodeI (Instr.sub d x y)) = _
  rw [h0]
  have hu : 0x11000000 + d.toNat * 2 ^ 18 + x.toNat * 2 ^ 12 + y.toNat * 2 ^ 6 = u := h0
  have he : u / 2 ^ 24 = 0x11 := by omega
  have hc : u % 64 = 0 := by omega
  have f_d : fld 6 18 u = d := by
    apply BitVec.eq_of_toNat_eq; simp only [fld, BitVec.toNat_ofNat]; omega
  have f_x : fld 6 12 u = x := by
    apply BitVec.eq_of_toNat_eq; simp only [fld, BitVec.toNat_ofNat]; omega
  have f_y : fld 6 6 u = y := by
    apply BitVec.eq_of_toNat_eq; simp only [fld, BitVec.toNat_ofNat]; omega
  unfold decodeI
  rw [he]
  show (if u % 64 = 0 then Sys2Proof.chk (Instr.sub (fld 6 18 u) (fld 6 12 u) (fld 6 6 u)) else .error .reserved) = _
  rw [if_pos hc, f_d, f_x, f_y]
  exact if_pos hw

theorem addi (d : BitVec 6) (x : BitVec 6) (i : BitVec 12) : Statement (Instr.addi d x i) := by
  intro k hk hw
  cases hk
  have b_d := d.isLt
  have b_x := x.isLt
  have b_i := i.isLt
  obtain ⟨u, h0⟩ : ∃ u, encodeI (Instr.addi d x i) = u := ⟨_, rfl⟩
  show decodeI (encodeI (Instr.addi d x i)) = _
  rw [h0]
  have hu : 0x12000000 + d.toNat * 2 ^ 18 + x.toNat * 2 ^ 12 + i.toNat * 2 ^ 0 = u := h0
  have he : u / 2 ^ 24 = 0x12 := by omega
  have f_d : fld 6 18 u = d := by
    apply BitVec.eq_of_toNat_eq; simp only [fld, BitVec.toNat_ofNat]; omega
  have f_x : fld 6 12 u = x := by
    apply BitVec.eq_of_toNat_eq; simp only [fld, BitVec.toNat_ofNat]; omega
  have f_i : fld 12 0 u = i := by
    apply BitVec.eq_of_toNat_eq; simp only [fld, BitVec.toNat_ofNat]; omega
  unfold decodeI
  rw [he]
  show (Sys2Proof.chk (Instr.addi (fld 6 18 u) (fld 6 12 u) (fld 12 0 u))) = _
  rw [f_d, f_x, f_i]
  exact if_pos hw

theorem addsh (d : BitVec 6) (x : BitVec 6) (y : BitVec 6) (s : BitVec 2) : Statement (Instr.addsh d x y s) := by
  intro k hk hw
  cases hk
  have b_d := d.isLt
  have b_x := x.isLt
  have b_y := y.isLt
  have b_s := s.isLt
  obtain ⟨u, h0⟩ : ∃ u, encodeI (Instr.addsh d x y s) = u := ⟨_, rfl⟩
  show decodeI (encodeI (Instr.addsh d x y s)) = _
  rw [h0]
  have hu : 0x13000000 + d.toNat * 2 ^ 18 + x.toNat * 2 ^ 12 + y.toNat * 2 ^ 6 + s.toNat * 2 ^ 0 = u := h0
  have he : u / 2 ^ 24 = 0x13 := by omega
  have hc : u / 2 ^ 2 % 16 = 0 := by omega
  have f_d : fld 6 18 u = d := by
    apply BitVec.eq_of_toNat_eq; simp only [fld, BitVec.toNat_ofNat]; omega
  have f_x : fld 6 12 u = x := by
    apply BitVec.eq_of_toNat_eq; simp only [fld, BitVec.toNat_ofNat]; omega
  have f_y : fld 6 6 u = y := by
    apply BitVec.eq_of_toNat_eq; simp only [fld, BitVec.toNat_ofNat]; omega
  have f_s : fld 2 0 u = s := by
    apply BitVec.eq_of_toNat_eq; simp only [fld, BitVec.toNat_ofNat]; omega
  unfold decodeI
  rw [he]
  show (if u / 2 ^ 2 % 16 = 0 then Sys2Proof.chk (Instr.addsh (fld 6 18 u) (fld 6 12 u) (fld 6 6 u) (fld 2 0 u)) else .error .reserved) = _
  rw [if_pos hc, f_d, f_x, f_y, f_s]
  exact if_pos hw

theorem mul (d : BitVec 6) (x : BitVec 6) (y : BitVec 6) : Statement (Instr.mul d x y) := by
  intro k hk hw
  cases hk
  have b_d := d.isLt
  have b_x := x.isLt
  have b_y := y.isLt
  obtain ⟨u, h0⟩ : ∃ u, encodeI (Instr.mul d x y) = u := ⟨_, rfl⟩
  show decodeI (encodeI (Instr.mul d x y)) = _
  rw [h0]
  have hu : 0x14000000 + d.toNat * 2 ^ 18 + x.toNat * 2 ^ 12 + y.toNat * 2 ^ 6 = u := h0
  have he : u / 2 ^ 24 = 0x14 := by omega
  have hc : u % 64 = 0 := by omega
  have f_d : fld 6 18 u = d := by
    apply BitVec.eq_of_toNat_eq; simp only [fld, BitVec.toNat_ofNat]; omega
  have f_x : fld 6 12 u = x := by
    apply BitVec.eq_of_toNat_eq; simp only [fld, BitVec.toNat_ofNat]; omega
  have f_y : fld 6 6 u = y := by
    apply BitVec.eq_of_toNat_eq; simp only [fld, BitVec.toNat_ofNat]; omega
  unfold decodeI
  rw [he]
  show (if u % 64 = 0 then Sys2Proof.chk (Instr.mul (fld 6 18 u) (fld 6 12 u) (fld 6 6 u)) else .error .reserved) = _
  rw [if_pos hc, f_d, f_x, f_y]
  exact if_pos hw

theorem mulh (d : BitVec 6) (x : BitVec 6) (y : BitVec 6) : Statement (Instr.mulh d x y) := by
  intro k hk hw
  cases hk
  have b_d := d.isLt
  have b_x := x.isLt
  have b_y := y.isLt
  obtain ⟨u, h0⟩ : ∃ u, encodeI (Instr.mulh d x y) = u := ⟨_, rfl⟩
  show decodeI (encodeI (Instr.mulh d x y)) = _
  rw [h0]
  have hu : 0x15000000 + d.toNat * 2 ^ 18 + x.toNat * 2 ^ 12 + y.toNat * 2 ^ 6 = u := h0
  have he : u / 2 ^ 24 = 0x15 := by omega
  have hc : u % 64 = 0 := by omega
  have f_d : fld 6 18 u = d := by
    apply BitVec.eq_of_toNat_eq; simp only [fld, BitVec.toNat_ofNat]; omega
  have f_x : fld 6 12 u = x := by
    apply BitVec.eq_of_toNat_eq; simp only [fld, BitVec.toNat_ofNat]; omega
  have f_y : fld 6 6 u = y := by
    apply BitVec.eq_of_toNat_eq; simp only [fld, BitVec.toNat_ofNat]; omega
  unfold decodeI
  rw [he]
  show (if u % 64 = 0 then Sys2Proof.chk (Instr.mulh (fld 6 18 u) (fld 6 12 u) (fld 6 6 u)) else .error .reserved) = _
  rw [if_pos hc, f_d, f_x, f_y]
  exact if_pos hw

theorem mulhn (d : BitVec 6) (x : BitVec 6) (y : BitVec 6) : Statement (Instr.mulhn d x y) := by
  intro k hk hw
  cases hk
  have b_d := d.isLt
  have b_x := x.isLt
  have b_y := y.isLt
  obtain ⟨u, h0⟩ : ∃ u, encodeI (Instr.mulhn d x y) = u := ⟨_, rfl⟩
  show decodeI (encodeI (Instr.mulhn d x y)) = _
  rw [h0]
  have hu : 0x16000000 + d.toNat * 2 ^ 18 + x.toNat * 2 ^ 12 + y.toNat * 2 ^ 6 = u := h0
  have he : u / 2 ^ 24 = 0x16 := by omega
  have hc : u % 64 = 0 := by omega
  have f_d : fld 6 18 u = d := by
    apply BitVec.eq_of_toNat_eq; simp only [fld, BitVec.toNat_ofNat]; omega
  have f_x : fld 6 12 u = x := by
    apply BitVec.eq_of_toNat_eq; simp only [fld, BitVec.toNat_ofNat]; omega
  have f_y : fld 6 6 u = y := by
    apply BitVec.eq_of_toNat_eq; simp only [fld, BitVec.toNat_ofNat]; omega
  unfold decodeI
  rw [he]
  show (if u % 64 = 0 then Sys2Proof.chk (Instr.mulhn (fld 6 18 u) (fld 6 12 u) (fld 6 6 u)) else .error .reserved) = _
  rw [if_pos hc, f_d, f_x, f_y]
  exact if_pos hw

theorem div (d : BitVec 6) (x : BitVec 6) (y : BitVec 6) : Statement (Instr.div d x y) := by
  intro k hk hw
  cases hk
  have b_d := d.isLt
  have b_x := x.isLt
  have b_y := y.isLt
  obtain ⟨u, h0⟩ : ∃ u, encodeI (Instr.div d x y) = u := ⟨_, rfl⟩
  show decodeI (encodeI (Instr.div d x y)) = _
  rw [h0]
  have hu : 0x17000000 + d.toNat * 2 ^ 18 + x.toNat * 2 ^ 12 + y.toNat * 2 ^ 6 = u := h0
  have he : u / 2 ^ 24 = 0x17 := by omega
  have hc : u % 64 = 0 := by omega
  have f_d : fld 6 18 u = d := by
    apply BitVec.eq_of_toNat_eq; simp only [fld, BitVec.toNat_ofNat]; omega
  have f_x : fld 6 12 u = x := by
    apply BitVec.eq_of_toNat_eq; simp only [fld, BitVec.toNat_ofNat]; omega
  have f_y : fld 6 6 u = y := by
    apply BitVec.eq_of_toNat_eq; simp only [fld, BitVec.toNat_ofNat]; omega
  unfold decodeI
  rw [he]
  show (if u % 64 = 0 then Sys2Proof.chk (Instr.div (fld 6 18 u) (fld 6 12 u) (fld 6 6 u)) else .error .reserved) = _
  rw [if_pos hc, f_d, f_x, f_y]
  exact if_pos hw

theorem divn (d : BitVec 6) (x : BitVec 6) (y : BitVec 6) : Statement (Instr.divn d x y) := by
  intro k hk hw
  cases hk
  have b_d := d.isLt
  have b_x := x.isLt
  have b_y := y.isLt
  obtain ⟨u, h0⟩ : ∃ u, encodeI (Instr.divn d x y) = u := ⟨_, rfl⟩
  show decodeI (encodeI (Instr.divn d x y)) = _
  rw [h0]
  have hu : 0x18000000 + d.toNat * 2 ^ 18 + x.toNat * 2 ^ 12 + y.toNat * 2 ^ 6 = u := h0
  have he : u / 2 ^ 24 = 0x18 := by omega
  have hc : u % 64 = 0 := by omega
  have f_d : fld 6 18 u = d := by
    apply BitVec.eq_of_toNat_eq; simp only [fld, BitVec.toNat_ofNat]; omega
  have f_x : fld 6 12 u = x := by
    apply BitVec.eq_of_toNat_eq; simp only [fld, BitVec.toNat_ofNat]; omega
  have f_y : fld 6 6 u = y := by
    apply BitVec.eq_of_toNat_eq; simp only [fld, BitVec.toNat_ofNat]; omega
  unfold decodeI
  rw [he]
  show (if u % 64 = 0 then Sys2Proof.chk (Instr.divn (fld 6 18 u) (fld 6 12 u) (fld 6 6 u)) else .error .reserved) = _
  rw [if_pos hc, f_d, f_x, f_y]
  exact if_pos hw

theorem and (d : BitVec 6) (x : BitVec 6) (y : BitVec 6) : Statement (Instr.and d x y) := by
  intro k hk hw
  cases hk
  have b_d := d.isLt
  have b_x := x.isLt
  have b_y := y.isLt
  obtain ⟨u, h0⟩ : ∃ u, encodeI (Instr.and d x y) = u := ⟨_, rfl⟩
  show decodeI (encodeI (Instr.and d x y)) = _
  rw [h0]
  have hu : 0x20000000 + d.toNat * 2 ^ 18 + x.toNat * 2 ^ 12 + y.toNat * 2 ^ 6 = u := h0
  have he : u / 2 ^ 24 = 0x20 := by omega
  have hc : u % 64 = 0 := by omega
  have f_d : fld 6 18 u = d := by
    apply BitVec.eq_of_toNat_eq; simp only [fld, BitVec.toNat_ofNat]; omega
  have f_x : fld 6 12 u = x := by
    apply BitVec.eq_of_toNat_eq; simp only [fld, BitVec.toNat_ofNat]; omega
  have f_y : fld 6 6 u = y := by
    apply BitVec.eq_of_toNat_eq; simp only [fld, BitVec.toNat_ofNat]; omega
  unfold decodeI
  rw [he]
  show (if u % 64 = 0 then Sys2Proof.chk (Instr.and (fld 6 18 u) (fld 6 12 u) (fld 6 6 u)) else .error .reserved) = _
  rw [if_pos hc, f_d, f_x, f_y]
  exact if_pos hw

theorem or (d : BitVec 6) (x : BitVec 6) (y : BitVec 6) : Statement (Instr.or d x y) := by
  intro k hk hw
  cases hk
  have b_d := d.isLt
  have b_x := x.isLt
  have b_y := y.isLt
  obtain ⟨u, h0⟩ : ∃ u, encodeI (Instr.or d x y) = u := ⟨_, rfl⟩
  show decodeI (encodeI (Instr.or d x y)) = _
  rw [h0]
  have hu : 0x21000000 + d.toNat * 2 ^ 18 + x.toNat * 2 ^ 12 + y.toNat * 2 ^ 6 = u := h0
  have he : u / 2 ^ 24 = 0x21 := by omega
  have hc : u % 64 = 0 := by omega
  have f_d : fld 6 18 u = d := by
    apply BitVec.eq_of_toNat_eq; simp only [fld, BitVec.toNat_ofNat]; omega
  have f_x : fld 6 12 u = x := by
    apply BitVec.eq_of_toNat_eq; simp only [fld, BitVec.toNat_ofNat]; omega
  have f_y : fld 6 6 u = y := by
    apply BitVec.eq_of_toNat_eq; simp only [fld, BitVec.toNat_ofNat]; omega
  unfold decodeI
  rw [he]
  show (if u % 64 = 0 then Sys2Proof.chk (Instr.or (fld 6 18 u) (fld 6 12 u) (fld 6 6 u)) else .error .reserved) = _
  rw [if_pos hc, f_d, f_x, f_y]
  exact if_pos hw

theorem xor (d : BitVec 6) (x : BitVec 6) (y : BitVec 6) : Statement (Instr.xor d x y) := by
  intro k hk hw
  cases hk
  have b_d := d.isLt
  have b_x := x.isLt
  have b_y := y.isLt
  obtain ⟨u, h0⟩ : ∃ u, encodeI (Instr.xor d x y) = u := ⟨_, rfl⟩
  show decodeI (encodeI (Instr.xor d x y)) = _
  rw [h0]
  have hu : 0x22000000 + d.toNat * 2 ^ 18 + x.toNat * 2 ^ 12 + y.toNat * 2 ^ 6 = u := h0
  have he : u / 2 ^ 24 = 0x22 := by omega
  have hc : u % 64 = 0 := by omega
  have f_d : fld 6 18 u = d := by
    apply BitVec.eq_of_toNat_eq; simp only [fld, BitVec.toNat_ofNat]; omega
  have f_x : fld 6 12 u = x := by
    apply BitVec.eq_of_toNat_eq; simp only [fld, BitVec.toNat_ofNat]; omega
  have f_y : fld 6 6 u = y := by
    apply BitVec.eq_of_toNat_eq; simp only [fld, BitVec.toNat_ofNat]; omega
  unfold decodeI
  rw [he]
  show (if u % 64 = 0 then Sys2Proof.chk (Instr.xor (fld 6 18 u) (fld 6 12 u) (fld 6 6 u)) else .error .reserved) = _
  rw [if_pos hc, f_d, f_x, f_y]
  exact if_pos hw

theorem andn (d : BitVec 6) (x : BitVec 6) (y : BitVec 6) : Statement (Instr.andn d x y) := by
  intro k hk hw
  cases hk
  have b_d := d.isLt
  have b_x := x.isLt
  have b_y := y.isLt
  obtain ⟨u, h0⟩ : ∃ u, encodeI (Instr.andn d x y) = u := ⟨_, rfl⟩
  show decodeI (encodeI (Instr.andn d x y)) = _
  rw [h0]
  have hu : 0x23000000 + d.toNat * 2 ^ 18 + x.toNat * 2 ^ 12 + y.toNat * 2 ^ 6 = u := h0
  have he : u / 2 ^ 24 = 0x23 := by omega
  have hc : u % 64 = 0 := by omega
  have f_d : fld 6 18 u = d := by
    apply BitVec.eq_of_toNat_eq; simp only [fld, BitVec.toNat_ofNat]; omega
  have f_x : fld 6 12 u = x := by
    apply BitVec.eq_of_toNat_eq; simp only [fld, BitVec.toNat_ofNat]; omega
  have f_y : fld 6 6 u = y := by
    apply BitVec.eq_of_toNat_eq; simp only [fld, BitVec.toNat_ofNat]; omega
  unfold decodeI
  rw [he]
  show (if u % 64 = 0 then Sys2Proof.chk (Instr.andn (fld 6 18 u) (fld 6 12 u) (fld 6 6 u)) else .error .reserved) = _
  rw [if_pos hc, f_d, f_x, f_y]
  exact if_pos hw

theorem andi (d : BitVec 6) (x : BitVec 6) (i : BitVec 12) : Statement (Instr.andi d x i) := by
  intro k hk hw
  cases hk
  have b_d := d.isLt
  have b_x := x.isLt
  have b_i := i.isLt
  obtain ⟨u, h0⟩ : ∃ u, encodeI (Instr.andi d x i) = u := ⟨_, rfl⟩
  show decodeI (encodeI (Instr.andi d x i)) = _
  rw [h0]
  have hu : 0x24000000 + d.toNat * 2 ^ 18 + x.toNat * 2 ^ 12 + i.toNat * 2 ^ 0 = u := h0
  have he : u / 2 ^ 24 = 0x24 := by omega
  have f_d : fld 6 18 u = d := by
    apply BitVec.eq_of_toNat_eq; simp only [fld, BitVec.toNat_ofNat]; omega
  have f_x : fld 6 12 u = x := by
    apply BitVec.eq_of_toNat_eq; simp only [fld, BitVec.toNat_ofNat]; omega
  have f_i : fld 12 0 u = i := by
    apply BitVec.eq_of_toNat_eq; simp only [fld, BitVec.toNat_ofNat]; omega
  unfold decodeI
  rw [he]
  show (Sys2Proof.chk (Instr.andi (fld 6 18 u) (fld 6 12 u) (fld 12 0 u))) = _
  rw [f_d, f_x, f_i]
  exact if_pos hw

theorem ori (d : BitVec 6) (x : BitVec 6) (i : BitVec 12) : Statement (Instr.ori d x i) := by
  intro k hk hw
  cases hk
  have b_d := d.isLt
  have b_x := x.isLt
  have b_i := i.isLt
  obtain ⟨u, h0⟩ : ∃ u, encodeI (Instr.ori d x i) = u := ⟨_, rfl⟩
  show decodeI (encodeI (Instr.ori d x i)) = _
  rw [h0]
  have hu : 0x25000000 + d.toNat * 2 ^ 18 + x.toNat * 2 ^ 12 + i.toNat * 2 ^ 0 = u := h0
  have he : u / 2 ^ 24 = 0x25 := by omega
  have f_d : fld 6 18 u = d := by
    apply BitVec.eq_of_toNat_eq; simp only [fld, BitVec.toNat_ofNat]; omega
  have f_x : fld 6 12 u = x := by
    apply BitVec.eq_of_toNat_eq; simp only [fld, BitVec.toNat_ofNat]; omega
  have f_i : fld 12 0 u = i := by
    apply BitVec.eq_of_toNat_eq; simp only [fld, BitVec.toNat_ofNat]; omega
  unfold decodeI
  rw [he]
  show (Sys2Proof.chk (Instr.ori (fld 6 18 u) (fld 6 12 u) (fld 12 0 u))) = _
  rw [f_d, f_x, f_i]
  exact if_pos hw

theorem xori (d : BitVec 6) (x : BitVec 6) (i : BitVec 12) : Statement (Instr.xori d x i) := by
  intro k hk hw
  cases hk
  have b_d := d.isLt
  have b_x := x.isLt
  have b_i := i.isLt
  obtain ⟨u, h0⟩ : ∃ u, encodeI (Instr.xori d x i) = u := ⟨_, rfl⟩
  show decodeI (encodeI (Instr.xori d x i)) = _
  rw [h0]
  have hu : 0x26000000 + d.toNat * 2 ^ 18 + x.toNat * 2 ^ 12 + i.toNat * 2 ^ 0 = u := h0
  have he : u / 2 ^ 24 = 0x26 := by omega
  have f_d : fld 6 18 u = d := by
    apply BitVec.eq_of_toNat_eq; simp only [fld, BitVec.toNat_ofNat]; omega
  have f_x : fld 6 12 u = x := by
    apply BitVec.eq_of_toNat_eq; simp only [fld, BitVec.toNat_ofNat]; omega
  have f_i : fld 12 0 u = i := by
    apply BitVec.eq_of_toNat_eq; simp only [fld, BitVec.toNat_ofNat]; omega
  unfold decodeI
  rw [he]
  show (Sys2Proof.chk (Instr.xori (fld 6 18 u) (fld 6 12 u) (fld 12 0 u))) = _
  rw [f_d, f_x, f_i]
  exact if_pos hw

theorem shl (d : BitVec 6) (x : BitVec 6) (y : BitVec 6) : Statement (Instr.shl d x y) := by
  intro k hk hw
  cases hk
  have b_d := d.isLt
  have b_x := x.isLt
  have b_y := y.isLt
  obtain ⟨u, h0⟩ : ∃ u, encodeI (Instr.shl d x y) = u := ⟨_, rfl⟩
  show decodeI (encodeI (Instr.shl d x y)) = _
  rw [h0]
  have hu : 0x28000000 + d.toNat * 2 ^ 18 + x.toNat * 2 ^ 12 + y.toNat * 2 ^ 6 = u := h0
  have he : u / 2 ^ 24 = 0x28 := by omega
  have hc : u % 64 = 0 := by omega
  have f_d : fld 6 18 u = d := by
    apply BitVec.eq_of_toNat_eq; simp only [fld, BitVec.toNat_ofNat]; omega
  have f_x : fld 6 12 u = x := by
    apply BitVec.eq_of_toNat_eq; simp only [fld, BitVec.toNat_ofNat]; omega
  have f_y : fld 6 6 u = y := by
    apply BitVec.eq_of_toNat_eq; simp only [fld, BitVec.toNat_ofNat]; omega
  unfold decodeI
  rw [he]
  show (if u % 64 = 0 then Sys2Proof.chk (Instr.shl (fld 6 18 u) (fld 6 12 u) (fld 6 6 u)) else .error .reserved) = _
  rw [if_pos hc, f_d, f_x, f_y]
  exact if_pos hw

theorem shr (d : BitVec 6) (x : BitVec 6) (y : BitVec 6) : Statement (Instr.shr d x y) := by
  intro k hk hw
  cases hk
  have b_d := d.isLt
  have b_x := x.isLt
  have b_y := y.isLt
  obtain ⟨u, h0⟩ : ∃ u, encodeI (Instr.shr d x y) = u := ⟨_, rfl⟩
  show decodeI (encodeI (Instr.shr d x y)) = _
  rw [h0]
  have hu : 0x29000000 + d.toNat * 2 ^ 18 + x.toNat * 2 ^ 12 + y.toNat * 2 ^ 6 = u := h0
  have he : u / 2 ^ 24 = 0x29 := by omega
  have hc : u % 64 = 0 := by omega
  have f_d : fld 6 18 u = d := by
    apply BitVec.eq_of_toNat_eq; simp only [fld, BitVec.toNat_ofNat]; omega
  have f_x : fld 6 12 u = x := by
    apply BitVec.eq_of_toNat_eq; simp only [fld, BitVec.toNat_ofNat]; omega
  have f_y : fld 6 6 u = y := by
    apply BitVec.eq_of_toNat_eq; simp only [fld, BitVec.toNat_ofNat]; omega
  unfold decodeI
  rw [he]
  show (if u % 64 = 0 then Sys2Proof.chk (Instr.shr (fld 6 18 u) (fld 6 12 u) (fld 6 6 u)) else .error .reserved) = _
  rw [if_pos hc, f_d, f_x, f_y]
  exact if_pos hw

theorem sar (d : BitVec 6) (x : BitVec 6) (y : BitVec 6) : Statement (Instr.sar d x y) := by
  intro k hk hw
  cases hk
  have b_d := d.isLt
  have b_x := x.isLt
  have b_y := y.isLt
  obtain ⟨u, h0⟩ : ∃ u, encodeI (Instr.sar d x y) = u := ⟨_, rfl⟩
  show decodeI (encodeI (Instr.sar d x y)) = _
  rw [h0]
  have hu : 0x2A000000 + d.toNat * 2 ^ 18 + x.toNat * 2 ^ 12 + y.toNat * 2 ^ 6 = u := h0
  have he : u / 2 ^ 24 = 0x2A := by omega
  have hc : u % 64 = 0 := by omega
  have f_d : fld 6 18 u = d := by
    apply BitVec.eq_of_toNat_eq; simp only [fld, BitVec.toNat_ofNat]; omega
  have f_x : fld 6 12 u = x := by
    apply BitVec.eq_of_toNat_eq; simp only [fld, BitVec.toNat_ofNat]; omega
  have f_y : fld 6 6 u = y := by
    apply BitVec.eq_of_toNat_eq; simp only [fld, BitVec.toNat_ofNat]; omega
  unfold decodeI
  rw [he]
  show (if u % 64 = 0 then Sys2Proof.chk (Instr.sar (fld 6 18 u) (fld 6 12 u) (fld 6 6 u)) else .error .reserved) = _
  rw [if_pos hc, f_d, f_x, f_y]
  exact if_pos hw

theorem rol (d : BitVec 6) (x : BitVec 6) (y : BitVec 6) : Statement (Instr.rol d x y) := by
  intro k hk hw
  cases hk
  have b_d := d.isLt
  have b_x := x.isLt
  have b_y := y.isLt
  obtain ⟨u, h0⟩ : ∃ u, encodeI (Instr.rol d x y) = u := ⟨_, rfl⟩
  show decodeI (encodeI (Instr.rol d x y)) = _
  rw [h0]
  have hu : 0x2B000000 + d.toNat * 2 ^ 18 + x.toNat * 2 ^ 12 + y.toNat * 2 ^ 6 = u := h0
  have he : u / 2 ^ 24 = 0x2B := by omega
  have hc : u % 64 = 0 := by omega
  have f_d : fld 6 18 u = d := by
    apply BitVec.eq_of_toNat_eq; simp only [fld, BitVec.toNat_ofNat]; omega
  have f_x : fld 6 12 u = x := by
    apply BitVec.eq_of_toNat_eq; simp only [fld, BitVec.toNat_ofNat]; omega
  have f_y : fld 6 6 u = y := by
    apply BitVec.eq_of_toNat_eq; simp only [fld, BitVec.toNat_ofNat]; omega
  unfold decodeI
  rw [he]
  show (if u % 64 = 0 then Sys2Proof.chk (Instr.rol (fld 6 18 u) (fld 6 12 u) (fld 6 6 u)) else .error .reserved) = _
  rw [if_pos hc, f_d, f_x, f_y]
  exact if_pos hw

theorem shli (d : BitVec 6) (x : BitVec 6) (a : BitVec 6) : Statement (Instr.shli d x a) := by
  intro k hk hw
  cases hk
  have b_d := d.isLt
  have b_x := x.isLt
  have b_a := a.isLt
  obtain ⟨u, h0⟩ : ∃ u, encodeI (Instr.shli d x a) = u := ⟨_, rfl⟩
  show decodeI (encodeI (Instr.shli d x a)) = _
  rw [h0]
  have hu : 0x2C000000 + d.toNat * 2 ^ 18 + x.toNat * 2 ^ 12 + a.toNat * 2 ^ 0 = u := h0
  have he : u / 2 ^ 24 = 0x2C := by omega
  have hc : u / 2 ^ 6 % 64 = 0 := by omega
  have f_d : fld 6 18 u = d := by
    apply BitVec.eq_of_toNat_eq; simp only [fld, BitVec.toNat_ofNat]; omega
  have f_x : fld 6 12 u = x := by
    apply BitVec.eq_of_toNat_eq; simp only [fld, BitVec.toNat_ofNat]; omega
  have f_a : fld 6 0 u = a := by
    apply BitVec.eq_of_toNat_eq; simp only [fld, BitVec.toNat_ofNat]; omega
  unfold decodeI
  rw [he]
  show (if u / 2 ^ 6 % 64 = 0 then Sys2Proof.chk (Instr.shli (fld 6 18 u) (fld 6 12 u) (fld 6 0 u)) else .error .reserved) = _
  rw [if_pos hc, f_d, f_x, f_a]
  exact if_pos hw

theorem shri (d : BitVec 6) (x : BitVec 6) (a : BitVec 6) : Statement (Instr.shri d x a) := by
  intro k hk hw
  cases hk
  have b_d := d.isLt
  have b_x := x.isLt
  have b_a := a.isLt
  obtain ⟨u, h0⟩ : ∃ u, encodeI (Instr.shri d x a) = u := ⟨_, rfl⟩
  show decodeI (encodeI (Instr.shri d x a)) = _
  rw [h0]
  have hu : 0x2D000000 + d.toNat * 2 ^ 18 + x.toNat * 2 ^ 12 + a.toNat * 2 ^ 0 = u := h0
  have he : u / 2 ^ 24 = 0x2D := by omega
  have hc : u / 2 ^ 6 % 64 = 0 := by omega
  have f_d : fld 6 18 u = d := by
    apply BitVec.eq_of_toNat_eq; simp only [fld, BitVec.toNat_ofNat]; omega
  have f_x : fld 6 12 u = x := by
    apply BitVec.eq_of_toNat_eq; simp only [fld, BitVec.toNat_ofNat]; omega
  have f_a : fld 6 0 u = a := by
    apply BitVec.eq_of_toNat_eq; simp only [fld, BitVec.toNat_ofNat]; omega
  unfold decodeI
  rw [he]
  show (if u / 2 ^ 6 % 64 = 0 then Sys2Proof.chk (Instr.shri (fld 6 18 u) (fld 6 12 u) (fld 6 0 u)) else .error .reserved) = _
  rw [if_pos hc, f_d, f_x, f_a]
  exact if_pos hw

theorem sari (d : BitVec 6) (x : BitVec 6) (a : BitVec 6) : Statement (Instr.sari d x a) := by
  intro k hk hw
  cases hk
  have b_d := d.isLt
  have b_x := x.isLt
  have b_a := a.isLt
  obtain ⟨u, h0⟩ : ∃ u, encodeI (Instr.sari d x a) = u := ⟨_, rfl⟩
  show decodeI (encodeI (Instr.sari d x a)) = _
  rw [h0]
  have hu : 0x2E000000 + d.toNat * 2 ^ 18 + x.toNat * 2 ^ 12 + a.toNat * 2 ^ 0 = u := h0
  have he : u / 2 ^ 24 = 0x2E := by omega
  have hc : u / 2 ^ 6 % 64 = 0 := by omega
  have f_d : fld 6 18 u = d := by
    apply BitVec.eq_of_toNat_eq; simp only [fld, BitVec.toNat_ofNat]; omega
  have f_x : fld 6 12 u = x := by
    apply BitVec.eq_of_toNat_eq; simp only [fld, BitVec.toNat_ofNat]; omega
  have f_a : fld 6 0 u = a := by
    apply BitVec.eq_of_toNat_eq; simp only [fld, BitVec.toNat_ofNat]; omega
  unfold decodeI
  rw [he]
  show (if u / 2 ^ 6 % 64 = 0 then Sys2Proof.chk (Instr.sari (fld 6 18 u) (fld 6 12 u) (fld 6 0 u)) else .error .reserved) = _
  rw [if_pos hc, f_d, f_x, f_a]
  exact if_pos hw

theorem cmp (d : BitVec 6) (x : BitVec 6) (y : BitVec 6) (n : BitVec 1) : Statement (Instr.cmp d x y n) := by
  intro k hk hw
  cases hk
  have b_d := d.isLt
  have b_x := x.isLt
  have b_y := y.isLt
  have b_n := n.isLt
  obtain ⟨u, h0⟩ : ∃ u, encodeI (Instr.cmp d x y n) = u := ⟨_, rfl⟩
  show decodeI (encodeI (Instr.cmp d x y n)) = _
  rw [h0]
  have hu : 0x30000000 + d.toNat * 2 ^ 18 + x.toNat * 2 ^ 12 + y.toNat * 2 ^ 6 + n.toNat * 2 ^ 0 = u := h0
  have he : u / 2 ^ 24 = 0x30 := by omega
  have hc : u / 2 ^ 1 % 32 = 0 := by omega
  have f_d : fld 6 18 u = d := by
    apply BitVec.eq_of_toNat_eq; simp only [fld, BitVec.toNat_ofNat]; omega
  have f_x : fld 6 12 u = x := by
    apply BitVec.eq_of_toNat_eq; simp only [fld, BitVec.toNat_ofNat]; omega
  have f_y : fld 6 6 u = y := by
    apply BitVec.eq_of_toNat_eq; simp only [fld, BitVec.toNat_ofNat]; omega
  have f_n : fld 1 0 u = n := by
    apply BitVec.eq_of_toNat_eq; simp only [fld, BitVec.toNat_ofNat]; omega
  unfold decodeI
  rw [he]
  show (if u / 2 ^ 1 % 32 = 0 then Sys2Proof.chk (Instr.cmp (fld 6 18 u) (fld 6 12 u) (fld 6 6 u) (fld 1 0 u)) else .error .reserved) = _
  rw [if_pos hc, f_d, f_x, f_y, f_n]
  exact if_pos hw

theorem cmpi (d : BitVec 6) (x : BitVec 6) (i : BitVec 12) : Statement (Instr.cmpi d x i) := by
  intro k hk hw
  cases hk
  have b_d := d.isLt
  have b_x := x.isLt
  have b_i := i.isLt
  obtain ⟨u, h0⟩ : ∃ u, encodeI (Instr.cmpi d x i) = u := ⟨_, rfl⟩
  show decodeI (encodeI (Instr.cmpi d x i)) = _
  rw [h0]
  have hu : 0x31000000 + d.toNat * 2 ^ 18 + x.toNat * 2 ^ 12 + i.toNat * 2 ^ 0 = u := h0
  have he : u / 2 ^ 24 = 0x31 := by omega
  have f_d : fld 6 18 u = d := by
    apply BitVec.eq_of_toNat_eq; simp only [fld, BitVec.toNat_ofNat]; omega
  have f_x : fld 6 12 u = x := by
    apply BitVec.eq_of_toNat_eq; simp only [fld, BitVec.toNat_ofNat]; omega
  have f_i : fld 12 0 u = i := by
    apply BitVec.eq_of_toNat_eq; simp only [fld, BitVec.toNat_ofNat]; omega
  unfold decodeI
  rw [he]
  show (Sys2Proof.chk (Instr.cmpi (fld 6 18 u) (fld 6 12 u) (fld 12 0 u))) = _
  rw [f_d, f_x, f_i]
  exact if_pos hw

theorem min (d : BitVec 6) (x : BitVec 6) (y : BitVec 6) : Statement (Instr.min d x y) := by
  intro k hk hw
  cases hk
  have b_d := d.isLt
  have b_x := x.isLt
  have b_y := y.isLt
  obtain ⟨u, h0⟩ : ∃ u, encodeI (Instr.min d x y) = u := ⟨_, rfl⟩
  show decodeI (encodeI (Instr.min d x y)) = _
  rw [h0]
  have hu : 0x32000000 + d.toNat * 2 ^ 18 + x.toNat * 2 ^ 12 + y.toNat * 2 ^ 6 = u := h0
  have he : u / 2 ^ 24 = 0x32 := by omega
  have hc : u % 64 = 0 := by omega
  have f_d : fld 6 18 u = d := by
    apply BitVec.eq_of_toNat_eq; simp only [fld, BitVec.toNat_ofNat]; omega
  have f_x : fld 6 12 u = x := by
    apply BitVec.eq_of_toNat_eq; simp only [fld, BitVec.toNat_ofNat]; omega
  have f_y : fld 6 6 u = y := by
    apply BitVec.eq_of_toNat_eq; simp only [fld, BitVec.toNat_ofNat]; omega
  unfold decodeI
  rw [he]
  show (if u % 64 = 0 then Sys2Proof.chk (Instr.min (fld 6 18 u) (fld 6 12 u) (fld 6 6 u)) else .error .reserved) = _
  rw [if_pos hc, f_d, f_x, f_y]
  exact if_pos hw

theorem max (d : BitVec 6) (x : BitVec 6) (y : BitVec 6) : Statement (Instr.max d x y) := by
  intro k hk hw
  cases hk
  have b_d := d.isLt
  have b_x := x.isLt
  have b_y := y.isLt
  obtain ⟨u, h0⟩ : ∃ u, encodeI (Instr.max d x y) = u := ⟨_, rfl⟩
  show decodeI (encodeI (Instr.max d x y)) = _
  rw [h0]
  have hu : 0x33000000 + d.toNat * 2 ^ 18 + x.toNat * 2 ^ 12 + y.toNat * 2 ^ 6 = u := h0
  have he : u / 2 ^ 24 = 0x33 := by omega
  have hc : u % 64 = 0 := by omega
  have f_d : fld 6 18 u = d := by
    apply BitVec.eq_of_toNat_eq; simp only [fld, BitVec.toNat_ofNat]; omega
  have f_x : fld 6 12 u = x := by
    apply BitVec.eq_of_toNat_eq; simp only [fld, BitVec.toNat_ofNat]; omega
  have f_y : fld 6 6 u = y := by
    apply BitVec.eq_of_toNat_eq; simp only [fld, BitVec.toNat_ofNat]; omega
  unfold decodeI
  rw [he]
  show (if u % 64 = 0 then Sys2Proof.chk (Instr.max (fld 6 18 u) (fld 6 12 u) (fld 6 6 u)) else .error .reserved) = _
  rw [if_pos hc, f_d, f_x, f_y]
  exact if_pos hw

theorem minn (d : BitVec 6) (x : BitVec 6) (y : BitVec 6) : Statement (Instr.minn d x y) := by
  intro k hk hw
  cases hk
  have b_d := d.isLt
  have b_x := x.isLt
  have b_y := y.isLt
  obtain ⟨u, h0⟩ : ∃ u, encodeI (Instr.minn d x y) = u := ⟨_, rfl⟩
  show decodeI (encodeI (Instr.minn d x y)) = _
  rw [h0]
  have hu : 0x34000000 + d.toNat * 2 ^ 18 + x.toNat * 2 ^ 12 + y.toNat * 2 ^ 6 = u := h0
  have he : u / 2 ^ 24 = 0x34 := by omega
  have hc : u % 64 = 0 := by omega
  have f_d : fld 6 18 u = d := by
    apply BitVec.eq_of_toNat_eq; simp only [fld, BitVec.toNat_ofNat]; omega
  have f_x : fld 6 12 u = x := by
    apply BitVec.eq_of_toNat_eq; simp only [fld, BitVec.toNat_ofNat]; omega
  have f_y : fld 6 6 u = y := by
    apply BitVec.eq_of_toNat_eq; simp only [fld, BitVec.toNat_ofNat]; omega
  unfold decodeI
  rw [he]
  show (if u % 64 = 0 then Sys2Proof.chk (Instr.minn (fld 6 18 u) (fld 6 12 u) (fld 6 6 u)) else .error .reserved) = _
  rw [if_pos hc, f_d, f_x, f_y]
  exact if_pos hw

theorem maxn (d : BitVec 6) (x : BitVec 6) (y : BitVec 6) : Statement (Instr.maxn d x y) := by
  intro k hk hw
  cases hk
  have b_d := d.isLt
  have b_x := x.isLt
  have b_y := y.isLt
  obtain ⟨u, h0⟩ : ∃ u, encodeI (Instr.maxn d x y) = u := ⟨_, rfl⟩
  show decodeI (encodeI (Instr.maxn d x y)) = _
  rw [h0]
  have hu : 0x35000000 + d.toNat * 2 ^ 18 + x.toNat * 2 ^ 12 + y.toNat * 2 ^ 6 = u := h0
  have he : u / 2 ^ 24 = 0x35 := by omega
  have hc : u % 64 = 0 := by omega
  have f_d : fld 6 18 u = d := by
    apply BitVec.eq_of_toNat_eq; simp only [fld, BitVec.toNat_ofNat]; omega
  have f_x : fld 6 12 u = x := by
    apply BitVec.eq_of_toNat_eq; simp only [fld, BitVec.toNat_ofNat]; omega
  have f_y : fld 6 6 u = y := by
    apply BitVec.eq_of_toNat_eq; simp only [fld, BitVec.toNat_ofNat]; omega
  unfold decodeI
  rw [he]
  show (if u % 64 = 0 then Sys2Proof.chk (Instr.maxn (fld 6 18 u) (fld 6 12 u) (fld 6 6 u)) else .error .reserved) = _
  rw [if_pos hc, f_d, f_x, f_y]
  exact if_pos hw

theorem sel (d : BitVec 6) (x : BitVec 6) (y : BitVec 6) (s : BitVec 6) : Statement (Instr.sel d x y s) := by
  intro k hk hw
  cases hk
  have b_d := d.isLt
  have b_x := x.isLt
  have b_y := y.isLt
  have b_s := s.isLt
  obtain ⟨u, h0⟩ : ∃ u, encodeI (Instr.sel d x y s) = u := ⟨_, rfl⟩
  show decodeI (encodeI (Instr.sel d x y s)) = _
  rw [h0]
  have hu : 0x36000000 + d.toNat * 2 ^ 18 + x.toNat * 2 ^ 12 + y.toNat * 2 ^ 6 + s.toNat * 2 ^ 0 = u := h0
  have he : u / 2 ^ 24 = 0x36 := by omega
  have f_d : fld 6 18 u = d := by
    apply BitVec.eq_of_toNat_eq; simp only [fld, BitVec.toNat_ofNat]; omega
  have f_x : fld 6 12 u = x := by
    apply BitVec.eq_of_toNat_eq; simp only [fld, BitVec.toNat_ofNat]; omega
  have f_y : fld 6 6 u = y := by
    apply BitVec.eq_of_toNat_eq; simp only [fld, BitVec.toNat_ofNat]; omega
  have f_s : fld 6 0 u = s := by
    apply BitVec.eq_of_toNat_eq; simp only [fld, BitVec.toNat_ofNat]; omega
  unfold decodeI
  rw [he]
  show (Sys2Proof.chk (Instr.sel (fld 6 18 u) (fld 6 12 u) (fld 6 6 u) (fld 6 0 u))) = _
  rw [f_d, f_x, f_y, f_s]
  exact if_pos hw

theorem movi (d : BitVec 6) (i : BitVec 18) : Statement (Instr.movi d i) := by
  intro k hk hw
  cases hk
  have b_d := d.isLt
  have b_i := i.isLt
  obtain ⟨u, h0⟩ : ∃ u, encodeI (Instr.movi d i) = u := ⟨_, rfl⟩
  show decodeI (encodeI (Instr.movi d i)) = _
  rw [h0]
  have hu : 0x38000000 + d.toNat * 2 ^ 18 + i.toNat * 2 ^ 0 = u := h0
  have he : u / 2 ^ 24 = 0x38 := by omega
  have f_d : fld 6 18 u = d := by
    apply BitVec.eq_of_toNat_eq; simp only [fld, BitVec.toNat_ofNat]; omega
  have f_i : fld 18 0 u = i := by
    apply BitVec.eq_of_toNat_eq; simp only [fld, BitVec.toNat_ofNat]; omega
  unfold decodeI
  rw [he]
  show (Sys2Proof.chk (Instr.movi (fld 6 18 u) (fld 18 0 u))) = _
  rw [f_d, f_i]
  exact if_pos hw

theorem lui (d : BitVec 6) (i : BitVec 18) : Statement (Instr.lui d i) := by
  intro k hk hw
  cases hk
  have b_d := d.isLt
  have b_i := i.isLt
  obtain ⟨u, h0⟩ : ∃ u, encodeI (Instr.lui d i) = u := ⟨_, rfl⟩
  show decodeI (encodeI (Instr.lui d i)) = _
  rw [h0]
  have hu : 0x39000000 + d.toNat * 2 ^ 18 + i.toNat * 2 ^ 0 = u := h0
  have he : u / 2 ^ 24 = 0x39 := by omega
  have f_d : fld 6 18 u = d := by
    apply BitVec.eq_of_toNat_eq; simp only [fld, BitVec.toNat_ofNat]; omega
  have f_i : fld 18 0 u = i := by
    apply BitVec.eq_of_toNat_eq; simp only [fld, BitVec.toNat_ofNat]; omega
  unfold decodeI
  rw [he]
  show (Sys2Proof.chk (Instr.lui (fld 6 18 u) (fld 18 0 u))) = _
  rw [f_d, f_i]
  exact if_pos hw

theorem clz (d : BitVec 6) (x : BitVec 6) : Statement (Instr.clz d x) := by
  intro k hk hw
  cases hk
  have b_d := d.isLt
  have b_x := x.isLt
  obtain ⟨u, h0⟩ : ∃ u, encodeI (Instr.clz d x) = u := ⟨_, rfl⟩
  show decodeI (encodeI (Instr.clz d x)) = _
  rw [h0]
  have hu : 0x3A000000 + d.toNat * 2 ^ 18 + x.toNat * 2 ^ 12 = u := h0
  have he : u / 2 ^ 24 = 0x3A := by omega
  have hc : u % 4096 = 0 := by omega
  have f_d : fld 6 18 u = d := by
    apply BitVec.eq_of_toNat_eq; simp only [fld, BitVec.toNat_ofNat]; omega
  have f_x : fld 6 12 u = x := by
    apply BitVec.eq_of_toNat_eq; simp only [fld, BitVec.toNat_ofNat]; omega
  unfold decodeI
  rw [he]
  show (if u % 4096 = 0 then Sys2Proof.chk (Instr.clz (fld 6 18 u) (fld 6 12 u)) else .error .reserved) = _
  rw [if_pos hc, f_d, f_x]
  exact if_pos hw

theorem ctz (d : BitVec 6) (x : BitVec 6) : Statement (Instr.ctz d x) := by
  intro k hk hw
  cases hk
  have b_d := d.isLt
  have b_x := x.isLt
  obtain ⟨u, h0⟩ : ∃ u, encodeI (Instr.ctz d x) = u := ⟨_, rfl⟩
  show decodeI (encodeI (Instr.ctz d x)) = _
  rw [h0]
  have hu : 0x3B000000 + d.toNat * 2 ^ 18 + x.toNat * 2 ^ 12 = u := h0
  have he : u / 2 ^ 24 = 0x3B := by omega
  have hc : u % 4096 = 0 := by omega
  have f_d : fld 6 18 u = d := by
    apply BitVec.eq_of_toNat_eq; simp only [fld, BitVec.toNat_ofNat]; omega
  have f_x : fld 6 12 u = x := by
    apply BitVec.eq_of_toNat_eq; simp only [fld, BitVec.toNat_ofNat]; omega
  unfold decodeI
  rw [he]
  show (if u % 4096 = 0 then Sys2Proof.chk (Instr.ctz (fld 6 18 u) (fld 6 12 u)) else .error .reserved) = _
  rw [if_pos hc, f_d, f_x]
  exact if_pos hw

theorem popc (d : BitVec 6) (x : BitVec 6) : Statement (Instr.popc d x) := by
  intro k hk hw
  cases hk
  have b_d := d.isLt
  have b_x := x.isLt
  obtain ⟨u, h0⟩ : ∃ u, encodeI (Instr.popc d x) = u := ⟨_, rfl⟩
  show decodeI (encodeI (Instr.popc d x)) = _
  rw [h0]
  have hu : 0x3C000000 + d.toNat * 2 ^ 18 + x.toNat * 2 ^ 12 = u := h0
  have he : u / 2 ^ 24 = 0x3C := by omega
  have hc : u % 4096 = 0 := by omega
  have f_d : fld 6 18 u = d := by
    apply BitVec.eq_of_toNat_eq; simp only [fld, BitVec.toNat_ofNat]; omega
  have f_x : fld 6 12 u = x := by
    apply BitVec.eq_of_toNat_eq; simp only [fld, BitVec.toNat_ofNat]; omega
  unfold decodeI
  rw [he]
  show (if u % 4096 = 0 then Sys2Proof.chk (Instr.popc (fld 6 18 u) (fld 6 12 u)) else .error .reserved) = _
  rw [if_pos hc, f_d, f_x]
  exact if_pos hw

theorem bfx (d : BitVec 6) (x : BitVec 6) (p : BitVec 6) (l : BitVec 6) : Statement (Instr.bfx d x p l) := by
  intro k hk hw
  cases hk
  have b_d := d.isLt
  have b_x := x.isLt
  have b_p := p.isLt
  have b_l := l.isLt
  obtain ⟨u, h0⟩ : ∃ u, encodeI (Instr.bfx d x p l) = u := ⟨_, rfl⟩
  show decodeI (encodeI (Instr.bfx d x p l)) = _
  rw [h0]
  have hu : 0x3D000000 + d.toNat * 2 ^ 18 + x.toNat * 2 ^ 12 + p.toNat * 2 ^ 6 + l.toNat * 2 ^ 0 = u := h0
  have he : u / 2 ^ 24 = 0x3D := by omega
  have f_d : fld 6 18 u = d := by
    apply BitVec.eq_of_toNat_eq; simp only [fld, BitVec.toNat_ofNat]; omega
  have f_x : fld 6 12 u = x := by
    apply BitVec.eq_of_toNat_eq; simp only [fld, BitVec.toNat_ofNat]; omega
  have f_p : fld 6 6 u = p := by
    apply BitVec.eq_of_toNat_eq; simp only [fld, BitVec.toNat_ofNat]; omega
  have f_l : fld 6 0 u = l := by
    apply BitVec.eq_of_toNat_eq; simp only [fld, BitVec.toNat_ofNat]; omega
  unfold decodeI
  rw [he]
  show (Sys2Proof.chk (Instr.bfx (fld 6 18 u) (fld 6 12 u) (fld 6 6 u) (fld 6 0 u))) = _
  rw [f_d, f_x, f_p, f_l]
  exact if_pos hw

theorem bfi (d : BitVec 6) (x : BitVec 6) (p : BitVec 6) (l : BitVec 6) : Statement (Instr.bfi d x p l) := by
  intro k hk hw
  cases hk
  have b_d := d.isLt
  have b_x := x.isLt
  have b_p := p.isLt
  have b_l := l.isLt
  obtain ⟨u, h0⟩ : ∃ u, encodeI (Instr.bfi d x p l) = u := ⟨_, rfl⟩
  show decodeI (encodeI (Instr.bfi d x p l)) = _
  rw [h0]
  have hu : 0x3E000000 + d.toNat * 2 ^ 18 + x.toNat * 2 ^ 12 + p.toNat * 2 ^ 6 + l.toNat * 2 ^ 0 = u := h0
  have he : u / 2 ^ 24 = 0x3E := by omega
  have f_d : fld 6 18 u = d := by
    apply BitVec.eq_of_toNat_eq; simp only [fld, BitVec.toNat_ofNat]; omega
  have f_x : fld 6 12 u = x := by
    apply BitVec.eq_of_toNat_eq; simp only [fld, BitVec.toNat_ofNat]; omega
  have f_p : fld 6 6 u = p := by
    apply BitVec.eq_of_toNat_eq; simp only [fld, BitVec.toNat_ofNat]; omega
  have f_l : fld 6 0 u = l := by
    apply BitVec.eq_of_toNat_eq; simp only [fld, BitVec.toNat_ofNat]; omega
  unfold decodeI
  rw [he]
  show (Sys2Proof.chk (Instr.bfi (fld 6 18 u) (fld 6 12 u) (fld 6 6 u) (fld 6 0 u))) = _
  rw [f_d, f_x, f_p, f_l]
  exact if_pos hw

theorem adda (d : BitVec 4) (x : BitVec 4) (i : BitVec 12) : Statement (Instr.adda d x i) := by
  intro k hk hw
  cases hk
  have b_d := d.isLt
  have b_x := x.isLt
  have b_i := i.isLt
  obtain ⟨u, h0⟩ : ∃ u, encodeI (Instr.adda d x i) = u := ⟨_, rfl⟩
  show decodeI (encodeI (Instr.adda d x i)) = _
  rw [h0]
  have hu : 0x40000000 + d.toNat * 2 ^ 18 + x.toNat * 2 ^ 12 + i.toNat * 2 ^ 0 = u := h0
  have he : u / 2 ^ 24 = 0x40 := by omega
  have hc : u / 2 ^ 16 % 4 = 0 ∧ u / 2 ^ 22 % 4 = 0 := by omega
  have f_d : fld 4 18 u = d := by
    apply BitVec.eq_of_toNat_eq; simp only [fld, BitVec.toNat_ofNat]; omega
  have f_x : fld 4 12 u = x := by
    apply BitVec.eq_of_toNat_eq; simp only [fld, BitVec.toNat_ofNat]; omega
  have f_i : fld 12 0 u = i := by
    apply BitVec.eq_of_toNat_eq; simp only [fld, BitVec.toNat_ofNat]; omega
  unfold decodeI
  rw [he]
  show (if u / 2 ^ 16 % 4 = 0 ∧ u / 2 ^ 22 % 4 = 0 then Sys2Proof.chk (Instr.adda (fld 4 18 u) (fld 4 12 u) (fld 12 0 u)) else .error .reserved) = _
  rw [if_pos hc, f_d, f_x, f_i]
  exact if_pos hw

theorem mva (d : BitVec 4) (x : BitVec 6) : Statement (Instr.mva d x) := by
  intro k hk hw
  cases hk
  have b_d := d.isLt
  have b_x := x.isLt
  obtain ⟨u, h0⟩ : ∃ u, encodeI (Instr.mva d x) = u := ⟨_, rfl⟩
  show decodeI (encodeI (Instr.mva d x)) = _
  rw [h0]
  have hu : 0x41000000 + d.toNat * 2 ^ 18 + x.toNat * 2 ^ 12 = u := h0
  have he : u / 2 ^ 24 = 0x41 := by omega
  have hc : u % 4096 = 0 ∧ u / 2 ^ 22 % 4 = 0 := by omega
  have f_d : fld 4 18 u = d := by
    apply BitVec.eq_of_toNat_eq; simp only [fld, BitVec.toNat_ofNat]; omega
  have f_x : fld 6 12 u = x := by
    apply BitVec.eq_of_toNat_eq; simp only [fld, BitVec.toNat_ofNat]; omega
  unfold decodeI
  rw [he]
  show (if u % 4096 = 0 ∧ u / 2 ^ 22 % 4 = 0 then Sys2Proof.chk (Instr.mva (fld 4 18 u) (fld 6 12 u)) else .error .reserved) = _
  rw [if_pos hc, f_d, f_x]
  exact if_pos hw

theorem mvs (d : BitVec 6) (x : BitVec 4) : Statement (Instr.mvs d x) := by
  intro k hk hw
  cases hk
  have b_d := d.isLt
  have b_x := x.isLt
  obtain ⟨u, h0⟩ : ∃ u, encodeI (Instr.mvs d x) = u := ⟨_, rfl⟩
  show decodeI (encodeI (Instr.mvs d x)) = _
  rw [h0]
  have hu : 0x42000000 + d.toNat * 2 ^ 18 + x.toNat * 2 ^ 12 = u := h0
  have he : u / 2 ^ 24 = 0x42 := by omega
  have hc : u % 4096 = 0 ∧ u / 2 ^ 16 % 4 = 0 := by omega
  have f_d : fld 6 18 u = d := by
    apply BitVec.eq_of_toNat_eq; simp only [fld, BitVec.toNat_ofNat]; omega
  have f_x : fld 4 12 u = x := by
    apply BitVec.eq_of_toNat_eq; simp only [fld, BitVec.toNat_ofNat]; omega
  unfold decodeI
  rw [he]
  show (if u % 4096 = 0 ∧ u / 2 ^ 16 % 4 = 0 then Sys2Proof.chk (Instr.mvs (fld 6 18 u) (fld 4 12 u)) else .error .reserved) = _
  rw [if_pos hc, f_d, f_x]
  exact if_pos hw

theorem spld (d : BitVec 6) (o : BitVec 12) : Statement (Instr.spld d o) := by
  intro k hk hw
  cases hk
  have b_d := d.isLt
  have b_o := o.isLt
  obtain ⟨u, h0⟩ : ∃ u, encodeI (Instr.spld d o) = u := ⟨_, rfl⟩
  show decodeI (encodeI (Instr.spld d o)) = _
  rw [h0]
  have hu : 0x44000000 + d.toNat * 2 ^ 18 + o.toNat * 2 ^ 0 = u := h0
  have he : u / 2 ^ 24 = 0x44 := by omega
  have hc : u / 2 ^ 12 % 64 = 0 := by omega
  have f_d : fld 6 18 u = d := by
    apply BitVec.eq_of_toNat_eq; simp only [fld, BitVec.toNat_ofNat]; omega
  have f_o : fld 12 0 u = o := by
    apply BitVec.eq_of_toNat_eq; simp only [fld, BitVec.toNat_ofNat]; omega
  unfold decodeI
  rw [he]
  show (if u / 2 ^ 12 % 64 = 0 then Sys2Proof.chk (Instr.spld (fld 6 18 u) (fld 12 0 u)) else .error .reserved) = _
  rw [if_pos hc, f_d, f_o]
  exact if_pos hw

theorem spst (d : BitVec 6) (o : BitVec 12) : Statement (Instr.spst d o) := by
  intro k hk hw
  cases hk
  have b_d := d.isLt
  have b_o := o.isLt
  obtain ⟨u, h0⟩ : ∃ u, encodeI (Instr.spst d o) = u := ⟨_, rfl⟩
  show decodeI (encodeI (Instr.spst d o)) = _
  rw [h0]
  have hu : 0x45000000 + d.toNat * 2 ^ 18 + o.toNat * 2 ^ 0 = u := h0
  have he : u / 2 ^ 24 = 0x45 := by omega
  have hc : u / 2 ^ 12 % 64 = 0 := by omega
  have f_d : fld 6 18 u = d := by
    apply BitVec.eq_of_toNat_eq; simp only [fld, BitVec.toNat_ofNat]; omega
  have f_o : fld 12 0 u = o := by
    apply BitVec.eq_of_toNat_eq; simp only [fld, BitVec.toNat_ofNat]; omega
  unfold decodeI
  rw [he]
  show (if u / 2 ^ 12 % 64 = 0 then Sys2Proof.chk (Instr.spst (fld 6 18 u) (fld 12 0 u)) else .error .reserved) = _
  rw [if_pos hc, f_d, f_o]
  exact if_pos hw

theorem fadd (d : BitVec 6) (x : BitVec 6) (y : BitVec 6) : Statement (Instr.fadd d x y) := by
  intro k hk hw
  cases hk
  have b_d := d.isLt
  have b_x := x.isLt
  have b_y := y.isLt
  obtain ⟨u, h0⟩ : ∃ u, encodeI (Instr.fadd d x y) = u := ⟨_, rfl⟩
  show decodeI (encodeI (Instr.fadd d x y)) = _
  rw [h0]
  have hu : 0x48000000 + d.toNat * 2 ^ 18 + x.toNat * 2 ^ 12 + y.toNat * 2 ^ 6 = u := h0
  have he : u / 2 ^ 24 = 0x48 := by omega
  have hc : u % 64 = 0 := by omega
  have f_d : fld 6 18 u = d := by
    apply BitVec.eq_of_toNat_eq; simp only [fld, BitVec.toNat_ofNat]; omega
  have f_x : fld 6 12 u = x := by
    apply BitVec.eq_of_toNat_eq; simp only [fld, BitVec.toNat_ofNat]; omega
  have f_y : fld 6 6 u = y := by
    apply BitVec.eq_of_toNat_eq; simp only [fld, BitVec.toNat_ofNat]; omega
  unfold decodeI
  rw [he]
  show (if u % 64 = 0 then Sys2Proof.chk (Instr.fadd (fld 6 18 u) (fld 6 12 u) (fld 6 6 u)) else .error .reserved) = _
  rw [if_pos hc, f_d, f_x, f_y]
  exact if_pos hw

theorem fsub (d : BitVec 6) (x : BitVec 6) (y : BitVec 6) : Statement (Instr.fsub d x y) := by
  intro k hk hw
  cases hk
  have b_d := d.isLt
  have b_x := x.isLt
  have b_y := y.isLt
  obtain ⟨u, h0⟩ : ∃ u, encodeI (Instr.fsub d x y) = u := ⟨_, rfl⟩
  show decodeI (encodeI (Instr.fsub d x y)) = _
  rw [h0]
  have hu : 0x49000000 + d.toNat * 2 ^ 18 + x.toNat * 2 ^ 12 + y.toNat * 2 ^ 6 = u := h0
  have he : u / 2 ^ 24 = 0x49 := by omega
  have hc : u % 64 = 0 := by omega
  have f_d : fld 6 18 u = d := by
    apply BitVec.eq_of_toNat_eq; simp only [fld, BitVec.toNat_ofNat]; omega
  have f_x : fld 6 12 u = x := by
    apply BitVec.eq_of_toNat_eq; simp only [fld, BitVec.toNat_ofNat]; omega
  have f_y : fld 6 6 u = y := by
    apply BitVec.eq_of_toNat_eq; simp only [fld, BitVec.toNat_ofNat]; omega
  unfold decodeI
  rw [he]
  show (if u % 64 = 0 then Sys2Proof.chk (Instr.fsub (fld 6 18 u) (fld 6 12 u) (fld 6 6 u)) else .error .reserved) = _
  rw [if_pos hc, f_d, f_x, f_y]
  exact if_pos hw

theorem fmul (d : BitVec 6) (x : BitVec 6) (y : BitVec 6) : Statement (Instr.fmul d x y) := by
  intro k hk hw
  cases hk
  have b_d := d.isLt
  have b_x := x.isLt
  have b_y := y.isLt
  obtain ⟨u, h0⟩ : ∃ u, encodeI (Instr.fmul d x y) = u := ⟨_, rfl⟩
  show decodeI (encodeI (Instr.fmul d x y)) = _
  rw [h0]
  have hu : 0x4A000000 + d.toNat * 2 ^ 18 + x.toNat * 2 ^ 12 + y.toNat * 2 ^ 6 = u := h0
  have he : u / 2 ^ 24 = 0x4A := by omega
  have hc : u % 64 = 0 := by omega
  have f_d : fld 6 18 u = d := by
    apply BitVec.eq_of_toNat_eq; simp only [fld, BitVec.toNat_ofNat]; omega
  have f_x : fld 6 12 u = x := by
    apply BitVec.eq_of_toNat_eq; simp only [fld, BitVec.toNat_ofNat]; omega
  have f_y : fld 6 6 u = y := by
    apply BitVec.eq_of_toNat_eq; simp only [fld, BitVec.toNat_ofNat]; omega
  unfold decodeI
  rw [he]
  show (if u % 64 = 0 then Sys2Proof.chk (Instr.fmul (fld 6 18 u) (fld 6 12 u) (fld 6 6 u)) else .error .reserved) = _
  rw [if_pos hc, f_d, f_x, f_y]
  exact if_pos hw

theorem fma (d : BitVec 6) (x : BitVec 6) (y : BitVec 6) (z : BitVec 6) : Statement (Instr.fma d x y z) := by
  intro k hk hw
  cases hk
  have b_d := d.isLt
  have b_x := x.isLt
  have b_y := y.isLt
  have b_z := z.isLt
  obtain ⟨u, h0⟩ : ∃ u, encodeI (Instr.fma d x y z) = u := ⟨_, rfl⟩
  show decodeI (encodeI (Instr.fma d x y z)) = _
  rw [h0]
  have hu : 0x4B000000 + d.toNat * 2 ^ 18 + x.toNat * 2 ^ 12 + y.toNat * 2 ^ 6 + z.toNat * 2 ^ 0 = u := h0
  have he : u / 2 ^ 24 = 0x4B := by omega
  have f_d : fld 6 18 u = d := by
    apply BitVec.eq_of_toNat_eq; simp only [fld, BitVec.toNat_ofNat]; omega
  have f_x : fld 6 12 u = x := by
    apply BitVec.eq_of_toNat_eq; simp only [fld, BitVec.toNat_ofNat]; omega
  have f_y : fld 6 6 u = y := by
    apply BitVec.eq_of_toNat_eq; simp only [fld, BitVec.toNat_ofNat]; omega
  have f_z : fld 6 0 u = z := by
    apply BitVec.eq_of_toNat_eq; simp only [fld, BitVec.toNat_ofNat]; omega
  unfold decodeI
  rw [he]
  show (Sys2Proof.chk (Instr.fma (fld 6 18 u) (fld 6 12 u) (fld 6 6 u) (fld 6 0 u))) = _
  rw [f_d, f_x, f_y, f_z]
  exact if_pos hw

theorem fmin (d : BitVec 6) (x : BitVec 6) (y : BitVec 6) : Statement (Instr.fmin d x y) := by
  intro k hk hw
  cases hk
  have b_d := d.isLt
  have b_x := x.isLt
  have b_y := y.isLt
  obtain ⟨u, h0⟩ : ∃ u, encodeI (Instr.fmin d x y) = u := ⟨_, rfl⟩
  show decodeI (encodeI (Instr.fmin d x y)) = _
  rw [h0]
  have hu : 0x4C000000 + d.toNat * 2 ^ 18 + x.toNat * 2 ^ 12 + y.toNat * 2 ^ 6 = u := h0
  have he : u / 2 ^ 24 = 0x4C := by omega
  have hc : u % 64 = 0 := by omega
  have f_d : fld 6 18 u = d := by
    apply BitVec.eq_of_toNat_eq; simp only [fld, BitVec.toNat_ofNat]; omega
  have f_x : fld 6 12 u = x := by
    apply BitVec.eq_of_toNat_eq; simp only [fld, BitVec.toNat_ofNat]; omega
  have f_y : fld 6 6 u = y := by
    apply BitVec.eq_of_toNat_eq; simp only [fld, BitVec.toNat_ofNat]; omega
  unfold decodeI
  rw [he]
  show (if u % 64 = 0 then Sys2Proof.chk (Instr.fmin (fld 6 18 u) (fld 6 12 u) (fld 6 6 u)) else .error .reserved) = _
  rw [if_pos hc, f_d, f_x, f_y]
  exact if_pos hw

theorem fmax (d : BitVec 6) (x : BitVec 6) (y : BitVec 6) : Statement (Instr.fmax d x y) := by
  intro k hk hw
  cases hk
  have b_d := d.isLt
  have b_x := x.isLt
  have b_y := y.isLt
  obtain ⟨u, h0⟩ : ∃ u, encodeI (Instr.fmax d x y) = u := ⟨_, rfl⟩
  show decodeI (encodeI (Instr.fmax d x y)) = _
  rw [h0]
  have hu : 0x4D000000 + d.toNat * 2 ^ 18 + x.toNat * 2 ^ 12 + y.toNat * 2 ^ 6 = u := h0
  have he : u / 2 ^ 24 = 0x4D := by omega
  have hc : u % 64 = 0 := by omega
  have f_d : fld 6 18 u = d := by
    apply BitVec.eq_of_toNat_eq; simp only [fld, BitVec.toNat_ofNat]; omega
  have f_x : fld 6 12 u = x := by
    apply BitVec.eq_of_toNat_eq; simp only [fld, BitVec.toNat_ofNat]; omega
  have f_y : fld 6 6 u = y := by
    apply BitVec.eq_of_toNat_eq; simp only [fld, BitVec.toNat_ofNat]; omega
  unfold decodeI
  rw [he]
  show (if u % 64 = 0 then Sys2Proof.chk (Instr.fmax (fld 6 18 u) (fld 6 12 u) (fld 6 6 u)) else .error .reserved) = _
  rw [if_pos hc, f_d, f_x, f_y]
  exact if_pos hw

theorem fcmp (d : BitVec 6) (x : BitVec 6) (y : BitVec 6) (c : BitVec 3) : Statement (Instr.fcmp d x y c) := by
  intro k hk hw
  cases hk
  have b_d := d.isLt
  have b_x := x.isLt
  have b_y := y.isLt
  have b_c := c.isLt
  obtain ⟨u, h0⟩ : ∃ u, encodeI (Instr.fcmp d x y c) = u := ⟨_, rfl⟩
  show decodeI (encodeI (Instr.fcmp d x y c)) = _
  rw [h0]
  have hu : 0x4E000000 + d.toNat * 2 ^ 18 + x.toNat * 2 ^ 12 + y.toNat * 2 ^ 6 + c.toNat * 2 ^ 0 = u := h0
  have he : u / 2 ^ 24 = 0x4E := by omega
  have hc : u / 2 ^ 3 % 8 = 0 := by omega
  have f_d : fld 6 18 u = d := by
    apply BitVec.eq_of_toNat_eq; simp only [fld, BitVec.toNat_ofNat]; omega
  have f_x : fld 6 12 u = x := by
    apply BitVec.eq_of_toNat_eq; simp only [fld, BitVec.toNat_ofNat]; omega
  have f_y : fld 6 6 u = y := by
    apply BitVec.eq_of_toNat_eq; simp only [fld, BitVec.toNat_ofNat]; omega
  have f_c : fld 3 0 u = c := by
    apply BitVec.eq_of_toNat_eq; simp only [fld, BitVec.toNat_ofNat]; omega
  unfold decodeI
  rw [he]
  show (if u / 2 ^ 3 % 8 = 0 then Sys2Proof.chk (Instr.fcmp (fld 6 18 u) (fld 6 12 u) (fld 6 6 u) (fld 3 0 u)) else .error .reserved) = _
  rw [if_pos hc, f_d, f_x, f_y, f_c]
  exact if_pos hw

theorem fcvt (d : BitVec 6) (x : BitVec 6) (r : BitVec 1) (c : BitVec 5) : Statement (Instr.fcvt d x r c) := by
  intro k hk hw
  cases hk
  have b_d := d.isLt
  have b_x := x.isLt
  have b_r := r.isLt
  have b_c := c.isLt
  obtain ⟨u, h0⟩ : ∃ u, encodeI (Instr.fcvt d x r c) = u := ⟨_, rfl⟩
  show decodeI (encodeI (Instr.fcvt d x r c)) = _
  rw [h0]
  have hu : 0x4F000000 + d.toNat * 2 ^ 18 + x.toNat * 2 ^ 12 + r.toNat * 2 ^ 5 + c.toNat * 2 ^ 0 = u := h0
  have he : u / 2 ^ 24 = 0x4F := by omega
  have hc : u / 2 ^ 6 % 64 = 0 := by omega
  have f_d : fld 6 18 u = d := by
    apply BitVec.eq_of_toNat_eq; simp only [fld, BitVec.toNat_ofNat]; omega
  have f_x : fld 6 12 u = x := by
    apply BitVec.eq_of_toNat_eq; simp only [fld, BitVec.toNat_ofNat]; omega
  have f_r : fld 1 5 u = r := by
    apply BitVec.eq_of_toNat_eq; simp only [fld, BitVec.toNat_ofNat]; omega
  have f_c : fld 5 0 u = c := by
    apply BitVec.eq_of_toNat_eq; simp only [fld, BitVec.toNat_ofNat]; omega
  unfold decodeI
  rw [he]
  show (if u / 2 ^ 6 % 64 = 0 then Sys2Proof.chk (Instr.fcvt (fld 6 18 u) (fld 6 12 u) (fld 1 5 u) (fld 5 0 u)) else .error .reserved) = _
  rw [if_pos hc, f_d, f_x, f_r, f_c]
  exact if_pos hw

theorem mfc (d : BitVec 6) (n : BitVec 12) : Statement (Instr.mfc d n) := by
  intro k hk hw
  cases hk
  have b_d := d.isLt
  have b_n := n.isLt
  obtain ⟨u, h0⟩ : ∃ u, encodeI (Instr.mfc d n) = u := ⟨_, rfl⟩
  show decodeI (encodeI (Instr.mfc d n)) = _
  rw [h0]
  have hu : 0x50000000 + d.toNat * 2 ^ 18 + n.toNat * 2 ^ 0 = u := h0
  have he : u / 2 ^ 24 = 0x50 := by omega
  have hc : u / 2 ^ 12 % 64 = 0 := by omega
  have f_d : fld 6 18 u = d := by
    apply BitVec.eq_of_toNat_eq; simp only [fld, BitVec.toNat_ofNat]; omega
  have f_n : fld 12 0 u = n := by
    apply BitVec.eq_of_toNat_eq; simp only [fld, BitVec.toNat_ofNat]; omega
  unfold decodeI
  rw [he]
  show (if u / 2 ^ 12 % 64 = 0 then Sys2Proof.chk (Instr.mfc (fld 6 18 u) (fld 12 0 u)) else .error .reserved) = _
  rw [if_pos hc, f_d, f_n]
  exact if_pos hw

theorem mtc (d : BitVec 6) (n : BitVec 12) : Statement (Instr.mtc d n) := by
  intro k hk hw
  cases hk
  have b_d := d.isLt
  have b_n := n.isLt
  obtain ⟨u, h0⟩ : ∃ u, encodeI (Instr.mtc d n) = u := ⟨_, rfl⟩
  show decodeI (encodeI (Instr.mtc d n)) = _
  rw [h0]
  have hu : 0x51000000 + d.toNat * 2 ^ 18 + n.toNat * 2 ^ 0 = u := h0
  have he : u / 2 ^ 24 = 0x51 := by omega
  have hc : u / 2 ^ 12 % 64 = 0 := by omega
  have f_d : fld 6 18 u = d := by
    apply BitVec.eq_of_toNat_eq; simp only [fld, BitVec.toNat_ofNat]; omega
  have f_n : fld 12 0 u = n := by
    apply BitVec.eq_of_toNat_eq; simp only [fld, BitVec.toNat_ofNat]; omega
  unfold decodeI
  rw [he]
  show (if u / 2 ^ 12 % 64 = 0 then Sys2Proof.chk (Instr.mtc (fld 6 18 u) (fld 12 0 u)) else .error .reserved) = _
  rw [if_pos hc, f_d, f_n]
  exact if_pos hw

theorem rdt (d : BitVec 6) (f : BitVec 6) : Statement (Instr.rdt d f) := by
  intro k hk hw
  cases hk
  have b_d := d.isLt
  have b_f := f.isLt
  obtain ⟨u, h0⟩ : ∃ u, encodeI (Instr.rdt d f) = u := ⟨_, rfl⟩
  show decodeI (encodeI (Instr.rdt d f)) = _
  rw [h0]
  have hu : 0x52000000 + d.toNat * 2 ^ 18 + f.toNat * 2 ^ 0 = u := h0
  have he : u / 2 ^ 24 = 0x52 := by omega
  have hc : u / 2 ^ 6 % 4096 = 0 := by omega
  have f_d : fld 6 18 u = d := by
    apply BitVec.eq_of_toNat_eq; simp only [fld, BitVec.toNat_ofNat]; omega
  have f_f : fld 6 0 u = f := by
    apply BitVec.eq_of_toNat_eq; simp only [fld, BitVec.toNat_ofNat]; omega
  unfold decodeI
  rw [he]
  show (if u / 2 ^ 6 % 4096 = 0 then Sys2Proof.chk (Instr.rdt (fld 6 18 u) (fld 6 0 u)) else .error .reserved) = _
  rw [if_pos hc, f_d, f_f]
  exact if_pos hw

theorem takem (d : BitVec 6) (m : BitVec 5) : Statement (Instr.takem d m) := by
  intro k hk hw
  cases hk
  have b_d := d.isLt
  have b_m := m.isLt
  obtain ⟨u, h0⟩ : ∃ u, encodeI (Instr.takem d m) = u := ⟨_, rfl⟩
  show decodeI (encodeI (Instr.takem d m)) = _
  rw [h0]
  have hu : 0x53000000 + d.toNat * 2 ^ 18 + m.toNat * 2 ^ 0 = u := h0
  have he : u / 2 ^ 24 = 0x53 := by omega
  have hc : u / 2 ^ 5 % 8192 = 0 := by omega
  have f_d : fld 6 18 u = d := by
    apply BitVec.eq_of_toNat_eq; simp only [fld, BitVec.toNat_ofNat]; omega
  have f_m : fld 5 0 u = m := by
    apply BitVec.eq_of_toNat_eq; simp only [fld, BitVec.toNat_ofNat]; omega
  unfold decodeI
  rw [he]
  show (if u / 2 ^ 5 % 8192 = 0 then Sys2Proof.chk (Instr.takem (fld 6 18 u) (fld 5 0 u)) else .error .reserved) = _
  rw [if_pos hc, f_d, f_m]
  exact if_pos hw

theorem br (c : BitVec 2) (p : BitVec 2) (o : BitVec 18) : Statement (Instr.br c p o) := by
  intro k hk hw
  cases hk
  have b_c := c.isLt
  have b_p := p.isLt
  have b_o := o.isLt
  obtain ⟨u, h0⟩ : ∃ u, encodeI (Instr.br c p o) = u := ⟨_, rfl⟩
  show decodeI (encodeI (Instr.br c p o)) = _
  rw [h0]
  have hu : 0x58000000 + c.toNat * 2 ^ 22 + p.toNat * 2 ^ 20 + o.toNat * 2 ^ 0 = u := h0
  have he : u / 2 ^ 24 = 0x58 := by omega
  have hc : u / 2 ^ 18 % 4 = 0 := by omega
  have f_c : fld 2 22 u = c := by
    apply BitVec.eq_of_toNat_eq; simp only [fld, BitVec.toNat_ofNat]; omega
  have f_p : fld 2 20 u = p := by
    apply BitVec.eq_of_toNat_eq; simp only [fld, BitVec.toNat_ofNat]; omega
  have f_o : fld 18 0 u = o := by
    apply BitVec.eq_of_toNat_eq; simp only [fld, BitVec.toNat_ofNat]; omega
  unfold decodeI
  rw [he]
  show (if u / 2 ^ 18 % 4 = 0 then Sys2Proof.chk (Instr.br (fld 2 22 u) (fld 2 20 u) (fld 18 0 u)) else .error .reserved) = _
  rw [if_pos hc, f_c, f_p, f_o]
  exact if_pos hw

theorem brz (x : BitVec 6) (o : BitVec 18) : Statement (Instr.brz x o) := by
  intro k hk hw
  cases hk
  have b_x := x.isLt
  have b_o := o.isLt
  obtain ⟨u, h0⟩ : ∃ u, encodeI (Instr.brz x o) = u := ⟨_, rfl⟩
  show decodeI (encodeI (Instr.brz x o)) = _
  rw [h0]
  have hu : 0x59000000 + x.toNat * 2 ^ 18 + o.toNat * 2 ^ 0 = u := h0
  have he : u / 2 ^ 24 = 0x59 := by omega
  have f_x : fld 6 18 u = x := by
    apply BitVec.eq_of_toNat_eq; simp only [fld, BitVec.toNat_ofNat]; omega
  have f_o : fld 18 0 u = o := by
    apply BitVec.eq_of_toNat_eq; simp only [fld, BitVec.toNat_ofNat]; omega
  unfold decodeI
  rw [he]
  show (Sys2Proof.chk (Instr.brz (fld 6 18 u) (fld 18 0 u))) = _
  rw [f_x, f_o]
  exact if_pos hw

theorem brnz (x : BitVec 6) (o : BitVec 18) : Statement (Instr.brnz x o) := by
  intro k hk hw
  cases hk
  have b_x := x.isLt
  have b_o := o.isLt
  obtain ⟨u, h0⟩ : ∃ u, encodeI (Instr.brnz x o) = u := ⟨_, rfl⟩
  show decodeI (encodeI (Instr.brnz x o)) = _
  rw [h0]
  have hu : 0x5A000000 + x.toNat * 2 ^ 18 + o.toNat * 2 ^ 0 = u := h0
  have he : u / 2 ^ 24 = 0x5A := by omega
  have f_x : fld 6 18 u = x := by
    apply BitVec.eq_of_toNat_eq; simp only [fld, BitVec.toNat_ofNat]; omega
  have f_o : fld 18 0 u = o := by
    apply BitVec.eq_of_toNat_eq; simp only [fld, BitVec.toNat_ofNat]; omega
  unfold decodeI
  rw [he]
  show (Sys2Proof.chk (Instr.brnz (fld 6 18 u) (fld 18 0 u))) = _
  rw [f_x, f_o]
  exact if_pos hw

theorem jmp (x : BitVec 6) : Statement (Instr.jmp x) := by
  intro k hk hw
  cases hk
  have b_x := x.isLt
  obtain ⟨u, h0⟩ : ∃ u, encodeI (Instr.jmp x) = u := ⟨_, rfl⟩
  show decodeI (encodeI (Instr.jmp x)) = _
  rw [h0]
  have hu : 0x5B000000 + x.toNat * 2 ^ 12 = u := h0
  have he : u / 2 ^ 24 = 0x5B := by omega
  have hc : u % 4096 = 0 ∧ u / 2 ^ 18 % 64 = 0 := by omega
  have f_x : fld 6 12 u = x := by
    apply BitVec.eq_of_toNat_eq; simp only [fld, BitVec.toNat_ofNat]; omega
  unfold decodeI
  rw [he]
  show (if u % 4096 = 0 ∧ u / 2 ^ 18 % 64 = 0 then Sys2Proof.chk (Instr.jmp (fld 6 12 u)) else .error .reserved) = _
  rw [if_pos hc, f_x]
  exact if_pos hw

theorem call (o : BitVec 18) : Statement (Instr.call o) := by
  intro k hk hw
  cases hk
  have b_o := o.isLt
  obtain ⟨u, h0⟩ : ∃ u, encodeI (Instr.call o) = u := ⟨_, rfl⟩
  show decodeI (encodeI (Instr.call o)) = _
  rw [h0]
  have hu : 0x5C000000 + o.toNat * 2 ^ 0 = u := h0
  have he : u / 2 ^ 24 = 0x5C := by omega
  have hc : u / 2 ^ 18 % 64 = 0 := by omega
  have f_o : fld 18 0 u = o := by
    apply BitVec.eq_of_toNat_eq; simp only [fld, BitVec.toNat_ofNat]; omega
  unfold decodeI
  rw [he]
  show (if u / 2 ^ 18 % 64 = 0 then Sys2Proof.chk (Instr.call (fld 18 0 u)) else .error .reserved) = _
  rw [if_pos hc, f_o]
  exact if_pos hw

theorem loop (l : BitVec 2) (o : BitVec 18) : Statement (Instr.loop l o) := by
  intro k hk hw
  cases hk
  have b_l := l.isLt
  have b_o := o.isLt
  obtain ⟨u, h0⟩ : ∃ u, encodeI (Instr.loop l o) = u := ⟨_, rfl⟩
  show decodeI (encodeI (Instr.loop l o)) = _
  rw [h0]
  have hu : 0x5D000000 + l.toNat * 2 ^ 18 + o.toNat * 2 ^ 0 = u := h0
  have he : u / 2 ^ 24 = 0x5D := by omega
  have hc : u / 2 ^ 20 % 16 = 0 := by omega
  have f_l : fld 2 18 u = l := by
    apply BitVec.eq_of_toNat_eq; simp only [fld, BitVec.toNat_ofNat]; omega
  have f_o : fld 18 0 u = o := by
    apply BitVec.eq_of_toNat_eq; simp only [fld, BitVec.toNat_ofNat]; omega
  unfold decodeI
  rw [he]
  show (if u / 2 ^ 20 % 16 = 0 then Sys2Proof.chk (Instr.loop (fld 2 18 u) (fld 18 0 u)) else .error .reserved) = _
  rw [if_pos hc, f_l, f_o]
  exact if_pos hw

theorem rep (r : BitVec 6) (n : BitVec 4) (c : BitVec 14) : Statement (Instr.rep r n c) := by
  intro k hk hw
  cases hk
  have b_r := r.isLt
  have b_n := n.isLt
  have b_c := c.isLt
  obtain ⟨u, h0⟩ : ∃ u, encodeI (Instr.rep r n c) = u := ⟨_, rfl⟩
  show decodeI (encodeI (Instr.rep r n c)) = _
  rw [h0]
  have hu : 0x5E000000 + r.toNat * 2 ^ 18 + n.toNat * 2 ^ 14 + c.toNat * 2 ^ 0 = u := h0
  have he : u / 2 ^ 24 = 0x5E := by omega
  have f_r : fld 6 18 u = r := by
    apply BitVec.eq_of_toNat_eq; simp only [fld, BitVec.toNat_ofNat]; omega
  have f_n : fld 4 14 u = n := by
    apply BitVec.eq_of_toNat_eq; simp only [fld, BitVec.toNat_ofNat]; omega
  have f_c : fld 14 0 u = c := by
    apply BitVec.eq_of_toNat_eq; simp only [fld, BitVec.toNat_ofNat]; omega
  unfold decodeI
  rw [he]
  show (Sys2Proof.chk (Instr.rep (fld 6 18 u) (fld 4 14 u) (fld 14 0 u))) = _
  rw [f_r, f_n, f_c]
  exact if_pos hw

theorem halt (m : BitVec 4) : Statement (Instr.halt m) := by
  intro k hk hw
  cases hk
  have b_m := m.isLt
  obtain ⟨u, h0⟩ : ∃ u, encodeI (Instr.halt m) = u := ⟨_, rfl⟩
  show decodeI (encodeI (Instr.halt m)) = _
  rw [h0]
  have hu : 0x5F000000 + m.toNat * 2 ^ 0 = u := h0
  have he : u / 2 ^ 24 = 0x5F := by omega
  have hc : u / 2 ^ 4 % 1048576 = 0 := by omega
  have f_m : fld 4 0 u = m := by
    apply BitVec.eq_of_toNat_eq; simp only [fld, BitVec.toNat_ofNat]; omega
  unfold decodeI
  rw [he]
  show (if u / 2 ^ 4 % 1048576 = 0 then Sys2Proof.chk (Instr.halt (fld 4 0 u)) else .error .reserved) = _
  rw [if_pos hc, f_m]
  exact if_pos hw

theorem start (d : BitVec 6) (h : BitVec 4) (e : BitVec 14) : Statement (Instr.start d h e) := by
  intro k hk hw
  cases hk
  have b_d := d.isLt
  have b_h := h.isLt
  have b_e := e.isLt
  obtain ⟨u, h0⟩ : ∃ u, encodeI (Instr.start d h e) = u := ⟨_, rfl⟩
  show decodeI (encodeI (Instr.start d h e)) = _
  rw [h0]
  have hu : 0x60000000 + d.toNat * 2 ^ 18 + h.toNat * 2 ^ 14 + e.toNat * 2 ^ 0 = u := h0
  have he : u / 2 ^ 24 = 0x60 := by omega
  have f_d : fld 6 18 u = d := by
    apply BitVec.eq_of_toNat_eq; simp only [fld, BitVec.toNat_ofNat]; omega
  have f_h : fld 4 14 u = h := by
    apply BitVec.eq_of_toNat_eq; simp only [fld, BitVec.toNat_ofNat]; omega
  have f_e : fld 14 0 u = e := by
    apply BitVec.eq_of_toNat_eq; simp only [fld, BitVec.toNat_ofNat]; omega
  unfold decodeI
  rw [he]
  show (Sys2Proof.chk (Instr.start (fld 6 18 u) (fld 4 14 u) (fld 14 0 u))) = _
  rw [f_d, f_h, f_e]
  exact if_pos hw

theorem trap (d : BitVec 6) (c : BitVec 8) : Statement (Instr.trap d c) := by
  intro k hk hw
  cases hk
  have b_d := d.isLt
  have b_c := c.isLt
  obtain ⟨u, h0⟩ : ∃ u, encodeI (Instr.trap d c) = u := ⟨_, rfl⟩
  show decodeI (encodeI (Instr.trap d c)) = _
  rw [h0]
  have hu : 0x61000000 + d.toNat * 2 ^ 18 + c.toNat * 2 ^ 0 = u := h0
  have he : u / 2 ^ 24 = 0x61 := by omega
  have hc : u / 2 ^ 8 % 1024 = 0 := by omega
  have f_d : fld 6 18 u = d := by
    apply BitVec.eq_of_toNat_eq; simp only [fld, BitVec.toNat_ofNat]; omega
  have f_c : fld 8 0 u = c := by
    apply BitVec.eq_of_toNat_eq; simp only [fld, BitVec.toNat_ofNat]; omega
  unfold decodeI
  rw [he]
  show (if u / 2 ^ 8 % 1024 = 0 then Sys2Proof.chk (Instr.trap (fld 6 18 u) (fld 8 0 u)) else .error .reserved) = _
  rw [if_pos hc, f_d, f_c]
  exact if_pos hw

theorem ld (d : BitVec 6) (x : BitVec 6) (w : BitVec 2) (i : BitVec 10) : Statement (Instr.ld d x w i) := by
  intro k hk hw
  cases hk
  have b_d := d.isLt
  have b_x := x.isLt
  have b_w := w.isLt
  have b_i := i.isLt
  obtain ⟨u, h0⟩ : ∃ u, encodeM (Instr.ld d x w i) = u := ⟨_, rfl⟩
  show decodeM (encodeM (Instr.ld d x w i)) = _
  rw [h0]
  have hu : 0x10000000 + d.toNat * 2 ^ 18 + x.toNat * 2 ^ 12 + w.toNat * 2 ^ 10 + i.toNat * 2 ^ 0 = u := h0
  have he : u / 2 ^ 24 = 0x10 := by omega
  have f_d : fld 6 18 u = d := by
    apply BitVec.eq_of_toNat_eq; simp only [fld, BitVec.toNat_ofNat]; omega
  have f_x : fld 6 12 u = x := by
    apply BitVec.eq_of_toNat_eq; simp only [fld, BitVec.toNat_ofNat]; omega
  have f_w : fld 2 10 u = w := by
    apply BitVec.eq_of_toNat_eq; simp only [fld, BitVec.toNat_ofNat]; omega
  have f_i : fld 10 0 u = i := by
    apply BitVec.eq_of_toNat_eq; simp only [fld, BitVec.toNat_ofNat]; omega
  unfold decodeM
  rw [he]
  show (Sys2Proof.chk (Instr.ld (fld 6 18 u) (fld 6 12 u) (fld 2 10 u) (fld 10 0 u))) = _
  rw [f_d, f_x, f_w, f_i]
  exact if_pos hw

theorem st (d : BitVec 6) (x : BitVec 6) (w : BitVec 2) (i : BitVec 10) : Statement (Instr.st d x w i) := by
  intro k hk hw
  cases hk
  have b_d := d.isLt
  have b_x := x.isLt
  have b_w := w.isLt
  have b_i := i.isLt
  obtain ⟨u, h0⟩ : ∃ u, encodeM (Instr.st d x w i) = u := ⟨_, rfl⟩
  show decodeM (encodeM (Instr.st d x w i)) = _
  rw [h0]
  have hu : 0x11000000 + d.toNat * 2 ^ 18 + x.toNat * 2 ^ 12 + w.toNat * 2 ^ 10 + i.toNat * 2 ^ 0 = u := h0
  have he : u / 2 ^ 24 = 0x11 := by omega
  have f_d : fld 6 18 u = d := by
    apply BitVec.eq_of_toNat_eq; simp only [fld, BitVec.toNat_ofNat]; omega
  have f_x : fld 6 12 u = x := by
    apply BitVec.eq_of_toNat_eq; simp only [fld, BitVec.toNat_ofNat]; omega
  have f_w : fld 2 10 u = w := by
    apply BitVec.eq_of_toNat_eq; simp only [fld, BitVec.toNat_ofNat]; omega
  have f_i : fld 10 0 u = i := by
    apply BitVec.eq_of_toNat_eq; simp only [fld, BitVec.toNat_ofNat]; omega
  unfold decodeM
  rw [he]
  show (Sys2Proof.chk (Instr.st (fld 6 18 u) (fld 6 12 u) (fld 2 10 u) (fld 10 0 u))) = _
  rw [f_d, f_x, f_w, f_i]
  exact if_pos hw

theorem ldacq (d : BitVec 6) (x : BitVec 6) (i : BitVec 10) : Statement (Instr.ldacq d x i) := by
  intro k hk hw
  cases hk
  have b_d := d.isLt
  have b_x := x.isLt
  have b_i := i.isLt
  obtain ⟨u, h0⟩ : ∃ u, encodeM (Instr.ldacq d x i) = u := ⟨_, rfl⟩
  show decodeM (encodeM (Instr.ldacq d x i)) = _
  rw [h0]
  have hu : 0x12000C00 + d.toNat * 2 ^ 18 + x.toNat * 2 ^ 12 + i.toNat * 2 ^ 0 = u := h0
  have he : u / 2 ^ 24 = 0x12 := by omega
  have hc : u / 2 ^ 10 % 4 = 3 := by omega
  have f_d : fld 6 18 u = d := by
    apply BitVec.eq_of_toNat_eq; simp only [fld, BitVec.toNat_ofNat]; omega
  have f_x : fld 6 12 u = x := by
    apply BitVec.eq_of_toNat_eq; simp only [fld, BitVec.toNat_ofNat]; omega
  have f_i : fld 10 0 u = i := by
    apply BitVec.eq_of_toNat_eq; simp only [fld, BitVec.toNat_ofNat]; omega
  unfold decodeM
  rw [he]
  show (if u / 2 ^ 10 % 4 = 3 then Sys2Proof.chk (Instr.ldacq (fld 6 18 u) (fld 6 12 u) (fld 10 0 u)) else .error .reserved) = _
  rw [if_pos hc, f_d, f_x, f_i]
  exact if_pos hw

theorem strel (d : BitVec 6) (x : BitVec 6) (i : BitVec 10) : Statement (Instr.strel d x i) := by
  intro k hk hw
  cases hk
  have b_d := d.isLt
  have b_x := x.isLt
  have b_i := i.isLt
  obtain ⟨u, h0⟩ : ∃ u, encodeM (Instr.strel d x i) = u := ⟨_, rfl⟩
  show decodeM (encodeM (Instr.strel d x i)) = _
  rw [h0]
  have hu : 0x13000C00 + d.toNat * 2 ^ 18 + x.toNat * 2 ^ 12 + i.toNat * 2 ^ 0 = u := h0
  have he : u / 2 ^ 24 = 0x13 := by omega
  have hc : u / 2 ^ 10 % 4 = 3 := by omega
  have f_d : fld 6 18 u = d := by
    apply BitVec.eq_of_toNat_eq; simp only [fld, BitVec.toNat_ofNat]; omega
  have f_x : fld 6 12 u = x := by
    apply BitVec.eq_of_toNat_eq; simp only [fld, BitVec.toNat_ofNat]; omega
  have f_i : fld 10 0 u = i := by
    apply BitVec.eq_of_toNat_eq; simp only [fld, BitVec.toNat_ofNat]; omega
  unfold decodeM
  rw [he]
  show (if u / 2 ^ 10 % 4 = 3 then Sys2Proof.chk (Instr.strel (fld 6 18 u) (fld 6 12 u) (fld 10 0 u)) else .error .reserved) = _
  rw [if_pos hc, f_d, f_x, f_i]
  exact if_pos hw

theorem xld (d : BitVec 6) (x : BitVec 6) (w : BitVec 2) (i : BitVec 10) : Statement (Instr.xld d x w i) := by
  intro k hk hw
  cases hk
  have b_d := d.isLt
  have b_x := x.isLt
  have b_w := w.isLt
  have b_i := i.isLt
  obtain ⟨u, h0⟩ : ∃ u, encodeM (Instr.xld d x w i) = u := ⟨_, rfl⟩
  show decodeM (encodeM (Instr.xld d x w i)) = _
  rw [h0]
  have hu : 0x14000000 + d.toNat * 2 ^ 18 + x.toNat * 2 ^ 12 + w.toNat * 2 ^ 10 + i.toNat * 2 ^ 0 = u := h0
  have he : u / 2 ^ 24 = 0x14 := by omega
  have f_d : fld 6 18 u = d := by
    apply BitVec.eq_of_toNat_eq; simp only [fld, BitVec.toNat_ofNat]; omega
  have f_x : fld 6 12 u = x := by
    apply BitVec.eq_of_toNat_eq; simp only [fld, BitVec.toNat_ofNat]; omega
  have f_w : fld 2 10 u = w := by
    apply BitVec.eq_of_toNat_eq; simp only [fld, BitVec.toNat_ofNat]; omega
  have f_i : fld 10 0 u = i := by
    apply BitVec.eq_of_toNat_eq; simp only [fld, BitVec.toNat_ofNat]; omega
  unfold decodeM
  rw [he]
  show (Sys2Proof.chk (Instr.xld (fld 6 18 u) (fld 6 12 u) (fld 2 10 u) (fld 10 0 u))) = _
  rw [f_d, f_x, f_w, f_i]
  exact if_pos hw

theorem xst (d : BitVec 6) (x : BitVec 6) (w : BitVec 2) (i : BitVec 10) : Statement (Instr.xst d x w i) := by
  intro k hk hw
  cases hk
  have b_d := d.isLt
  have b_x := x.isLt
  have b_w := w.isLt
  have b_i := i.isLt
  obtain ⟨u, h0⟩ : ∃ u, encodeM (Instr.xst d x w i) = u := ⟨_, rfl⟩
  show decodeM (encodeM (Instr.xst d x w i)) = _
  rw [h0]
  have hu : 0x15000000 + d.toNat * 2 ^ 18 + x.toNat * 2 ^ 12 + w.toNat * 2 ^ 10 + i.toNat * 2 ^ 0 = u := h0
  have he : u / 2 ^ 24 = 0x15 := by omega
  have f_d : fld 6 18 u = d := by
    apply BitVec.eq_of_toNat_eq; simp only [fld, BitVec.toNat_ofNat]; omega
  have f_x : fld 6 12 u = x := by
    apply BitVec.eq_of_toNat_eq; simp only [fld, BitVec.toNat_ofNat]; omega
  have f_w : fld 2 10 u = w := by
    apply BitVec.eq_of_toNat_eq; simp only [fld, BitVec.toNat_ofNat]; omega
  have f_i : fld 10 0 u = i := by
    apply BitVec.eq_of_toNat_eq; simp only [fld, BitVec.toNat_ofNat]; omega
  unfold decodeM
  rw [he]
  show (Sys2Proof.chk (Instr.xst (fld 6 18 u) (fld 6 12 u) (fld 2 10 u) (fld 10 0 u))) = _
  rw [f_d, f_x, f_w, f_i]
  exact if_pos hw

theorem vld (g : BitVec 8) (a : BitVec 4) (k : BitVec 3) (d : BitVec 8) : Statement (Instr.vld g a k d) := by
  intro k hk hw
  cases hk
  have b_g := g.isLt
  have b_a := a.isLt
  have b_k := k.isLt
  have b_d := d.isLt
  obtain ⟨u, h0⟩ : ∃ u, encodeM (Instr.vld g a k d) = u := ⟨_, rfl⟩
  show decodeM (encodeM (Instr.vld g a k d)) = _
  rw [h0]
  have hu : 0x18000000 + g.toNat * 2 ^ 15 + a.toNat * 2 ^ 11 + k.toNat * 2 ^ 8 + d.toNat * 2 ^ 0 = u := h0
  have he : u / 2 ^ 24 = 0x18 := by omega
  have hc : u / 2 ^ 23 % 2 = 0 := by omega
  have f_g : fld 8 15 u = g := by
    apply BitVec.eq_of_toNat_eq; simp only [fld, BitVec.toNat_ofNat]; omega
  have f_a : fld 4 11 u = a := by
    apply BitVec.eq_of_toNat_eq; simp only [fld, BitVec.toNat_ofNat]; omega
  have f_k : fld 3 8 u = k := by
    apply BitVec.eq_of_toNat_eq; simp only [fld, BitVec.toNat_ofNat]; omega
  have f_d : fld 8 0 u = d := by
    apply BitVec.eq_of_toNat_eq; simp only [fld, BitVec.toNat_ofNat]; omega
  unfold decodeM
  rw [he]
  show (if u / 2 ^ 23 % 2 = 0 then Sys2Proof.chk (Instr.vld (fld 8 15 u) (fld 4 11 u) (fld 3 8 u) (fld 8 0 u)) else .error .reserved) = _
  rw [if_pos hc, f_g, f_a, f_k, f_d]
  exact if_pos hw

theorem vst (g : BitVec 8) (a : BitVec 4) (k : BitVec 3) (d : BitVec 8) : Statement (Instr.vst g a k d) := by
  intro k hk hw
  cases hk
  have b_g := g.isLt
  have b_a := a.isLt
  have b_k := k.isLt
  have b_d := d.isLt
  obtain ⟨u, h0⟩ : ∃ u, encodeM (Instr.vst g a k d) = u := ⟨_, rfl⟩
  show decodeM (encodeM (Instr.vst g a k d)) = _
  rw [h0]
  have hu : 0x19000000 + g.toNat * 2 ^ 15 + a.toNat * 2 ^ 11 + k.toNat * 2 ^ 8 + d.toNat * 2 ^ 0 = u := h0
  have he : u / 2 ^ 24 = 0x19 := by omega
  have hc : u / 2 ^ 23 % 2 = 0 := by omega
  have f_g : fld 8 15 u = g := by
    apply BitVec.eq_of_toNat_eq; simp only [fld, BitVec.toNat_ofNat]; omega
  have f_a : fld 4 11 u = a := by
    apply BitVec.eq_of_toNat_eq; simp only [fld, BitVec.toNat_ofNat]; omega
  have f_k : fld 3 8 u = k := by
    apply BitVec.eq_of_toNat_eq; simp only [fld, BitVec.toNat_ofNat]; omega
  have f_d : fld 8 0 u = d := by
    apply BitVec.eq_of_toNat_eq; simp only [fld, BitVec.toNat_ofNat]; omega
  unfold decodeM
  rw [he]
  show (if u / 2 ^ 23 % 2 = 0 then Sys2Proof.chk (Instr.vst (fld 8 15 u) (fld 4 11 u) (fld 3 8 u) (fld 8 0 u)) else .error .reserved) = _
  rw [if_pos hc, f_g, f_a, f_k, f_d]
  exact if_pos hw

theorem vldx (g : BitVec 8) (a : BitVec 4) (i : BitVec 8) : Statement (Instr.vldx g a i) := by
  intro k hk hw
  cases hk
  have b_g := g.isLt
  have b_a := a.isLt
  have b_i := i.isLt
  obtain ⟨u, h0⟩ : ∃ u, encodeM (Instr.vldx g a i) = u := ⟨_, rfl⟩
  show decodeM (encodeM (Instr.vldx g a i)) = _
  rw [h0]
  have hu : 0x1A000000 + g.toNat * 2 ^ 15 + a.toNat * 2 ^ 11 + i.toNat * 2 ^ 0 = u := h0
  have he : u / 2 ^ 24 = 0x1A := by omega
  have hc : u / 2 ^ 8 % 8 = 0 ∧ u / 2 ^ 23 % 2 = 0 := by omega
  have f_g : fld 8 15 u = g := by
    apply BitVec.eq_of_toNat_eq; simp only [fld, BitVec.toNat_ofNat]; omega
  have f_a : fld 4 11 u = a := by
    apply BitVec.eq_of_toNat_eq; simp only [fld, BitVec.toNat_ofNat]; omega
  have f_i : fld 8 0 u = i := by
    apply BitVec.eq_of_toNat_eq; simp only [fld, BitVec.toNat_ofNat]; omega
  unfold decodeM
  rw [he]
  show (if u / 2 ^ 8 % 8 = 0 ∧ u / 2 ^ 23 % 2 = 0 then Sys2Proof.chk (Instr.vldx (fld 8 15 u) (fld 4 11 u) (fld 8 0 u)) else .error .reserved) = _
  rw [if_pos hc, f_g, f_a, f_i]
  exact if_pos hw

theorem vstx (g : BitVec 8) (a : BitVec 4) (i : BitVec 8) : Statement (Instr.vstx g a i) := by
  intro k hk hw
  cases hk
  have b_g := g.isLt
  have b_a := a.isLt
  have b_i := i.isLt
  obtain ⟨u, h0⟩ : ∃ u, encodeM (Instr.vstx g a i) = u := ⟨_, rfl⟩
  show decodeM (encodeM (Instr.vstx g a i)) = _
  rw [h0]
  have hu : 0x1B000000 + g.toNat * 2 ^ 15 + a.toNat * 2 ^ 11 + i.toNat * 2 ^ 0 = u := h0
  have he : u / 2 ^ 24 = 0x1B := by omega
  have hc : u / 2 ^ 8 % 8 = 0 ∧ u / 2 ^ 23 % 2 = 0 := by omega
  have f_g : fld 8 15 u = g := by
    apply BitVec.eq_of_toNat_eq; simp only [fld, BitVec.toNat_ofNat]; omega
  have f_a : fld 4 11 u = a := by
    apply BitVec.eq_of_toNat_eq; simp only [fld, BitVec.toNat_ofNat]; omega
  have f_i : fld 8 0 u = i := by
    apply BitVec.eq_of_toNat_eq; simp only [fld, BitVec.toNat_ofNat]; omega
  unfold decodeM
  rw [he]
  show (if u / 2 ^ 8 % 8 = 0 ∧ u / 2 ^ 23 % 2 = 0 then Sys2Proof.chk (Instr.vstx (fld 8 15 u) (fld 4 11 u) (fld 8 0 u)) else .error .reserved) = _
  rw [if_pos hc, f_g, f_a, f_i]
  exact if_pos hw

theorem gld (d : BitVec 6) (x : BitVec 6) (w : BitVec 2) (i : BitVec 10) : Statement (Instr.gld d x w i) := by
  intro k hk hw
  cases hk
  have b_d := d.isLt
  have b_x := x.isLt
  have b_w := w.isLt
  have b_i := i.isLt
  obtain ⟨u, h0⟩ : ∃ u, encodeM (Instr.gld d x w i) = u := ⟨_, rfl⟩
  show decodeM (encodeM (Instr.gld d x w i)) = _
  rw [h0]
  have hu : 0x20000000 + d.toNat * 2 ^ 18 + x.toNat * 2 ^ 12 + w.toNat * 2 ^ 10 + i.toNat * 2 ^ 0 = u := h0
  have he : u / 2 ^ 24 = 0x20 := by omega
  have f_d : fld 6 18 u = d := by
    apply BitVec.eq_of_toNat_eq; simp only [fld, BitVec.toNat_ofNat]; omega
  have f_x : fld 6 12 u = x := by
    apply BitVec.eq_of_toNat_eq; simp only [fld, BitVec.toNat_ofNat]; omega
  have f_w : fld 2 10 u = w := by
    apply BitVec.eq_of_toNat_eq; simp only [fld, BitVec.toNat_ofNat]; omega
  have f_i : fld 10 0 u = i := by
    apply BitVec.eq_of_toNat_eq; simp only [fld, BitVec.toNat_ofNat]; omega
  unfold decodeM
  rw [he]
  show (Sys2Proof.chk (Instr.gld (fld 6 18 u) (fld 6 12 u) (fld 2 10 u) (fld 10 0 u))) = _
  rw [f_d, f_x, f_w, f_i]
  exact if_pos hw

theorem gst (d : BitVec 6) (x : BitVec 6) (w : BitVec 2) (i : BitVec 10) : Statement (Instr.gst d x w i) := by
  intro k hk hw
  cases hk
  have b_d := d.isLt
  have b_x := x.isLt
  have b_w := w.isLt
  have b_i := i.isLt
  obtain ⟨u, h0⟩ : ∃ u, encodeM (Instr.gst d x w i) = u := ⟨_, rfl⟩
  show decodeM (encodeM (Instr.gst d x w i)) = _
  rw [h0]
  have hu : 0x21000000 + d.toNat * 2 ^ 18 + x.toNat * 2 ^ 12 + w.toNat * 2 ^ 10 + i.toNat * 2 ^ 0 = u := h0
  have he : u / 2 ^ 24 = 0x21 := by omega
  have f_d : fld 6 18 u = d := by
    apply BitVec.eq_of_toNat_eq; simp only [fld, BitVec.toNat_ofNat]; omega
  have f_x : fld 6 12 u = x := by
    apply BitVec.eq_of_toNat_eq; simp only [fld, BitVec.toNat_ofNat]; omega
  have f_w : fld 2 10 u = w := by
    apply BitVec.eq_of_toNat_eq; simp only [fld, BitVec.toNat_ofNat]; omega
  have f_i : fld 10 0 u = i := by
    apply BitVec.eq_of_toNat_eq; simp only [fld, BitVec.toNat_ofNat]; omega
  unfold decodeM
  rw [he]
  show (Sys2Proof.chk (Instr.gst (fld 6 18 u) (fld 6 12 u) (fld 2 10 u) (fld 10 0 u))) = _
  rw [f_d, f_x, f_w, f_i]
  exact if_pos hw

theorem gatom (d : BitVec 6) (x : BitVec 6) (y : BitVec 6) (o : BitVec 2) (f : BitVec 4) : Statement (Instr.gatom d x y o f) := by
  intro k hk hw
  cases hk
  have b_d := d.isLt
  have b_x := x.isLt
  have b_y := y.isLt
  have b_o := o.isLt
  have b_f := f.isLt
  obtain ⟨u, h0⟩ : ∃ u, encodeM (Instr.gatom d x y o f) = u := ⟨_, rfl⟩
  show decodeM (encodeM (Instr.gatom d x y o f)) = _
  rw [h0]
  have hu : 0x22000000 + d.toNat * 2 ^ 18 + x.toNat * 2 ^ 12 + y.toNat * 2 ^ 6 + o.toNat * 2 ^ 4 + f.toNat * 2 ^ 0 = u := h0
  have he : u / 2 ^ 24 = 0x22 := by omega
  have f_d : fld 6 18 u = d := by
    apply BitVec.eq_of_toNat_eq; simp only [fld, BitVec.toNat_ofNat]; omega
  have f_x : fld 6 12 u = x := by
    apply BitVec.eq_of_toNat_eq; simp only [fld, BitVec.toNat_ofNat]; omega
  have f_y : fld 6 6 u = y := by
    apply BitVec.eq_of_toNat_eq; simp only [fld, BitVec.toNat_ofNat]; omega
  have f_o : fld 2 4 u = o := by
    apply BitVec.eq_of_toNat_eq; simp only [fld, BitVec.toNat_ofNat]; omega
  have f_f : fld 4 0 u = f := by
    apply BitVec.eq_of_toNat_eq; simp only [fld, BitVec.toNat_ofNat]; omega
  unfold decodeM
  rw [he]
  show (Sys2Proof.chk (Instr.gatom (fld 6 18 u) (fld 6 12 u) (fld 6 6 u) (fld 2 4 u) (fld 4 0 u))) = _
  rw [f_d, f_x, f_y, f_o, f_f]
  exact if_pos hw

theorem cinv (x : BitVec 6) (i : BitVec 10) : Statement (Instr.cinv x i) := by
  intro k hk hw
  cases hk
  have b_x := x.isLt
  have b_i := i.isLt
  obtain ⟨u, h0⟩ : ∃ u, encodeM (Instr.cinv x i) = u := ⟨_, rfl⟩
  show decodeM (encodeM (Instr.cinv x i)) = _
  rw [h0]
  have hu : 0x23000C00 + x.toNat * 2 ^ 12 + i.toNat * 2 ^ 0 = u := h0
  have he : u / 2 ^ 24 = 0x23 := by omega
  have hc : u / 2 ^ 10 % 4 = 3 ∧ u / 2 ^ 18 % 64 = 0 := by omega
  have f_x : fld 6 12 u = x := by
    apply BitVec.eq_of_toNat_eq; simp only [fld, BitVec.toNat_ofNat]; omega
  have f_i : fld 10 0 u = i := by
    apply BitVec.eq_of_toNat_eq; simp only [fld, BitVec.toNat_ofNat]; omega
  unfold decodeM
  rw [he]
  show (if u / 2 ^ 10 % 4 = 3 ∧ u / 2 ^ 18 % 64 = 0 then Sys2Proof.chk (Instr.cinv (fld 6 12 u) (fld 10 0 u)) else .error .reserved) = _
  rw [if_pos hc, f_x, f_i]
  exact if_pos hw

theorem cclean (x : BitVec 6) (i : BitVec 10) : Statement (Instr.cclean x i) := by
  intro k hk hw
  cases hk
  have b_x := x.isLt
  have b_i := i.isLt
  obtain ⟨u, h0⟩ : ∃ u, encodeM (Instr.cclean x i) = u := ⟨_, rfl⟩
  show decodeM (encodeM (Instr.cclean x i)) = _
  rw [h0]
  have hu : 0x24000C00 + x.toNat * 2 ^ 12 + i.toNat * 2 ^ 0 = u := h0
  have he : u / 2 ^ 24 = 0x24 := by omega
  have hc : u / 2 ^ 10 % 4 = 3 ∧ u / 2 ^ 18 % 64 = 0 := by omega
  have f_x : fld 6 12 u = x := by
    apply BitVec.eq_of_toNat_eq; simp only [fld, BitVec.toNat_ofNat]; omega
  have f_i : fld 10 0 u = i := by
    apply BitVec.eq_of_toNat_eq; simp only [fld, BitVec.toNat_ofNat]; omega
  unfold decodeM
  rw [he]
  show (if u / 2 ^ 10 % 4 = 3 ∧ u / 2 ^ 18 % 64 = 0 then Sys2Proof.chk (Instr.cclean (fld 6 12 u) (fld 10 0 u)) else .error .reserved) = _
  rw [if_pos hc, f_x, f_i]
  exact if_pos hw

theorem qld (r : BitVec 4) (a : BitVec 4) (k : BitVec 3) : Statement (Instr.qld r a k) := by
  intro k hk hw
  cases hk
  have b_r := r.isLt
  have b_a := a.isLt
  have b_k := k.isLt
  obtain ⟨u, h0⟩ : ∃ u, encodeM (Instr.qld r a k) = u := ⟨_, rfl⟩
  show decodeM (encodeM (Instr.qld r a k)) = _
  rw [h0]
  have hu : 0x28000000 + r.toNat * 2 ^ 18 + a.toNat * 2 ^ 14 + k.toNat * 2 ^ 11 = u := h0
  have he : u / 2 ^ 24 = 0x28 := by omega
  have hc : u % 2048 = 0 ∧ u / 2 ^ 22 % 4 = 0 := by omega
  have f_r : fld 4 18 u = r := by
    apply BitVec.eq_of_toNat_eq; simp only [fld, BitVec.toNat_ofNat]; omega
  have f_a : fld 4 14 u = a := by
    apply BitVec.eq_of_toNat_eq; simp only [fld, BitVec.toNat_ofNat]; omega
  have f_k : fld 3 11 u = k := by
    apply BitVec.eq_of_toNat_eq; simp only [fld, BitVec.toNat_ofNat]; omega
  unfold decodeM
  rw [he]
  show (if u % 2048 = 0 ∧ u / 2 ^ 22 % 4 = 0 then Sys2Proof.chk (Instr.qld (fld 4 18 u) (fld 4 14 u) (fld 3 11 u)) else .error .reserved) = _
  rw [if_pos hc, f_r, f_a, f_k]
  exact if_pos hw

theorem qst (r : BitVec 4) (a : BitVec 4) (k : BitVec 3) : Statement (Instr.qst r a k) := by
  intro k hk hw
  cases hk
  have b_r := r.isLt
  have b_a := a.isLt
  have b_k := k.isLt
  obtain ⟨u, h0⟩ : ∃ u, encodeM (Instr.qst r a k) = u := ⟨_, rfl⟩
  show decodeM (encodeM (Instr.qst r a k)) = _
  rw [h0]
  have hu : 0x29000000 + r.toNat * 2 ^ 18 + a.toNat * 2 ^ 14 + k.toNat * 2 ^ 11 = u := h0
  have he : u / 2 ^ 24 = 0x29 := by omega
  have hc : u % 2048 = 0 ∧ u / 2 ^ 22 % 4 = 0 := by omega
  have f_r : fld 4 18 u = r := by
    apply BitVec.eq_of_toNat_eq; simp only [fld, BitVec.toNat_ofNat]; omega
  have f_a : fld 4 14 u = a := by
    apply BitVec.eq_of_toNat_eq; simp only [fld, BitVec.toNat_ofNat]; omega
  have f_k : fld 3 11 u = k := by
    apply BitVec.eq_of_toNat_eq; simp only [fld, BitVec.toNat_ofNat]; omega
  unfold decodeM
  rw [he]
  show (if u % 2048 = 0 ∧ u / 2 ^ 22 % 4 = 0 then Sys2Proof.chk (Instr.qst (fld 4 18 u) (fld 4 14 u) (fld 3 11 u)) else .error .reserved) = _
  rw [if_pos hc, f_r, f_a, f_k]
  exact if_pos hw

theorem kld (r : BitVec 3) (a : BitVec 4) (k : BitVec 3) : Statement (Instr.kld r a k) := by
  intro k hk hw
  cases hk
  have b_r := r.isLt
  have b_a := a.isLt
  have b_k := k.isLt
  obtain ⟨u, h0⟩ : ∃ u, encodeM (Instr.kld r a k) = u := ⟨_, rfl⟩
  show decodeM (encodeM (Instr.kld r a k)) = _
  rw [h0]
  have hu : 0x2A000000 + r.toNat * 2 ^ 18 + a.toNat * 2 ^ 14 + k.toNat * 2 ^ 11 = u := h0
  have he : u / 2 ^ 24 = 0x2A := by omega
  have hc : u % 2048 = 0 ∧ u / 2 ^ 21 % 8 = 0 := by omega
  have f_r : fld 3 18 u = r := by
    apply BitVec.eq_of_toNat_eq; simp only [fld, BitVec.toNat_ofNat]; omega
  have f_a : fld 4 14 u = a := by
    apply BitVec.eq_of_toNat_eq; simp only [fld, BitVec.toNat_ofNat]; omega
  have f_k : fld 3 11 u = k := by
    apply BitVec.eq_of_toNat_eq; simp only [fld, BitVec.toNat_ofNat]; omega
  unfold decodeM
  rw [he]
  show (if u % 2048 = 0 ∧ u / 2 ^ 21 % 8 = 0 then Sys2Proof.chk (Instr.kld (fld 3 18 u) (fld 4 14 u) (fld 3 11 u)) else .error .reserved) = _
  rw [if_pos hc, f_r, f_a, f_k]
  exact if_pos hw

theorem kst (r : BitVec 3) (a : BitVec 4) (k : BitVec 3) : Statement (Instr.kst r a k) := by
  intro k hk hw
  cases hk
  have b_r := r.isLt
  have b_a := a.isLt
  have b_k := k.isLt
  obtain ⟨u, h0⟩ : ∃ u, encodeM (Instr.kst r a k) = u := ⟨_, rfl⟩
  show decodeM (encodeM (Instr.kst r a k)) = _
  rw [h0]
  have hu : 0x2B000000 + r.toNat * 2 ^ 18 + a.toNat * 2 ^ 14 + k.toNat * 2 ^ 11 = u := h0
  have he : u / 2 ^ 24 = 0x2B := by omega
  have hc : u % 2048 = 0 ∧ u / 2 ^ 21 % 8 = 0 := by omega
  have f_r : fld 3 18 u = r := by
    apply BitVec.eq_of_toNat_eq; simp only [fld, BitVec.toNat_ofNat]; omega
  have f_a : fld 4 14 u = a := by
    apply BitVec.eq_of_toNat_eq; simp only [fld, BitVec.toNat_ofNat]; omega
  have f_k : fld 3 11 u = k := by
    apply BitVec.eq_of_toNat_eq; simp only [fld, BitVec.toNat_ofNat]; omega
  unfold decodeM
  rw [he]
  show (if u % 2048 = 0 ∧ u / 2 ^ 21 % 8 = 0 then Sys2Proof.chk (Instr.kst (fld 3 18 u) (fld 4 14 u) (fld 3 11 u)) else .error .reserved) = _
  rw [if_pos hc, f_r, f_a, f_k]
  exact if_pos hw

theorem lift (g : BitVec 8) : Statement (Instr.lift g) := by
  intro k hk hw
  cases hk
  have b_g := g.isLt
  obtain ⟨u, h0⟩ : ∃ u, encodeM (Instr.lift g) = u := ⟨_, rfl⟩
  show decodeM (encodeM (Instr.lift g)) = _
  rw [h0]
  have hu : 0x30000000 + g.toNat * 2 ^ 15 = u := h0
  have he : u / 2 ^ 24 = 0x30 := by omega
  have hc : u % 32768 = 0 ∧ u / 2 ^ 23 % 2 = 0 := by omega
  have f_g : fld 8 15 u = g := by
    apply BitVec.eq_of_toNat_eq; simp only [fld, BitVec.toNat_ofNat]; omega
  unfold decodeM
  rw [he]
  show (if u % 32768 = 0 ∧ u / 2 ^ 23 % 2 = 0 then Sys2Proof.chk (Instr.lift (fld 8 15 u)) else .error .reserved) = _
  rw [if_pos hc, f_g]
  exact if_pos hw

theorem lpop (g : BitVec 8) : Statement (Instr.lpop g) := by
  intro k hk hw
  cases hk
  have b_g := g.isLt
  obtain ⟨u, h0⟩ : ∃ u, encodeM (Instr.lpop g) = u := ⟨_, rfl⟩
  show decodeM (encodeM (Instr.lpop g)) = _
  rw [h0]
  have hu : 0x31000000 + g.toNat * 2 ^ 15 = u := h0
  have he : u / 2 ^ 24 = 0x31 := by omega
  have hc : u % 32768 = 0 ∧ u / 2 ^ 23 % 2 = 0 := by omega
  have f_g : fld 8 15 u = g := by
    apply BitVec.eq_of_toNat_eq; simp only [fld, BitVec.toNat_ofNat]; omega
  unfold decodeM
  rw [he]
  show (if u % 32768 = 0 ∧ u / 2 ^ 23 % 2 = 0 then Sys2Proof.chk (Instr.lpop (fld 8 15 u)) else .error .reserved) = _
  rw [if_pos hc, f_g]
  exact if_pos hw

theorem hpush (g : BitVec 8) (h : BitVec 4) : Statement (Instr.hpush g h) := by
  intro k hk hw
  cases hk
  have b_g := g.isLt
  have b_h := h.isLt
  obtain ⟨u, h0⟩ : ∃ u, encodeM (Instr.hpush g h) = u := ⟨_, rfl⟩
  show decodeM (encodeM (Instr.hpush g h)) = _
  rw [h0]
  have hu : 0x32000000 + g.toNat * 2 ^ 15 + h.toNat * 2 ^ 11 = u := h0
  have he : u / 2 ^ 24 = 0x32 := by omega
  have hc : u % 2048 = 0 ∧ u / 2 ^ 23 % 2 = 0 := by omega
  have f_g : fld 8 15 u = g := by
    apply BitVec.eq_of_toNat_eq; simp only [fld, BitVec.toNat_ofNat]; omega
  have f_h : fld 4 11 u = h := by
    apply BitVec.eq_of_toNat_eq; simp only [fld, BitVec.toNat_ofNat]; omega
  unfold decodeM
  rw [he]
  show (if u % 2048 = 0 ∧ u / 2 ^ 23 % 2 = 0 then Sys2Proof.chk (Instr.hpush (fld 8 15 u) (fld 4 11 u)) else .error .reserved) = _
  rw [if_pos hc, f_g, f_h]
  exact if_pos hw

theorem hpop (g : BitVec 8) (h : BitVec 4) : Statement (Instr.hpop g h) := by
  intro k hk hw
  cases hk
  have b_g := g.isLt
  have b_h := h.isLt
  obtain ⟨u, h0⟩ : ∃ u, encodeM (Instr.hpop g h) = u := ⟨_, rfl⟩
  show decodeM (encodeM (Instr.hpop g h)) = _
  rw [h0]
  have hu : 0x33000000 + g.toNat * 2 ^ 15 + h.toNat * 2 ^ 11 = u := h0
  have he : u / 2 ^ 24 = 0x33 := by omega
  have hc : u % 2048 = 0 ∧ u / 2 ^ 23 % 2 = 0 := by omega
  have f_g : fld 8 15 u = g := by
    apply BitVec.eq_of_toNat_eq; simp only [fld, BitVec.toNat_ofNat]; omega
  have f_h : fld 4 11 u = h := by
    apply BitVec.eq_of_toNat_eq; simp only [fld, BitVec.toNat_ofNat]; omega
  unfold decodeM
  rw [he]
  show (if u % 2048 = 0 ∧ u / 2 ^ 23 % 2 = 0 then Sys2Proof.chk (Instr.hpop (fld 8 15 u) (fld 4 11 u)) else .error .reserved) = _
  rw [if_pos hc, f_g, f_h]
  exact if_pos hw

theorem vadd (t : BitVec 3) (p : BitVec 2) (d : BitVec 9) (x : BitVec 9) (y : BitVec 9) : Statement (Instr.vadd t p d x y) := by
  intro k hk hw
  cases hk
  have b_t := t.isLt
  have b_p := p.isLt
  have b_d := d.isLt
  have b_x := x.isLt
  have b_y := y.isLt
  obtain ⟨u, h0⟩ : ∃ u, encodeV (Instr.vadd t p d x y) = u := ⟨_, rfl⟩
  show decodeV (encodeV (Instr.vadd t p d x y)) = _
  rw [h0]
  have hu : 0x1000000000 + t.toNat * 2 ^ 29 + p.toNat * 2 ^ 27 + d.toNat * 2 ^ 18 + x.toNat * 2 ^ 9 + y.toNat * 2 ^ 0 = u := h0
  have he : u / 2 ^ 32 = 0x10 := by omega
  have f_t : fld 3 29 u = t := by
    apply BitVec.eq_of_toNat_eq; simp only [fld, BitVec.toNat_ofNat]; omega
  have f_p : fld 2 27 u = p := by
    apply BitVec.eq_of_toNat_eq; simp only [fld, BitVec.toNat_ofNat]; omega
  have f_d : fld 9 18 u = d := by
    apply BitVec.eq_of_toNat_eq; simp only [fld, BitVec.toNat_ofNat]; omega
  have f_x : fld 9 9 u = x := by
    apply BitVec.eq_of_toNat_eq; simp only [fld, BitVec.toNat_ofNat]; omega
  have f_y : fld 9 0 u = y := by
    apply BitVec.eq_of_toNat_eq; simp only [fld, BitVec.toNat_ofNat]; omega
  unfold decodeV
  rw [he]
  show (Sys2Proof.chk (Instr.vadd (fld 3 29 u) (fld 2 27 u) (fld 9 18 u) (fld 9 9 u) (fld 9 0 u))) = _
  rw [f_t, f_p, f_d, f_x, f_y]
  exact if_pos hw

theorem vsub (t : BitVec 3) (p : BitVec 2) (d : BitVec 9) (x : BitVec 9) (y : BitVec 9) : Statement (Instr.vsub t p d x y) := by
  intro k hk hw
  cases hk
  have b_t := t.isLt
  have b_p := p.isLt
  have b_d := d.isLt
  have b_x := x.isLt
  have b_y := y.isLt
  obtain ⟨u, h0⟩ : ∃ u, encodeV (Instr.vsub t p d x y) = u := ⟨_, rfl⟩
  show decodeV (encodeV (Instr.vsub t p d x y)) = _
  rw [h0]
  have hu : 0x1100000000 + t.toNat * 2 ^ 29 + p.toNat * 2 ^ 27 + d.toNat * 2 ^ 18 + x.toNat * 2 ^ 9 + y.toNat * 2 ^ 0 = u := h0
  have he : u / 2 ^ 32 = 0x11 := by omega
  have f_t : fld 3 29 u = t := by
    apply BitVec.eq_of_toNat_eq; simp only [fld, BitVec.toNat_ofNat]; omega
  have f_p : fld 2 27 u = p := by
    apply BitVec.eq_of_toNat_eq; simp only [fld, BitVec.toNat_ofNat]; omega
  have f_d : fld 9 18 u = d := by
    apply BitVec.eq_of_toNat_eq; simp only [fld, BitVec.toNat_ofNat]; omega
  have f_x : fld 9 9 u = x := by
    apply BitVec.eq_of_toNat_eq; simp only [fld, BitVec.toNat_ofNat]; omega
  have f_y : fld 9 0 u = y := by
    apply BitVec.eq_of_toNat_eq; simp only [fld, BitVec.toNat_ofNat]; omega
  unfold decodeV
  rw [he]
  show (Sys2Proof.chk (Instr.vsub (fld 3 29 u) (fld 2 27 u) (fld 9 18 u) (fld 9 9 u) (fld 9 0 u))) = _
  rw [f_t, f_p, f_d, f_x, f_y]
  exact if_pos hw

theorem vmul (t : BitVec 3) (p : BitVec 2) (d : BitVec 9) (x : BitVec 9) (y : BitVec 9) : Statement (Instr.vmul t p d x y) := by
  intro k hk hw
  cases hk
  have b_t := t.isLt
  have b_p := p.isLt
  have b_d := d.isLt
  have b_x := x.isLt
  have b_y := y.isLt
  obtain ⟨u, h0⟩ : ∃ u, encodeV (Instr.vmul t p d x y) = u := ⟨_, rfl⟩
  show decodeV (encodeV (Instr.vmul t p d x y)) = _
  rw [h0]
  have hu : 0x1200000000 + t.toNat * 2 ^ 29 + p.toNat * 2 ^ 27 + d.toNat * 2 ^ 18 + x.toNat * 2 ^ 9 + y.toNat * 2 ^ 0 = u := h0
  have he : u / 2 ^ 32 = 0x12 := by omega
  have f_t : fld 3 29 u = t := by
    apply BitVec.eq_of_toNat_eq; simp only [fld, BitVec.toNat_ofNat]; omega
  have f_p : fld 2 27 u = p := by
    apply BitVec.eq_of_toNat_eq; simp only [fld, BitVec.toNat_ofNat]; omega
  have f_d : fld 9 18 u = d := by
    apply BitVec.eq_of_toNat_eq; simp only [fld, BitVec.toNat_ofNat]; omega
  have f_x : fld 9 9 u = x := by
    apply BitVec.eq_of_toNat_eq; simp only [fld, BitVec.toNat_ofNat]; omega
  have f_y : fld 9 0 u = y := by
    apply BitVec.eq_of_toNat_eq; simp only [fld, BitVec.toNat_ofNat]; omega
  unfold decodeV
  rw [he]
  show (Sys2Proof.chk (Instr.vmul (fld 3 29 u) (fld 2 27 u) (fld 9 18 u) (fld 9 9 u) (fld 9 0 u))) = _
  rw [f_t, f_p, f_d, f_x, f_y]
  exact if_pos hw

theorem vfma (t : BitVec 3) (p : BitVec 2) (d : BitVec 9) (x : BitVec 9) (y : BitVec 9) : Statement (Instr.vfma t p d x y) := by
  intro k hk hw
  cases hk
  have b_t := t.isLt
  have b_p := p.isLt
  have b_d := d.isLt
  have b_x := x.isLt
  have b_y := y.isLt
  obtain ⟨u, h0⟩ : ∃ u, encodeV (Instr.vfma t p d x y) = u := ⟨_, rfl⟩
  show decodeV (encodeV (Instr.vfma t p d x y)) = _
  rw [h0]
  have hu : 0x1300000000 + t.toNat * 2 ^ 29 + p.toNat * 2 ^ 27 + d.toNat * 2 ^ 18 + x.toNat * 2 ^ 9 + y.toNat * 2 ^ 0 = u := h0
  have he : u / 2 ^ 32 = 0x13 := by omega
  have f_t : fld 3 29 u = t := by
    apply BitVec.eq_of_toNat_eq; simp only [fld, BitVec.toNat_ofNat]; omega
  have f_p : fld 2 27 u = p := by
    apply BitVec.eq_of_toNat_eq; simp only [fld, BitVec.toNat_ofNat]; omega
  have f_d : fld 9 18 u = d := by
    apply BitVec.eq_of_toNat_eq; simp only [fld, BitVec.toNat_ofNat]; omega
  have f_x : fld 9 9 u = x := by
    apply BitVec.eq_of_toNat_eq; simp only [fld, BitVec.toNat_ofNat]; omega
  have f_y : fld 9 0 u = y := by
    apply BitVec.eq_of_toNat_eq; simp only [fld, BitVec.toNat_ofNat]; omega
  unfold decodeV
  rw [he]
  show (Sys2Proof.chk (Instr.vfma (fld 3 29 u) (fld 2 27 u) (fld 9 18 u) (fld 9 9 u) (fld 9 0 u))) = _
  rw [f_t, f_p, f_d, f_x, f_y]
  exact if_pos hw

theorem vfms (t : BitVec 3) (p : BitVec 2) (d : BitVec 9) (x : BitVec 9) (y : BitVec 9) : Statement (Instr.vfms t p d x y) := by
  intro k hk hw
  cases hk
  have b_t := t.isLt
  have b_p := p.isLt
  have b_d := d.isLt
  have b_x := x.isLt
  have b_y := y.isLt
  obtain ⟨u, h0⟩ : ∃ u, encodeV (Instr.vfms t p d x y) = u := ⟨_, rfl⟩
  show decodeV (encodeV (Instr.vfms t p d x y)) = _
  rw [h0]
  have hu : 0x1400000000 + t.toNat * 2 ^ 29 + p.toNat * 2 ^ 27 + d.toNat * 2 ^ 18 + x.toNat * 2 ^ 9 + y.toNat * 2 ^ 0 = u := h0
  have he : u / 2 ^ 32 = 0x14 := by omega
  have f_t : fld 3 29 u = t := by
    apply BitVec.eq_of_toNat_eq; simp only [fld, BitVec.toNat_ofNat]; omega
  have f_p : fld 2 27 u = p := by
    apply BitVec.eq_of_toNat_eq; simp only [fld, BitVec.toNat_ofNat]; omega
  have f_d : fld 9 18 u = d := by
    apply BitVec.eq_of_toNat_eq; simp only [fld, BitVec.toNat_ofNat]; omega
  have f_x : fld 9 9 u = x := by
    apply BitVec.eq_of_toNat_eq; simp only [fld, BitVec.toNat_ofNat]; omega
  have f_y : fld 9 0 u = y := by
    apply BitVec.eq_of_toNat_eq; simp only [fld, BitVec.toNat_ofNat]; omega
  unfold decodeV
  rw [he]
  show (Sys2Proof.chk (Instr.vfms (fld 3 29 u) (fld 2 27 u) (fld 9 18 u) (fld 9 9 u) (fld 9 0 u))) = _
  rw [f_t, f_p, f_d, f_x, f_y]
  exact if_pos hw

theorem vmin (t : BitVec 3) (p : BitVec 2) (d : BitVec 9) (x : BitVec 9) (y : BitVec 9) : Statement (Instr.vmin t p d x y) := by
  intro k hk hw
  cases hk
  have b_t := t.isLt
  have b_p := p.isLt
  have b_d := d.isLt
  have b_x := x.isLt
  have b_y := y.isLt
  obtain ⟨u, h0⟩ : ∃ u, encodeV (Instr.vmin t p d x y) = u := ⟨_, rfl⟩
  show decodeV (encodeV (Instr.vmin t p d x y)) = _
  rw [h0]
  have hu : 0x1500000000 + t.toNat * 2 ^ 29 + p.toNat * 2 ^ 27 + d.toNat * 2 ^ 18 + x.toNat * 2 ^ 9 + y.toNat * 2 ^ 0 = u := h0
  have he : u / 2 ^ 32 = 0x15 := by omega
  have f_t : fld 3 29 u = t := by
    apply BitVec.eq_of_toNat_eq; simp only [fld, BitVec.toNat_ofNat]; omega
  have f_p : fld 2 27 u = p := by
    apply BitVec.eq_of_toNat_eq; simp only [fld, BitVec.toNat_ofNat]; omega
  have f_d : fld 9 18 u = d := by
    apply BitVec.eq_of_toNat_eq; simp only [fld, BitVec.toNat_ofNat]; omega
  have f_x : fld 9 9 u = x := by
    apply BitVec.eq_of_toNat_eq; simp only [fld, BitVec.toNat_ofNat]; omega
  have f_y : fld 9 0 u = y := by
    apply BitVec.eq_of_toNat_eq; simp only [fld, BitVec.toNat_ofNat]; omega
  unfold decodeV
  rw [he]
  show (Sys2Proof.chk (Instr.vmin (fld 3 29 u) (fld 2 27 u) (fld 9 18 u) (fld 9 9 u) (fld 9 0 u))) = _
  rw [f_t, f_p, f_d, f_x, f_y]
  exact if_pos hw

theorem vmax (t : BitVec 3) (p : BitVec 2) (d : BitVec 9) (x : BitVec 9) (y : BitVec 9) : Statement (Instr.vmax t p d x y) := by
  intro k hk hw
  cases hk
  have b_t := t.isLt
  have b_p := p.isLt
  have b_d := d.isLt
  have b_x := x.isLt
  have b_y := y.isLt
  obtain ⟨u, h0⟩ : ∃ u, encodeV (Instr.vmax t p d x y) = u := ⟨_, rfl⟩
  show decodeV (encodeV (Instr.vmax t p d x y)) = _
  rw [h0]
  have hu : 0x1600000000 + t.toNat * 2 ^ 29 + p.toNat * 2 ^ 27 + d.toNat * 2 ^ 18 + x.toNat * 2 ^ 9 + y.toNat * 2 ^ 0 = u := h0
  have he : u / 2 ^ 32 = 0x16 := by omega
  have f_t : fld 3 29 u = t := by
    apply BitVec.eq_of_toNat_eq; simp only [fld, BitVec.toNat_ofNat]; omega
  have f_p : fld 2 27 u = p := by
    apply BitVec.eq_of_toNat_eq; simp only [fld, BitVec.toNat_ofNat]; omega
  have f_d : fld 9 18 u = d := by
    apply BitVec.eq_of_toNat_eq; simp only [fld, BitVec.toNat_ofNat]; omega
  have f_x : fld 9 9 u = x := by
    apply BitVec.eq_of_toNat_eq; simp only [fld, BitVec.toNat_ofNat]; omega
  have f_y : fld 9 0 u = y := by
    apply BitVec.eq_of_toNat_eq; simp only [fld, BitVec.toNat_ofNat]; omega
  unfold decodeV
  rw [he]
  show (Sys2Proof.chk (Instr.vmax (fld 3 29 u) (fld 2 27 u) (fld 9 18 u) (fld 9 9 u) (fld 9 0 u))) = _
  rw [f_t, f_p, f_d, f_x, f_y]
  exact if_pos hw

theorem vabs (t : BitVec 3) (p : BitVec 2) (d : BitVec 9) (x : BitVec 9) : Statement (Instr.vabs t p d x) := by
  intro k hk hw
  cases hk
  have b_t := t.isLt
  have b_p := p.isLt
  have b_d := d.isLt
  have b_x := x.isLt
  obtain ⟨u, h0⟩ : ∃ u, encodeV (Instr.vabs t p d x) = u := ⟨_, rfl⟩
  show decodeV (encodeV (Instr.vabs t p d x)) = _
  rw [h0]
  have hu : 0x1700000000 + t.toNat * 2 ^ 29 + p.toNat * 2 ^ 27 + d.toNat * 2 ^ 18 + x.toNat * 2 ^ 9 = u := h0
  have he : u / 2 ^ 32 = 0x17 := by omega
  have hc : u % 512 = 0 := by omega
  have f_t : fld 3 29 u = t := by
    apply BitVec.eq_of_toNat_eq; simp only [fld, BitVec.toNat_ofNat]; omega
  have f_p : fld 2 27 u = p := by
    apply BitVec.eq_of_toNat_eq; simp only [fld, BitVec.toNat_ofNat]; omega
  have f_d : fld 9 18 u = d := by
    apply BitVec.eq_of_toNat_eq; simp only [fld, BitVec.toNat_ofNat]; omega
  have f_x : fld 9 9 u = x := by
    apply BitVec.eq_of_toNat_eq; simp only [fld, BitVec.toNat_ofNat]; omega
  unfold decodeV
  rw [he]
  show (if u % 512 = 0 then Sys2Proof.chk (Instr.vabs (fld 3 29 u) (fld 2 27 u) (fld 9 18 u) (fld 9 9 u)) else .error .reserved) = _
  rw [if_pos hc, f_t, f_p, f_d, f_x]
  exact if_pos hw

theorem vneg (t : BitVec 3) (p : BitVec 2) (d : BitVec 9) (x : BitVec 9) : Statement (Instr.vneg t p d x) := by
  intro k hk hw
  cases hk
  have b_t := t.isLt
  have b_p := p.isLt
  have b_d := d.isLt
  have b_x := x.isLt
  obtain ⟨u, h0⟩ : ∃ u, encodeV (Instr.vneg t p d x) = u := ⟨_, rfl⟩
  show decodeV (encodeV (Instr.vneg t p d x)) = _
  rw [h0]
  have hu : 0x1800000000 + t.toNat * 2 ^ 29 + p.toNat * 2 ^ 27 + d.toNat * 2 ^ 18 + x.toNat * 2 ^ 9 = u := h0
  have he : u / 2 ^ 32 = 0x18 := by omega
  have hc : u % 512 = 0 := by omega
  have f_t : fld 3 29 u = t := by
    apply BitVec.eq_of_toNat_eq; simp only [fld, BitVec.toNat_ofNat]; omega
  have f_p : fld 2 27 u = p := by
    apply BitVec.eq_of_toNat_eq; simp only [fld, BitVec.toNat_ofNat]; omega
  have f_d : fld 9 18 u = d := by
    apply BitVec.eq_of_toNat_eq; simp only [fld, BitVec.toNat_ofNat]; omega
  have f_x : fld 9 9 u = x := by
    apply BitVec.eq_of_toNat_eq; simp only [fld, BitVec.toNat_ofNat]; omega
  unfold decodeV
  rw [he]
  show (if u % 512 = 0 then Sys2Proof.chk (Instr.vneg (fld 3 29 u) (fld 2 27 u) (fld 9 18 u) (fld 9 9 u)) else .error .reserved) = _
  rw [if_pos hc, f_t, f_p, f_d, f_x]
  exact if_pos hw

theorem vcmp (t : BitVec 3) (p : BitVec 2) (q : BitVec 2) (c : BitVec 3) (n : BitVec 1) (x : BitVec 9) (y : BitVec 9) : Statement (Instr.vcmp t p q c n x y) := by
  intro k hk hw
  cases hk
  have b_t := t.isLt
  have b_p := p.isLt
  have b_q := q.isLt
  have b_c := c.isLt
  have b_n := n.isLt
  have b_x := x.isLt
  have b_y := y.isLt
  obtain ⟨u, h0⟩ : ∃ u, encodeV (Instr.vcmp t p q c n x y) = u := ⟨_, rfl⟩
  show decodeV (encodeV (Instr.vcmp t p q c n x y)) = _
  rw [h0]
  have hu : 0x2000000000 + t.toNat * 2 ^ 29 + p.toNat * 2 ^ 27 + q.toNat * 2 ^ 25 + c.toNat * 2 ^ 22 + n.toNat * 2 ^ 21 + x.toNat * 2 ^ 9 + y.toNat * 2 ^ 0 = u := h0
  have he : u / 2 ^ 32 = 0x20 := by omega
  have hc : u / 2 ^ 18 % 8 = 0 := by omega
  have f_t : fld 3 29 u = t := by
    apply BitVec.eq_of_toNat_eq; simp only [fld, BitVec.toNat_ofNat]; omega
  have f_p : fld 2 27 u = p := by
    apply BitVec.eq_of_toNat_eq; simp only [fld, BitVec.toNat_ofNat]; omega
  have f_q : fld 2 25 u = q := by
    apply BitVec.eq_of_toNat_eq; simp only [fld, BitVec.toNat_ofNat]; omega
  have f_c : fld 3 22 u = c := by
    apply BitVec.eq_of_toNat_eq; simp only [fld, BitVec.toNat_ofNat]; omega
  have f_n : fld 1 21 u = n := by
    apply BitVec.eq_of_toNat_eq; simp only [fld, BitVec.toNat_ofNat]; omega
  have f_x : fld 9 9 u = x := by
    apply BitVec.eq_of_toNat_eq; simp only [fld, BitVec.toNat_ofNat]; omega
  have f_y : fld 9 0 u = y := by
    apply BitVec.eq_of_toNat_eq; simp only [fld, BitVec.toNat_ofNat]; omega
  unfold decodeV
  rw [he]
  show (if u / 2 ^ 18 % 8 = 0 then Sys2Proof.chk (Instr.vcmp (fld 3 29 u) (fld 2 27 u) (fld 2 25 u) (fld 3 22 u) (fld 1 21 u) (fld 9 9 u) (fld 9 0 u)) else .error .reserved) = _
  rw [if_pos hc, f_t, f_p, f_q, f_c, f_n, f_x, f_y]
  exact if_pos hw

theorem vsel (t : BitVec 3) (p : BitVec 2) (d : BitVec 9) (x : BitVec 9) (y : BitVec 9) : Statement (Instr.vsel t p d x y) := by
  intro k hk hw
  cases hk
  have b_t := t.isLt
  have b_p := p.isLt
  have b_d := d.isLt
  have b_x := x.isLt
  have b_y := y.isLt
  obtain ⟨u, h0⟩ : ∃ u, encodeV (Instr.vsel t p d x y) = u := ⟨_, rfl⟩
  show decodeV (encodeV (Instr.vsel t p d x y)) = _
  rw [h0]
  have hu : 0x2100000000 + t.toNat * 2 ^ 29 + p.toNat * 2 ^ 27 + d.toNat * 2 ^ 18 + x.toNat * 2 ^ 9 + y.toNat * 2 ^ 0 = u := h0
  have he : u / 2 ^ 32 = 0x21 := by omega
  have f_t : fld 3 29 u = t := by
    apply BitVec.eq_of_toNat_eq; simp only [fld, BitVec.toNat_ofNat]; omega
  have f_p : fld 2 27 u = p := by
    apply BitVec.eq_of_toNat_eq; simp only [fld, BitVec.toNat_ofNat]; omega
  have f_d : fld 9 18 u = d := by
    apply BitVec.eq_of_toNat_eq; simp only [fld, BitVec.toNat_ofNat]; omega
  have f_x : fld 9 9 u = x := by
    apply BitVec.eq_of_toNat_eq; simp only [fld, BitVec.toNat_ofNat]; omega
  have f_y : fld 9 0 u = y := by
    apply BitVec.eq_of_toNat_eq; simp only [fld, BitVec.toNat_ofNat]; omega
  unfold decodeV
  rw [he]
  show (Sys2Proof.chk (Instr.vsel (fld 3 29 u) (fld 2 27 u) (fld 9 18 u) (fld 9 9 u) (fld 9 0 u))) = _
  rw [f_t, f_p, f_d, f_x, f_y]
  exact if_pos hw

theorem vcvt (t : BitVec 3) (p : BitVec 2) (d : BitVec 9) (x : BitVec 9) (f : BitVec 3) (n : BitVec 1) (z : BitVec 1) (s : BitVec 1) : Statement (Instr.vcvt t p d x f n z s) := by
  intro k hk hw
  cases hk
  have b_t := t.isLt
  have b_p := p.isLt
  have b_d := d.isLt
  have b_x := x.isLt
  have b_f := f.isLt
  have b_n := n.isLt
  have b_z := z.isLt
  have b_s := s.isLt
  obtain ⟨u, h0⟩ : ∃ u, encodeV (Instr.vcvt t p d x f n z s) = u := ⟨_, rfl⟩
  show decodeV (encodeV (Instr.vcvt t p d x f n z s)) = _
  rw [h0]
  have hu : 0x2200000000 + t.toNat * 2 ^ 29 + p.toNat * 2 ^ 27 + d.toNat * 2 ^ 18 + x.toNat * 2 ^ 9 + f.toNat * 2 ^ 6 + n.toNat * 2 ^ 5 + z.toNat * 2 ^ 4 + s.toNat * 2 ^ 3 = u := h0
  have he : u / 2 ^ 32 = 0x22 := by omega
  have hc : u % 8 = 0 := by omega
  have f_t : fld 3 29 u = t := by
    apply BitVec.eq_of_toNat_eq; simp only [fld, BitVec.toNat_ofNat]; omega
  have f_p : fld 2 27 u = p := by
    apply BitVec.eq_of_toNat_eq; simp only [fld, BitVec.toNat_ofNat]; omega
  have f_d : fld 9 18 u = d := by
    apply BitVec.eq_of_toNat_eq; simp only [fld, BitVec.toNat_ofNat]; omega
  have f_x : fld 9 9 u = x := by
    apply BitVec.eq_of_toNat_eq; simp only [fld, BitVec.toNat_ofNat]; omega
  have f_f : fld 3 6 u = f := by
    apply BitVec.eq_of_toNat_eq; simp only [fld, BitVec.toNat_ofNat]; omega
  have f_n : fld 1 5 u = n := by
    apply BitVec.eq_of_toNat_eq; simp only [fld, BitVec.toNat_ofNat]; omega
  have f_z : fld 1 4 u = z := by
    apply BitVec.eq_of_toNat_eq; simp only [fld, BitVec.toNat_ofNat]; omega
  have f_s : fld 1 3 u = s := by
    apply BitVec.eq_of_toNat_eq; simp only [fld, BitVec.toNat_ofNat]; omega
  unfold decodeV
  rw [he]
  show (if u % 8 = 0 then Sys2Proof.chk (Instr.vcvt (fld 3 29 u) (fld 2 27 u) (fld 9 18 u) (fld 9 9 u) (fld 3 6 u) (fld 1 5 u) (fld 1 4 u) (fld 1 3 u)) else .error .reserved) = _
  rw [if_pos hc, f_t, f_p, f_d, f_x, f_f, f_n, f_z, f_s]
  exact if_pos hw

theorem vand (t : BitVec 3) (p : BitVec 2) (d : BitVec 9) (x : BitVec 9) (y : BitVec 9) : Statement (Instr.vand t p d x y) := by
  intro k hk hw
  cases hk
  have b_t := t.isLt
  have b_p := p.isLt
  have b_d := d.isLt
  have b_x := x.isLt
  have b_y := y.isLt
  obtain ⟨u, h0⟩ : ∃ u, encodeV (Instr.vand t p d x y) = u := ⟨_, rfl⟩
  show decodeV (encodeV (Instr.vand t p d x y)) = _
  rw [h0]
  have hu : 0x2800000000 + t.toNat * 2 ^ 29 + p.toNat * 2 ^ 27 + d.toNat * 2 ^ 18 + x.toNat * 2 ^ 9 + y.toNat * 2 ^ 0 = u := h0
  have he : u / 2 ^ 32 = 0x28 := by omega
  have f_t : fld 3 29 u = t := by
    apply BitVec.eq_of_toNat_eq; simp only [fld, BitVec.toNat_ofNat]; omega
  have f_p : fld 2 27 u = p := by
    apply BitVec.eq_of_toNat_eq; simp only [fld, BitVec.toNat_ofNat]; omega
  have f_d : fld 9 18 u = d := by
    apply BitVec.eq_of_toNat_eq; simp only [fld, BitVec.toNat_ofNat]; omega
  have f_x : fld 9 9 u = x := by
    apply BitVec.eq_of_toNat_eq; simp only [fld, BitVec.toNat_ofNat]; omega
  have f_y : fld 9 0 u = y := by
    apply BitVec.eq_of_toNat_eq; simp only [fld, BitVec.toNat_ofNat]; omega
  unfold decodeV
  rw [he]
  show (Sys2Proof.chk (Instr.vand (fld 3 29 u) (fld 2 27 u) (fld 9 18 u) (fld 9 9 u) (fld 9 0 u))) = _
  rw [f_t, f_p, f_d, f_x, f_y]
  exact if_pos hw

theorem vor (t : BitVec 3) (p : BitVec 2) (d : BitVec 9) (x : BitVec 9) (y : BitVec 9) : Statement (Instr.vor t p d x y) := by
  intro k hk hw
  cases hk
  have b_t := t.isLt
  have b_p := p.isLt
  have b_d := d.isLt
  have b_x := x.isLt
  have b_y := y.isLt
  obtain ⟨u, h0⟩ : ∃ u, encodeV (Instr.vor t p d x y) = u := ⟨_, rfl⟩
  show decodeV (encodeV (Instr.vor t p d x y)) = _
  rw [h0]
  have hu : 0x2900000000 + t.toNat * 2 ^ 29 + p.toNat * 2 ^ 27 + d.toNat * 2 ^ 18 + x.toNat * 2 ^ 9 + y.toNat * 2 ^ 0 = u := h0
  have he : u / 2 ^ 32 = 0x29 := by omega
  have f_t : fld 3 29 u = t := by
    apply BitVec.eq_of_toNat_eq; simp only [fld, BitVec.toNat_ofNat]; omega
  have f_p : fld 2 27 u = p := by
    apply BitVec.eq_of_toNat_eq; simp only [fld, BitVec.toNat_ofNat]; omega
  have f_d : fld 9 18 u = d := by
    apply BitVec.eq_of_toNat_eq; simp only [fld, BitVec.toNat_ofNat]; omega
  have f_x : fld 9 9 u = x := by
    apply BitVec.eq_of_toNat_eq; simp only [fld, BitVec.toNat_ofNat]; omega
  have f_y : fld 9 0 u = y := by
    apply BitVec.eq_of_toNat_eq; simp only [fld, BitVec.toNat_ofNat]; omega
  unfold decodeV
  rw [he]
  show (Sys2Proof.chk (Instr.vor (fld 3 29 u) (fld 2 27 u) (fld 9 18 u) (fld 9 9 u) (fld 9 0 u))) = _
  rw [f_t, f_p, f_d, f_x, f_y]
  exact if_pos hw

theorem vxor (t : BitVec 3) (p : BitVec 2) (d : BitVec 9) (x : BitVec 9) (y : BitVec 9) : Statement (Instr.vxor t p d x y) := by
  intro k hk hw
  cases hk
  have b_t := t.isLt
  have b_p := p.isLt
  have b_d := d.isLt
  have b_x := x.isLt
  have b_y := y.isLt
  obtain ⟨u, h0⟩ : ∃ u, encodeV (Instr.vxor t p d x y) = u := ⟨_, rfl⟩
  show decodeV (encodeV (Instr.vxor t p d x y)) = _
  rw [h0]
  have hu : 0x2A00000000 + t.toNat * 2 ^ 29 + p.toNat * 2 ^ 27 + d.toNat * 2 ^ 18 + x.toNat * 2 ^ 9 + y.toNat * 2 ^ 0 = u := h0
  have he : u / 2 ^ 32 = 0x2A := by omega
  have f_t : fld 3 29 u = t := by
    apply BitVec.eq_of_toNat_eq; simp only [fld, BitVec.toNat_ofNat]; omega
  have f_p : fld 2 27 u = p := by
    apply BitVec.eq_of_toNat_eq; simp only [fld, BitVec.toNat_ofNat]; omega
  have f_d : fld 9 18 u = d := by
    apply BitVec.eq_of_toNat_eq; simp only [fld, BitVec.toNat_ofNat]; omega
  have f_x : fld 9 9 u = x := by
    apply BitVec.eq_of_toNat_eq; simp only [fld, BitVec.toNat_ofNat]; omega
  have f_y : fld 9 0 u = y := by
    apply BitVec.eq_of_toNat_eq; simp only [fld, BitVec.toNat_ofNat]; omega
  unfold decodeV
  rw [he]
  show (Sys2Proof.chk (Instr.vxor (fld 3 29 u) (fld 2 27 u) (fld 9 18 u) (fld 9 9 u) (fld 9 0 u))) = _
  rw [f_t, f_p, f_d, f_x, f_y]
  exact if_pos hw

theorem vshl (t : BitVec 3) (p : BitVec 2) (d : BitVec 9) (x : BitVec 9) (y : BitVec 9) : Statement (Instr.vshl t p d x y) := by
  intro k hk hw
  cases hk
  have b_t := t.isLt
  have b_p := p.isLt
  have b_d := d.isLt
  have b_x := x.isLt
  have b_y := y.isLt
  obtain ⟨u, h0⟩ : ∃ u, encodeV (Instr.vshl t p d x y) = u := ⟨_, rfl⟩
  show decodeV (encodeV (Instr.vshl t p d x y)) = _
  rw [h0]
  have hu : 0x2B00000000 + t.toNat * 2 ^ 29 + p.toNat * 2 ^ 27 + d.toNat * 2 ^ 18 + x.toNat * 2 ^ 9 + y.toNat * 2 ^ 0 = u := h0
  have he : u / 2 ^ 32 = 0x2B := by omega
  have f_t : fld 3 29 u = t := by
    apply BitVec.eq_of_toNat_eq; simp only [fld, BitVec.toNat_ofNat]; omega
  have f_p : fld 2 27 u = p := by
    apply BitVec.eq_of_toNat_eq; simp only [fld, BitVec.toNat_ofNat]; omega
  have f_d : fld 9 18 u = d := by
    apply BitVec.eq_of_toNat_eq; simp only [fld, BitVec.toNat_ofNat]; omega
  have f_x : fld 9 9 u = x := by
    apply BitVec.eq_of_toNat_eq; simp only [fld, BitVec.toNat_ofNat]; omega
  have f_y : fld 9 0 u = y := by
    apply BitVec.eq_of_toNat_eq; simp only [fld, BitVec.toNat_ofNat]; omega
  unfold decodeV
  rw [he]
  show (Sys2Proof.chk (Instr.vshl (fld 3 29 u) (fld 2 27 u) (fld 9 18 u) (fld 9 9 u) (fld 9 0 u))) = _
  rw [f_t, f_p, f_d, f_x, f_y]
  exact if_pos hw

theorem vshr (t : BitVec 3) (p : BitVec 2) (d : BitVec 9) (x : BitVec 9) (y : BitVec 9) : Statement (Instr.vshr t p d x y) := by
  intro k hk hw
  cases hk
  have b_t := t.isLt
  have b_p := p.isLt
  have b_d := d.isLt
  have b_x := x.isLt
  have b_y := y.isLt
  obtain ⟨u, h0⟩ : ∃ u, encodeV (Instr.vshr t p d x y) = u := ⟨_, rfl⟩
  show decodeV (encodeV (Instr.vshr t p d x y)) = _
  rw [h0]
  have hu : 0x2C00000000 + t.toNat * 2 ^ 29 + p.toNat * 2 ^ 27 + d.toNat * 2 ^ 18 + x.toNat * 2 ^ 9 + y.toNat * 2 ^ 0 = u := h0
  have he : u / 2 ^ 32 = 0x2C := by omega
  have f_t : fld 3 29 u = t := by
    apply BitVec.eq_of_toNat_eq; simp only [fld, BitVec.toNat_ofNat]; omega
  have f_p : fld 2 27 u = p := by
    apply BitVec.eq_of_toNat_eq; simp only [fld, BitVec.toNat_ofNat]; omega
  have f_d : fld 9 18 u = d := by
    apply BitVec.eq_of_toNat_eq; simp only [fld, BitVec.toNat_ofNat]; omega
  have f_x : fld 9 9 u = x := by
    apply BitVec.eq_of_toNat_eq; simp only [fld, BitVec.toNat_ofNat]; omega
  have f_y : fld 9 0 u = y := by
    apply BitVec.eq_of_toNat_eq; simp only [fld, BitVec.toNat_ofNat]; omega
  unfold decodeV
  rw [he]
  show (Sys2Proof.chk (Instr.vshr (fld 3 29 u) (fld 2 27 u) (fld 9 18 u) (fld 9 9 u) (fld 9 0 u))) = _
  rw [f_t, f_p, f_d, f_x, f_y]
  exact if_pos hw

theorem vsar (t : BitVec 3) (p : BitVec 2) (d : BitVec 9) (x : BitVec 9) (y : BitVec 9) : Statement (Instr.vsar t p d x y) := by
  intro k hk hw
  cases hk
  have b_t := t.isLt
  have b_p := p.isLt
  have b_d := d.isLt
  have b_x := x.isLt
  have b_y := y.isLt
  obtain ⟨u, h0⟩ : ∃ u, encodeV (Instr.vsar t p d x y) = u := ⟨_, rfl⟩
  show decodeV (encodeV (Instr.vsar t p d x y)) = _
  rw [h0]
  have hu : 0x2D00000000 + t.toNat * 2 ^ 29 + p.toNat * 2 ^ 27 + d.toNat * 2 ^ 18 + x.toNat * 2 ^ 9 + y.toNat * 2 ^ 0 = u := h0
  have he : u / 2 ^ 32 = 0x2D := by omega
  have f_t : fld 3 29 u = t := by
    apply BitVec.eq_of_toNat_eq; simp only [fld, BitVec.toNat_ofNat]; omega
  have f_p : fld 2 27 u = p := by
    apply BitVec.eq_of_toNat_eq; simp only [fld, BitVec.toNat_ofNat]; omega
  have f_d : fld 9 18 u = d := by
    apply BitVec.eq_of_toNat_eq; simp only [fld, BitVec.toNat_ofNat]; omega
  have f_x : fld 9 9 u = x := by
    apply BitVec.eq_of_toNat_eq; simp only [fld, BitVec.toNat_ofNat]; omega
  have f_y : fld 9 0 u = y := by
    apply BitVec.eq_of_toNat_eq; simp only [fld, BitVec.toNat_ofNat]; omega
  unfold decodeV
  rw [he]
  show (Sys2Proof.chk (Instr.vsar (fld 3 29 u) (fld 2 27 u) (fld 9 18 u) (fld 9 9 u) (fld 9 0 u))) = _
  rw [f_t, f_p, f_d, f_x, f_y]
  exact if_pos hw

theorem vrcp (t : BitVec 3) (p : BitVec 2) (d : BitVec 9) (x : BitVec 9) : Statement (Instr.vrcp t p d x) := by
  intro k hk hw
  cases hk
  have b_t := t.isLt
  have b_p := p.isLt
  have b_d := d.isLt
  have b_x := x.isLt
  obtain ⟨u, h0⟩ : ∃ u, encodeV (Instr.vrcp t p d x) = u := ⟨_, rfl⟩
  show decodeV (encodeV (Instr.vrcp t p d x)) = _
  rw [h0]
  have hu : 0x3000000000 + t.toNat * 2 ^ 29 + p.toNat * 2 ^ 27 + d.toNat * 2 ^ 18 + x.toNat * 2 ^ 9 = u := h0
  have he : u / 2 ^ 32 = 0x30 := by omega
  have hc : u % 512 = 0 := by omega
  have f_t : fld 3 29 u = t := by
    apply BitVec.eq_of_toNat_eq; simp only [fld, BitVec.toNat_ofNat]; omega
  have f_p : fld 2 27 u = p := by
    apply BitVec.eq_of_toNat_eq; simp only [fld, BitVec.toNat_ofNat]; omega
  have f_d : fld 9 18 u = d := by
    apply BitVec.eq_of_toNat_eq; simp only [fld, BitVec.toNat_ofNat]; omega
  have f_x : fld 9 9 u = x := by
    apply BitVec.eq_of_toNat_eq; simp only [fld, BitVec.toNat_ofNat]; omega
  unfold decodeV
  rw [he]
  show (if u % 512 = 0 then Sys2Proof.chk (Instr.vrcp (fld 3 29 u) (fld 2 27 u) (fld 9 18 u) (fld 9 9 u)) else .error .reserved) = _
  rw [if_pos hc, f_t, f_p, f_d, f_x]
  exact if_pos hw

theorem vrsq (t : BitVec 3) (p : BitVec 2) (d : BitVec 9) (x : BitVec 9) : Statement (Instr.vrsq t p d x) := by
  intro k hk hw
  cases hk
  have b_t := t.isLt
  have b_p := p.isLt
  have b_d := d.isLt
  have b_x := x.isLt
  obtain ⟨u, h0⟩ : ∃ u, encodeV (Instr.vrsq t p d x) = u := ⟨_, rfl⟩
  show decodeV (encodeV (Instr.vrsq t p d x)) = _
  rw [h0]
  have hu : 0x3100000000 + t.toNat * 2 ^ 29 + p.toNat * 2 ^ 27 + d.toNat * 2 ^ 18 + x.toNat * 2 ^ 9 = u := h0
  have he : u / 2 ^ 32 = 0x31 := by omega
  have hc : u % 512 = 0 := by omega
  have f_t : fld 3 29 u = t := by
    apply BitVec.eq_of_toNat_eq; simp only [fld, BitVec.toNat_ofNat]; omega
  have f_p : fld 2 27 u = p := by
    apply BitVec.eq_of_toNat_eq; simp only [fld, BitVec.toNat_ofNat]; omega
  have f_d : fld 9 18 u = d := by
    apply BitVec.eq_of_toNat_eq; simp only [fld, BitVec.toNat_ofNat]; omega
  have f_x : fld 9 9 u = x := by
    apply BitVec.eq_of_toNat_eq; simp only [fld, BitVec.toNat_ofNat]; omega
  unfold decodeV
  rw [he]
  show (if u % 512 = 0 then Sys2Proof.chk (Instr.vrsq (fld 3 29 u) (fld 2 27 u) (fld 9 18 u) (fld 9 9 u)) else .error .reserved) = _
  rw [if_pos hc, f_t, f_p, f_d, f_x]
  exact if_pos hw

theorem vexp2 (t : BitVec 3) (p : BitVec 2) (d : BitVec 9) (x : BitVec 9) : Statement (Instr.vexp2 t p d x) := by
  intro k hk hw
  cases hk
  have b_t := t.isLt
  have b_p := p.isLt
  have b_d := d.isLt
  have b_x := x.isLt
  obtain ⟨u, h0⟩ : ∃ u, encodeV (Instr.vexp2 t p d x) = u := ⟨_, rfl⟩
  show decodeV (encodeV (Instr.vexp2 t p d x)) = _
  rw [h0]
  have hu : 0x3200000000 + t.toNat * 2 ^ 29 + p.toNat * 2 ^ 27 + d.toNat * 2 ^ 18 + x.toNat * 2 ^ 9 = u := h0
  have he : u / 2 ^ 32 = 0x32 := by omega
  have hc : u % 512 = 0 := by omega
  have f_t : fld 3 29 u = t := by
    apply BitVec.eq_of_toNat_eq; simp only [fld, BitVec.toNat_ofNat]; omega
  have f_p : fld 2 27 u = p := by
    apply BitVec.eq_of_toNat_eq; simp only [fld, BitVec.toNat_ofNat]; omega
  have f_d : fld 9 18 u = d := by
    apply BitVec.eq_of_toNat_eq; simp only [fld, BitVec.toNat_ofNat]; omega
  have f_x : fld 9 9 u = x := by
    apply BitVec.eq_of_toNat_eq; simp only [fld, BitVec.toNat_ofNat]; omega
  unfold decodeV
  rw [he]
  show (if u % 512 = 0 then Sys2Proof.chk (Instr.vexp2 (fld 3 29 u) (fld 2 27 u) (fld 9 18 u) (fld 9 9 u)) else .error .reserved) = _
  rw [if_pos hc, f_t, f_p, f_d, f_x]
  exact if_pos hw

theorem vlog2 (t : BitVec 3) (p : BitVec 2) (d : BitVec 9) (x : BitVec 9) : Statement (Instr.vlog2 t p d x) := by
  intro k hk hw
  cases hk
  have b_t := t.isLt
  have b_p := p.isLt
  have b_d := d.isLt
  have b_x := x.isLt
  obtain ⟨u, h0⟩ : ∃ u, encodeV (Instr.vlog2 t p d x) = u := ⟨_, rfl⟩
  show decodeV (encodeV (Instr.vlog2 t p d x)) = _
  rw [h0]
  have hu : 0x3300000000 + t.toNat * 2 ^ 29 + p.toNat * 2 ^ 27 + d.toNat * 2 ^ 18 + x.toNat * 2 ^ 9 = u := h0
  have he : u / 2 ^ 32 = 0x33 := by omega
  have hc : u % 512 = 0 := by omega
  have f_t : fld 3 29 u = t := by
    apply BitVec.eq_of_toNat_eq; simp only [fld, BitVec.toNat_ofNat]; omega
  have f_p : fld 2 27 u = p := by
    apply BitVec.eq_of_toNat_eq; simp only [fld, BitVec.toNat_ofNat]; omega
  have f_d : fld 9 18 u = d := by
    apply BitVec.eq_of_toNat_eq; simp only [fld, BitVec.toNat_ofNat]; omega
  have f_x : fld 9 9 u = x := by
    apply BitVec.eq_of_toNat_eq; simp only [fld, BitVec.toNat_ofNat]; omega
  unfold decodeV
  rw [he]
  show (if u % 512 = 0 then Sys2Proof.chk (Instr.vlog2 (fld 3 29 u) (fld 2 27 u) (fld 9 18 u) (fld 9 9 u)) else .error .reserved) = _
  rw [if_pos hc, f_t, f_p, f_d, f_x]
  exact if_pos hw

theorem vtanh (t : BitVec 3) (p : BitVec 2) (d : BitVec 9) (x : BitVec 9) : Statement (Instr.vtanh t p d x) := by
  intro k hk hw
  cases hk
  have b_t := t.isLt
  have b_p := p.isLt
  have b_d := d.isLt
  have b_x := x.isLt
  obtain ⟨u, h0⟩ : ∃ u, encodeV (Instr.vtanh t p d x) = u := ⟨_, rfl⟩
  show decodeV (encodeV (Instr.vtanh t p d x)) = _
  rw [h0]
  have hu : 0x3400000000 + t.toNat * 2 ^ 29 + p.toNat * 2 ^ 27 + d.toNat * 2 ^ 18 + x.toNat * 2 ^ 9 = u := h0
  have he : u / 2 ^ 32 = 0x34 := by omega
  have hc : u % 512 = 0 := by omega
  have f_t : fld 3 29 u = t := by
    apply BitVec.eq_of_toNat_eq; simp only [fld, BitVec.toNat_ofNat]; omega
  have f_p : fld 2 27 u = p := by
    apply BitVec.eq_of_toNat_eq; simp only [fld, BitVec.toNat_ofNat]; omega
  have f_d : fld 9 18 u = d := by
    apply BitVec.eq_of_toNat_eq; simp only [fld, BitVec.toNat_ofNat]; omega
  have f_x : fld 9 9 u = x := by
    apply BitVec.eq_of_toNat_eq; simp only [fld, BitVec.toNat_ofNat]; omega
  unfold decodeV
  rw [he]
  show (if u % 512 = 0 then Sys2Proof.chk (Instr.vtanh (fld 3 29 u) (fld 2 27 u) (fld 9 18 u) (fld 9 9 u)) else .error .reserved) = _
  rw [if_pos hc, f_t, f_p, f_d, f_x]
  exact if_pos hw

theorem vred (t : BitVec 3) (p : BitVec 2) (d : BitVec 9) (x : BitVec 9) (o : BitVec 2) (n : BitVec 1) : Statement (Instr.vred t p d x o n) := by
  intro k hk hw
  cases hk
  have b_t := t.isLt
  have b_p := p.isLt
  have b_d := d.isLt
  have b_x := x.isLt
  have b_o := o.isLt
  have b_n := n.isLt
  obtain ⟨u, h0⟩ : ∃ u, encodeV (Instr.vred t p d x o n) = u := ⟨_, rfl⟩
  show decodeV (encodeV (Instr.vred t p d x o n)) = _
  rw [h0]
  have hu : 0x3800000000 + t.toNat * 2 ^ 29 + p.toNat * 2 ^ 27 + d.toNat * 2 ^ 18 + x.toNat * 2 ^ 9 + o.toNat * 2 ^ 7 + n.toNat * 2 ^ 6 = u := h0
  have he : u / 2 ^ 32 = 0x38 := by omega
  have hc : u % 64 = 0 := by omega
  have f_t : fld 3 29 u = t := by
    apply BitVec.eq_of_toNat_eq; simp only [fld, BitVec.toNat_ofNat]; omega
  have f_p : fld 2 27 u = p := by
    apply BitVec.eq_of_toNat_eq; simp only [fld, BitVec.toNat_ofNat]; omega
  have f_d : fld 9 18 u = d := by
    apply BitVec.eq_of_toNat_eq; simp only [fld, BitVec.toNat_ofNat]; omega
  have f_x : fld 9 9 u = x := by
    apply BitVec.eq_of_toNat_eq; simp only [fld, BitVec.toNat_ofNat]; omega
  have f_o : fld 2 7 u = o := by
    apply BitVec.eq_of_toNat_eq; simp only [fld, BitVec.toNat_ofNat]; omega
  have f_n : fld 1 6 u = n := by
    apply BitVec.eq_of_toNat_eq; simp only [fld, BitVec.toNat_ofNat]; omega
  unfold decodeV
  rw [he]
  show (if u % 64 = 0 then Sys2Proof.chk (Instr.vred (fld 3 29 u) (fld 2 27 u) (fld 9 18 u) (fld 9 9 u) (fld 2 7 u) (fld 1 6 u)) else .error .reserved) = _
  rw [if_pos hc, f_t, f_p, f_d, f_x, f_o, f_n]
  exact if_pos hw

theorem vscan (t : BitVec 3) (p : BitVec 2) (d : BitVec 9) (x : BitVec 9) (o : BitVec 2) (n : BitVec 1) : Statement (Instr.vscan t p d x o n) := by
  intro k hk hw
  cases hk
  have b_t := t.isLt
  have b_p := p.isLt
  have b_d := d.isLt
  have b_x := x.isLt
  have b_o := o.isLt
  have b_n := n.isLt
  obtain ⟨u, h0⟩ : ∃ u, encodeV (Instr.vscan t p d x o n) = u := ⟨_, rfl⟩
  show decodeV (encodeV (Instr.vscan t p d x o n)) = _
  rw [h0]
  have hu : 0x3900000000 + t.toNat * 2 ^ 29 + p.toNat * 2 ^ 27 + d.toNat * 2 ^ 18 + x.toNat * 2 ^ 9 + o.toNat * 2 ^ 7 + n.toNat * 2 ^ 6 = u := h0
  have he : u / 2 ^ 32 = 0x39 := by omega
  have hc : u % 64 = 0 := by omega
  have f_t : fld 3 29 u = t := by
    apply BitVec.eq_of_toNat_eq; simp only [fld, BitVec.toNat_ofNat]; omega
  have f_p : fld 2 27 u = p := by
    apply BitVec.eq_of_toNat_eq; simp only [fld, BitVec.toNat_ofNat]; omega
  have f_d : fld 9 18 u = d := by
    apply BitVec.eq_of_toNat_eq; simp only [fld, BitVec.toNat_ofNat]; omega
  have f_x : fld 9 9 u = x := by
    apply BitVec.eq_of_toNat_eq; simp only [fld, BitVec.toNat_ofNat]; omega
  have f_o : fld 2 7 u = o := by
    apply BitVec.eq_of_toNat_eq; simp only [fld, BitVec.toNat_ofNat]; omega
  have f_n : fld 1 6 u = n := by
    apply BitVec.eq_of_toNat_eq; simp only [fld, BitVec.toNat_ofNat]; omega
  unfold decodeV
  rw [he]
  show (if u % 64 = 0 then Sys2Proof.chk (Instr.vscan (fld 3 29 u) (fld 2 27 u) (fld 9 18 u) (fld 9 9 u) (fld 2 7 u) (fld 1 6 u)) else .error .reserved) = _
  rw [if_pos hc, f_t, f_p, f_d, f_x, f_o, f_n]
  exact if_pos hw

theorem vperm (t : BitVec 3) (p : BitVec 2) (d : BitVec 9) (x : BitVec 9) (y : BitVec 9) : Statement (Instr.vperm t p d x y) := by
  intro k hk hw
  cases hk
  have b_t := t.isLt
  have b_p := p.isLt
  have b_d := d.isLt
  have b_x := x.isLt
  have b_y := y.isLt
  obtain ⟨u, h0⟩ : ∃ u, encodeV (Instr.vperm t p d x y) = u := ⟨_, rfl⟩
  show decodeV (encodeV (Instr.vperm t p d x y)) = _
  rw [h0]
  have hu : 0x3A00000000 + t.toNat * 2 ^ 29 + p.toNat * 2 ^ 27 + d.toNat * 2 ^ 18 + x.toNat * 2 ^ 9 + y.toNat * 2 ^ 0 = u := h0
  have he : u / 2 ^ 32 = 0x3A := by omega
  have f_t : fld 3 29 u = t := by
    apply BitVec.eq_of_toNat_eq; simp only [fld, BitVec.toNat_ofNat]; omega
  have f_p : fld 2 27 u = p := by
    apply BitVec.eq_of_toNat_eq; simp only [fld, BitVec.toNat_ofNat]; omega
  have f_d : fld 9 18 u = d := by
    apply BitVec.eq_of_toNat_eq; simp only [fld, BitVec.toNat_ofNat]; omega
  have f_x : fld 9 9 u = x := by
    apply BitVec.eq_of_toNat_eq; simp only [fld, BitVec.toNat_ofNat]; omega
  have f_y : fld 9 0 u = y := by
    apply BitVec.eq_of_toNat_eq; simp only [fld, BitVec.toNat_ofNat]; omega
  unfold decodeV
  rw [he]
  show (Sys2Proof.chk (Instr.vperm (fld 3 29 u) (fld 2 27 u) (fld 9 18 u) (fld 9 9 u) (fld 9 0 u))) = _
  rw [f_t, f_p, f_d, f_x, f_y]
  exact if_pos hw

theorem vbc (t : BitVec 3) (p : BitVec 2) (d : BitVec 9) (x : BitVec 9) (l : BitVec 6) : Statement (Instr.vbc t p d x l) := by
  intro k hk hw
  cases hk
  have b_t := t.isLt
  have b_p := p.isLt
  have b_d := d.isLt
  have b_x := x.isLt
  have b_l := l.isLt
  obtain ⟨u, h0⟩ : ∃ u, encodeV (Instr.vbc t p d x l) = u := ⟨_, rfl⟩
  show decodeV (encodeV (Instr.vbc t p d x l)) = _
  rw [h0]
  have hu : 0x3B00000000 + t.toNat * 2 ^ 29 + p.toNat * 2 ^ 27 + d.toNat * 2 ^ 18 + x.toNat * 2 ^ 9 + l.toNat * 2 ^ 0 = u := h0
  have he : u / 2 ^ 32 = 0x3B := by omega
  have hc : u / 2 ^ 6 % 8 = 0 := by omega
  have f_t : fld 3 29 u = t := by
    apply BitVec.eq_of_toNat_eq; simp only [fld, BitVec.toNat_ofNat]; omega
  have f_p : fld 2 27 u = p := by
    apply BitVec.eq_of_toNat_eq; simp only [fld, BitVec.toNat_ofNat]; omega
  have f_d : fld 9 18 u = d := by
    apply BitVec.eq_of_toNat_eq; simp only [fld, BitVec.toNat_ofNat]; omega
  have f_x : fld 9 9 u = x := by
    apply BitVec.eq_of_toNat_eq; simp only [fld, BitVec.toNat_ofNat]; omega
  have f_l : fld 6 0 u = l := by
    apply BitVec.eq_of_toNat_eq; simp only [fld, BitVec.toNat_ofNat]; omega
  unfold decodeV
  rw [he]
  show (if u / 2 ^ 6 % 8 = 0 then Sys2Proof.chk (Instr.vbc (fld 3 29 u) (fld 2 27 u) (fld 9 18 u) (fld 9 9 u) (fld 6 0 u)) else .error .reserved) = _
  rw [if_pos hc, f_t, f_p, f_d, f_x, f_l]
  exact if_pos hw

theorem viota (t : BitVec 3) (p : BitVec 2) (d : BitVec 9) : Statement (Instr.viota t p d) := by
  intro k hk hw
  cases hk
  have b_t := t.isLt
  have b_p := p.isLt
  have b_d := d.isLt
  obtain ⟨u, h0⟩ : ∃ u, encodeV (Instr.viota t p d) = u := ⟨_, rfl⟩
  show decodeV (encodeV (Instr.viota t p d)) = _
  rw [h0]
  have hu : 0x3C00000000 + t.toNat * 2 ^ 29 + p.toNat * 2 ^ 27 + d.toNat * 2 ^ 18 = u := h0
  have he : u / 2 ^ 32 = 0x3C := by omega
  have hc : u % 262144 = 0 := by omega
  have f_t : fld 3 29 u = t := by
    apply BitVec.eq_of_toNat_eq; simp only [fld, BitVec.toNat_ofNat]; omega
  have f_p : fld 2 27 u = p := by
    apply BitVec.eq_of_toNat_eq; simp only [fld, BitVec.toNat_ofNat]; omega
  have f_d : fld 9 18 u = d := by
    apply BitVec.eq_of_toNat_eq; simp only [fld, BitVec.toNat_ofNat]; omega
  unfold decodeV
  rw [he]
  show (if u % 262144 = 0 then Sys2Proof.chk (Instr.viota (fld 3 29 u) (fld 2 27 u) (fld 9 18 u)) else .error .reserved) = _
  rw [if_pos hc, f_t, f_p, f_d]
  exact if_pos hw

theorem vmov (t : BitVec 3) (p : BitVec 2) (d : BitVec 9) (x : BitVec 9) : Statement (Instr.vmov t p d x) := by
  intro k hk hw
  cases hk
  have b_t := t.isLt
  have b_p := p.isLt
  have b_d := d.isLt
  have b_x := x.isLt
  obtain ⟨u, h0⟩ : ∃ u, encodeV (Instr.vmov t p d x) = u := ⟨_, rfl⟩
  show decodeV (encodeV (Instr.vmov t p d x)) = _
  rw [h0]
  have hu : 0x3D00000000 + t.toNat * 2 ^ 29 + p.toNat * 2 ^ 27 + d.toNat * 2 ^ 18 + x.toNat * 2 ^ 9 = u := h0
  have he : u / 2 ^ 32 = 0x3D := by omega
  have hc : u % 512 = 0 := by omega
  have f_t : fld 3 29 u = t := by
    apply BitVec.eq_of_toNat_eq; simp only [fld, BitVec.toNat_ofNat]; omega
  have f_p : fld 2 27 u = p := by
    apply BitVec.eq_of_toNat_eq; simp only [fld, BitVec.toNat_ofNat]; omega
  have f_d : fld 9 18 u = d := by
    apply BitVec.eq_of_toNat_eq; simp only [fld, BitVec.toNat_ofNat]; omega
  have f_x : fld 9 9 u = x := by
    apply BitVec.eq_of_toNat_eq; simp only [fld, BitVec.toNat_ofNat]; omega
  unfold decodeV
  rw [he]
  show (if u % 512 = 0 then Sys2Proof.chk (Instr.vmov (fld 3 29 u) (fld 2 27 u) (fld 9 18 u) (fld 9 9 u)) else .error .reserved) = _
  rw [if_pos hc, f_t, f_p, f_d, f_x]
  exact if_pos hw

theorem vrand (t : BitVec 3) (p : BitVec 2) (d : BitVec 9) (x : BitVec 9) (y : BitVec 9) : Statement (Instr.vrand t p d x y) := by
  intro k hk hw
  cases hk
  have b_t := t.isLt
  have b_p := p.isLt
  have b_d := d.isLt
  have b_x := x.isLt
  have b_y := y.isLt
  obtain ⟨u, h0⟩ : ∃ u, encodeV (Instr.vrand t p d x y) = u := ⟨_, rfl⟩
  show decodeV (encodeV (Instr.vrand t p d x y)) = _
  rw [h0]
  have hu : 0x4000000000 + t.toNat * 2 ^ 29 + p.toNat * 2 ^ 27 + d.toNat * 2 ^ 18 + x.toNat * 2 ^ 9 + y.toNat * 2 ^ 0 = u := h0
  have he : u / 2 ^ 32 = 0x40 := by omega
  have f_t : fld 3 29 u = t := by
    apply BitVec.eq_of_toNat_eq; simp only [fld, BitVec.toNat_ofNat]; omega
  have f_p : fld 2 27 u = p := by
    apply BitVec.eq_of_toNat_eq; simp only [fld, BitVec.toNat_ofNat]; omega
  have f_d : fld 9 18 u = d := by
    apply BitVec.eq_of_toNat_eq; simp only [fld, BitVec.toNat_ofNat]; omega
  have f_x : fld 9 9 u = x := by
    apply BitVec.eq_of_toNat_eq; simp only [fld, BitVec.toNat_ofNat]; omega
  have f_y : fld 9 0 u = y := by
    apply BitVec.eq_of_toNat_eq; simp only [fld, BitVec.toNat_ofNat]; omega
  unfold decodeV
  rw [he]
  show (Sys2Proof.chk (Instr.vrand (fld 3 29 u) (fld 2 27 u) (fld 9 18 u) (fld 9 9 u) (fld 9 0 u))) = _
  rw [f_t, f_p, f_d, f_x, f_y]
  exact if_pos hw

theorem vclamp (t : BitVec 3) (p : BitVec 2) (d : BitVec 9) (x : BitVec 9) (y : BitVec 9) : Statement (Instr.vclamp t p d x y) := by
  intro k hk hw
  cases hk
  have b_t := t.isLt
  have b_p := p.isLt
  have b_d := d.isLt
  have b_x := x.isLt
  have b_y := y.isLt
  obtain ⟨u, h0⟩ : ∃ u, encodeV (Instr.vclamp t p d x y) = u := ⟨_, rfl⟩
  show decodeV (encodeV (Instr.vclamp t p d x y)) = _
  rw [h0]
  have hu : 0x4100000000 + t.toNat * 2 ^ 29 + p.toNat * 2 ^ 27 + d.toNat * 2 ^ 18 + x.toNat * 2 ^ 9 + y.toNat * 2 ^ 0 = u := h0
  have he : u / 2 ^ 32 = 0x41 := by omega
  have f_t : fld 3 29 u = t := by
    apply BitVec.eq_of_toNat_eq; simp only [fld, BitVec.toNat_ofNat]; omega
  have f_p : fld 2 27 u = p := by
    apply BitVec.eq_of_toNat_eq; simp only [fld, BitVec.toNat_ofNat]; omega
  have f_d : fld 9 18 u = d := by
    apply BitVec.eq_of_toNat_eq; simp only [fld, BitVec.toNat_ofNat]; omega
  have f_x : fld 9 9 u = x := by
    apply BitVec.eq_of_toNat_eq; simp only [fld, BitVec.toNat_ofNat]; omega
  have f_y : fld 9 0 u = y := by
    apply BitVec.eq_of_toNat_eq; simp only [fld, BitVec.toNat_ofNat]; omega
  unfold decodeV
  rw [he]
  show (Sys2Proof.chk (Instr.vclamp (fld 3 29 u) (fld 2 27 u) (fld 9 18 u) (fld 9 9 u) (fld 9 0 u))) = _
  rw [f_t, f_p, f_d, f_x, f_y]
  exact if_pos hw

theorem vpack (t : BitVec 3) (p : BitVec 2) (d : BitVec 9) (x : BitVec 9) (f : BitVec 3) (n : BitVec 1) (z : BitVec 1) (s : BitVec 1) : Statement (Instr.vpack t p d x f n z s) := by
  intro k hk hw
  cases hk
  have b_t := t.isLt
  have b_p := p.isLt
  have b_d := d.isLt
  have b_x := x.isLt
  have b_f := f.isLt
  have b_n := n.isLt
  have b_z := z.isLt
  have b_s := s.isLt
  obtain ⟨u, h0⟩ : ∃ u, encodeV (Instr.vpack t p d x f n z s) = u := ⟨_, rfl⟩
  show decodeV (encodeV (Instr.vpack t p d x f n z s)) = _
  rw [h0]
  have hu : 0x4800000000 + t.toNat * 2 ^ 29 + p.toNat * 2 ^ 27 + d.toNat * 2 ^ 18 + x.toNat * 2 ^ 9 + f.toNat * 2 ^ 6 + n.toNat * 2 ^ 5 + z.toNat * 2 ^ 4 + s.toNat * 2 ^ 3 = u := h0
  have he : u / 2 ^ 32 = 0x48 := by omega
  have hc : u % 8 = 0 := by omega
  have f_t : fld 3 29 u = t := by
    apply BitVec.eq_of_toNat_eq; simp only [fld, BitVec.toNat_ofNat]; omega
  have f_p : fld 2 27 u = p := by
    apply BitVec.eq_of_toNat_eq; simp only [fld, BitVec.toNat_ofNat]; omega
  have f_d : fld 9 18 u = d := by
    apply BitVec.eq_of_toNat_eq; simp only [fld, BitVec.toNat_ofNat]; omega
  have f_x : fld 9 9 u = x := by
    apply BitVec.eq_of_toNat_eq; simp only [fld, BitVec.toNat_ofNat]; omega
  have f_f : fld 3 6 u = f := by
    apply BitVec.eq_of_toNat_eq; simp only [fld, BitVec.toNat_ofNat]; omega
  have f_n : fld 1 5 u = n := by
    apply BitVec.eq_of_toNat_eq; simp only [fld, BitVec.toNat_ofNat]; omega
  have f_z : fld 1 4 u = z := by
    apply BitVec.eq_of_toNat_eq; simp only [fld, BitVec.toNat_ofNat]; omega
  have f_s : fld 1 3 u = s := by
    apply BitVec.eq_of_toNat_eq; simp only [fld, BitVec.toNat_ofNat]; omega
  unfold decodeV
  rw [he]
  show (if u % 8 = 0 then Sys2Proof.chk (Instr.vpack (fld 3 29 u) (fld 2 27 u) (fld 9 18 u) (fld 9 9 u) (fld 3 6 u) (fld 1 5 u) (fld 1 4 u) (fld 1 3 u)) else .error .reserved) = _
  rw [if_pos hc, f_t, f_p, f_d, f_x, f_f, f_n, f_z, f_s]
  exact if_pos hw

theorem vunpk (t : BitVec 3) (p : BitVec 2) (d : BitVec 9) (x : BitVec 9) (f : BitVec 3) (n : BitVec 1) (z : BitVec 1) (s : BitVec 1) : Statement (Instr.vunpk t p d x f n z s) := by
  intro k hk hw
  cases hk
  have b_t := t.isLt
  have b_p := p.isLt
  have b_d := d.isLt
  have b_x := x.isLt
  have b_f := f.isLt
  have b_n := n.isLt
  have b_z := z.isLt
  have b_s := s.isLt
  obtain ⟨u, h0⟩ : ∃ u, encodeV (Instr.vunpk t p d x f n z s) = u := ⟨_, rfl⟩
  show decodeV (encodeV (Instr.vunpk t p d x f n z s)) = _
  rw [h0]
  have hu : 0x4900000000 + t.toNat * 2 ^ 29 + p.toNat * 2 ^ 27 + d.toNat * 2 ^ 18 + x.toNat * 2 ^ 9 + f.toNat * 2 ^ 6 + n.toNat * 2 ^ 5 + z.toNat * 2 ^ 4 + s.toNat * 2 ^ 3 = u := h0
  have he : u / 2 ^ 32 = 0x49 := by omega
  have hc : u % 8 = 0 := by omega
  have f_t : fld 3 29 u = t := by
    apply BitVec.eq_of_toNat_eq; simp only [fld, BitVec.toNat_ofNat]; omega
  have f_p : fld 2 27 u = p := by
    apply BitVec.eq_of_toNat_eq; simp only [fld, BitVec.toNat_ofNat]; omega
  have f_d : fld 9 18 u = d := by
    apply BitVec.eq_of_toNat_eq; simp only [fld, BitVec.toNat_ofNat]; omega
  have f_x : fld 9 9 u = x := by
    apply BitVec.eq_of_toNat_eq; simp only [fld, BitVec.toNat_ofNat]; omega
  have f_f : fld 3 6 u = f := by
    apply BitVec.eq_of_toNat_eq; simp only [fld, BitVec.toNat_ofNat]; omega
  have f_n : fld 1 5 u = n := by
    apply BitVec.eq_of_toNat_eq; simp only [fld, BitVec.toNat_ofNat]; omega
  have f_z : fld 1 4 u = z := by
    apply BitVec.eq_of_toNat_eq; simp only [fld, BitVec.toNat_ofNat]; omega
  have f_s : fld 1 3 u = s := by
    apply BitVec.eq_of_toNat_eq; simp only [fld, BitVec.toNat_ofNat]; omega
  unfold decodeV
  rw [he]
  show (if u % 8 = 0 then Sys2Proof.chk (Instr.vunpk (fld 3 29 u) (fld 2 27 u) (fld 9 18 u) (fld 9 9 u) (fld 3 6 u) (fld 1 5 u) (fld 1 4 u) (fld 1 3 u)) else .error .reserved) = _
  rw [if_pos hc, f_t, f_p, f_d, f_x, f_f, f_n, f_z, f_s]
  exact if_pos hw

theorem baddq (t : BitVec 3) (p : BitVec 2) (d : BitVec 9) (x : BitVec 9) (y : BitVec 9) : Statement (Instr.baddq t p d x y) := by
  intro k hk hw
  cases hk
  have b_t := t.isLt
  have b_p := p.isLt
  have b_d := d.isLt
  have b_x := x.isLt
  have b_y := y.isLt
  obtain ⟨u, h0⟩ : ∃ u, encodeV (Instr.baddq t p d x y) = u := ⟨_, rfl⟩
  show decodeV (encodeV (Instr.baddq t p d x y)) = _
  rw [h0]
  have hu : 0x4A00000000 + t.toNat * 2 ^ 29 + p.toNat * 2 ^ 27 + d.toNat * 2 ^ 18 + x.toNat * 2 ^ 9 + y.toNat * 2 ^ 0 = u := h0
  have he : u / 2 ^ 32 = 0x4A := by omega
  have f_t : fld 3 29 u = t := by
    apply BitVec.eq_of_toNat_eq; simp only [fld, BitVec.toNat_ofNat]; omega
  have f_p : fld 2 27 u = p := by
    apply BitVec.eq_of_toNat_eq; simp only [fld, BitVec.toNat_ofNat]; omega
  have f_d : fld 9 18 u = d := by
    apply BitVec.eq_of_toNat_eq; simp only [fld, BitVec.toNat_ofNat]; omega
  have f_x : fld 9 9 u = x := by
    apply BitVec.eq_of_toNat_eq; simp only [fld, BitVec.toNat_ofNat]; omega
  have f_y : fld 9 0 u = y := by
    apply BitVec.eq_of_toNat_eq; simp only [fld, BitVec.toNat_ofNat]; omega
  unfold decodeV
  rw [he]
  show (Sys2Proof.chk (Instr.baddq (fld 3 29 u) (fld 2 27 u) (fld 9 18 u) (fld 9 9 u) (fld 9 0 u))) = _
  rw [f_t, f_p, f_d, f_x, f_y]
  exact if_pos hw

theorem tap (t : BitVec 3) (p : BitVec 2) (x : BitVec 9) (r : BitVec 6) : Statement (Instr.tap t p x r) := by
  intro k hk hw
  cases hk
  have b_t := t.isLt
  have b_p := p.isLt
  have b_x := x.isLt
  have b_r := r.isLt
  obtain ⟨u, h0⟩ : ∃ u, encodeV (Instr.tap t p x r) = u := ⟨_, rfl⟩
  show decodeV (encodeV (Instr.tap t p x r)) = _
  rw [h0]
  have hu : 0x5000000000 + t.toNat * 2 ^ 29 + p.toNat * 2 ^ 27 + x.toNat * 2 ^ 9 + r.toNat * 2 ^ 0 = u := h0
  have he : u / 2 ^ 32 = 0x50 := by omega
  have hc : u / 2 ^ 6 % 8 = 0 ∧ u / 2 ^ 18 % 512 = 0 := by omega
  have f_t : fld 3 29 u = t := by
    apply BitVec.eq_of_toNat_eq; simp only [fld, BitVec.toNat_ofNat]; omega
  have f_p : fld 2 27 u = p := by
    apply BitVec.eq_of_toNat_eq; simp only [fld, BitVec.toNat_ofNat]; omega
  have f_x : fld 9 9 u = x := by
    apply BitVec.eq_of_toNat_eq; simp only [fld, BitVec.toNat_ofNat]; omega
  have f_r : fld 6 0 u = r := by
    apply BitVec.eq_of_toNat_eq; simp only [fld, BitVec.toNat_ofNat]; omega
  unfold decodeV
  rw [he]
  show (if u / 2 ^ 6 % 8 = 0 ∧ u / 2 ^ 18 % 512 = 0 then Sys2Proof.chk (Instr.tap (fld 3 29 u) (fld 2 27 u) (fld 9 9 u) (fld 6 0 u)) else .error .reserved) = _
  rw [if_pos hc, f_t, f_p, f_x, f_r]
  exact if_pos hw

theorem tapfin (t : BitVec 3) (p : BitVec 2) (d : BitVec 9) (r : BitVec 6) : Statement (Instr.tapfin t p d r) := by
  intro k hk hw
  cases hk
  have b_t := t.isLt
  have b_p := p.isLt
  have b_d := d.isLt
  have b_r := r.isLt
  obtain ⟨u, h0⟩ : ∃ u, encodeV (Instr.tapfin t p d r) = u := ⟨_, rfl⟩
  show decodeV (encodeV (Instr.tapfin t p d r)) = _
  rw [h0]
  have hu : 0x5100000000 + t.toNat * 2 ^ 29 + p.toNat * 2 ^ 27 + d.toNat * 2 ^ 18 + r.toNat * 2 ^ 0 = u := h0
  have he : u / 2 ^ 32 = 0x51 := by omega
  have hc : u / 2 ^ 6 % 4096 = 0 := by omega
  have f_t : fld 3 29 u = t := by
    apply BitVec.eq_of_toNat_eq; simp only [fld, BitVec.toNat_ofNat]; omega
  have f_p : fld 2 27 u = p := by
    apply BitVec.eq_of_toNat_eq; simp only [fld, BitVec.toNat_ofNat]; omega
  have f_d : fld 9 18 u = d := by
    apply BitVec.eq_of_toNat_eq; simp only [fld, BitVec.toNat_ofNat]; omega
  have f_r : fld 6 0 u = r := by
    apply BitVec.eq_of_toNat_eq; simp only [fld, BitVec.toNat_ofNat]; omega
  unfold decodeV
  rw [he]
  show (if u / 2 ^ 6 % 4096 = 0 then Sys2Proof.chk (Instr.tapfin (fld 3 29 u) (fld 2 27 u) (fld 9 18 u) (fld 6 0 u)) else .error .reserved) = _
  rw [if_pos hc, f_t, f_p, f_d, f_r]
  exact if_pos hw

theorem vsteer (t : BitVec 3) (p : BitVec 2) (d : BitVec 9) (x : BitVec 9) (r : BitVec 6) : Statement (Instr.vsteer t p d x r) := by
  intro k hk hw
  cases hk
  have b_t := t.isLt
  have b_p := p.isLt
  have b_d := d.isLt
  have b_x := x.isLt
  have b_r := r.isLt
  obtain ⟨u, h0⟩ : ∃ u, encodeV (Instr.vsteer t p d x r) = u := ⟨_, rfl⟩
  show decodeV (encodeV (Instr.vsteer t p d x r)) = _
  rw [h0]
  have hu : 0x5200000000 + t.toNat * 2 ^ 29 + p.toNat * 2 ^ 27 + d.toNat * 2 ^ 18 + x.toNat * 2 ^ 9 + r.toNat * 2 ^ 0 = u := h0
  have he : u / 2 ^ 32 = 0x52 := by omega
  have hc : u / 2 ^ 6 % 8 = 0 := by omega
  have f_t : fld 3 29 u = t := by
    apply BitVec.eq_of_toNat_eq; simp only [fld, BitVec.toNat_ofNat]; omega
  have f_p : fld 2 27 u = p := by
    apply BitVec.eq_of_toNat_eq; simp only [fld, BitVec.toNat_ofNat]; omega
  have f_d : fld 9 18 u = d := by
    apply BitVec.eq_of_toNat_eq; simp only [fld, BitVec.toNat_ofNat]; omega
  have f_x : fld 9 9 u = x := by
    apply BitVec.eq_of_toNat_eq; simp only [fld, BitVec.toNat_ofNat]; omega
  have f_r : fld 6 0 u = r := by
    apply BitVec.eq_of_toNat_eq; simp only [fld, BitVec.toNat_ofNat]; omega
  unfold decodeV
  rw [he]
  show (if u / 2 ^ 6 % 8 = 0 then Sys2Proof.chk (Instr.vsteer (fld 3 29 u) (fld 2 27 u) (fld 9 18 u) (fld 9 9 u) (fld 6 0 u)) else .error .reserved) = _
  rw [if_pos hc, f_t, f_p, f_d, f_x, f_r]
  exact if_pos hw

theorem qset (t : BitVec 3) (p : BitVec 2) (d : BitVec 4) (x : BitVec 9) (y : BitVec 9) : Statement (Instr.qset t p d x y) := by
  intro k hk hw
  cases hk
  have b_t := t.isLt
  have b_p := p.isLt
  have b_d := d.isLt
  have b_x := x.isLt
  have b_y := y.isLt
  obtain ⟨u, h0⟩ : ∃ u, encodeV (Instr.qset t p d x y) = u := ⟨_, rfl⟩
  show decodeV (encodeV (Instr.qset t p d x y)) = _
  rw [h0]
  have hu : 0x6000000000 + t.toNat * 2 ^ 29 + p.toNat * 2 ^ 27 + d.toNat * 2 ^ 18 + x.toNat * 2 ^ 9 + y.toNat * 2 ^ 0 = u := h0
  have he : u / 2 ^ 32 = 0x60 := by omega
  have hc : u / 2 ^ 22 % 32 = 0 := by omega
  have f_t : fld 3 29 u = t := by
    apply BitVec.eq_of_toNat_eq; simp only [fld, BitVec.toNat_ofNat]; omega
  have f_p : fld 2 27 u = p := by
    apply BitVec.eq_of_toNat_eq; simp only [fld, BitVec.toNat_ofNat]; omega
  have f_d : fld 4 18 u = d := by
    apply BitVec.eq_of_toNat_eq; simp only [fld, BitVec.toNat_ofNat]; omega
  have f_x : fld 9 9 u = x := by
    apply BitVec.eq_of_toNat_eq; simp only [fld, BitVec.toNat_ofNat]; omega
  have f_y : fld 9 0 u = y := by
    apply BitVec.eq_of_toNat_eq; simp only [fld, BitVec.toNat_ofNat]; omega
  unfold decodeV
  rw [he]
  show (if u / 2 ^ 22 % 32 = 0 then Sys2Proof.chk (Instr.qset (fld 3 29 u) (fld 2 27 u) (fld 4 18 u) (fld 9 9 u) (fld 9 0 u)) else .error .reserved) = _
  rw [if_pos hc, f_t, f_p, f_d, f_x, f_y]
  exact if_pos hw

theorem qadd (t : BitVec 3) (p : BitVec 2) (d : BitVec 4) (x : BitVec 4) (y : BitVec 4) : Statement (Instr.qadd t p d x y) := by
  intro k hk hw
  cases hk
  have b_t := t.isLt
  have b_p := p.isLt
  have b_d := d.isLt
  have b_x := x.isLt
  have b_y := y.isLt
  obtain ⟨u, h0⟩ : ∃ u, encodeV (Instr.qadd t p d x y) = u := ⟨_, rfl⟩
  show decodeV (encodeV (Instr.qadd t p d x y)) = _
  rw [h0]
  have hu : 0x6100000000 + t.toNat * 2 ^ 29 + p.toNat * 2 ^ 27 + d.toNat * 2 ^ 18 + x.toNat * 2 ^ 9 + y.toNat * 2 ^ 0 = u := h0
  have he : u / 2 ^ 32 = 0x61 := by omega
  have hc : u / 2 ^ 4 % 32 = 0 ∧ u / 2 ^ 13 % 32 = 0 ∧ u / 2 ^ 22 % 32 = 0 := by omega
  have f_t : fld 3 29 u = t := by
    apply BitVec.eq_of_toNat_eq; simp only [fld, BitVec.toNat_ofNat]; omega
  have f_p : fld 2 27 u = p := by
    apply BitVec.eq_of_toNat_eq; simp only [fld, BitVec.toNat_ofNat]; omega
  have f_d : fld 4 18 u = d := by
    apply BitVec.eq_of_toNat_eq; simp only [fld, BitVec.toNat_ofNat]; omega
  have f_x : fld 4 9 u = x := by
    apply BitVec.eq_of_toNat_eq; simp only [fld, BitVec.toNat_ofNat]; omega
  have f_y : fld 4 0 u = y := by
    apply BitVec.eq_of_toNat_eq; simp only [fld, BitVec.toNat_ofNat]; omega
  unfold decodeV
  rw [he]
  show (if u / 2 ^ 4 % 32 = 0 ∧ u / 2 ^ 13 % 32 = 0 ∧ u / 2 ^ 22 % 32 = 0 then Sys2Proof.chk (Instr.qadd (fld 3 29 u) (fld 2 27 u) (fld 4 18 u) (fld 4 9 u) (fld 4 0 u)) else .error .reserved) = _
  rw [if_pos hc, f_t, f_p, f_d, f_x, f_y]
  exact if_pos hw

theorem qmul (t : BitVec 3) (p : BitVec 2) (d : BitVec 4) (x : BitVec 4) (y : BitVec 4) : Statement (Instr.qmul t p d x y) := by
  intro k hk hw
  cases hk
  have b_t := t.isLt
  have b_p := p.isLt
  have b_d := d.isLt
  have b_x := x.isLt
  have b_y := y.isLt
  obtain ⟨u, h0⟩ : ∃ u, encodeV (Instr.qmul t p d x y) = u := ⟨_, rfl⟩
  show decodeV (encodeV (Instr.qmul t p d x y)) = _
  rw [h0]
  have hu : 0x6200000000 + t.toNat * 2 ^ 29 + p.toNat * 2 ^ 27 + d.toNat * 2 ^ 18 + x.toNat * 2 ^ 9 + y.toNat * 2 ^ 0 = u := h0
  have he : u / 2 ^ 32 = 0x62 := by omega
  have hc : u / 2 ^ 4 % 32 = 0 ∧ u / 2 ^ 13 % 32 = 0 ∧ u / 2 ^ 22 % 32 = 0 := by omega
  have f_t : fld 3 29 u = t := by
    apply BitVec.eq_of_toNat_eq; simp only [fld, BitVec.toNat_ofNat]; omega
  have f_p : fld 2 27 u = p := by
    apply BitVec.eq_of_toNat_eq; simp only [fld, BitVec.toNat_ofNat]; omega
  have f_d : fld 4 18 u = d := by
    apply BitVec.eq_of_toNat_eq; simp only [fld, BitVec.toNat_ofNat]; omega
  have f_x : fld 4 9 u = x := by
    apply BitVec.eq_of_toNat_eq; simp only [fld, BitVec.toNat_ofNat]; omega
  have f_y : fld 4 0 u = y := by
    apply BitVec.eq_of_toNat_eq; simp only [fld, BitVec.toNat_ofNat]; omega
  unfold decodeV
  rw [he]
  show (if u / 2 ^ 4 % 32 = 0 ∧ u / 2 ^ 13 % 32 = 0 ∧ u / 2 ^ 22 % 32 = 0 then Sys2Proof.chk (Instr.qmul (fld 3 29 u) (fld 2 27 u) (fld 4 18 u) (fld 4 9 u) (fld 4 0 u)) else .error .reserved) = _
  rw [if_pos hc, f_t, f_p, f_d, f_x, f_y]
  exact if_pos hw

theorem qscale (t : BitVec 3) (p : BitVec 2) (d : BitVec 4) (x : BitVec 4) (y : BitVec 9) : Statement (Instr.qscale t p d x y) := by
  intro k hk hw
  cases hk
  have b_t := t.isLt
  have b_p := p.isLt
  have b_d := d.isLt
  have b_x := x.isLt
  have b_y := y.isLt
  obtain ⟨u, h0⟩ : ∃ u, encodeV (Instr.qscale t p d x y) = u := ⟨_, rfl⟩
  show decodeV (encodeV (Instr.qscale t p d x y)) = _
  rw [h0]
  have hu : 0x6300000000 + t.toNat * 2 ^ 29 + p.toNat * 2 ^ 27 + d.toNat * 2 ^ 18 + x.toNat * 2 ^ 9 + y.toNat * 2 ^ 0 = u := h0
  have he : u / 2 ^ 32 = 0x63 := by omega
  have hc : u / 2 ^ 13 % 32 = 0 ∧ u / 2 ^ 22 % 32 = 0 := by omega
  have f_t : fld 3 29 u = t := by
    apply BitVec.eq_of_toNat_eq; simp only [fld, BitVec.toNat_ofNat]; omega
  have f_p : fld 2 27 u = p := by
    apply BitVec.eq_of_toNat_eq; simp only [fld, BitVec.toNat_ofNat]; omega
  have f_d : fld 4 18 u = d := by
    apply BitVec.eq_of_toNat_eq; simp only [fld, BitVec.toNat_ofNat]; omega
  have f_x : fld 4 9 u = x := by
    apply BitVec.eq_of_toNat_eq; simp only [fld, BitVec.toNat_ofNat]; omega
  have f_y : fld 9 0 u = y := by
    apply BitVec.eq_of_toNat_eq; simp only [fld, BitVec.toNat_ofNat]; omega
  unfold decodeV
  rw [he]
  show (if u / 2 ^ 13 % 32 = 0 ∧ u / 2 ^ 22 % 32 = 0 then Sys2Proof.chk (Instr.qscale (fld 3 29 u) (fld 2 27 u) (fld 4 18 u) (fld 4 9 u) (fld 9 0 u)) else .error .reserved) = _
  rw [if_pos hc, f_t, f_p, f_d, f_x, f_y]
  exact if_pos hw

theorem qshift (t : BitVec 3) (p : BitVec 2) (d : BitVec 4) (x : BitVec 4) (y : BitVec 9) : Statement (Instr.qshift t p d x y) := by
  intro k hk hw
  cases hk
  have b_t := t.isLt
  have b_p := p.isLt
  have b_d := d.isLt
  have b_x := x.isLt
  have b_y := y.isLt
  obtain ⟨u, h0⟩ : ∃ u, encodeV (Instr.qshift t p d x y) = u := ⟨_, rfl⟩
  show decodeV (encodeV (Instr.qshift t p d x y)) = _
  rw [h0]
  have hu : 0x6400000000 + t.toNat * 2 ^ 29 + p.toNat * 2 ^ 27 + d.toNat * 2 ^ 18 + x.toNat * 2 ^ 9 + y.toNat * 2 ^ 0 = u := h0
  have he : u / 2 ^ 32 = 0x64 := by omega
  have hc : u / 2 ^ 13 % 32 = 0 ∧ u / 2 ^ 22 % 32 = 0 := by omega
  have f_t : fld 3 29 u = t := by
    apply BitVec.eq_of_toNat_eq; simp only [fld, BitVec.toNat_ofNat]; omega
  have f_p : fld 2 27 u = p := by
    apply BitVec.eq_of_toNat_eq; simp only [fld, BitVec.toNat_ofNat]; omega
  have f_d : fld 4 18 u = d := by
    apply BitVec.eq_of_toNat_eq; simp only [fld, BitVec.toNat_ofNat]; omega
  have f_x : fld 4 9 u = x := by
    apply BitVec.eq_of_toNat_eq; simp only [fld, BitVec.toNat_ofNat]; omega
  have f_y : fld 9 0 u = y := by
    apply BitVec.eq_of_toNat_eq; simp only [fld, BitVec.toNat_ofNat]; omega
  unfold decodeV
  rw [he]
  show (if u / 2 ^ 13 % 32 = 0 ∧ u / 2 ^ 22 % 32 = 0 then Sys2Proof.chk (Instr.qshift (fld 3 29 u) (fld 2 27 u) (fld 4 18 u) (fld 4 9 u) (fld 9 0 u)) else .error .reserved) = _
  rw [if_pos hc, f_t, f_p, f_d, f_x, f_y]
  exact if_pos hw

theorem qmix (t : BitVec 3) (p : BitVec 2) (d : BitVec 4) (x : BitVec 4) (y : BitVec 9) : Statement (Instr.qmix t p d x y) := by
  intro k hk hw
  cases hk
  have b_t := t.isLt
  have b_p := p.isLt
  have b_d := d.isLt
  have b_x := x.isLt
  have b_y := y.isLt
  obtain ⟨u, h0⟩ : ∃ u, encodeV (Instr.qmix t p d x y) = u := ⟨_, rfl⟩
  show decodeV (encodeV (Instr.qmix t p d x y)) = _
  rw [h0]
  have hu : 0x6500000000 + t.toNat * 2 ^ 29 + p.toNat * 2 ^ 27 + d.toNat * 2 ^ 18 + x.toNat * 2 ^ 9 + y.toNat * 2 ^ 0 = u := h0
  have he : u / 2 ^ 32 = 0x65 := by omega
  have hc : u / 2 ^ 13 % 32 = 0 ∧ u / 2 ^ 22 % 32 = 0 := by omega
  have f_t : fld 3 29 u = t := by
    apply BitVec.eq_of_toNat_eq; simp only [fld, BitVec.toNat_ofNat]; omega
  have f_p : fld 2 27 u = p := by
    apply BitVec.eq_of_toNat_eq; simp only [fld, BitVec.toNat_ofNat]; omega
  have f_d : fld 4 18 u = d := by
    apply BitVec.eq_of_toNat_eq; simp only [fld, BitVec.toNat_ofNat]; omega
  have f_x : fld 4 9 u = x := by
    apply BitVec.eq_of_toNat_eq; simp only [fld, BitVec.toNat_ofNat]; omega
  have f_y : fld 9 0 u = y := by
    apply BitVec.eq_of_toNat_eq; simp only [fld, BitVec.toNat_ofNat]; omega
  unfold decodeV
  rw [he]
  show (if u / 2 ^ 13 % 32 = 0 ∧ u / 2 ^ 22 % 32 = 0 then Sys2Proof.chk (Instr.qmix (fld 3 29 u) (fld 2 27 u) (fld 4 18 u) (fld 4 9 u) (fld 9 0 u)) else .error .reserved) = _
  rw [if_pos hc, f_t, f_p, f_d, f_x, f_y]
  exact if_pos hw

theorem qcond (t : BitVec 3) (p : BitVec 2) (d : BitVec 4) (x : BitVec 4) (n : BitVec 3) : Statement (Instr.qcond t p d x n) := by
  intro k hk hw
  cases hk
  have b_t := t.isLt
  have b_p := p.isLt
  have b_d := d.isLt
  have b_x := x.isLt
  have b_n := n.isLt
  obtain ⟨u, h0⟩ : ∃ u, encodeV (Instr.qcond t p d x n) = u := ⟨_, rfl⟩
  show decodeV (encodeV (Instr.qcond t p d x n)) = _
  rw [h0]
  have hu : 0x6600000000 + t.toNat * 2 ^ 29 + p.toNat * 2 ^ 27 + d.toNat * 2 ^ 18 + x.toNat * 2 ^ 9 + n.toNat * 2 ^ 0 = u := h0
  have he : u / 2 ^ 32 = 0x66 := by omega
  have hc : u / 2 ^ 3 % 64 = 0 ∧ u / 2 ^ 13 % 32 = 0 ∧ u / 2 ^ 22 % 32 = 0 := by omega
  have f_t : fld 3 29 u = t := by
    apply BitVec.eq_of_toNat_eq; simp only [fld, BitVec.toNat_ofNat]; omega
  have f_p : fld 2 27 u = p := by
    apply BitVec.eq_of_toNat_eq; simp only [fld, BitVec.toNat_ofNat]; omega
  have f_d : fld 4 18 u = d := by
    apply BitVec.eq_of_toNat_eq; simp only [fld, BitVec.toNat_ofNat]; omega
  have f_x : fld 4 9 u = x := by
    apply BitVec.eq_of_toNat_eq; simp only [fld, BitVec.toNat_ofNat]; omega
  have f_n : fld 3 0 u = n := by
    apply BitVec.eq_of_toNat_eq; simp only [fld, BitVec.toNat_ofNat]; omega
  unfold decodeV
  rw [he]
  show (if u / 2 ^ 3 % 64 = 0 ∧ u / 2 ^ 13 % 32 = 0 ∧ u / 2 ^ 22 % 32 = 0 then Sys2Proof.chk (Instr.qcond (fld 3 29 u) (fld 2 27 u) (fld 4 18 u) (fld 4 9 u) (fld 3 0 u)) else .error .reserved) = _
  rw [if_pos hc, f_t, f_p, f_d, f_x, f_n]
  exact if_pos hw

theorem qmom (t : BitVec 3) (p : BitVec 2) (d : BitVec 9) (x : BitVec 4) (s : BitVec 2) : Statement (Instr.qmom t p d x s) := by
  intro k hk hw
  cases hk
  have b_t := t.isLt
  have b_p := p.isLt
  have b_d := d.isLt
  have b_x := x.isLt
  have b_s := s.isLt
  obtain ⟨u, h0⟩ : ∃ u, encodeV (Instr.qmom t p d x s) = u := ⟨_, rfl⟩
  show decodeV (encodeV (Instr.qmom t p d x s)) = _
  rw [h0]
  have hu : 0x6700000000 + t.toNat * 2 ^ 29 + p.toNat * 2 ^ 27 + d.toNat * 2 ^ 18 + x.toNat * 2 ^ 9 + s.toNat * 2 ^ 0 = u := h0
  have he : u / 2 ^ 32 = 0x67 := by omega
  have hc : u / 2 ^ 2 % 128 = 0 ∧ u / 2 ^ 13 % 32 = 0 := by omega
  have f_t : fld 3 29 u = t := by
    apply BitVec.eq_of_toNat_eq; simp only [fld, BitVec.toNat_ofNat]; omega
  have f_p : fld 2 27 u = p := by
    apply BitVec.eq_of_toNat_eq; simp only [fld, BitVec.toNat_ofNat]; omega
  have f_d : fld 9 18 u = d := by
    apply BitVec.eq_of_toNat_eq; simp only [fld, BitVec.toNat_ofNat]; omega
  have f_x : fld 4 9 u = x := by
    apply BitVec.eq_of_toNat_eq; simp only [fld, BitVec.toNat_ofNat]; omega
  have f_s : fld 2 0 u = s := by
    apply BitVec.eq_of_toNat_eq; simp only [fld, BitVec.toNat_ofNat]; omega
  unfold decodeV
  rw [he]
  show (if u / 2 ^ 2 % 128 = 0 ∧ u / 2 ^ 13 % 32 = 0 then Sys2Proof.chk (Instr.qmom (fld 3 29 u) (fld 2 27 u) (fld 9 18 u) (fld 4 9 u) (fld 2 0 u)) else .error .reserved) = _
  rw [if_pos hc, f_t, f_p, f_d, f_x, f_s]
  exact if_pos hw

theorem qquant (t : BitVec 3) (p : BitVec 2) (d : BitVec 9) (x : BitVec 4) (y : BitVec 9) : Statement (Instr.qquant t p d x y) := by
  intro k hk hw
  cases hk
  have b_t := t.isLt
  have b_p := p.isLt
  have b_d := d.isLt
  have b_x := x.isLt
  have b_y := y.isLt
  obtain ⟨u, h0⟩ : ∃ u, encodeV (Instr.qquant t p d x y) = u := ⟨_, rfl⟩
  show decodeV (encodeV (Instr.qquant t p d x y)) = _
  rw [h0]
  have hu : 0x6800000000 + t.toNat * 2 ^ 29 + p.toNat * 2 ^ 27 + d.toNat * 2 ^ 18 + x.toNat * 2 ^ 9 + y.toNat * 2 ^ 0 = u := h0
  have he : u / 2 ^ 32 = 0x68 := by omega
  have hc : u / 2 ^ 13 % 32 = 0 := by omega
  have f_t : fld 3 29 u = t := by
    apply BitVec.eq_of_toNat_eq; simp only [fld, BitVec.toNat_ofNat]; omega
  have f_p : fld 2 27 u = p := by
    apply BitVec.eq_of_toNat_eq; simp only [fld, BitVec.toNat_ofNat]; omega
  have f_d : fld 9 18 u = d := by
    apply BitVec.eq_of_toNat_eq; simp only [fld, BitVec.toNat_ofNat]; omega
  have f_x : fld 4 9 u = x := by
    apply BitVec.eq_of_toNat_eq; simp only [fld, BitVec.toNat_ofNat]; omega
  have f_y : fld 9 0 u = y := by
    apply BitVec.eq_of_toNat_eq; simp only [fld, BitVec.toNat_ofNat]; omega
  unfold decodeV
  rw [he]
  show (if u / 2 ^ 13 % 32 = 0 then Sys2Proof.chk (Instr.qquant (fld 3 29 u) (fld 2 27 u) (fld 9 18 u) (fld 4 9 u) (fld 9 0 u)) else .error .reserved) = _
  rw [if_pos hc, f_t, f_p, f_d, f_x, f_y]
  exact if_pos hw

theorem qtag (t : BitVec 3) (p : BitVec 2) (d : BitVec 4) (m : BitVec 16) : Statement (Instr.qtag t p d m) := by
  intro k hk hw
  cases hk
  have b_t := t.isLt
  have b_p := p.isLt
  have b_d := d.isLt
  have b_m := m.isLt
  obtain ⟨u, h0⟩ : ∃ u, encodeV (Instr.qtag t p d m) = u := ⟨_, rfl⟩
  show decodeV (encodeV (Instr.qtag t p d m)) = _
  rw [h0]
  have hu : 0x6900000000 + t.toNat * 2 ^ 29 + p.toNat * 2 ^ 27 + d.toNat * 2 ^ 18 + m.toNat * 2 ^ 0 = u := h0
  have he : u / 2 ^ 32 = 0x69 := by omega
  have hc : u / 2 ^ 16 % 4 = 0 ∧ u / 2 ^ 22 % 32 = 0 := by omega
  have f_t : fld 3 29 u = t := by
    apply BitVec.eq_of_toNat_eq; simp only [fld, BitVec.toNat_ofNat]; omega
  have f_p : fld 2 27 u = p := by
    apply BitVec.eq_of_toNat_eq; simp only [fld, BitVec.toNat_ofNat]; omega
  have f_d : fld 4 18 u = d := by
    apply BitVec.eq_of_toNat_eq; simp only [fld, BitVec.toNat_ofNat]; omega
  have f_m : fld 16 0 u = m := by
    apply BitVec.eq_of_toNat_eq; simp only [fld, BitVec.toNat_ofNat]; omega
  unfold decodeV
  rw [he]
  show (if u / 2 ^ 16 % 4 = 0 ∧ u / 2 ^ 22 % 32 = 0 then Sys2Proof.chk (Instr.qtag (fld 3 29 u) (fld 2 27 u) (fld 4 18 u) (fld 16 0 u)) else .error .reserved) = _
  rw [if_pos hc, f_t, f_p, f_d, f_m]
  exact if_pos hw

theorem qsamp (t : BitVec 3) (p : BitVec 2) (d : BitVec 9) (x : BitVec 4) (y : BitVec 9) : Statement (Instr.qsamp t p d x y) := by
  intro k hk hw
  cases hk
  have b_t := t.isLt
  have b_p := p.isLt
  have b_d := d.isLt
  have b_x := x.isLt
  have b_y := y.isLt
  obtain ⟨u, h0⟩ : ∃ u, encodeV (Instr.qsamp t p d x y) = u := ⟨_, rfl⟩
  show decodeV (encodeV (Instr.qsamp t p d x y)) = _
  rw [h0]
  have hu : 0x6A00000000 + t.toNat * 2 ^ 29 + p.toNat * 2 ^ 27 + d.toNat * 2 ^ 18 + x.toNat * 2 ^ 9 + y.toNat * 2 ^ 0 = u := h0
  have he : u / 2 ^ 32 = 0x6A := by omega
  have hc : u / 2 ^ 13 % 32 = 0 := by omega
  have f_t : fld 3 29 u = t := by
    apply BitVec.eq_of_toNat_eq; simp only [fld, BitVec.toNat_ofNat]; omega
  have f_p : fld 2 27 u = p := by
    apply BitVec.eq_of_toNat_eq; simp only [fld, BitVec.toNat_ofNat]; omega
  have f_d : fld 9 18 u = d := by
    apply BitVec.eq_of_toNat_eq; simp only [fld, BitVec.toNat_ofNat]; omega
  have f_x : fld 4 9 u = x := by
    apply BitVec.eq_of_toNat_eq; simp only [fld, BitVec.toNat_ofNat]; omega
  have f_y : fld 9 0 u = y := by
    apply BitVec.eq_of_toNat_eq; simp only [fld, BitVec.toNat_ofNat]; omega
  unfold decodeV
  rw [he]
  show (if u / 2 ^ 13 % 32 = 0 then Sys2Proof.chk (Instr.qsamp (fld 3 29 u) (fld 2 27 u) (fld 9 18 u) (fld 4 9 u) (fld 9 0 u)) else .error .reserved) = _
  rw [if_pos hc, f_t, f_p, f_d, f_x, f_y]
  exact if_pos hw

theorem kclr (c : BitVec 3) : Statement (Instr.kclr c) := by
  intro k hk hw
  cases hk
  have b_c := c.isLt
  obtain ⟨u, h0⟩ : ∃ u, encodeK (Instr.kclr c) = u := ⟨_, rfl⟩
  show decodeK (encodeK (Instr.kclr c)) = _
  rw [h0]
  have hu : 0x100000 + c.toNat * 2 ^ 15 = u := h0
  have he : u / 2 ^ 18 = 0x04 := by omega
  have hc : u % 32768 = 0 := by omega
  have f_c : fld 3 15 u = c := by
    apply BitVec.eq_of_toNat_eq; simp only [fld, BitVec.toNat_ofNat]; omega
  unfold decodeK
  rw [he]
  show (if u % 32768 = 0 then Sys2Proof.chk (Instr.kclr (fld 3 15 u)) else .error .reserved) = _
  rw [if_pos hc, f_c]
  exact if_pos hw

theorem kmerge (c : BitVec 3) (g : BitVec 8) (a : BitVec 4) (m : BitVec 1) : Statement (Instr.kmerge c g a m) := by
  intro k hk hw
  cases hk
  have b_c := c.isLt
  have b_g := g.isLt
  have b_a := a.isLt
  have b_m := m.isLt
  obtain ⟨u, h0⟩ : ∃ u, encodeK (Instr.kmerge c g a m) = u := ⟨_, rfl⟩
  show decodeK (encodeK (Instr.kmerge c g a m)) = _
  rw [h0]
  have hu : 0x140000 + c.toNat * 2 ^ 15 + g.toNat * 2 ^ 7 + a.toNat * 2 ^ 3 + m.toNat * 2 ^ 0 = u := h0
  have he : u / 2 ^ 18 = 0x05 := by omega
  have hc : u / 2 ^ 1 % 4 = 0 := by omega
  have f_c : fld 3 15 u = c := by
    apply BitVec.eq_of_toNat_eq; simp only [fld, BitVec.toNat_ofNat]; omega
  have f_g : fld 8 7 u = g := by
    apply BitVec.eq_of_toNat_eq; simp only [fld, BitVec.toNat_ofNat]; omega
  have f_a : fld 4 3 u = a := by
    apply BitVec.eq_of_toNat_eq; simp only [fld, BitVec.toNat_ofNat]; omega
  have f_m : fld 1 0 u = m := by
    apply BitVec.eq_of_toNat_eq; simp only [fld, BitVec.toNat_ofNat]; omega
  unfold decodeK
  rw [he]
  show (if u / 2 ^ 1 % 4 = 0 then Sys2Proof.chk (Instr.kmerge (fld 3 15 u) (fld 8 7 u) (fld 4 3 u) (fld 1 0 u)) else .error .reserved) = _
  rw [if_pos hc, f_c, f_g, f_a, f_m]
  exact if_pos hw

theorem kmergel (c : BitVec 3) (g : BitVec 8) (a : BitVec 4) (m : BitVec 1) : Statement (Instr.kmergel c g a m) := by
  intro k hk hw
  cases hk
  have b_c := c.isLt
  have b_g := g.isLt
  have b_a := a.isLt
  have b_m := m.isLt
  obtain ⟨u, h0⟩ : ∃ u, encodeK (Instr.kmergel c g a m) = u := ⟨_, rfl⟩
  show decodeK (encodeK (Instr.kmergel c g a m)) = _
  rw [h0]
  have hu : 0x180000 + c.toNat * 2 ^ 15 + g.toNat * 2 ^ 7 + a.toNat * 2 ^ 3 + m.toNat * 2 ^ 0 = u := h0
  have he : u / 2 ^ 18 = 0x06 := by omega
  have hc : u / 2 ^ 1 % 4 = 0 := by omega
  have f_c : fld 3 15 u = c := by
    apply BitVec.eq_of_toNat_eq; simp only [fld, BitVec.toNat_ofNat]; omega
  have f_g : fld 8 7 u = g := by
    apply BitVec.eq_of_toNat_eq; simp only [fld, BitVec.toNat_ofNat]; omega
  have f_a : fld 4 3 u = a := by
    apply BitVec.eq_of_toNat_eq; simp only [fld, BitVec.toNat_ofNat]; omega
  have f_m : fld 1 0 u = m := by
    apply BitVec.eq_of_toNat_eq; simp only [fld, BitVec.toNat_ofNat]; omega
  unfold decodeK
  rw [he]
  show (if u / 2 ^ 1 % 4 = 0 then Sys2Proof.chk (Instr.kmergel (fld 3 15 u) (fld 8 7 u) (fld 4 3 u) (fld 1 0 u)) else .error .reserved) = _
  rw [if_pos hc, f_c, f_g, f_a, f_m]
  exact if_pos hw

theorem ksort (c : BitVec 3) (g : BitVec 8) (s : BitVec 1) : Statement (Instr.ksort c g s) := by
  intro k hk hw
  cases hk
  have b_c := c.isLt
  have b_g := g.isLt
  have b_s := s.isLt
  obtain ⟨u, h0⟩ : ∃ u, encodeK (Instr.ksort c g s) = u := ⟨_, rfl⟩
  show decodeK (encodeK (Instr.ksort c g s)) = _
  rw [h0]
  have hu : 0x1C0000 + c.toNat * 2 ^ 15 + g.toNat * 2 ^ 7 + s.toNat * 2 ^ 0 = u := h0
  have he : u / 2 ^ 18 = 0x07 := by omega
  have hc : u / 2 ^ 1 % 64 = 0 := by omega
  have f_c : fld 3 15 u = c := by
    apply BitVec.eq_of_toNat_eq; simp only [fld, BitVec.toNat_ofNat]; omega
  have f_g : fld 8 7 u = g := by
    apply BitVec.eq_of_toNat_eq; simp only [fld, BitVec.toNat_ofNat]; omega
  have f_s : fld 1 0 u = s := by
    apply BitVec.eq_of_toNat_eq; simp only [fld, BitVec.toNat_ofNat]; omega
  unfold decodeK
  rw [he]
  show (if u / 2 ^ 1 % 64 = 0 then Sys2Proof.chk (Instr.ksort (fld 3 15 u) (fld 8 7 u) (fld 1 0 u)) else .error .reserved) = _
  rw [if_pos hc, f_c, f_g, f_s]
  exact if_pos hw

theorem ktop (c : BitVec 3) (g : BitVec 8) (i : BitVec 1) : Statement (Instr.ktop c g i) := by
  intro k hk hw
  cases hk
  have b_c := c.isLt
  have b_g := g.isLt
  have b_i := i.isLt
  obtain ⟨u, h0⟩ : ∃ u, encodeK (Instr.ktop c g i) = u := ⟨_, rfl⟩
  show decodeK (encodeK (Instr.ktop c g i)) = _
  rw [h0]
  have hu : 0x200000 + c.toNat * 2 ^ 15 + g.toNat * 2 ^ 7 + i.toNat * 2 ^ 0 = u := h0
  have he : u / 2 ^ 18 = 0x08 := by omega
  have hc : u / 2 ^ 1 % 64 = 0 := by omega
  have f_c : fld 3 15 u = c := by
    apply BitVec.eq_of_toNat_eq; simp only [fld, BitVec.toNat_ofNat]; omega
  have f_g : fld 8 7 u = g := by
    apply BitVec.eq_of_toNat_eq; simp only [fld, BitVec.toNat_ofNat]; omega
  have f_i : fld 1 0 u = i := by
    apply BitVec.eq_of_toNat_eq; simp only [fld, BitVec.toNat_ofNat]; omega
  unfold decodeK
  rw [he]
  show (if u / 2 ^ 1 % 64 = 0 then Sys2Proof.chk (Instr.ktop (fld 3 15 u) (fld 8 7 u) (fld 1 0 u)) else .error .reserved) = _
  rw [if_pos hc, f_c, f_g, f_i]
  exact if_pos hw

theorem ksamp (c : BitVec 3) (g : BitVec 8) (a : BitVec 4) (p : BitVec 2) : Statement (Instr.ksamp c g a p) := by
  intro k hk hw
  cases hk
  have b_c := c.isLt
  have b_g := g.isLt
  have b_a := a.isLt
  have b_p := p.isLt
  obtain ⟨u, h0⟩ : ∃ u, encodeK (Instr.ksamp c g a p) = u := ⟨_, rfl⟩
  show decodeK (encodeK (Instr.ksamp c g a p)) = _
  rw [h0]
  have hu : 0x240000 + c.toNat * 2 ^ 15 + g.toNat * 2 ^ 7 + a.toNat * 2 ^ 3 + p.toNat * 2 ^ 0 = u := h0
  have he : u / 2 ^ 18 = 0x09 := by omega
  have hc : u / 2 ^ 2 % 2 = 0 := by omega
  have f_c : fld 3 15 u = c := by
    apply BitVec.eq_of_toNat_eq; simp only [fld, BitVec.toNat_ofNat]; omega
  have f_g : fld 8 7 u = g := by
    apply BitVec.eq_of_toNat_eq; simp only [fld, BitVec.toNat_ofNat]; omega
  have f_a : fld 4 3 u = a := by
    apply BitVec.eq_of_toNat_eq; simp only [fld, BitVec.toNat_ofNat]; omega
  have f_p : fld 2 0 u = p := by
    apply BitVec.eq_of_toNat_eq; simp only [fld, BitVec.toNat_ofNat]; omega
  unfold decodeK
  rw [he]
  show (if u / 2 ^ 2 % 2 = 0 then Sys2Proof.chk (Instr.ksamp (fld 3 15 u) (fld 8 7 u) (fld 4 3 u) (fld 2 0 u)) else .error .reserved) = _
  rw [if_pos hc, f_c, f_g, f_a, f_p]
  exact if_pos hw

theorem kmask (c : BitVec 3) : Statement (Instr.kmask c) := by
  intro k hk hw
  cases hk
  have b_c := c.isLt
  obtain ⟨u, h0⟩ : ∃ u, encodeK (Instr.kmask c) = u := ⟨_, rfl⟩
  show decodeK (encodeK (Instr.kmask c)) = _
  rw [h0]
  have hu : 0x280000 + c.toNat * 2 ^ 15 = u := h0
  have he : u / 2 ^ 18 = 0x0A := by omega
  have hc : u % 32768 = 0 := by omega
  have f_c : fld 3 15 u = c := by
    apply BitVec.eq_of_toNat_eq; simp only [fld, BitVec.toNat_ofNat]; omega
  unfold decodeK
  rw [he]
  show (if u % 32768 = 0 then Sys2Proof.chk (Instr.kmask (fld 3 15 u)) else .error .reserved) = _
  rw [if_pos hc, f_c]
  exact if_pos hw

theorem ksend (c : BitVec 3) (a : BitVec 4) : Statement (Instr.ksend c a) := by
  intro k hk hw
  cases hk
  have b_c := c.isLt
  have b_a := a.isLt
  obtain ⟨u, h0⟩ : ∃ u, encodeK (Instr.ksend c a) = u := ⟨_, rfl⟩
  show decodeK (encodeK (Instr.ksend c a)) = _
  rw [h0]
  have hu : 0x2C0000 + c.toNat * 2 ^ 15 + a.toNat * 2 ^ 3 = u := h0
  have he : u / 2 ^ 18 = 0x0B := by omega
  have hc : u % 8 = 0 ∧ u / 2 ^ 7 % 256 = 0 := by omega
  have f_c : fld 3 15 u = c := by
    apply BitVec.eq_of_toNat_eq; simp only [fld, BitVec.toNat_ofNat]; omega
  have f_a : fld 4 3 u = a := by
    apply BitVec.eq_of_toNat_eq; simp only [fld, BitVec.toNat_ofNat]; omega
  unfold decodeK
  rw [he]
  show (if u % 8 = 0 ∧ u / 2 ^ 7 % 256 = 0 then Sys2Proof.chk (Instr.ksend (fld 3 15 u) (fld 4 3 u)) else .error .reserved) = _
  rw [if_pos hc, f_c, f_a]
  exact if_pos hw

theorem gsetLd (a : BitVec 4) : Statement (Instr.gsetLd a) := by
  intro k hk hw
  cases hk
  have b_a := a.isLt
  obtain ⟨u, h0⟩ : ∃ u, encodeK (Instr.gsetLd a) = u := ⟨_, rfl⟩
  show decodeK (encodeK (Instr.gsetLd a)) = _
  rw [h0]
  have hu : 0x400000 + a.toNat * 2 ^ 3 = u := h0
  have he : u / 2 ^ 18 = 0x10 := by omega
  have hc : u % 8 = 0 ∧ u / 2 ^ 7 % 2048 = 0 := by omega
  have f_a : fld 4 3 u = a := by
    apply BitVec.eq_of_toNat_eq; simp only [fld, BitVec.toNat_ofNat]; omega
  unfold decodeK
  rw [he]
  show (if u % 8 = 0 ∧ u / 2 ^ 7 % 2048 = 0 then Sys2Proof.chk (Instr.gsetLd (fld 4 3 u))
    else if u % 8 = 1 ∧ u / 2 ^ 7 % 2048 = 0 then Sys2Proof.chk (Instr.gsetSt (fld 4 3 u))
    else if u % 8 = 2 ∧ u / 2 ^ 7 % 2048 = 0 then Sys2Proof.chk (Instr.gsetRs (fld 4 3 u))
    else if u % 262144 = 3 then Sys2Proof.chk Instr.gsetFl
    else if u % 8 ≤ 3 then .error .reserved else .error .badCode) = _
  rw [if_pos hc, f_a]
  exact if_pos hw

theorem gsetSt (a : BitVec 4) : Statement (Instr.gsetSt a) := by
  intro k hk hw
  cases hk
  have b_a := a.isLt
  obtain ⟨u, h0⟩ : ∃ u, encodeK (Instr.gsetSt a) = u := ⟨_, rfl⟩
  show decodeK (encodeK (Instr.gsetSt a)) = _
  rw [h0]
  have hu : 0x400001 + a.toNat * 2 ^ 3 = u := h0
  have he : u / 2 ^ 18 = 0x10 := by omega
  have hc : u % 8 = 1 ∧ u / 2 ^ 7 % 2048 = 0 := by omega
  have n0 : ¬ (u % 8 = 0 ∧ u / 2 ^ 7 % 2048 = 0) := by omega
  have f_a : fld 4 3 u = a := by
    apply BitVec.eq_of_toNat_eq; simp only [fld, BitVec.toNat_ofNat]; omega
  unfold decodeK
  rw [he]
  show (if u % 8 = 0 ∧ u / 2 ^ 7 % 2048 = 0 then Sys2Proof.chk (Instr.gsetLd (fld 4 3 u))
    else if u % 8 = 1 ∧ u / 2 ^ 7 % 2048 = 0 then Sys2Proof.chk (Instr.gsetSt (fld 4 3 u))
    else if u % 8 = 2 ∧ u / 2 ^ 7 % 2048 = 0 then Sys2Proof.chk (Instr.gsetRs (fld 4 3 u))
    else if u % 262144 = 3 then Sys2Proof.chk Instr.gsetFl
    else if u % 8 ≤ 3 then .error .reserved else .error .badCode) = _
  rw [if_neg n0, if_pos hc, f_a]
  exact if_pos hw

theorem gsetRs (a : BitVec 4) : Statement (Instr.gsetRs a) := by
  intro k hk hw
  cases hk
  have b_a := a.isLt
  obtain ⟨u, h0⟩ : ∃ u, encodeK (Instr.gsetRs a) = u := ⟨_, rfl⟩
  show decodeK (encodeK (Instr.gsetRs a)) = _
  rw [h0]
  have hu : 0x400002 + a.toNat * 2 ^ 3 = u := h0
  have he : u / 2 ^ 18 = 0x10 := by omega
  have hc : u % 8 = 2 ∧ u / 2 ^ 7 % 2048 = 0 := by omega
  have n0 : ¬ (u % 8 = 0 ∧ u / 2 ^ 7 % 2048 = 0) := by omega
  have n1 : ¬ (u % 8 = 1 ∧ u / 2 ^ 7 % 2048 = 0) := by omega
  have f_a : fld 4 3 u = a := by
    apply BitVec.eq_of_toNat_eq; simp only [fld, BitVec.toNat_ofNat]; omega
  unfold decodeK
  rw [he]
  show (if u % 8 = 0 ∧ u / 2 ^ 7 % 2048 = 0 then Sys2Proof.chk (Instr.gsetLd (fld 4 3 u))
    else if u % 8 = 1 ∧ u / 2 ^ 7 % 2048 = 0 then Sys2Proof.chk (Instr.gsetSt (fld 4 3 u))
    else if u % 8 = 2 ∧ u / 2 ^ 7 % 2048 = 0 then Sys2Proof.chk (Instr.gsetRs (fld 4 3 u))
    else if u % 262144 = 3 then Sys2Proof.chk Instr.gsetFl
    else if u % 8 ≤ 3 then .error .reserved else .error .badCode) = _
  rw [if_neg n0, if_neg n1, if_pos hc, f_a]
  exact if_pos hw

theorem gstep (a : BitVec 4) : Statement (Instr.gstep a) := by
  intro k hk hw
  cases hk
  have b_a := a.isLt
  obtain ⟨u, h0⟩ : ∃ u, encodeK (Instr.gstep a) = u := ⟨_, rfl⟩
  show decodeK (encodeK (Instr.gstep a)) = _
  rw [h0]
  have hu : 0x440000 + a.toNat * 2 ^ 3 = u := h0
  have he : u / 2 ^ 18 = 0x11 := by omega
  have hc : u % 8 = 0 ∧ u / 2 ^ 7 % 2048 = 0 := by omega
  have f_a : fld 4 3 u = a := by
    apply BitVec.eq_of_toNat_eq; simp only [fld, BitVec.toNat_ofNat]; omega
  unfold decodeK
  rw [he]
  show (if u % 8 = 0 ∧ u / 2 ^ 7 % 2048 = 0 then Sys2Proof.chk (Instr.gstep (fld 4 3 u)) else .error .reserved) = _
  rw [if_pos hc, f_a]
  exact if_pos hw

theorem gmask (k : BitVec 3) : Statement (Instr.gmask k) := by
  intro k hk hw
  cases hk
  have b_k := k.isLt
  obtain ⟨u, h0⟩ : ∃ u, encodeK (Instr.gmask k) = u := ⟨_, rfl⟩
  show decodeK (encodeK (Instr.gmask k)) = _
  rw [h0]
  have hu : 0x480000 + k.toNat * 2 ^ 0 = u := h0
  have he : u / 2 ^ 18 = 0x12 := by omega
  have hc : u / 2 ^ 3 % 32768 = 0 := by omega
  have f_k : fld 3 0 u = k := by
    apply BitVec.eq_of_toNat_eq; simp only [fld, BitVec.toNat_ofNat]; omega
  unfold decodeK
  rw [he]
  show (if u / 2 ^ 3 % 32768 = 0 then Sys2Proof.chk (Instr.gmask (fld 3 0 u)) else .error .reserved) = _
  rw [if_pos hc, f_k]
  exact if_pos hw

theorem mmul (x : BitVec 6) (y : BitVec 6) (z : BitVec 6) (l : BitVec 1) (b : BitVec 1) : Statement (Instr.mmul x y z l b) := by
  intro k hk hw
  cases hk
  have b_x := x.isLt
  have b_y := y.isLt
  have b_z := z.isLt
  have b_l := l.isLt
  have b_b := b.isLt
  obtain ⟨u, h0⟩ : ∃ u, encodeE (Instr.mmul x y z l b) = u := ⟨_, rfl⟩
  show decodeE (encodeE (Instr.mmul x y z l b)) = _
  rw [h0]
  have hu : 0x10000000 + x.toNat * 2 ^ 18 + y.toNat * 2 ^ 12 + z.toNat * 2 ^ 6 + l.toNat * 2 ^ 1 + b.toNat * 2 ^ 0 = u := h0
  have he : u / 2 ^ 24 = 0x10 := by omega
  have hc : u / 2 ^ 2 % 16 = 0 := by omega
  have f_x : fld 6 18 u = x := by
    apply BitVec.eq_of_toNat_eq; simp only [fld, BitVec.toNat_ofNat]; omega
  have f_y : fld 6 12 u = y := by
    apply BitVec.eq_of_toNat_eq; simp only [fld, BitVec.toNat_ofNat]; omega
  have f_z : fld 6 6 u = z := by
    apply BitVec.eq_of_toNat_eq; simp only [fld, BitVec.toNat_ofNat]; omega
  have f_l : fld 1 1 u = l := by
    apply BitVec.eq_of_toNat_eq; simp only [fld, BitVec.toNat_ofNat]; omega
  have f_b : fld 1 0 u = b := by
    apply BitVec.eq_of_toNat_eq; simp only [fld, BitVec.toNat_ofNat]; omega
  unfold decodeE
  rw [he]
  show (if u / 2 ^ 2 % 16 = 0 then Sys2Proof.chk (Instr.mmul (fld 6 18 u) (fld 6 12 u) (fld 6 6 u) (fld 1 1 u) (fld 1 0 u)) else .error .reserved) = _
  rw [if_pos hc, f_x, f_y, f_z, f_l, f_b]
  exact if_pos hw

theorem mdrain (x : BitVec 6) (y : BitVec 6) (z : BitVec 6) (b : BitVec 1) : Statement (Instr.mdrain x y z b) := by
  intro k hk hw
  cases hk
  have b_x := x.isLt
  have b_y := y.isLt
  have b_z := z.isLt
  have b_b := b.isLt
  obtain ⟨u, h0⟩ : ∃ u, encodeE (Instr.mdrain x y z b) = u := ⟨_, rfl⟩
  show decodeE (encodeE (Instr.mdrain x y z b)) = _
  rw [h0]
  have hu : 0x11000000 + x.toNat * 2 ^ 18 + y.toNat * 2 ^ 12 + z.toNat * 2 ^ 6 + b.toNat * 2 ^ 0 = u := h0
  have he : u / 2 ^ 24 = 0x11 := by omega
  have hc : u / 2 ^ 1 % 32 = 0 := by omega
  have f_x : fld 6 18 u = x := by
    apply BitVec.eq_of_toNat_eq; simp only [fld, BitVec.toNat_ofNat]; omega
  have f_y : fld 6 12 u = y := by
    apply BitVec.eq_of_toNat_eq; simp only [fld, BitVec.toNat_ofNat]; omega
  have f_z : fld 6 6 u = z := by
    apply BitVec.eq_of_toNat_eq; simp only [fld, BitVec.toNat_ofNat]; omega
  have f_b : fld 1 0 u = b := by
    apply BitVec.eq_of_toNat_eq; simp only [fld, BitVec.toNat_ofNat]; omega
  unfold decodeE
  rw [he]
  show (if u / 2 ^ 1 % 32 = 0 then Sys2Proof.chk (Instr.mdrain (fld 6 18 u) (fld 6 12 u) (fld 6 6 u) (fld 1 0 u)) else .error .reserved) = _
  rw [if_pos hc, f_x, f_y, f_z, f_b]
  exact if_pos hw

theorem bfill (x : BitVec 6) (y : BitVec 6) (z : BitVec 6) : Statement (Instr.bfill x y z) := by
  intro k hk hw
  cases hk
  have b_x := x.isLt
  have b_y := y.isLt
  have b_z := z.isLt
  obtain ⟨u, h0⟩ : ∃ u, encodeE (Instr.bfill x y z) = u := ⟨_, rfl⟩
  show decodeE (encodeE (Instr.bfill x y z)) = _
  rw [h0]
  have hu : 0x12000000 + x.toNat * 2 ^ 18 + y.toNat * 2 ^ 12 + z.toNat * 2 ^ 6 = u := h0
  have he : u / 2 ^ 24 = 0x12 := by omega
  have hc : u % 64 = 0 := by omega
  have f_x : fld 6 18 u = x := by
    apply BitVec.eq_of_toNat_eq; simp only [fld, BitVec.toNat_ofNat]; omega
  have f_y : fld 6 12 u = y := by
    apply BitVec.eq_of_toNat_eq; simp only [fld, BitVec.toNat_ofNat]; omega
  have f_z : fld 6 6 u = z := by
    apply BitVec.eq_of_toNat_eq; simp only [fld, BitVec.toNat_ofNat]; omega
  unfold decodeE
  rw [he]
  show (if u % 64 = 0 then Sys2Proof.chk (Instr.bfill (fld 6 18 u) (fld 6 12 u) (fld 6 6 u)) else .error .reserved) = _
  rw [if_pos hc, f_x, f_y, f_z]
  exact if_pos hw

theorem mcode (x : BitVec 6) : Statement (Instr.mcode x) := by
  intro k hk hw
  cases hk
  have b_x := x.isLt
  obtain ⟨u, h0⟩ : ∃ u, encodeE (Instr.mcode x) = u := ⟨_, rfl⟩
  show decodeE (encodeE (Instr.mcode x)) = _
  rw [h0]
  have hu : 0x13000000 + x.toNat * 2 ^ 18 = u := h0
  have he : u / 2 ^ 24 = 0x13 := by omega
  have hc : u % 262144 = 0 := by omega
  have f_x : fld 6 18 u = x := by
    apply BitVec.eq_of_toNat_eq; simp only [fld, BitVec.toNat_ofNat]; omega
  unfold decodeE
  rw [he]
  show (if u % 262144 = 0 then Sys2Proof.chk (Instr.mcode (fld 6 18 u)) else .error .reserved) = _
  rw [if_pos hc, f_x]
  exact if_pos hw

theorem swap (x : BitVec 6) (y : BitVec 6) (z : BitVec 6) : Statement (Instr.swap x y z) := by
  intro k hk hw
  cases hk
  have b_x := x.isLt
  have b_y := y.isLt
  have b_z := z.isLt
  obtain ⟨u, h0⟩ : ∃ u, encodeE (Instr.swap x y z) = u := ⟨_, rfl⟩
  show decodeE (encodeE (Instr.swap x y z)) = _
  rw [h0]
  have hu : 0x14000000 + x.toNat * 2 ^ 18 + y.toNat * 2 ^ 12 + z.toNat * 2 ^ 6 = u := h0
  have he : u / 2 ^ 24 = 0x14 := by omega
  have hc : u % 64 = 0 := by omega
  have f_x : fld 6 18 u = x := by
    apply BitVec.eq_of_toNat_eq; simp only [fld, BitVec.toNat_ofNat]; omega
  have f_y : fld 6 12 u = y := by
    apply BitVec.eq_of_toNat_eq; simp only [fld, BitVec.toNat_ofNat]; omega
  have f_z : fld 6 6 u = z := by
    apply BitVec.eq_of_toNat_eq; simp only [fld, BitVec.toNat_ofNat]; omega
  unfold decodeE
  rw [he]
  show (if u % 64 = 0 then Sys2Proof.chk (Instr.swap (fld 6 18 u) (fld 6 12 u) (fld 6 6 u)) else .error .reserved) = _
  rw [if_pos hc, f_x, f_y, f_z]
  exact if_pos hw

theorem cpy (x : BitVec 6) (y : BitVec 6) (z : BitVec 6) (q : BitVec 2) : Statement (Instr.cpy x y z q) := by
  intro k hk hw
  cases hk
  have b_x := x.isLt
  have b_y := y.isLt
  have b_z := z.isLt
  have b_q := q.isLt
  obtain ⟨u, h0⟩ : ∃ u, encodeE (Instr.cpy x y z q) = u := ⟨_, rfl⟩
  show decodeE (encodeE (Instr.cpy x y z q)) = _
  rw [h0]
  have hu : 0x20000000 + x.toNat * 2 ^ 18 + y.toNat * 2 ^ 12 + z.toNat * 2 ^ 6 + q.toNat * 2 ^ 4 = u := h0
  have he : u / 2 ^ 24 = 0x20 := by omega
  have hc : u % 16 = 0 := by omega
  have f_x : fld 6 18 u = x := by
    apply BitVec.eq_of_toNat_eq; simp only [fld, BitVec.toNat_ofNat]; omega
  have f_y : fld 6 12 u = y := by
    apply BitVec.eq_of_toNat_eq; simp only [fld, BitVec.toNat_ofNat]; omega
  have f_z : fld 6 6 u = z := by
    apply BitVec.eq_of_toNat_eq; simp only [fld, BitVec.toNat_ofNat]; omega
  have f_q : fld 2 4 u = q := by
    apply BitVec.eq_of_toNat_eq; simp only [fld, BitVec.toNat_ofNat]; omega
  unfold decodeE
  rw [he]
  show (if u % 16 = 0 then Sys2Proof.chk (Instr.cpy (fld 6 18 u) (fld 6 12 u) (fld 6 6 u) (fld 2 4 u)) else .error .reserved) = _
  rw [if_pos hc, f_x, f_y, f_z, f_q]
  exact if_pos hw

theorem cpyt (x : BitVec 6) (z : BitVec 6) (q : BitVec 2) : Statement (Instr.cpyt x z q) := by
  intro k hk hw
  cases hk
  have b_x := x.isLt
  have b_z := z.isLt
  have b_q := q.isLt
  obtain ⟨u, h0⟩ : ∃ u, encodeE (Instr.cpyt x z q) = u := ⟨_, rfl⟩
  show decodeE (encodeE (Instr.cpyt x z q)) = _
  rw [h0]
  have hu : 0x21000000 + x.toNat * 2 ^ 18 + z.toNat * 2 ^ 6 + q.toNat * 2 ^ 4 = u := h0
  have he : u / 2 ^ 24 = 0x21 := by omega
  have hc : u % 16 = 0 ∧ u / 2 ^ 12 % 64 = 0 := by omega
  have f_x : fld 6 18 u = x := by
    apply BitVec.eq_of_toNat_eq; simp only [fld, BitVec.toNat_ofNat]; omega
  have f_z : fld 6 6 u = z := by
    apply BitVec.eq_of_toNat_eq; simp only [fld, BitVec.toNat_ofNat]; omega
  have f_q : fld 2 4 u = q := by
    apply BitVec.eq_of_toNat_eq; simp only [fld, BitVec.toNat_ofNat]; omega
  unfold decodeE
  rw [he]
  show (if u % 16 = 0 ∧ u / 2 ^ 12 % 64 = 0 then Sys2Proof.chk (Instr.cpyt (fld 6 18 u) (fld 6 6 u) (fld 2 4 u)) else .error .reserved) = _
  rw [if_pos hc, f_x, f_z, f_q]
  exact if_pos hw

theorem cgath (x : BitVec 6) (z : BitVec 6) (q : BitVec 2) : Statement (Instr.cgath x z q) := by
  intro k hk hw
  cases hk
  have b_x := x.isLt
  have b_z := z.isLt
  have b_q := q.isLt
  obtain ⟨u, h0⟩ : ∃ u, encodeE (Instr.cgath x z q) = u := ⟨_, rfl⟩
  show decodeE (encodeE (Instr.cgath x z q)) = _
  rw [h0]
  have hu : 0x22000000 + x.toNat * 2 ^ 18 + z.toNat * 2 ^ 6 + q.toNat * 2 ^ 4 = u := h0
  have he : u / 2 ^ 24 = 0x22 := by omega
  have hc : u % 16 = 0 ∧ u / 2 ^ 12 % 64 = 0 := by omega
  have f_x : fld 6 18 u = x := by
    apply BitVec.eq_of_toNat_eq; simp only [fld, BitVec.toNat_ofNat]; omega
  have f_z : fld 6 6 u = z := by
    apply BitVec.eq_of_toNat_eq; simp only [fld, BitVec.toNat_ofNat]; omega
  have f_q : fld 2 4 u = q := by
    apply BitVec.eq_of_toNat_eq; simp only [fld, BitVec.toNat_ofNat]; omega
  unfold decodeE
  rw [he]
  show (if u % 16 = 0 ∧ u / 2 ^ 12 % 64 = 0 then Sys2Proof.chk (Instr.cgath (fld 6 18 u) (fld 6 6 u) (fld 2 4 u)) else .error .reserved) = _
  rw [if_pos hc, f_x, f_z, f_q]
  exact if_pos hw

theorem cscat (x : BitVec 6) (z : BitVec 6) (q : BitVec 2) : Statement (Instr.cscat x z q) := by
  intro k hk hw
  cases hk
  have b_x := x.isLt
  have b_z := z.isLt
  have b_q := q.isLt
  obtain ⟨u, h0⟩ : ∃ u, encodeE (Instr.cscat x z q) = u := ⟨_, rfl⟩
  show decodeE (encodeE (Instr.cscat x z q)) = _
  rw [h0]
  have hu : 0x23000000 + x.toNat * 2 ^ 18 + z.toNat * 2 ^ 6 + q.toNat * 2 ^ 4 = u := h0
  have he : u / 2 ^ 24 = 0x23 := by omega
  have hc : u % 16 = 0 ∧ u / 2 ^ 12 % 64 = 0 := by omega
  have f_x : fld 6 18 u = x := by
    apply BitVec.eq_of_toNat_eq; simp only [fld, BitVec.toNat_ofNat]; omega
  have f_z : fld 6 6 u = z := by
    apply BitVec.eq_of_toNat_eq; simp only [fld, BitVec.toNat_ofNat]; omega
  have f_q : fld 2 4 u = q := by
    apply BitVec.eq_of_toNat_eq; simp only [fld, BitVec.toNat_ofNat]; omega
  unfold decodeE
  rw [he]
  show (if u % 16 = 0 ∧ u / 2 ^ 12 % 64 = 0 then Sys2Proof.chk (Instr.cscat (fld 6 18 u) (fld 6 6 u) (fld 2 4 u)) else .error .reserved) = _
  rw [if_pos hc, f_x, f_z, f_q]
  exact if_pos hw

theorem cseal (x : BitVec 6) (q : BitVec 2) : Statement (Instr.cseal x q) := by
  intro k hk hw
  cases hk
  have b_x := x.isLt
  have b_q := q.isLt
  obtain ⟨u, h0⟩ : ∃ u, encodeE (Instr.cseal x q) = u := ⟨_, rfl⟩
  show decodeE (encodeE (Instr.cseal x q)) = _
  rw [h0]
  have hu : 0x24000000 + x.toNat * 2 ^ 18 + q.toNat * 2 ^ 4 = u := h0
  have he : u / 2 ^ 24 = 0x24 := by omega
  have hc : u % 16 = 0 ∧ u / 2 ^ 6 % 4096 = 0 := by omega
  have f_x : fld 6 18 u = x := by
    apply BitVec.eq_of_toNat_eq; simp only [fld, BitVec.toNat_ofNat]; omega
  have f_q : fld 2 4 u = q := by
    apply BitVec.eq_of_toNat_eq; simp only [fld, BitVec.toNat_ofNat]; omega
  unfold decodeE
  rw [he]
  show (if u % 16 = 0 ∧ u / 2 ^ 6 % 4096 = 0 then Sys2Proof.chk (Instr.cseal (fld 6 18 u) (fld 2 4 u)) else .error .reserved) = _
  rw [if_pos hc, f_x, f_q]
  exact if_pos hw

theorem ctime (x : BitVec 6) (q : BitVec 2) : Statement (Instr.ctime x q) := by
  intro k hk hw
  cases hk
  have b_x := x.isLt
  have b_q := q.isLt
  obtain ⟨u, h0⟩ : ∃ u, encodeE (Instr.ctime x q) = u := ⟨_, rfl⟩
  show decodeE (encodeE (Instr.ctime x q)) = _
  rw [h0]
  have hu : 0x25000000 + x.toNat * 2 ^ 18 + q.toNat * 2 ^ 4 = u := h0
  have he : u / 2 ^ 24 = 0x25 := by omega
  have hc : u % 16 = 0 ∧ u / 2 ^ 6 % 4096 = 0 := by omega
  have f_x : fld 6 18 u = x := by
    apply BitVec.eq_of_toNat_eq; simp only [fld, BitVec.toNat_ofNat]; omega
  have f_q : fld 2 4 u = q := by
    apply BitVec.eq_of_toNat_eq; simp only [fld, BitVec.toNat_ofNat]; omega
  unfold decodeE
  rw [he]
  show (if u % 16 = 0 ∧ u / 2 ^ 6 % 4096 = 0 then Sys2Proof.chk (Instr.ctime (fld 6 18 u) (fld 2 4 u)) else .error .reserved) = _
  rw [if_pos hc, f_x, f_q]
  exact if_pos hw

theorem cnext (x : BitVec 6) (y : BitVec 6) (z : BitVec 6) (q : BitVec 2) (l : BitVec 1) (b : BitVec 1) : Statement (Instr.cnext x y z q l b) := by
  intro k hk hw
  cases hk
  have b_x := x.isLt
  have b_y := y.isLt
  have b_z := z.isLt
  have b_q := q.isLt
  have b_l := l.isLt
  have b_b := b.isLt
  obtain ⟨u, h0⟩ : ∃ u, encodeE (Instr.cnext x y z q l b) = u := ⟨_, rfl⟩
  show decodeE (encodeE (Instr.cnext x y z q l b)) = _
  rw [h0]
  have hu : 0x26000000 + x.toNat * 2 ^ 18 + y.toNat * 2 ^ 12 + z.toNat * 2 ^ 6 + q.toNat * 2 ^ 4 + l.toNat * 2 ^ 1 + b.toNat * 2 ^ 0 = u := h0
  have he : u / 2 ^ 24 = 0x26 := by omega
  have hc : u / 2 ^ 2 % 4 = 0 := by omega
  have f_x : fld 6 18 u = x := by
    apply BitVec.eq_of_toNat_eq; simp only [fld, BitVec.toNat_ofNat]; omega
  have f_y : fld 6 12 u = y := by
    apply BitVec.eq_of_toNat_eq; simp only [fld, BitVec.toNat_ofNat]; omega
  have f_z : fld 6 6 u = z := by
    apply BitVec.eq_of_toNat_eq; simp only [fld, BitVec.toNat_ofNat]; omega
  have f_q : fld 2 4 u = q := by
    apply BitVec.eq_of_toNat_eq; simp only [fld, BitVec.toNat_ofNat]; omega
  have f_l : fld 1 1 u = l := by
    apply BitVec.eq_of_toNat_eq; simp only [fld, BitVec.toNat_ofNat]; omega
  have f_b : fld 1 0 u = b := by
    apply BitVec.eq_of_toNat_eq; simp only [fld, BitVec.toNat_ofNat]; omega
  unfold decodeE
  rw [he]
  show (if u / 2 ^ 2 % 4 = 0 then Sys2Proof.chk (Instr.cnext (fld 6 18 u) (fld 6 12 u) (fld 6 6 u) (fld 2 4 u) (fld 1 1 u) (fld 1 0 u)) else .error .reserved) = _
  rw [if_pos hc, f_x, f_y, f_z, f_q, f_l, f_b]
  exact if_pos hw

theorem sendm (x : BitVec 6) (y : BitVec 6) (m : BitVec 5) : Statement (Instr.sendm x y m) := by
  intro k hk hw
  cases hk
  have b_x := x.isLt
  have b_y := y.isLt
  have b_m := m.isLt
  obtain ⟨u, h0⟩ : ∃ u, encodeE (Instr.sendm x y m) = u := ⟨_, rfl⟩
  show decodeE (encodeE (Instr.sendm x y m)) = _
  rw [h0]
  have hu : 0x28000000 + x.toNat * 2 ^ 18 + y.toNat * 2 ^ 12 + m.toNat * 2 ^ 6 = u := h0
  have he : u / 2 ^ 24 = 0x28 := by omega
  have hc : u % 64 = 0 ∧ u / 2 ^ 11 % 2 = 0 := by omega
  have f_x : fld 6 18 u = x := by
    apply BitVec.eq_of_toNat_eq; simp only [fld, BitVec.toNat_ofNat]; omega
  have f_y : fld 6 12 u = y := by
    apply BitVec.eq_of_toNat_eq; simp only [fld, BitVec.toNat_ofNat]; omega
  have f_m : fld 5 6 u = m := by
    apply BitVec.eq_of_toNat_eq; simp only [fld, BitVec.toNat_ofNat]; omega
  unfold decodeE
  rw [he]
  show (if u % 64 = 0 ∧ u / 2 ^ 11 % 2 = 0 then Sys2Proof.chk (Instr.sendm (fld 6 18 u) (fld 6 12 u) (fld 5 6 u)) else .error .reserved) = _
  rw [if_pos hc, f_x, f_y, f_m]
  exact if_pos hw

theorem eqry (x : BitVec 6) (y : BitVec 6) : Statement (Instr.eqry x y) := by
  intro k hk hw
  cases hk
  have b_x := x.isLt
  have b_y := y.isLt
  obtain ⟨u, h0⟩ : ∃ u, encodeE (Instr.eqry x y) = u := ⟨_, rfl⟩
  show decodeE (encodeE (Instr.eqry x y)) = _
  rw [h0]
  have hu : 0x29000000 + x.toNat * 2 ^ 18 + y.toNat * 2 ^ 12 = u := h0
  have he : u / 2 ^ 24 = 0x29 := by omega
  have hc : u % 4096 = 0 := by omega
  have f_x : fld 6 18 u = x := by
    apply BitVec.eq_of_toNat_eq; simp only [fld, BitVec.toNat_ofNat]; omega
  have f_y : fld 6 12 u = y := by
    apply BitVec.eq_of_toNat_eq; simp only [fld, BitVec.toNat_ofNat]; omega
  unfold decodeE
  rw [he]
  show (if u % 4096 = 0 then Sys2Proof.chk (Instr.eqry (fld 6 18 u) (fld 6 12 u)) else .error .reserved) = _
  rw [if_pos hc, f_x, f_y]
  exact if_pos hw

theorem fwait (f : BitVec 5) (n : BitVec 13) : Statement (Instr.fwait f n) := by
  intro k hk hw
  cases hk
  have b_f := f.isLt
  have b_n := n.isLt
  obtain ⟨u, h0⟩ : ∃ u, encodeY (Instr.fwait f n) = u := ⟨_, rfl⟩
  show decodeY (encodeY (Instr.fwait f n)) = _
  rw [h0]
  have hu : 0x100000 + f.toNat * 2 ^ 13 + n.toNat * 2 ^ 0 = u := h0
  have he : u / 2 ^ 18 = 0x04 := by omega
  have f_f : fld 5 13 u = f := by
    apply BitVec.eq_of_toNat_eq; simp only [fld, BitVec.toNat_ofNat]; omega
  have f_n : fld 13 0 u = n := by
    apply BitVec.eq_of_toNat_eq; simp only [fld, BitVec.toNat_ofNat]; omega
  unfold decodeY
  rw [he]
  show (Sys2Proof.chk (Instr.fwait (fld 5 13 u) (fld 13 0 u))) = _
  rw [f_f, f_n]
  exact if_pos hw

theorem fpost (f : BitVec 5) (n : BitVec 13) : Statement (Instr.fpost f n) := by
  intro k hk hw
  cases hk
  have b_f := f.isLt
  have b_n := n.isLt
  obtain ⟨u, h0⟩ : ∃ u, encodeY (Instr.fpost f n) = u := ⟨_, rfl⟩
  show decodeY (encodeY (Instr.fpost f n)) = _
  rw [h0]
  have hu : 0x140000 + f.toNat * 2 ^ 13 + n.toNat * 2 ^ 0 = u := h0
  have he : u / 2 ^ 18 = 0x05 := by omega
  have f_f : fld 5 13 u = f := by
    apply BitVec.eq_of_toNat_eq; simp only [fld, BitVec.toNat_ofNat]; omega
  have f_n : fld 13 0 u = n := by
    apply BitVec.eq_of_toNat_eq; simp only [fld, BitVec.toNat_ofNat]; omega
  unfold decodeY
  rw [he]
  show (Sys2Proof.chk (Instr.fpost (fld 5 13 u) (fld 13 0 u))) = _
  rw [f_f, f_n]
  exact if_pos hw

theorem fpostx (f : BitVec 5) (r : BitVec 6) (n : BitVec 7) : Statement (Instr.fpostx f r n) := by
  intro k hk hw
  cases hk
  have b_f := f.isLt
  have b_r := r.isLt
  have b_n := n.isLt
  obtain ⟨u, h0⟩ : ∃ u, encodeY (Instr.fpostx f r n) = u := ⟨_, rfl⟩
  show decodeY (encodeY (Instr.fpostx f r n)) = _
  rw [h0]
  have hu : 0x180000 + f.toNat * 2 ^ 13 + r.toNat * 2 ^ 7 + n.toNat * 2 ^ 0 = u := h0
  have he : u / 2 ^ 18 = 0x06 := by omega
  have f_f : fld 5 13 u = f := by
    apply BitVec.eq_of_toNat_eq; simp only [fld, BitVec.toNat_ofNat]; omega
  have f_r : fld 6 7 u = r := by
    apply BitVec.eq_of_toNat_eq; simp only [fld, BitVec.toNat_ofNat]; omega
  have f_n : fld 7 0 u = n := by
    apply BitVec.eq_of_toNat_eq; simp only [fld, BitVec.toNat_ofNat]; omega
  unfold decodeY
  rw [he]
  show (Sys2Proof.chk (Instr.fpostx (fld 5 13 u) (fld 6 7 u) (fld 7 0 u))) = _
  rw [f_f, f_r, f_n]
  exact if_pos hw

theorem twait (t : BitVec 5) (r : BitVec 6) : Statement (Instr.twait t r) := by
  intro k hk hw
  cases hk
  have b_t := t.isLt
  have b_r := r.isLt
  obtain ⟨u, h0⟩ : ∃ u, encodeY (Instr.twait t r) = u := ⟨_, rfl⟩
  show decodeY (encodeY (Instr.twait t r)) = _
  rw [h0]
  have hu : 0x200000 + t.toNat * 2 ^ 13 + r.toNat * 2 ^ 7 = u := h0
  have he : u / 2 ^ 18 = 0x08 := by omega
  have hc : u % 128 = 0 := by omega
  have f_t : fld 5 13 u = t := by
    apply BitVec.eq_of_toNat_eq; simp only [fld, BitVec.toNat_ofNat]; omega
  have f_r : fld 6 7 u = r := by
    apply BitVec.eq_of_toNat_eq; simp only [fld, BitVec.toNat_ofNat]; omega
  unfold decodeY
  rw [he]
  show (if u % 128 = 0 then Sys2Proof.chk (Instr.twait (fld 5 13 u) (fld 6 7 u)) else .error .reserved) = _
  rw [if_pos hc, f_t, f_r]
  exact if_pos hw

theorem hwait (h : BitVec 4) (n : BitVec 13) : Statement (Instr.hwait h n) := by
  intro k hk hw
  cases hk
  have b_h := h.isLt
  have b_n := n.isLt
  obtain ⟨u, h0⟩ : ∃ u, encodeY (Instr.hwait h n) = u := ⟨_, rfl⟩
  show decodeY (encodeY (Instr.hwait h n)) = _
  rw [h0]
  have hu : 0x240000 + h.toNat * 2 ^ 13 + n.toNat * 2 ^ 0 = u := h0
  have he : u / 2 ^ 18 = 0x09 := by omega
  have hc : u / 2 ^ 17 % 2 = 0 := by omega
  have f_h : fld 4 13 u = h := by
    apply BitVec.eq_of_toNat_eq; simp only [fld, BitVec.toNat_ofNat]; omega
  have f_n : fld 13 0 u = n := by
    apply BitVec.eq_of_toNat_eq; simp only [fld, BitVec.toNat_ofNat]; omega
  unfold decodeY
  rw [he]
  show (if u / 2 ^ 17 % 2 = 0 then Sys2Proof.chk (Instr.hwait (fld 4 13 u) (fld 13 0 u)) else .error .reserved) = _
  rw [if_pos hc, f_h, f_n]
  exact if_pos hw

theorem hfree (h : BitVec 4) (n : BitVec 13) : Statement (Instr.hfree h n) := by
  intro k hk hw
  cases hk
  have b_h := h.isLt
  have b_n := n.isLt
  obtain ⟨u, h0⟩ : ∃ u, encodeY (Instr.hfree h n) = u := ⟨_, rfl⟩
  show decodeY (encodeY (Instr.hfree h n)) = _
  rw [h0]
  have hu : 0x280000 + h.toNat * 2 ^ 13 + n.toNat * 2 ^ 0 = u := h0
  have he : u / 2 ^ 18 = 0x0A := by omega
  have hc : u / 2 ^ 17 % 2 = 0 := by omega
  have f_h : fld 4 13 u = h := by
    apply BitVec.eq_of_toNat_eq; simp only [fld, BitVec.toNat_ofNat]; omega
  have f_n : fld 13 0 u = n := by
    apply BitVec.eq_of_toNat_eq; simp only [fld, BitVec.toNat_ofNat]; omega
  unfold decodeY
  rw [he]
  show (if u / 2 ^ 17 % 2 = 0 then Sys2Proof.chk (Instr.hfree (fld 4 13 u) (fld 13 0 u)) else .error .reserved) = _
  rw [if_pos hc, f_h, f_n]
  exact if_pos hw

theorem hadv (h : BitVec 4) (s : BitVec 1) (c : BitVec 12) : Statement (Instr.hadv h s c) := by
  intro k hk hw
  cases hk
  have b_h := h.isLt
  have b_s := s.isLt
  have b_c := c.isLt
  obtain ⟨u, h0⟩ : ∃ u, encodeY (Instr.hadv h s c) = u := ⟨_, rfl⟩
  show decodeY (encodeY (Instr.hadv h s c)) = _
  rw [h0]
  have hu : 0x2C0000 + h.toNat * 2 ^ 13 + s.toNat * 2 ^ 12 + c.toNat * 2 ^ 0 = u := h0
  have he : u / 2 ^ 18 = 0x0B := by omega
  have hc : u / 2 ^ 17 % 2 = 0 := by omega
  have f_h : fld 4 13 u = h := by
    apply BitVec.eq_of_toNat_eq; simp only [fld, BitVec.toNat_ofNat]; omega
  have f_s : fld 1 12 u = s := by
    apply BitVec.eq_of_toNat_eq; simp only [fld, BitVec.toNat_ofNat]; omega
  have f_c : fld 12 0 u = c := by
    apply BitVec.eq_of_toNat_eq; simp only [fld, BitVec.toNat_ofNat]; omega
  unfold decodeY
  rw [he]
  show (if u / 2 ^ 17 % 2 = 0 then Sys2Proof.chk (Instr.hadv (fld 4 13 u) (fld 1 12 u) (fld 12 0 u)) else .error .reserved) = _
  rw [if_pos hc, f_h, f_s, f_c]
  exact if_pos hw

theorem mwait (m : BitVec 5) : Statement (Instr.mwait m) := by
  intro k hk hw
  cases hk
  have b_m := m.isLt
  obtain ⟨u, h0⟩ : ∃ u, encodeY (Instr.mwait m) = u := ⟨_, rfl⟩
  show decodeY (encodeY (Instr.mwait m)) = _
  rw [h0]
  have hu : 0x300000 + m.toNat * 2 ^ 13 = u := h0
  have he : u / 2 ^ 18 = 0x0C := by omega
  have hc : u % 8192 = 0 := by omega
  have f_m : fld 5 13 u = m := by
    apply BitVec.eq_of_toNat_eq; simp only [fld, BitVec.toNat_ofNat]; omega
  unfold decodeY
  rw [he]
  show (if u % 8192 = 0 then Sys2Proof.chk (Instr.mwait (fld 5 13 u)) else .error .reserved) = _
  rw [if_pos hc, f_m]
  exact if_pos hw

theorem lwait (n : BitVec 13) : Statement (Instr.lwait n) := by
  intro k hk hw
  cases hk
  have b_n := n.isLt
  obtain ⟨u, h0⟩ : ∃ u, encodeY (Instr.lwait n) = u := ⟨_, rfl⟩
  show decodeY (encodeY (Instr.lwait n)) = _
  rw [h0]
  have hu : 0x340000 + n.toNat * 2 ^ 0 = u := h0
  have he : u / 2 ^ 18 = 0x0D := by omega
  have hc : u / 2 ^ 13 % 32 = 0 := by omega
  have f_n : fld 13 0 u = n := by
    apply BitVec.eq_of_toNat_eq; simp only [fld, BitVec.toNat_ofNat]; omega
  unfold decodeY
  rw [he]
  show (if u / 2 ^ 13 % 32 = 0 then Sys2Proof.chk (Instr.lwait (fld 13 0 u)) else .error .reserved) = _
  rw [if_pos hc, f_n]
  exact if_pos hw

theorem chk (r : BitVec 5) : Statement (Instr.chk r) := by
  intro k hk hw
  cases hk
  have b_r := r.isLt
  obtain ⟨u, h0⟩ : ∃ u, encodeY (Instr.chk r) = u := ⟨_, rfl⟩
  show decodeY (encodeY (Instr.chk r)) = _
  rw [h0]
  have hu : 0x4C0000 + r.toNat * 2 ^ 13 = u := h0
  have he : u / 2 ^ 18 = 0x13 := by omega
  have hc : u % 8192 = 0 := by omega
  have f_r : fld 5 13 u = r := by
    apply BitVec.eq_of_toNat_eq; simp only [fld, BitVec.toNat_ofNat]; omega
  unfold decodeY
  rw [he]
  show (if u % 8192 = 0 then Sys2Proof.chk (Instr.chk (fld 5 13 u)) else .error .reserved) = _
  rw [if_pos hc, f_r]
  exact if_pos hw

theorem bara (b : BitVec 5) (c : BitVec 3) : Statement (Instr.bara b c) := by
  intro k hk hw
  cases hk
  have b_b := b.isLt
  have b_c := c.isLt
  obtain ⟨u, h0⟩ : ∃ u, encodeY (Instr.bara b c) = u := ⟨_, rfl⟩
  show decodeY (encodeY (Instr.bara b c)) = _
  rw [h0]
  have hu : 0x500000 + b.toNat * 2 ^ 13 + c.toNat * 2 ^ 10 = u := h0
  have he : u / 2 ^ 18 = 0x14 := by omega
  have hc : u % 1024 = 0 := by omega
  have f_b : fld 5 13 u = b := by
    apply BitVec.eq_of_toNat_eq; simp only [fld, BitVec.toNat_ofNat]; omega
  have f_c : fld 3 10 u = c := by
    apply BitVec.eq_of_toNat_eq; simp only [fld, BitVec.toNat_ofNat]; omega
  unfold decodeY
  rw [he]
  show (if u % 1024 = 0 then Sys2Proof.chk (Instr.bara (fld 5 13 u) (fld 3 10 u)) else .error .reserved) = _
  rw [if_pos hc, f_b, f_c]
  exact if_pos hw

theorem helperBundleIllegal (core : Nat) (h : Nat) : Statement (Instr.helperBundleIllegal core h) := fun _ h _ => nomatch h

theorem storageError (core : Nat) (row : Nat) (unc : Bool) (loc : Nat) : Statement (Instr.storageError core row unc loc) := fun _ h _ => nomatch h

theorem hctlFree (core : Nat) (h : Nat) : Statement (Instr.hctlFree core h) := fun _ h _ => nomatch h

theorem histselClr (core : Nat) (tid : Nat) : Statement (Instr.histselClr core tid) := fun _ h _ => nomatch h

theorem egraphWrite (core : Nat) (v : Word) : Statement (Instr.egraphWrite core v) := fun _ h _ => nomatch h

theorem bqtake (gw : Nat) (d : Nat) : Statement (Instr.bqtake gw d) := fun _ h _ => nomatch h

theorem registerWrite (off : Nat) (v : Word) : Statement (Instr.registerWrite off v) := fun _ h _ => nomatch h

theorem homeRead (id : Nat) : Statement (Instr.homeRead id) := fun _ h _ => nomatch h

theorem homeWrite (id : Nat) : Statement (Instr.homeWrite id) := fun _ h _ => nomatch h

theorem homeAtomic (id : Nat) : Statement (Instr.homeAtomic id) := fun _ h _ => nomatch h

theorem globalReadReturn (id : Nat) : Statement (Instr.globalReadReturn id) := fun _ h _ => nomatch h

theorem pageWalk (agent : Nat) (ctx : Nat) (va : Nat) (write : Bool) (atomic : Bool) : Statement (Instr.pageWalk agent ctx va write atomic) := fun _ h _ => nomatch h

theorem retry (entry : Nat) : Statement (Instr.retry entry) := fun _ h _ => nomatch h

theorem abandon (entry : Nat) : Statement (Instr.abandon entry) := fun _ h _ => nomatch h

theorem tinvPage (ctx : Nat) (va : Nat) : Statement (Instr.tinvPage ctx va) := fun _ h _ => nomatch h

theorem tinvContext (ctx : Nat) : Statement (Instr.tinvContext ctx) := fun _ h _ => nomatch h

theorem fwCtlWrite (w : Nat) (v : Word) : Statement (Instr.fwCtlWrite w v) := fun _ h _ => nomatch h

theorem legdataWrite (v : Word) : Statement (Instr.legdataWrite v) := fun _ h _ => nomatch h

theorem flagPostArrival (src : Nat) (core : Nat) (f : Nat) (n : Nat) : Statement (Instr.flagPostArrival src core f n) := fun _ h _ => nomatch h

theorem mailboxArrival (src : Nat) (core : Nat) (m : Nat) (v : Word) : Statement (Instr.mailboxArrival src core m v) := fun _ h _ => nomatch h

theorem mailboxPortWrite (src : Nat) (core : Nat) (m : Nat) (v : Word) : Statement (Instr.mailboxPortWrite src core m v) := fun _ h _ => nomatch h

theorem handleAdvanceArrival (src : Nat) (core : Nat) (h : Nat) (prod : Bool) (n : Nat) : Statement (Instr.handleAdvanceArrival src core h prod n) := fun _ h _ => nomatch h

theorem clusterWindowStore (src : Nat) (core : Nat) (addr : Nat) (data : List Byte) : Statement (Instr.clusterWindowStore src core addr data) := fun _ h _ => nomatch h

theorem gatewayWindowAccess (gw : Nat) (off : Nat) (write : Bool) (v : Word) : Statement (Instr.gatewayWindowAccess gw off write v) := fun _ h _ => nomatch h

theorem copyCommandStart (core : Nat) (q : Nat) : Statement (Instr.copyCommandStart core q) := fun _ h _ => nomatch h

theorem copyBurst (core : Nat) (q : Nat) : Statement (Instr.copyBurst core q) := fun _ h _ => nomatch h

theorem copyCommandComplete (core : Nat) (q : Nat) : Statement (Instr.copyCommandComplete core q) := fun _ h _ => nomatch h

theorem timedCommandDue (core : Nat) (q : Nat) : Statement (Instr.timedCommandDue core q) := fun _ h _ => nomatch h

theorem queueStop (core : Nat) (q : Nat) : Statement (Instr.queueStop core q) := fun _ h _ => nomatch h

theorem stageRelease (launch : Nat) : Statement (Instr.stageRelease launch) := fun _ h _ => nomatch h

theorem launchComplete (launch : Nat) : Statement (Instr.launchComplete launch) := fun _ h _ => nomatch h

theorem preemptionEnd (launch : Nat) : Statement (Instr.preemptionEnd launch) := fun _ h _ => nomatch h

theorem killComplete (ctx : Nat) : Statement (Instr.killComplete ctx) := fun _ h _ => nomatch h

theorem replayPass (launch : Nat) : Statement (Instr.replayPass launch) := fun _ h _ => nomatch h

theorem swapOut (ctx : Nat) (slot : Nat) : Statement (Instr.swapOut ctx slot) := fun _ h _ => nomatch h

theorem swapIn (entry : Nat) : Statement (Instr.swapIn entry) := fun _ h _ => nomatch h

theorem barrierArrival (b : Nat) (n : Nat) : Statement (Instr.barrierArrival b n) := fun _ h _ => nomatch h

theorem encodeJobStart (e : Nat) : Statement (Instr.encodeJobStart e) := fun _ h _ => nomatch h

theorem encodeJobComplete (e : Nat) : Statement (Instr.encodeJobComplete e) := fun _ h _ => nomatch h

theorem hostHalt (b : Nat) (v : Word) : Statement (Instr.hostHalt b v) := fun _ h _ => nomatch h

theorem resume (b : Nat) (v : Word) : Statement (Instr.resume b v) := fun _ h _ => nomatch h

theorem jobstep (b : Nat) (v : Word) : Statement (Instr.jobstep b v) := fun _ h _ => nomatch h

theorem corestep (b : Nat) (v : Word) : Statement (Instr.corestep b v) := fun _ h _ => nomatch h

theorem clearcause (b : Nat) (v : Word) : Statement (Instr.clearcause b v) := fun _ h _ => nomatch h

theorem shtrig (v : Word) : Statement (Instr.shtrig v) := fun _ h _ => nomatch h

theorem frdata (die : Nat) : Statement (Instr.frdata die) := fun _ h _ => nomatch h

theorem linkFlitReceive (port : Nat) (good : Bool) : Statement (Instr.linkFlitReceive port good) := fun _ h _ => nomatch h

theorem linkDown (port : Nat) : Statement (Instr.linkDown port) := fun _ h _ => nomatch h

theorem linkUp (port : Nat) (peer : Nat) : Statement (Instr.linkUp port peer) := fun _ h _ => nomatch h

theorem graticuleDiscipline (port : Nat) (stamp : Nat) : Statement (Instr.graticuleDiscipline port stamp) := fun _ h _ => nomatch h

theorem plan (slot : Nat) (v : Word) : Statement (Instr.plan slot v) := fun _ h _ => nomatch h

theorem planLate (slot : Nat) : Statement (Instr.planLate slot) := fun _ h _ => nomatch h

theorem planPhase (slot : Nat) (phase : Nat) : Statement (Instr.planPhase slot phase) := fun _ h _ => nomatch h

theorem planComplete (slot : Nat) : Statement (Instr.planComplete slot) := fun _ h _ => nomatch h

theorem treeset (v : Word) : Statement (Instr.treeset v) := fun _ h _ => nomatch h

theorem treeNodeInput (tree : Nat) (node : Nat) (data : List (Lane × Lane)) : Statement (Instr.treeNodeInput tree node data) := fun _ h _ => nomatch h

theorem treeRootDelivery (tree : Nat) : Statement (Instr.treeRootDelivery tree) := fun _ h _ => nomatch h

theorem dispatchDelivery (group : Nat) (ex : Nat) (data : List (Lane × Lane)) : Statement (Instr.dispatchDelivery group ex data) := fun _ h _ => nomatch h

theorem streamEnable (stream : Nat) (v : Word) : Statement (Instr.streamEnable stream v) := fun _ h _ => nomatch h

theorem streamDisable (stream : Nat) (v : Word) : Statement (Instr.streamDisable stream v) := fun _ h _ => nomatch h

theorem resetRungComplete (rung : Nat) : Statement (Instr.resetRungComplete rung) := fun _ h _ => nomatch h

theorem clusterPowerUp (cluster : Nat) : Statement (Instr.clusterPowerUp cluster) := fun _ h _ => nomatch h

theorem attreq (v : Word) : Statement (Instr.attreq v) := fun _ h _ => nomatch h

theorem thermalTrip (stack : Nat) : Statement (Instr.thermalTrip stack) := fun _ h _ => nomatch h

theorem updomClose (cluster : Nat) : Statement (Instr.updomClose cluster) := fun _ h _ => nomatch h

theorem updomOpen (cluster : Nat) : Statement (Instr.updomOpen cluster) := fun _ h _ => nomatch h

theorem domainClose (cluster : Nat) : Statement (Instr.domainClose cluster) := fun _ h _ => nomatch h

theorem domainOpened (cluster : Nat) : Statement (Instr.domainOpened cluster) := fun _ h _ => nomatch h

theorem cxlCacheSnoop (line : Nat) (inv : Bool) : Statement (Instr.cxlCacheSnoop line inv) := fun _ h _ => nomatch h

theorem nilI : Statement (Instr.nilI) := by
  intro k hk hw
  cases hk
  obtain ⟨u, h0⟩ : ∃ u, encodeI (Instr.nilI) = u := ⟨_, rfl⟩
  show decodeI (encodeI (Instr.nilI)) = _
  rw [h0]
  have hu : 0x00000000 = u := h0
  have he : u / 2 ^ 24 = 0x00 := by omega
  have hc : u % 16777216 = 0 := by omega
  unfold decodeI
  rw [he]
  show (if u % 16777216 = 0 then Sys2Proof.chk Instr.nilI else .error .reserved) = _
  rw [if_pos hc]
  exact if_pos hw

theorem nilM : Statement (Instr.nilM) := by
  intro k hk hw
  cases hk
  obtain ⟨u, h0⟩ : ∃ u, encodeM (Instr.nilM) = u := ⟨_, rfl⟩
  show decodeM (encodeM (Instr.nilM)) = _
  rw [h0]
  have hu : 0x00000000 = u := h0
  have he : u / 2 ^ 24 = 0x00 := by omega
  have hc : u % 16777216 = 0 := by omega
  unfold decodeM
  rw [he]
  show (if u % 16777216 = 0 then Sys2Proof.chk Instr.nilM else .error .reserved) = _
  rw [if_pos hc]
  exact if_pos hw

theorem nilV : Statement (Instr.nilV) := by
  intro k hk hw
  cases hk
  obtain ⟨u, h0⟩ : ∃ u, encodeV (Instr.nilV) = u := ⟨_, rfl⟩
  show decodeV (encodeV (Instr.nilV)) = _
  rw [h0]
  have hu : 0x0000000000 = u := h0
  have he : u / 2 ^ 32 = 0x00 := by omega
  have hc : u % 4294967296 = 0 := by omega
  unfold decodeV
  rw [he]
  show (if u % 4294967296 = 0 then Sys2Proof.chk Instr.nilV else .error .reserved) = _
  rw [if_pos hc]
  exact if_pos hw

theorem nilK : Statement (Instr.nilK) := by
  intro k hk hw
  cases hk
  obtain ⟨u, h0⟩ : ∃ u, encodeK (Instr.nilK) = u := ⟨_, rfl⟩
  show decodeK (encodeK (Instr.nilK)) = _
  rw [h0]
  have hu : 0x000000 = u := h0
  have he : u / 2 ^ 18 = 0x00 := by omega
  have hc : u % 262144 = 0 := by omega
  unfold decodeK
  rw [he]
  show (if u % 262144 = 0 then Sys2Proof.chk Instr.nilK else .error .reserved) = _
  rw [if_pos hc]
  exact if_pos hw

theorem nilE : Statement (Instr.nilE) := by
  intro k hk hw
  cases hk
  obtain ⟨u, h0⟩ : ∃ u, encodeE (Instr.nilE) = u := ⟨_, rfl⟩
  show decodeE (encodeE (Instr.nilE)) = _
  rw [h0]
  have hu : 0x00000000 = u := h0
  have he : u / 2 ^ 24 = 0x00 := by omega
  have hc : u % 16777216 = 0 := by omega
  unfold decodeE
  rw [he]
  show (if u % 16777216 = 0 then Sys2Proof.chk Instr.nilE else .error .reserved) = _
  rw [if_pos hc]
  exact if_pos hw

theorem nilY : Statement (Instr.nilY) := by
  intro k hk hw
  cases hk
  obtain ⟨u, h0⟩ : ∃ u, encodeY (Instr.nilY) = u := ⟨_, rfl⟩
  show decodeY (encodeY (Instr.nilY)) = _
  rw [h0]
  have hu : 0x000000 = u := h0
  have he : u / 2 ^ 18 = 0x00 := by omega
  have hc : u % 262144 = 0 := by omega
  unfold decodeY
  rw [he]
  show (if u % 262144 = 0 then Sys2Proof.chk Instr.nilY else .error .reserved) = _
  rw [if_pos hc]
  exact if_pos hw

theorem holdI : Statement (Instr.holdI) := by
  intro k hk hw
  cases hk
  obtain ⟨u, h0⟩ : ∃ u, encodeI (Instr.holdI) = u := ⟨_, rfl⟩
  show decodeI (encodeI (Instr.holdI)) = _
  rw [h0]
  have hu : 0x01000000 = u := h0
  have he : u / 2 ^ 24 = 0x01 := by omega
  have hc : u % 16777216 = 0 := by omega
  unfold decodeI
  rw [he]
  show (if u % 16777216 = 0 then Sys2Proof.chk Instr.holdI else .error .reserved) = _
  rw [if_pos hc]
  exact if_pos hw

theorem holdM : Statement (Instr.holdM) := by
  intro k hk hw
  cases hk
  obtain ⟨u, h0⟩ : ∃ u, encodeM (Instr.holdM) = u := ⟨_, rfl⟩
  show decodeM (encodeM (Instr.holdM)) = _
  rw [h0]
  have hu : 0x01000000 = u := h0
  have he : u / 2 ^ 24 = 0x01 := by omega
  have hc : u % 16777216 = 0 := by omega
  unfold decodeM
  rw [he]
  show (if u % 16777216 = 0 then Sys2Proof.chk Instr.holdM else .error .reserved) = _
  rw [if_pos hc]
  exact if_pos hw

theorem holdV : Statement (Instr.holdV) := by
  intro k hk hw
  cases hk
  obtain ⟨u, h0⟩ : ∃ u, encodeV (Instr.holdV) = u := ⟨_, rfl⟩
  show decodeV (encodeV (Instr.holdV)) = _
  rw [h0]
  have hu : 0x0100000000 = u := h0
  have he : u / 2 ^ 32 = 0x01 := by omega
  have hc : u % 4294967296 = 0 := by omega
  unfold decodeV
  rw [he]
  show (if u % 4294967296 = 0 then Sys2Proof.chk Instr.holdV else .error .reserved) = _
  rw [if_pos hc]
  exact if_pos hw

theorem holdK : Statement (Instr.holdK) := by
  intro k hk hw
  cases hk
  obtain ⟨u, h0⟩ : ∃ u, encodeK (Instr.holdK) = u := ⟨_, rfl⟩
  show decodeK (encodeK (Instr.holdK)) = _
  rw [h0]
  have hu : 0x040000 = u := h0
  have he : u / 2 ^ 18 = 0x01 := by omega
  have hc : u % 262144 = 0 := by omega
  unfold decodeK
  rw [he]
  show (if u % 262144 = 0 then Sys2Proof.chk Instr.holdK else .error .reserved) = _
  rw [if_pos hc]
  exact if_pos hw

theorem holdE : Statement (Instr.holdE) := by
  intro k hk hw
  cases hk
  obtain ⟨u, h0⟩ : ∃ u, encodeE (Instr.holdE) = u := ⟨_, rfl⟩
  show decodeE (encodeE (Instr.holdE)) = _
  rw [h0]
  have hu : 0x01000000 = u := h0
  have he : u / 2 ^ 24 = 0x01 := by omega
  have hc : u % 16777216 = 0 := by omega
  unfold decodeE
  rw [he]
  show (if u % 16777216 = 0 then Sys2Proof.chk Instr.holdE else .error .reserved) = _
  rw [if_pos hc]
  exact if_pos hw

theorem holdY : Statement (Instr.holdY) := by
  intro k hk hw
  cases hk
  obtain ⟨u, h0⟩ : ∃ u, encodeY (Instr.holdY) = u := ⟨_, rfl⟩
  show decodeY (encodeY (Instr.holdY)) = _
  rw [h0]
  have hu : 0x040000 = u := h0
  have he : u / 2 ^ 18 = 0x01 := by omega
  have hc : u % 262144 = 0 := by omega
  unfold decodeY
  rw [he]
  show (if u % 262144 = 0 then Sys2Proof.chk Instr.holdY else .error .reserved) = _
  rw [if_pos hc]
  exact if_pos hw

theorem gsetFl : Statement (Instr.gsetFl) := by
  intro k hk hw
  cases hk
  rfl

theorem phase : Statement (Instr.phase) := by
  intro k hk hw
  cases hk
  obtain ⟨u, h0⟩ : ∃ u, encodeY (Instr.phase) = u := ⟨_, rfl⟩
  show decodeY (encodeY (Instr.phase)) = _
  rw [h0]
  have hu : 0x400000 = u := h0
  have he : u / 2 ^ 18 = 0x10 := by omega
  have hc : u % 262144 = 0 := by omega
  unfold decodeY
  rw [he]
  show (if u % 262144 = 0 then Sys2Proof.chk Instr.phase else .error .reserved) = _
  rw [if_pos hc]
  exact if_pos hw

theorem fence : Statement (Instr.fence) := by
  intro k hk hw
  cases hk
  obtain ⟨u, h0⟩ : ∃ u, encodeY (Instr.fence) = u := ⟨_, rfl⟩
  show decodeY (encodeY (Instr.fence)) = _
  rw [h0]
  have hu : 0x440000 = u := h0
  have he : u / 2 ^ 18 = 0x11 := by omega
  have hc : u % 262144 = 0 := by omega
  unfold decodeY
  rw [he]
  show (if u % 262144 = 0 then Sys2Proof.chk Instr.fence else .error .reserved) = _
  rw [if_pos hc]
  exact if_pos hw

theorem ckpt : Statement (Instr.ckpt) := by
  intro k hk hw
  cases hk
  obtain ⟨u, h0⟩ : ∃ u, encodeY (Instr.ckpt) = u := ⟨_, rfl⟩
  show decodeY (encodeY (Instr.ckpt)) = _
  rw [h0]
  have hu : 0x480000 = u := h0
  have he : u / 2 ^ 18 = 0x12 := by omega
  have hc : u % 262144 = 0 := by omega
  unfold decodeY
  rw [he]
  show (if u % 262144 = 0 then Sys2Proof.chk Instr.ckpt else .error .reserved) = _
  rw [if_pos hc]
  exact if_pos hw

theorem deferredTrap : Statement (Instr.deferredTrap) := fun _ h _ => nomatch h

theorem rollbackRestoreEnd : Statement (Instr.rollbackRestoreEnd) := fun _ h _ => nomatch h

theorem corePartEnd : Statement (Instr.corePartEnd) := fun _ h _ => nomatch h

theorem inboxpop : Statement (Instr.inboxpop) := fun _ h _ => nomatch h

theorem gwtlinc : Statement (Instr.gwtlinc) := fun _ h _ => nomatch h

theorem storeBufferDrain : Statement (Instr.storeBufferDrain) := fun _ h _ => nomatch h

theorem faultRecordDeferred : Statement (Instr.faultRecordDeferred) := fun _ h _ => nomatch h

theorem tinvAll : Statement (Instr.tinvAll) := fun _ h _ => nomatch h

theorem tinvComplete : Statement (Instr.tinvComplete) := fun _ h _ => nomatch h

theorem legdataRead : Statement (Instr.legdataRead) := fun _ h _ => nomatch h

theorem mmulStart : Statement (Instr.mmulStart) := fun _ h _ => nomatch h

theorem mmulComplete : Statement (Instr.mmulComplete) := fun _ h _ => nomatch h

theorem mcodeStart : Statement (Instr.mcodeStart) := fun _ h _ => nomatch h

theorem mcodeComplete : Statement (Instr.mcodeComplete) := fun _ h _ => nomatch h

theorem bfillStart : Statement (Instr.bfillStart) := fun _ h _ => nomatch h

theorem bfillComplete : Statement (Instr.bfillComplete) := fun _ h _ => nomatch h

theorem mdrainStart : Statement (Instr.mdrainStart) := fun _ h _ => nomatch h

theorem mdrainComplete : Statement (Instr.mdrainComplete) := fun _ h _ => nomatch h

theorem swapExchangeStart : Statement (Instr.swapExchangeStart) := fun _ h _ => nomatch h

theorem swapComplete : Statement (Instr.swapComplete) := fun _ h _ => nomatch h

theorem matrixTimelineStop : Statement (Instr.matrixTimelineStop) := fun _ h _ => nomatch h

theorem launchPacket : Statement (Instr.launchPacket) := fun _ h _ => nomatch h

theorem replay : Statement (Instr.replay) := fun _ h _ => nomatch h

theorem kill : Statement (Instr.kill) := fun _ h _ => nomatch h

theorem record : Statement (Instr.record) := fun _ h _ => nomatch h

theorem schedulerWindow : Statement (Instr.schedulerWindow) := fun _ h _ => nomatch h

theorem breakpoint : Statement (Instr.breakpoint) := fun _ h _ => nomatch h

theorem haltFlit : Statement (Instr.haltFlit) := fun _ h _ => nomatch h

theorem stopTick : Statement (Instr.stopTick) := fun _ h _ => nomatch h

theorem resumeAtTick : Statement (Instr.resumeAtTick) := fun _ h _ => nomatch h

theorem jobstepEnd : Statement (Instr.jobstepEnd) := fun _ h _ => nomatch h

theorem corestepAtTick : Statement (Instr.corestepAtTick) := fun _ h _ => nomatch h

theorem surveyPulse : Statement (Instr.surveyPulse) := fun _ h _ => nomatch h

theorem shadowTrigger : Statement (Instr.shadowTrigger) := fun _ h _ => nomatch h

theorem disciplineSend : Statement (Instr.disciplineSend) := fun _ h _ => nomatch h

theorem treeCheckDone : Statement (Instr.treeCheckDone) := fun _ h _ => nomatch h

theorem gatewayRun : Statement (Instr.gatewayRun) := fun _ h _ => nomatch h

theorem gatewayStop : Statement (Instr.gatewayStop) := fun _ h _ => nomatch h

theorem majorFrame : Statement (Instr.majorFrame) := fun _ h _ => nomatch h

theorem streamPoll : Statement (Instr.streamPoll) := fun _ h _ => nomatch h

theorem heartbeat : Statement (Instr.heartbeat) := fun _ h _ => nomatch h

theorem resetStream : Statement (Instr.resetStream) := fun _ h _ => nomatch h

theorem firmwareCoreRestart : Statement (Instr.firmwareCoreRestart) := fun _ h _ => nomatch h

theorem commandProcessorReset : Statement (Instr.commandProcessorReset) := fun _ h _ => nomatch h

theorem functionLevelReset : Statement (Instr.functionLevelReset) := fun _ h _ => nomatch h

theorem secondaryBusReset : Statement (Instr.secondaryBusReset) := fun _ h _ => nomatch h

theorem powerOn : Statement (Instr.powerOn) := fun _ h _ => nomatch h

theorem attestationReport : Statement (Instr.attestationReport) := fun _ h _ => nomatch h

theorem thermalThrottle : Statement (Instr.thermalThrottle) := fun _ h _ => nomatch h

theorem thermalThrottleEnd : Statement (Instr.thermalThrottleEnd) := fun _ h _ => nomatch h

theorem breakpointTakesEffect : Statement (Instr.breakpointTakesEffect) := fun _ h _ => nomatch h

end Sys2Proof.Laws.RoundTrip
end

