-- ==== Sys2Proof/Safety.lean ====
section
/-! DEFINITION. The terms in which claims are made: what a safe run is, the invariant of the machine, when an operation
stands ready at its core, and tables of results written apart from the meanings. -/

namespace Sys2Proof.Machine

/-- `t` comes from `s` by steps that each answer a next state. -/
inductive Reaches : State → State → Prop
  | refl (s : State) : Reaches s s
  | onward {s t u : State} : Reaches s t → step t = .next u → Reaches s u

/-- A run from `s` is safe: no state on it stops. -/
def Safe (s : State) : Prop := ∀ t, Reaches s t → ∃ u, step t = .next u

/-- Operations that stand in a bundle's slot (03 R92 to R97): they act on the core of the focus. Every other constructor is
an event of the part. -/
def isSlotOp (i : Instr) : Bool := (classOf i).isSome

/-- Slot operations that reach beyond their core in their own execution: the global accesses of helpers and gateways
(04 R122 to R125), and MFC and MTC, which name a gateway's BQTAKE and GWTLINC (17 R416). -/
def reachesOut : Instr → Bool
  | .gld _ _ _ _ => true
  | .gst _ _ _ _ => true
  | .gatom _ _ _ _ _ => true
  | .cinv _ _ => true
  | .cclean _ _ => true
  | .mfc _ _ => true
  | .mtc _ _ => true
  | _ => false

/-- The focus names core `c`, and the operation may be issued there by this context (03 R98). -/
abbrev Ready (i : Instr) (s : State) (c : Core) : Prop := s.core s.focus.core = some c ∧ legal s.focus c i = true

/-- The state with core `d` in the place of the focus's. -/
def State.withCore (s : State) (d : Core) : State := s.setCore s.focus.core d

/-- Wherever the operation stands ready and `P` holds, it answers the state in which its core is as `f` says and nothing
else has changed. -/
def DoesWhen (i : Instr) (P : Focus → Core → Prop) (f : Focus → Core → Core) : Prop :=
  ∀ (s : State) (c : Core), Ready i s c → P s.focus c → exec i s = .next (s.withCore (f s.focus c))

/-- The same under no condition. -/
def Does (i : Instr) (f : Focus → Core → Core) : Prop := DoesWhen i (fun _ _ => True) f

/-- Whose operation it is. -/
abbrev ofPrim (fo : Focus) : Prop := fo.ctx = .prim
abbrev ofGate (fo : Focus) : Prop := fo.ctx = .gate
abbrev ofHelper (fo : Focus) (h : Nat) : Prop := fo.ctx = .helper h

/-- In the primary the operation, where `P` holds and the withhold buffer has no room for the effect `w`, traps WITHHOLD_OVF
(16 R384). -/
abbrev FullTraps (i : Instr) (P : Focus → Core → Prop) (w : Focus → Core → Wh) : Prop :=
  DoesWhen i (fun fo c => ofPrim fo ∧ P fo c ∧ fits c (w fo c) = false) (fun fo c => takeTrap fo cWITHHOLD 0 c)

/-- Banks an access of `n` bytes at `a` takes, and all of them free in this cycle (02 R61, R62). -/
def accBanks (a n : Nat) : List Nat := (partsOf a n).map (fun p => bankOf p.addr)
abbrev accFree (c : Core) (a n : Nat) : Prop := ∀ b ∈ accBanks a n, b ∉ c.cyc.turns

/-- The core with an access's banks taken for this cycle. -/
def accTake (c : Core) (a n : Nat) : Core :=
  { c with cyc := { c.cyc with turns := c.cyc.turns ++ accBanks a n, used := c.cyc.used ++ accBanks a n } }

/-- The core with bytes given to the write port of this cycle (04 R109). -/
def accWrite (c : Core) (l : List (Nat × List Byte)) : Core :=
  { c with cyc := { c.cyc with portWr := c.cyc.portWr ++ l } }

/-- The lane of the sort and sample unit is the operation's to take, and the core with it taken (12 R301). -/
abbrev laneFree (fo : Focus) (c : Core) : Prop :=
  (match fo.ctx with
    | .helper _ => true
    | _ => decide (c.p.kBusy = 0)) = true
def laneTake (i : Instr) (fo : Focus) (c : Core) : Core :=
  match fo.ctx with
  | .helper h => c.setHelper h { c.helper h with kBusy := kOcc i }
  | _ => { c with p := { c.p with kBusy := kOcc i } }

/-- Every vector operand of the operation is in the grid. -/
def gridOnly (i : Instr) : Bool := (vFields i).1.all (fun f => f.toNat < 256) && (vFields i).2.all (fun f => f.toNat < 256)

/-- What a V-class operation on grid operands brings about, from the registers as they stand (10 R259 to R283). -/
def gridEffs (i : Instr) (fo : Focus) (c : Core) : Flags × List Eff :=
  let f := vXYD i
  let dst := match vDst i with
    | some d => VDst.grid d.toNat
    | none => .grid 0
  let w := match tapReg i with
    | some r => rdS fo c r
    | none => 0
  vecEffs c i dst (rdP c (vPred i)) w fo.jobt fo.bundle (qSrcs c i) (srcVec c f.1) (srcVec c f.2.1) (srcVec c f.2.2)

/-- Cycles from issue to landing of such an operation: its latency, and the added beats of its reads (02 R47). -/
def gridAfter (i : Instr) (fo : Focus) : Nat := latV i + (if (gridReads i).isEmpty then 0 else fo.beats - 1)

/-- No unit of the operation is busy, its tap word passes and its stores have room in the withhold buffer. -/
abbrev vClear (i : Instr) (fo : Focus) (c : Core) : Prop :=
  let w := match tapReg i with
    | some r => rdS fo c r
    | none => 0
  vBusy fo c i = false ∧ ((tapReg i).isSome → tapCheck c w = none) ∧
    c.storeUse + vNeed c i (match vDst i with
      | some d => fDst fo c d
      | none => .grid 0) w ≤ 256

/-- A number as a word, and an integer as a word. -/
def wN (n : Nat) : Word := BitVec.ofNat 64 n
def wI (i : Int) : Word := BitVec.ofInt 64 i

/-- A word given bit by bit. -/
def wBits (f : Nat → Bool) : Word := BitVec.ofFnLE (fun k : Fin 64 => f k.val)

/-- Latency, destination and value of the integer operations (09 R241, R242), as arithmetic on numbers. -/
def intResult (fo : Focus) (c : Core) (i : Instr) : Option (Nat × Nat × Word) :=
  let n (r : BitVec 6) : Nat := (rdS fo c r.toNat).toNat
  let z (r : BitVec 6) : Int := (rdS fo c r.toNat).toInt
  let b (r : BitVec 6) (k : Nat) : Bool := (rdS fo c r.toNat).getLsbD k
  match i with
  | .add d x y => some (1, d.toNat, wN (n x + n y))
  | .sub d x y => some (1, d.toNat, wI (z x - z y))
  | .addi d x k => some (1, d.toNat, wI (z x + k.toInt))
  | .addsh d x y k => some (1, d.toNat, wN (n x * 2 ^ k.toNat + n y))
  | .mul d x y => some (3, d.toNat, wI (z x * z y))
  | .mulh d x y => some (3, d.toNat, wI (z x * z y / 2 ^ 64))
  | .mulhn d x y => some (3, d.toNat, wN (n x * n y / 2 ^ 64))
  | .div d x y => some (18, d.toNat, if n y = 0 then wN (2 ^ 64 - 1) else wI ((z x).tdiv (z y)))
  | .divn d x y => some (18, d.toNat, if n y = 0 then wN (2 ^ 64 - 1) else wN (n x / n y))
  | .and d x y => some (1, d.toNat, wBits (fun k => b x k && b y k))
  | .or d x y => some (1, d.toNat, wBits (fun k => b x k || b y k))
  | .xor d x y => some (1, d.toNat, wBits (fun k => b x k != b y k))
  | .andn d x y => some (1, d.toNat, wBits (fun k => b x k && !b y k))
  | .andi d x v => some (1, d.toNat, wBits (fun k => b x k && v.getLsbD k))
  | .ori d x v => some (1, d.toNat, wBits (fun k => b x k || v.getLsbD k))
  | .xori d x v => some (1, d.toNat, wBits (fun k => b x k != v.getLsbD k))
  | .shl d x y => some (1, d.toNat, wN (n x * 2 ^ (n y % 64)))
  | .shr d x y => some (1, d.toNat, wN (n x / 2 ^ (n y % 64)))
  | .sar d x y => some (1, d.toNat, wI (z x / 2 ^ (n y % 64)))
  | .rol d x y => some (1, d.toNat, wN (n x * 2 ^ (n y % 64) % 2 ^ 64 + n x / 2 ^ (64 - n y % 64)))
  | .shli d x k => some (1, d.toNat, wN (n x * 2 ^ k.toNat))
  | .shri d x k => some (1, d.toNat, wN (n x / 2 ^ k.toNat))
  | .sari d x k => some (1, d.toNat, wI (z x / 2 ^ k.toNat))
  | .cmp d x y u => some (1, d.toNat,
      if u = 1 then (if n x < n y then wI (-1) else if n x = n y then wI 0 else wI 1)
      else (if z x < z y then wI (-1) else if z x = z y then wI 0 else wI 1))
  | .cmpi d x k => some (1, d.toNat, if z x < k.toInt then wI (-1) else if z x = k.toInt then wI 0 else wI 1)
  | .min d x y => some (1, d.toNat, wI (min (z x) (z y)))
  | .max d x y => some (1, d.toNat, wI (max (z x) (z y)))
  | .minn d x y => some (1, d.toNat, wN (min (n x) (n y)))
  | .maxn d x y => some (1, d.toNat, wN (max (n x) (n y)))
  | .sel d x y k => some (1, d.toNat, if n k = 0 then wN (n y) else wN (n x))
  | .movi d k => some (1, d.toNat, wI k.toInt)
  | .lui d k => some (1, d.toNat, wN (n d * 2 ^ 18 + k.toNat))
  | .clz d x => some (1, d.toNat, wN ((List.range 64).reverse.takeWhile (fun k => !b x k)).length)
  | .ctz d x => some (1, d.toNat, wN ((List.range 64).takeWhile (fun k => !b x k)).length)
  | .popc d x => some (1, d.toNat, wN ((List.range 64).countP (fun k => b x k)))
  | .bfx d x p l => some (1, d.toNat, wBits (fun k => k ≤ l.toNat && b x (p.toNat + k)))
  | .bfi d x p l => some (1, d.toNat, wBits (fun k =>
      if p.toNat ≤ k ∧ k ≤ p.toNat + l.toNat then b x (k - p.toNat) else b d k))
  | _ => none

/-- Latency, destination, value and flags of the scalar floating-point operations (09 R244, R245). -/
def fpResult (fo : Focus) (c : Core) (i : Instr) : Option (Nat × Nat × Nat × Flags) :=
  let n (r : BitVec 6) : Nat := (rdS fo c r.toNat).toNat % 2 ^ 32
  let of (lat : Nat) (d : BitVec 6) (r : Nat × Flags) : Option (Nat × Nat × Nat × Flags) := some (lat, d.toNat, r.1, r.2)
  match i with
  | .fadd d x y => of 4 d (fpAdd fmt32 (n x) (n y))
  | .fsub d x y => of 4 d (fpSub fmt32 (n x) (n y))
  | .fmul d x y => of 4 d (fpMul fmt32 (n x) (n y))
  | .fma d x y z => of 4 d (fpFma fmt32 false (n x) (n y) (n z))
  | .fmin d x y => of 1 d (fpMin fmt32 (n x) (n y), 0)
  | .fmax d x y => of 1 d (fpMax fmt32 (n x) (n y), 0)
  | .fcmp d x y k => of 1 d (b2n (fpRel k.toNat (v32 (n x)) (v32 (n y))), 0)
  | .fcvt d x r k =>
    let v := fcvtW (r = 1) k.toNat (rdS fo c x.toNat)
    of 2 d (v.1.toNat, v.2)
  | _ => none

/-- The state's memory is canonical, and the part has its sixteen launch contexts (00 R1). -/
def State.inv (s : State) : Prop := Memory.wf s.mem = true ∧ s.jobs.length = 16

end Sys2Proof.Machine
end

