-- ==== Sys2Proof/Certificates/Slice0/Obligations.lean ====
section
/-! DEFINITION. The statements for the provers. -/

open Sys2Proof Sys2Proof.Machine

/-- Decoding what the encoder writes for a well-formed instruction gives the instruction back. For every instruction of a
slot that is well formed, with every operand at every value its fields admit, the word the encoder writes decodes to
that instruction in its class; of every other constructor, which stands for an event and has no word, nothing is said.
(R92, R94, R95, R96, R97, R98, R250, R254) -/
def Obligations.EncodeThenDecode : Prop :=
  ∀ i : Instr, Laws.RoundTrip.Statement i

/-- Words written out from the encodings decode to the instructions they stand for. Words of the I, M, V, K, E and Y
classes written out bit by bit from the encodings of 03 and from the worked words of 09, 04 and 10 decode to the
instructions they stand for, and the HOLD word of each class to HOLD. (R92, R93, R94, R95, R96, R97, R246, R252, R254,
R256) -/
def Obligations.WordsDecodeAsWritten : Prop :=
  decodeSlot .I 0x10103040 = .ok (.add 4 3 1) ∧
  decodeSlot .I 0x12041001 = .ok (.addi 1 1 1) ∧
  decodeSlot .I 0x51080010 = .ok (.mtc 2 0x10) ∧
  decodeSlot .I 0x5D03FFFF = .ok (.loop 0 (-1)) ∧
  decodeSlot .I 0x5E044002 = .ok (.rep 1 1 2) ∧
  decodeSlot .I 0x5A13FFFD = .ok (.brnz 4 (-3)) ∧
  decodeSlot .I 0x5F000000 = .ok (.halt 0) ∧
  decodeSlot .I 0x38080000 = .ok (.movi 2 0) ∧
  decodeSlot .M 0x18061100 = .ok (.vld 12 2 1 0) ∧
  decodeSlot .M 0x111C6C00 = .ok (.st 7 6 3 0) ∧
  decodeSlot .V 0x1020280685 = .ok (.vadd 1 0 10 3 133) ∧
  decodeSlot .Y 0x108002 = .ok (.fwait 4 2) ∧
  decodeSlot .I 0x01000000 = .ok .holdI ∧ decodeSlot .M 0x01000000 = .ok .holdM ∧ decodeSlot .V 0x0100000000 = .ok .holdV ∧
  decodeSlot .K 0x040000 = .ok .holdK ∧ decodeSlot .E 0x01000000 = .ok .holdE ∧ decodeSlot .Y 0x040000 = .ok .holdY ∧
  decodeSlot .I 0 = .ok .nilI ∧ decodeSlot .M 0 = .ok .nilM ∧ decodeSlot .V 0 = .ok .nilV ∧
  decodeSlot .K 0 = .ok .nilK ∧ decodeSlot .E 0 = .ok .nilE ∧ decodeSlot .Y 0 = .ok .nilY

/-- Integer operations: destination, latency and value, and nothing else changes. Wherever one of the forty integer
operations stands ready, it answers the state in which one result is added to the results on their way: its
destination, its latency and its value are those of the table intResult of Safety, which computes them as arithmetic
on numbers; no other part of the state changes. (R240, R241, R242, R98) -/
def Obligations.IntegerResults : Prop :=
  ∀ (i : Instr) (s : State) (c : Core) (lat d : Nat) (v : Word), Ready i s c → intResult s.focus c i = some (lat, d, v) →
    exec i s = .next (s.withCore (retireS s.focus lat 0 d v c))

/-- Scalar floating-point operations: destination, latency, value and flags, and nothing else changes. Wherever FADD,
FSUB, FMUL, FMA, FMIN, FMAX, FCMP or FCVT stands ready, it answers the state in which one result is added to the
results on their way: its destination, latency, value and flags are those of the table fpResult of Safety, over the
low 32 bits of its sources; no other part of the state changes. (R244, R245, R198, R199, R200) -/
def Obligations.FloatResults : Prop :=
  ∀ (i : Instr) (s : State) (c : Core) (lat d v : Nat) (fl : Flags), Ready i s c → fpResult s.focus c i = some (lat, d, v, fl) →
    exec i s = .next (s.withCore (retireS s.focus lat fl d (wN v) c))

/-- ADDA, MVA, MVS, SPLD and SPST: what each writes, and nothing else changes. ADDA retires a[x] plus the signed immediate
modulo 2^32 to a[d]; MVA the low 32 bits of s[x] to a[d]; MVS a[x] zero-extended to s[d]; SPLD the doubleword of spill
memory as the primary sees it, withheld stores included; SPST withholds its store when the withhold buffer has room.
Nothing else changes. (R243, R117, R65, R111, R112, R384) -/
def Obligations.PointersAndSpill : Prop :=
  (∀ (d x : BitVec 4) (im : BitVec 12), Does (.adda d x im) (fun fo c =>
    retire fo 1 0 [.areg d.toNat (BitVec.ofInt 32 ((rdA fo c x.toNat).toNat + im.toInt))] c)) ∧
  (∀ (d : BitVec 4) (x : BitVec 6), Does (.mva d x) (fun fo c =>
    retire fo 1 0 [.areg d.toNat (BitVec.ofNat 32 ((rdS fo c x.toNat).toNat % 2 ^ 32))] c)) ∧
  (∀ (d : BitVec 6) (x : BitVec 4), Does (.mvs d x) (fun fo c => retireS fo 1 0 d.toNat (wN (rdA fo c x.toNat).toNat) c)) ∧
  (∀ (d : BitVec 6) (o : BitVec 12), Does (.spld d o) (fun fo c => retireS fo 1 0 d.toNat (rdSpill c o.toNat) c)) ∧
  (∀ (d : BitVec 6) (o : BitVec 12), DoesWhen (.spst d o) (fun fo c => fits c (.spill o.toNat (rdS fo c d.toNat)) = true)
    (fun fo c => { c with newWith := c.newWith ++ [⟨ordOf fo c, .spill o.toNat (rdS fo c d.toNat)⟩] }))

/-- MFC and RDT return control registers and clocks as they stood at the start of the cycle. MFC retires the control
register with latency 1; a register listed in the view that the beginning of the cycle takes reads as the view has it,
whatever an earlier slot did since; the counters, statuses and records that change within a cycle are all in it. A
read of INBOXPOP also retires its removal: of the oldest entry in helper 9, of none elsewhere; a gateway reading
BQTAKE takes the next index as an event of the same cycle. HID is 15 in the primary and the own number in a helper.
RDT retires JOBTIME, the graticule counter or the count of bundles issued. Nothing else changes. (R246, R247, R248,
R249, R234, R416) -/
def Obligations.ControlReads : Prop :=
  (∀ (d : BitVec 6) (n : BitVec 12), n.toNat ≠ 0x600 → Does (.mfc d n) (fun fo c =>
    if n.toNat = 0x21 then retire fo 1 0 [.inboxPop (if fo.ctx = .helper 9 then c.inbox.head? else none)]
      (retireS fo 1 0 d.toNat (mfcVal fo c n.toNat) c)
    else retireS fo 1 0 d.toNat (mfcVal fo c n.toNat) c)) ∧
  (∀ (d : BitVec 6) (s : State) (c : Core), Ready (.mfc d 0x600) s c →
    exec (.mfc d 0x600) s = .next { s with agenda := .event s.focus.core (.bqtake (s.focus.core - 512) d.toNat) :: s.agenda }) ∧
  (∀ (fo : Focus) (c : Core), c.cyc.view = [] →
    mfcVal fo c 0 = c.taskid ∧ mfcVal fo c 1 = wN c.num ∧ mfcVal fo c 2 = wN c.lctx ∧
    (fo.ctx = .prim → mfcVal fo c 3 = 15) ∧ (∀ h, fo.ctx = .helper h → mfcVal fo c 3 = wN h) ∧
    (∀ k, k < 4 → mfcVal fo c (0x10 + k) = wN (spGet 0 c.p.lc k).toNat) ∧
    (∀ h, h < 10 → mfcVal fo c (0x60 + h) = (c.helper h).trapv) ∧
    (∀ k, k < 4 → mfcVal fo c (0x300 + k) = c.seqmask.getD k 0) ∧
    mfcVal fo c 0x502 = c.trapRec0 ∧ mfcVal fo c 0x503 = c.trapRec1 ∧ mfcVal fo c 0x504 = c.trapRec2) ∧
  (∀ (fo : Focus) (c : Core) (n : Nat) (v : Word), c.cyc.view.find? (fun e => e.1 = n) = some (n, v) → mfcVal fo c n = v) ∧
  (∀ (s : State) (num jobt gate n : Nat) (c : Core) (fences : List Nat),
    let d := s.cycleView num jobt c fences gate
    let e := { c with gate := gate, cyc := { c.cyc with view := [] } }
    ((0x10 ≤ n ∧ n ≤ 0x13) ∨ n = 0x18 ∨ n = 0x19 ∨ n = 0x1B ∨ n = 0x1D ∨ n = 0x101 ∨ n = 0x200 ∨ n = 0x400 ∨ (0x500 ≤ n ∧ n ≤ 0x504)) →
      ∀ fo : Focus, fo.ctx = .prim → mfcVal fo { c with cyc := { c.cyc with view := d.cyc.view } } n = mfcVal fo e n) ∧
  (∀ (d f : BitVec 6), Does (.rdt d f) (fun fo c => retireS fo 1 0 d.toNat (wN (
    if f = 0 then fo.jobt else if f = 1 then fo.grat else match fo.ctx with
      | .helper h => (c.helper h).iss % 2 ^ 32
      | _ => c.p.iss)) c))

/-- MTC: counters and FPSTAT in the issue cycle, every other register withheld; what some writes do when they take effect.
MTC to FPSTAT retires the clearing of the flags named; to LCNT0-LCNT3 the low 32 bits of the register; to the gateway
register 0x601 an event of the same cycle; to any other register a withheld write when the withhold buffer has room.
When it takes effect, a write of HCTL frees a trapped helper whose bit is 1, of KTRAP takes bit 0, of SOFTCNT the low
32 bits, of SEQMASK clears the bits that are 1, of a read-only register changes nothing. (R246, R247, R200, R225,
R391, R320, R351, R416) -/
def Obligations.ControlWrites : Prop :=
  (∀ (d : BitVec 6), Does (.mtc d 4) (fun fo c => retire fo 1 0
    [.fpClear (BitVec.ofNat 6 (rdS fo c d.toNat).toNat), .fpClearM (BitVec.ofNat 6 ((rdS fo c d.toNat).toNat / 256))] c)) ∧
  (∀ (d : BitVec 6) (n : BitVec 12), 0x10 ≤ n.toNat → n.toNat ≤ 0x13 → Does (.mtc d n) (fun fo c =>
    retire fo 1 0 [.lcnt (n.toNat - 0x10) (BitVec.ofNat 32 (rdS fo c d.toNat).toNat)] c)) ∧
  (∀ (d : BitVec 6) (s : State) (c : Core), Ready (.mtc d 0x601) s c →
    exec (.mtc d 0x601) s = .next { s with agenda := .event s.focus.core .gwtlinc :: s.agenda }) ∧
  (∀ (d : BitVec 6) (n : BitVec 12), n.toNat ≠ 4 → ¬(0x10 ≤ n.toNat ∧ n.toNat ≤ 0x13) → n.toNat ≠ 0x601 →
    DoesWhen (.mtc d n) (fun fo c => fits c (.mtc n.toNat (rdS fo c d.toNat)) = true)
      (fun fo c => { c with newWith := c.newWith ++ [⟨ordOf fo c, .mtc n.toNat (rdS fo c d.toNat)⟩] })) ∧
  (∀ (v : Word) (c : Core),
    (applyMtc 0x100 v c).ktrap = v.getLsbD 0 ∧ (applyMtc 0x501 v c).softcnt = v.toNat % 2 ^ 32 ∧
    (∀ k, k < 4 → c.seqmask.length = 4 → (applyMtc (0x300 + k) v c).seqmask.getD k 0 = c.seqmask.getD k 0 &&& ~~~v) ∧
    (applyMtc 0x1E v c).fnen = v.getLsbD 15 ∧
    (∀ h, h < 10 → h < c.helpers.length → v.getLsbD h = true → (c.helper h).st = .trapped →
      (applyMtc 0x1E v c).helper h = { c.helper h with st := .released }) ∧
    (∀ h, v.getLsbD h = false ∨ (c.helper h).st ≠ .trapped → (applyMtc 0x1E v c).helper h = c.helper h) ∧ applyMtc 0 v c = c ∧ applyMtc 1 v c = c ∧ applyMtc 0x502 v c = c)

/-- BR, BRZ, BRNZ, JMP, CALL and LOOP: when each is taken, where to, and what it writes. A taken transfer sets the target,
which is the bundle address plus the signed offset or, for JMP, the register: after the delay slot in a primary or
gateway, at once in a helper. BR tests its predicate: always, some lane, every lane, no lane. CALL also retires the
return address, P + 2 to s63 or P + 1 to x31. LOOP takes one from a counter that is not zero and is taken when it read
at least 2. An untaken BR, BRZ, BRNZ changes nothing. (R251, R252, R253, R82, R414) -/
def Obligations.TransfersOfControl : Prop :=
  (∀ (k p : BitVec 2) (o : BitVec 18), Does (.br k p o) (fun fo c =>
    if (k = 0 ∨ k = 1 ∧ rdP c p.toNat ≠ 0 ∨ k = 2 ∧ rdP c p.toNat = BitVec.allOnes 64 ∨ k = 3 ∧ rdP c p.toNat = 0)
    then goTo fo (fo.bundle + o.toInt).toNat c else c)) ∧
  (∀ (x : BitVec 6) (o : BitVec 18), Does (.brz x o) (fun fo c =>
    if rdS fo c x.toNat = 0 then goTo fo (fo.bundle + o.toInt).toNat c else c)) ∧
  (∀ (x : BitVec 6) (o : BitVec 18), Does (.brnz x o) (fun fo c =>
    if rdS fo c x.toNat = 0 then c else goTo fo (fo.bundle + o.toInt).toNat c)) ∧
  (∀ (x : BitVec 6), DoesWhen (.jmp x) (fun fo c => (rdS fo c x.toNat).toNat < codeSize fo)
    (fun fo c => goTo fo (rdS fo c x.toNat).toNat c)) ∧
  (∀ (x : BitVec 6), DoesWhen (.jmp x) (fun fo c => codeSize fo ≤ (rdS fo c x.toNat).toNat)
    (fun fo c => takeTrap fo cJUMPRANGE 0 c)) ∧
  (∀ (o : BitVec 18), DoesWhen (.call o) (fun fo _ => ofPrim fo ∨ ofGate fo) (fun fo c =>
    goTo fo (fo.bundle + o.toInt).toNat (retireS fo 1 0 63 (wN (fo.bundle + 2)) c))) ∧
  (∀ (o : BitVec 18) (h : Nat), DoesWhen (.call o) (fun fo _ => ofHelper fo h) (fun fo c =>
    goTo fo (fo.bundle + o.toInt).toNat (retireS fo 1 0 31 (wN (fo.bundle + 1)) c))) ∧
  (∀ (l : BitVec 2) (o : BitVec 18), Does (.loop l o) (fun fo c =>
    let v := (spGet 0 c.p.lc l.toNat).toNat
    let c1 := if v = 0 then c else retire fo 1 0 [.lcnt l.toNat (BitVec.ofNat 32 (v - 1))] c
    if v < 2 then c1 else goTo fo (fo.bundle + o.toInt).toNat c1)) ∧
  (∀ (fo : Focus) (t : Nat) (c : Core), (ofPrim fo ∨ ofGate fo → goTo fo t c = { c with cyc := { c.cyc with taken := some t } }) ∧
    (∀ h, ofHelper fo h → goTo fo t c = c.setHelper h { c.helper h with next := some t }))

/-- REP, HALT, START and TRAP: what each begins or stops. REP sets the repetition of this cycle: body from the next
bundle, n bundles, count passes, rotation rot, ordinary stream after the body. HALT of a primary or gateway notes its
mask, which counts at the end of the cycle; of a helper, it retires its halt with the issue cycle. Nothing else
changes. START names helper h, entry and the register value: withheld when the helper is free, no other START of the
open region names it and the buffer has room; HELPER_BUSY otherwise. TRAP takes the trap whose cause is its immediate:
in the primary, with rollback and the register value in the record; in a helper, precisely, the register value in
HTRAPV. (R254, R256, R224, R226, R223, R257, R258, R386, R391, R100) -/
def Obligations.RepetitionAndHalt : Prop :=
  ((∀ (r : BitVec 6) (n : BitVec 4) (k : BitVec 14), Does (.rep r n k) (fun fo c => { c with cyc := { c.cyc with
    repNew := some { body := fo.bundle + 1, n := n.toNat + 1, count := k.toNat + 1, rot := r.toNat, j := 0, b := 0,
                     o := fo.bundle + 1 + (n.toNat + 1) } } })) ∧
  (∀ (m : BitVec 4), DoesWhen (.halt m) (fun fo _ => ofPrim fo ∨ ofGate fo) (fun _ c =>
    { c with cyc := { c.cyc with halt := some m.toNat } })) ∧
  (∀ (m : BitVec 4) (h : Nat), DoesWhen (.halt m) (fun fo _ => ofHelper fo h) (fun fo c => retire fo 1 0 [.haltH h] c)) ∧
  (∀ (e : Pend) (c : Core) (h : Nat), h < c.helpers.length →
    ((landEff e c (.haltH h)).helper h).st = .halted ∧ ((landEff e c (.haltH h)).helper h).x = [] ∧
    (∀ k, k ≠ h → (landEff e c (.haltH h)).helper k = c.helper k))) ∧
  ((∀ (d : BitVec 6) (h : BitVec 4) (e : BitVec 14), DoesWhen (.start d h e)
    (fun fo c => freeState (c.helper h.toNat) = true ∧ startHeld h.toNat (c.withheld ++ c.newWith) = false ∧
      fits c (.start h.toNat e.toNat (rdS fo c d.toNat)) = true)
    (fun fo c => { c with newWith := c.newWith ++ [⟨ordOf fo c, .start h.toNat e.toNat (rdS fo c d.toNat)⟩] })) ∧
  (∀ (d : BitVec 6) (h : BitVec 4) (e : BitVec 14), DoesWhen (.start d h e)
    (fun _ c => freeState (c.helper h.toNat) = false ∨ startHeld h.toNat (c.withheld ++ c.newWith) = true)
    (fun fo c => takeTrap fo cHELPERBUSY 0 c)) ∧
  (∀ (d : BitVec 6) (k : BitVec 8), DoesWhen (.trap d k) (fun fo _ => ofPrim fo) (fun fo c =>
    primTrap k.toNat fo.slot fo.bundle (rdS fo c d.toNat) fo.jobt c)) ∧
  (∀ (d : BitVec 6) (k : BitVec 8) (h : Nat) (s : State) (c : Core), Ready (.trap d k) s c → ofHelper s.focus h →
    h < c.helpers.length → c.run ≠ .halted → ∃ e : Core, exec (.trap d k) s = .next (s.withCore e) ∧
      (e.helper h).st = .trapped ∧ (e.helper h).cause = k.toNat ∧ (e.helper h).pc = s.focus.bundle ∧
      (e.helper h).trapv = rdS s.focus c d.toNat ∧ (e.helper h).x = (c.helper h).x ∧ e.p = c.p))

/-- TAKEM returns a present mailbox value and takes it; of an absent one it returns 0 and changes nothing. Where the
mailbox is present as the context sees it, the value is retired with latency 1; a helper clears it at the end of the
cycle, the primary withholds the clear and marks the mailbox taken. Where it is absent, or already taken by the
primary in the open region, 0 is retired and nothing else changes. The clear, with no held arrival for the mailbox in
the inbox, leaves it absent and every other mailbox as before. (R250, R55, R231, R232) -/
def Obligations.TakeMailbox : Prop :=
  (∀ (d : BitVec 6) (m : BitVec 5), DoesWhen (.takem d m) (fun _ c => mbPresent c m.toNat = false)
    (fun fo c => retireS fo 1 0 d.toNat 0 c)) ∧
  (∀ (d : BitVec 6) (m : BitVec 5) (h : Nat), DoesWhen (.takem d m)
    (fun fo c => ofHelper fo h ∧ mbPresent c m.toNat = true)
    (fun fo c => retire fo 1 0 [.take m.toNat] (retireS fo 1 0 d.toNat (spGet ((0 : Word), false) c.mb m.toNat).1 c))) ∧
  (∀ (d : BitVec 6) (m : BitVec 5), DoesWhen (.takem d m)
    (fun fo c => ofPrim fo ∧ mbPresent c m.toNat = true ∧ fits c (.takem m.toNat) = true)
    (fun fo c =>
      let c1 := retireS fo 1 0 d.toNat (spGet ((0 : Word), false) c.mb m.toNat).1 c
      { c1 with p := { c1.p with marks := c1.p.marks ++ [m.toNat] }, newWith := c1.newWith ++ [⟨ordOf fo c, .takem m.toNat⟩] })) ∧
  (∀ (c : Core) (m : Nat), m ∈ c.p.marks → mbPresent c m = false) ∧
  (∀ (e : Pend) (c : Core) (m : Nat), (∀ x ∈ c.inbox, x.1 ≠ m) →
    (spGet ((0 : Word), false) (landEff e c (.take m)).mb m).2 = false ∧
    ∀ k, k ≠ m → spGet ((0 : Word), false) (landEff e c (.take m)).mb k = spGet ((0 : Word), false) c.mb k)

/-- LD and LDACQ: the value of the local bytes at the address, or the wait for their bank. At an aligned address in range,
an LD or LDACQ whose bank is free takes the bank and retires, with latency 4, the little-endian value of the bytes as
the context sees them; with its bank taken it goes on seeking. At a misaligned address or one out of range it takes
the trap, with the address. The address is (x + imm10 x width) modulo 2^32. (R115, R116, R16, R61, R62, R110, R112) -/
def Obligations.ScalarLoads : Prop :=
  (∀ (d x : BitVec 6) (w : BitVec 2) (im : BitVec 10),
    DoesWhen (.ld d x w im) (fun fo c => addrTrap fo c (localAddr fo c x w.toNat im) (2 ^ w.toNat) (2 ^ w.toNat) = none ∧
      accFree c (localAddr fo c x w.toNat im) (2 ^ w.toNat))
      (fun fo c => retireS fo 4 0 d.toNat (wN (leNat (spBytes fo c (localAddr fo c x w.toNat im) (2 ^ w.toNat))))
        (accTake c (localAddr fo c x w.toNat im) (2 ^ w.toNat)))) ∧
  (∀ (d x : BitVec 6) (im : BitVec 10),
    DoesWhen (.ldacq d x im) (fun fo c => addrTrap fo c (localAddr fo c x 3 im) 8 8 = none ∧ accFree c (localAddr fo c x 3 im) 8)
      (fun fo c => retireS fo 4 0 d.toNat (wN (leNat (spBytes fo c (localAddr fo c x 3 im) 8)))
        (accTake c (localAddr fo c x 3 im) 8))) ∧
  (∀ (d x : BitVec 6) (w : BitVec 2) (im : BitVec 10),
    DoesWhen (.ld d x w im) (fun fo c => addrTrap fo c (localAddr fo c x w.toNat im) (2 ^ w.toNat) (2 ^ w.toNat) = none ∧
      ¬accFree c (localAddr fo c x w.toNat im) (2 ^ w.toNat))
      (fun fo c => addFlight (mkFlight (.ld d x w im) fo c [mkAcc 0 (localAddr fo c x w.toNat im) (2 ^ w.toNat)] 4) c)) ∧
  (∀ (d x : BitVec 6) (im : BitVec 10),
    DoesWhen (.ldacq d x im) (fun fo c => addrTrap fo c (localAddr fo c x 3 im) 8 8 = none ∧
      ¬accFree c (localAddr fo c x 3 im) 8)
      (fun fo c => addFlight (mkFlight (.ldacq d x im) fo c [mkAcc 0 (localAddr fo c x 3 im) 8] 4) c)) ∧
  (∀ (d x : BitVec 6) (w : BitVec 2) (im : BitVec 10) (k v : Nat), DoesWhen (.ld d x w im)
    (fun fo c => addrTrap fo c (localAddr fo c x w.toNat im) (2 ^ w.toNat) (2 ^ w.toNat) = some (k, v))
    (fun fo c => takeTrap fo k (wN v) c)) ∧
  (∀ (d x : BitVec 6) (im : BitVec 10) (k v : Nat), DoesWhen (.ldacq d x im)
    (fun fo c => addrTrap fo c (localAddr fo c x 3 im) 8 8 = some (k, v)) (fun fo c => takeTrap fo k (wN v) c)) ∧
  (∀ (fo : Focus) (c : Core) (x : BitVec 6) (w : Nat) (im : BitVec 10),
    localAddr fo c x w im = (((rdS fo c x.toNat).toNat + im.toInt * 2 ^ w) % 2 ^ 32).toNat)

/-- ST and STREL: the low bytes of the register, withheld, through the port or at once; otherwise the trap. At an aligned
address in range the low bytes of the register, least significant first, are withheld by the primary when its buffer
has room, given to the write port of the bank in a helper when the bank is free, and, in a gateway, taken through its
one port and written at the end of the cycle. The stored bytes are those from the address computed, of the width;
nothing else of the state changes. At a misaligned address or one out of range the trap is taken. (R115, R116, R109,
R111, R384, R414, R110) -/
def Obligations.ScalarStores : Prop :=
  (∀ (d x : BitVec 6) (w : BitVec 2) (im : BitVec 10),
    DoesWhen (.st d x w im) (fun fo c => addrTrap fo c (localAddr fo c x w.toNat im) (2 ^ w.toNat) (2 ^ w.toNat) = none ∧
      ofPrim fo ∧ fits c (.store (localAddr fo c x w.toNat im) (leBytes (2 ^ w.toNat) (rdS fo c d.toNat).toNat)) = true)
      (fun fo c => { c with newWith := c.newWith ++
        [⟨ordOf fo c, .store (localAddr fo c x w.toNat im) (leBytes (2 ^ w.toNat) (rdS fo c d.toNat).toNat)⟩] })) ∧
  (∀ (d x : BitVec 6) (w : BitVec 2) (im : BitVec 10) (h : Nat),
    DoesWhen (.st d x w im) (fun fo c => addrTrap fo c (localAddr fo c x w.toNat im) (2 ^ w.toNat) (2 ^ w.toNat) = none ∧
      ofHelper fo h ∧ accFree c (localAddr fo c x w.toNat im) (2 ^ w.toNat))
      (fun fo c => retire fo 1 0 [] (accWrite (accTake c (localAddr fo c x w.toNat im) (2 ^ w.toNat))
        [(localAddr fo c x w.toNat im, leBytes (2 ^ w.toNat) (rdS fo c d.toNat).toNat)]))) ∧
  (∀ (d x : BitVec 6) (w : BitVec 2) (im : BitVec 10),
    DoesWhen (.st d x w im) (fun fo c => addrTrap fo c (localAddr fo c x w.toNat im) (2 ^ w.toNat) (2 ^ w.toNat) = none ∧
      ofGate fo)
      (fun fo c => retire fo 1 0 [.store (localAddr fo c x w.toNat im) (leBytes (2 ^ w.toNat) (rdS fo c d.toNat).toNat)]
        (gatePort c))) ∧
  (∀ (d x : BitVec 6) (im : BitVec 10),
    DoesWhen (.strel d x im) (fun fo c => addrTrap fo c (localAddr fo c x 3 im) 8 8 = none ∧ ofPrim fo ∧
      fits c (.store (localAddr fo c x 3 im) (leBytes 8 (rdS fo c d.toNat).toNat)) = true)
      (fun fo c => { c with newWith := c.newWith ++
        [⟨ordOf fo c, .store (localAddr fo c x 3 im) (leBytes 8 (rdS fo c d.toNat).toNat)⟩] })) ∧
  (∀ (d x : BitVec 6) (im : BitVec 10) (h : Nat),
    DoesWhen (.strel d x im) (fun fo c => addrTrap fo c (localAddr fo c x 3 im) 8 8 = none ∧ ofHelper fo h ∧
      accFree c (localAddr fo c x 3 im) 8)
      (fun fo c => retire fo 1 0 [] (accWrite (accTake c (localAddr fo c x 3 im) 8)
        [(localAddr fo c x 3 im, leBytes 8 (rdS fo c d.toNat).toNat)]))) ∧
  (∀ (d x : BitVec 6) (w : BitVec 2) (im : BitVec 10) (k v : Nat), DoesWhen (.st d x w im)
    (fun fo c => addrTrap fo c (localAddr fo c x w.toNat im) (2 ^ w.toNat) (2 ^ w.toNat) = some (k, v))
    (fun fo c => takeTrap fo k (wN v) c)) ∧
  (∀ (d x : BitVec 6) (im : BitVec 10) (k v : Nat), DoesWhen (.strel d x im)
    (fun fo c => addrTrap fo c (localAddr fo c x 3 im) 8 8 = some (k, v)) (fun fo c => takeTrap fo k (wN v) c))

/-- MISALIGN comes before LOCAL_RANGE, and an access passes exactly when aligned, inside the storage and clear of fences.
The check of an access of n bytes at address a gives MISALIGN with the address when a is not a multiple of the
alignment; else LOCAL_RANGE with the address when the bytes do not all lie in the 1.5 MiB of the scratchpad, or the 64
KiB of a gateway, or when one of the banks of 512 KiB they touch is fenced; else nothing, whatever other banks are
fenced. (R110, R16, R357) -/
def Obligations.LocalAddressChecks : Prop :=
  ∀ (fo : Focus) (c : Core) (a n al : Nat), 0 < n →
    (a % al ≠ 0 → addrTrap fo c a n al = some (0x11, a)) ∧
    (a % al = 0 → (if fo.ctx = .gate then 0x10000 else 0x180000) < a + n → addrTrap fo c a n al = some (0x10, a)) ∧
    (a % al = 0 → a + n ≤ (if fo.ctx = .gate then 0x10000 else 0x180000) →
      (∀ b, b < 3 → c.fences / 2 ^ b % 2 = 1 → a / 0x80000 ≤ b → b ≤ (a + n - 1) / 0x80000 → addrTrap fo c a n al = some (0x10, a)) ∧
      ((∀ b, b < 3 → a / 0x80000 ≤ b → b ≤ (a + n - 1) / 0x80000 → c.fences / 2 ^ b % 2 = 0) → addrTrap fo c a n al = none))

/-- The primary reads the youngest withheld byte; helpers and engines do not see it. With a store youngest in the withhold
buffer, be it of bytes, of an image or of 64 lane words, the primary reads its bytes at its addresses, of several lane
words at one address the last, and everywhere else what it read before; a helper or gateway reads local storage as it
stands. The reads of the copy engine, of the matrix array and of SWAP answer the same and change the same whatever is
withheld. The doubleword a withheld SPST names reads as its value, every other doubleword of spill memory as before.
(R112, R65) -/
def Obligations.WithheldStoresForwarded : Prop :=
  (∀ (fo : Focus) (c : Core) (o a b : Nat) (l : List Byte) (w : Wh), ofPrim fo →
    (w = .store a l ∨ w = .storeQ a l ∨ w = .storeK a l) →
    spByte fo { c with withheld := c.withheld ++ [⟨o, w⟩] } b =
      if a ≤ b ∧ b < a + l.length then l.getD (b - a) 0 else spByte fo c b) ∧
  (∀ (fo : Focus) (c : Core) (o k b : Nat) (ws : List (Nat × Lane)), ofPrim fo →
    let d := { c with withheld := c.withheld ++ [⟨o, .scatter k ws⟩] }
    (∀ l m a v, ws = l ++ (a, v) :: m → a ≤ b → b < a + 4 → (∀ e ∈ m, ¬(e.1 ≤ b ∧ b < e.1 + 4)) →
      spByte fo d b = BitVec.ofNat 8 (v.toNat / 2 ^ (8 * (b - a)))) ∧
    ((∀ e ∈ ws, ¬(e.1 ≤ b ∧ b < e.1 + 4)) → spByte fo d b = spByte fo c b)) ∧
  (∀ (fo : Focus) (c : Core) (b : Nat) (l : List WhE), ¬ofPrim fo → spByte fo { c with withheld := l } b = memRead c.sp b) ∧
  (∀ (c : Core) (l : List WhE) (q a n : Nat) (got : List (Nat × List Byte)) (rb : List Nat),
    let hid (d : Core) : Core := { d with withheld := l }
    burstRead q (hid c) = hid (burstRead q c) ∧
    arrayRead (hid c) = ((arrayRead c).1, hid (arrayRead c).2) ∧ swapRead (hid c) = ((swapRead c).1, hid (swapRead c).2) ∧
    turnRead got rb a n (hid c) = (let r := turnRead got rb a n c
      (r.1, r.2.1, r.2.2.1, hid r.2.2.2))) ∧
  (∀ (c : Core) (o k j : Nat) (v : Word),
    rdSpill { c with withheld := c.withheld ++ [⟨o, .spill k v⟩] } j = if j = k then v else rdSpill c j)

/-- XLD asks the sibling its address names; XST sends the bytes, withheld in the primary. An XLD at an aligned window
address sends its read to the core of the cluster that bits 23..21 name, at the offset of bits 20..0, and stands
outstanding. An XST withholds the bytes for the address in the primary, when there is room, and in a helper sends them
and counts a store not yet written. A misaligned window address traps MISALIGN; one outside the window, past the
storage of its core, of a core above 4 or in a bank that core has fenced traps LOCAL_RANGE; every other passes. (R14,
R64, R115, R111, R16) -/
def Obligations.ClusterWindow : Prop :=
  (∀ (d x : BitVec 6) (w : BitVec 2) (im : BitVec 10),
    DoesWhen (.xld d x w im) (fun fo c => windowTrap c (localAddr fo c x w.toNat im) (2 ^ w.toNat) = none)
      (fun fo c =>
        let a := localAddr fo c x w.toNat im
        addFlight { mkFlight (.xld d x w im) fo c [] 24 with delay := 24, stage := 9 }
          { c with cyc := { c.cyc with out := c.cyc.out ++
            [(fo.ctx, .xld (siblingOf c.num (a / 2 ^ 21 % 8)) (a % 2 ^ 21) (2 ^ w.toNat) (seekOf fo c))] } })) ∧
  (∀ (d x : BitVec 6) (w : BitVec 2) (im : BitVec 10),
    DoesWhen (.xst d x w im) (fun fo c => windowTrap c (localAddr fo c x w.toNat im) (2 ^ w.toNat) = none ∧ ofPrim fo ∧
      fits c (.xst (localAddr fo c x w.toNat im) (leBytes (2 ^ w.toNat) (rdS fo c d.toNat).toNat)) = true)
      (fun fo c => { c with newWith := c.newWith ++
        [⟨ordOf fo c, .xst (localAddr fo c x w.toNat im) (leBytes (2 ^ w.toNat) (rdS fo c d.toNat).toNat)⟩] })) ∧
  (∀ (d x : BitVec 6) (w : BitVec 2) (im : BitVec 10) (h : Nat),
    DoesWhen (.xst d x w im) (fun fo c => windowTrap c (localAddr fo c x w.toNat im) (2 ^ w.toNat) = none ∧ ofHelper fo h)
      (fun fo c =>
        let c1 := { c with cyc := { c.cyc with out := c.cyc.out ++
          [(fo.ctx, Wh.xst (localAddr fo c x w.toNat im) (leBytes (2 ^ w.toNat) (rdS fo c d.toNat).toNat))] } }
        c1.setHelper h { c1.helper h with xst := (c1.helper h).xst + 1 })) ∧
  (∀ (d x : BitVec 6) (w : BitVec 2) (im : BitVec 10) (k v : Nat), DoesWhen (.xld d x w im)
    (fun fo c => windowTrap c (localAddr fo c x w.toNat im) (2 ^ w.toNat) = some (k, v)) (fun fo c => takeTrap fo k (wN v) c)) ∧
  (∀ (d x : BitVec 6) (w : BitVec 2) (im : BitVec 10) (k v : Nat), DoesWhen (.xst d x w im)
    (fun fo c => windowTrap c (localAddr fo c x w.toNat im) (2 ^ w.toNat) = some (k, v)) (fun fo c => takeTrap fo k (wN v) c)) ∧
  (∀ (c : Core) (a n : Nat), 0 < n → a < 2 ^ 32 →
    let o := a % 2 ^ 21
    let f := c.winFence.getD (a / 2 ^ 21 % 8) 0
    (a % n ≠ 0 → windowTrap c a n = some (0x11, a)) ∧
    (a % n = 0 → (a / 2 ^ 24 ≠ 1 ∨ 4 < a / 2 ^ 21 % 8 ∨ 0x180000 < o + n) → windowTrap c a n = some (0x10, a)) ∧
    (∀ b, a % n = 0 → b < 3 → f / 2 ^ b % 2 = 1 → o / 0x80000 ≤ b → b ≤ (o + n - 1) / 0x80000 → windowTrap c a n = some (0x10, a)) ∧
    (a % n = 0 → a / 2 ^ 24 = 1 → a / 2 ^ 21 % 8 ≤ 4 → o + n ≤ 0x180000 →
      (∀ b, b < 3 → o / 0x80000 ≤ b → b ≤ (o + n - 1) / 0x80000 → f / 2 ^ b % 2 = 0) → windowTrap c a n = none))

/-- VLD reads 256 bytes into the grid and VST withholds 256 bytes of it; both move their pointer. At an address aligned to
4 and in range, a VLD whose banks are free takes them and retires, with latency 5, the vector of the 256 bytes; its
post-increment retires with the issue cycle; with none of its banks free it goes on seeking. A VST of the primary
withholds the 256 bytes of its source vector when there is room (at issue, whatever its read beats: the choice of
assumption 56), a helper seeks its port once its reads are done, a gateway writes at the end of the cycle; the pointer
moves as well. A trap of the address is taken first, and then nothing moves. Not stated: a VLD with one of two banks
free. (R118, R85, R52, R61, R62, R111, R47) -/
def Obligations.VectorLoadsAndStores : Prop :=
  (∀ (g : BitVec 8) (a : BitVec 4) (k : BitVec 3) (o : BitVec 8),
    DoesWhen (.vld g a k o) (fun fo c => addrTrap fo c (vecAddr fo c a o) 256 4 = none ∧ accFree c (vecAddr fo c a o) 256)
      (fun fo c =>
        let c1 := if k = 0 then c else retire fo 1 0 [effA fo a.toNat (bumped fo c a.toNat k.toNat)] c
        retire fo 5 0 [.vec (.grid g.toNat) (bytesVec (spBytes fo c (vecAddr fo c a o) 256) 64) (BitVec.allOnes 64)]
          (accTake c1 (vecAddr fo c a o) 256))) ∧
  (∀ (g : BitVec 8) (a : BitVec 4) (k : BitVec 3) (o : BitVec 8),
    DoesWhen (.vst g a k o) (fun fo c => addrTrap fo c (vecAddr fo c a o) 256 4 = none ∧ ofPrim fo ∧
      fits c (.store (vecAddr fo c a o) (vecBytes (rdGrid c g.toNat))) = true)
      (fun fo c =>
        let c1 := if k = 0 then c else retire fo 1 0 [effA fo a.toNat (bumped fo c a.toNat k.toNat)] c
        { c1 with newWith := c1.newWith ++ [⟨ordOf fo c, .store (vecAddr fo c a o) (vecBytes (rdGrid c g.toNat))⟩] })) ∧
  (∀ (g : BitVec 8) (a : BitVec 4) (k : BitVec 3) (o : BitVec 8),
    DoesWhen (.vld g a k o) (fun fo c => addrTrap fo c (vecAddr fo c a o) 256 4 = none ∧
      ∀ b ∈ accBanks (vecAddr fo c a o) 256, b ∈ c.cyc.turns)
      (fun fo c => addFlight (mkFlight (.vld g a k o) fo c [mkAcc 0 (vecAddr fo c a o) 256] 5)
        (if k = 0 then c else retire fo 1 0 [effA fo a.toNat (bumped fo c a.toNat k.toNat)] c))) ∧
  (∀ (g : BitVec 8) (a : BitVec 4) (k : BitVec 3) (o : BitVec 8) (h : Nat),
    DoesWhen (.vst g a k o) (fun fo c => addrTrap fo c (vecAddr fo c a o) 256 4 = none ∧ ofHelper fo h)
      (fun fo c => addFlight { mkFlight (.vst g a k o) fo c [mkAcc 0 (vecAddr fo c a o) 256] 1 with
          vals := [wN (vecAddr fo c a o)], data := vecBytes (rdGrid c g.toNat), delay := fo.beats }
        (if k = 0 then c else retire fo 1 0 [effA fo a.toNat (bumped fo c a.toNat k.toNat)] c))) ∧
  (∀ (g : BitVec 8) (a : BitVec 4) (k : BitVec 3) (o : BitVec 8),
    DoesWhen (.vst g a k o) (fun fo c => addrTrap fo c (vecAddr fo c a o) 256 4 = none ∧ ofGate fo)
      (fun fo c => retire fo 1 0 [.store (vecAddr fo c a o) (vecBytes (rdGrid c g.toNat))]
        (gatePort (if k = 0 then c else retire fo 1 0 [effA fo a.toNat (bumped fo c a.toNat k.toNat)] c)))) ∧
  (∀ (g : BitVec 8) (a : BitVec 4) (k : BitVec 3) (o : BitVec 8) (t v : Nat), DoesWhen (.vld g a k o)
    (fun fo c => addrTrap fo c (vecAddr fo c a o) 256 4 = some (t, v)) (fun fo c => takeTrap fo t (wN v) c)) ∧
  (∀ (g : BitVec 8) (a : BitVec 4) (k : BitVec 3) (o : BitVec 8) (t v : Nat), DoesWhen (.vst g a k o)
    (fun fo c => addrTrap fo c (vecAddr fo c a o) 256 4 = some (t, v)) (fun fo c => takeTrap fo t (wN v) c)) ∧
  (∀ (fo : Focus) (c : Core) (a : BitVec 4) (o : BitVec 8),
    vecAddr fo c a o = (((rdA fo c a.toNat).toNat + 32 * o.toInt) % 2 ^ 32).toNat)

/-- VLDX and VSTX access one word per lane, eight lanes a cycle with every bank held; the first failing lane traps. With
every lane address a + 4 x index (modulo 2^32) aligned and in range, VLDX begins an access of eight port cycles of
eight words each that holds every bank, and VSTX of the primary withholds its 64 words, when there is room, and begins
the same access, which in a helper carries the words. The first lane in order whose address fails gives the trap of
either, MISALIGN or LOCAL_RANGE with that address. Stated where no bank has been used in the cycle. (R119, R113, R110,
R47) -/
def Obligations.LaneAddressedAccesses : Prop :=
  (∀ (g : BitVec 8) (a : BitVec 4) (i : BitVec 8),
    DoesWhen (.vldx g a i) (fun fo c => lanesTrap fo c (laneAddrs fo c a i) = none ∧ c.cyc.turns = [])
      (fun fo c => addFlight
        { mkFlight (.vldx g a i) fo c [] (6 + (fo.beats - 1)) with
          accs := [(stepAcc fo c (laneAcc (laneAddrs fo c a i))).1] }
        { c with cyc := { c.cyc with turns := [0, 1, 2], used := c.cyc.used ++ [0, 1, 2] } })) ∧
  (∀ (g : BitVec 8) (a : BitVec 4) (i : BitVec 8),
    DoesWhen (.vstx g a i) (fun fo c => lanesTrap fo c (laneAddrs fo c a i) = none ∧ ofPrim fo ∧ c.cyc.turns = [] ∧
      fits c (.scatter 64 (List.zip (laneAddrs fo c a i) (rdGrid c g.toNat))) = true)
      (fun fo c => addFlight
        { mkFlight (.vstx g a i) fo c [] 1 with
          accs := [(stepAcc fo c (laneAcc (laneAddrs fo c a i))).1], vx := rdGrid c g.toNat,
          vy := (laneAddrs fo c a i).map (BitVec.ofNat 32) }
        { c with cyc := { c.cyc with turns := [0, 1, 2], used := c.cyc.used ++ [0, 1, 2] },
                 newWith := c.newWith ++
                   [⟨ordOf fo c, .scatter 64 (List.zip (laneAddrs fo c a i) (rdGrid c g.toNat))⟩] })) ∧
  (∀ (g : BitVec 8) (a : BitVec 4) (i : BitVec 8) (h : Nat),
    DoesWhen (.vstx g a i) (fun fo c => lanesTrap fo c (laneAddrs fo c a i) = none ∧ ofHelper fo h ∧ c.cyc.turns = [])
      (fun fo c => addFlight
        { mkFlight (.vstx g a i) fo c [] 1 with
          accs := [(stepAcc fo c (laneAcc (laneAddrs fo c a i))).1], vx := rdGrid c g.toNat,
          vy := (laneAddrs fo c a i).map (BitVec.ofNat 32) }
        { c with cyc := { c.cyc with turns := [0, 1, 2], used := c.cyc.used ++ [0, 1, 2] } })) ∧
  (∀ (g : BitVec 8) (a : BitVec 4) (i : BitVec 8) (k v : Nat),
    DoesWhen (.vldx g a i) (fun fo c => lanesTrap fo c (laneAddrs fo c a i) = some (k, v)) (fun fo c => takeTrap fo k (wN v) c) ∧
    DoesWhen (.vstx g a i) (fun fo c => lanesTrap fo c (laneAddrs fo c a i) = some (k, v)) (fun fo c => takeTrap fo k (wN v) c)) ∧
  (∀ (fo : Focus) (c : Core) (a : BitVec 4) (i : BitVec 8) (j : Nat), j < 64 →
    (laneAddrs fo c a i).getD j 0 = ((rdA fo c a.toNat).toNat + 4 * ((rdGrid c i.toNat).getD j 0).toNat) % 2 ^ 32) ∧
  (∀ (fo : Focus) (c : Core) (l m : List Nat) (a : Nat) (t : Nat × Nat), (∀ x ∈ l, addrTrap fo c x 4 4 = none) →
    addrTrap fo c a 4 4 = some t → lanesTrap fo c (l ++ a :: m) = some t) ∧
  (∀ (fo : Focus) (c : Core) (l : List Nat), lanesTrap fo c l = none ↔ ∀ x ∈ l, addrTrap fo c x 4 4 = none)

/-- QLD, QST, KLD and KST move register images of 1,056 and 520 bytes, 256 bytes a port cycle. At an address aligned to
256 with the whole image in range, QLD and KLD begin a read of 1,056 or 520 bytes in port cycles of 256 bytes, and QST
and KST of the primary withhold the image as it stands at issue, when there is room, and begin the same port cycles,
which in a helper carry the image of KST; the pointer moves; a helper KLD keeps what its pointer held, for the trap of
a bad image. At any other address each takes the trap. A list image carries the count and, for each position below it,
index and score, and zero beyond. (R120, R121, R113, R61, R110, R111) -/
def Obligations.RegisterImages : Prop :=
  (∀ (r a : BitVec 4) (k : BitVec 3), DoesWhen (.qld r a k)
    (fun fo c => addrTrap fo c (rdA fo c a.toNat).toNat 1056 256 = none)
    (fun fo c => launch (mkFlight (.qld r a k) fo c [chunkAcc (rdA fo c a.toNat).toNat 1056] 5) (bump fo a.toNat k.toNat c))) ∧
  (∀ (r : BitVec 3) (a : BitVec 4) (k : BitVec 3), DoesWhen (.kld r a k)
    (fun fo c => addrTrap fo c (rdA fo c a.toNat).toNat 520 256 = none)
    (fun fo c => launch { mkFlight (.kld r a k) fo c [chunkAcc (rdA fo c a.toNat).toNat 520] 5 with
        fin := (match fo.ctx with
          | .helper h => if k = 0 then [] else [.xback h a.toNat (spGet 0 (c.helper h).x a.toNat)
              ((bumped fo c a.toNat k.toNat).setWidth 64)]
          | _ => []) } (bump fo a.toNat k.toNat c))) ∧
  (∀ (r a : BitVec 4) (k : BitVec 3), DoesWhen (.qst r a k)
    (fun fo c => ofPrim fo ∧ addrTrap fo c (rdA fo c a.toNat).toNat 1056 256 = none ∧
      fits c (.storeQ (rdA fo c a.toNat).toNat (qImage (spGet qReg0 c.p.q r.toNat) ++ List.replicate 30 0)) = true)
    (fun fo c =>
      let data := qImage (spGet qReg0 c.p.q r.toNat) ++ List.replicate 30 0
      launch { mkFlight (.qst r a k) fo c [chunkAcc (rdA fo c a.toNat).toNat 1056] 1 with
        vals := [wN (rdA fo c a.toNat).toNat], data := data }
        (withholdNow fo (.storeQ (rdA fo c a.toNat).toNat data) (bump fo a.toNat k.toNat c)))) ∧
  (∀ (r : BitVec 3) (a : BitVec 4) (k : BitVec 3), DoesWhen (.kst r a k)
    (fun fo c => ofPrim fo ∧ addrTrap fo c (rdA fo c a.toNat).toNat 520 256 = none ∧
      fits c (.storeK (rdA fo c a.toNat).toNat (listImage (spGet candList0 c.lists r.toNat))) = true)
    (fun fo c =>
      let data := listImage (spGet candList0 c.lists r.toNat)
      launch { mkFlight (.kst r a k) fo c [chunkAcc (rdA fo c a.toNat).toNat 520] 1 with
        vals := [wN (rdA fo c a.toNat).toNat], data := data }
        (withholdNow fo (.storeK (rdA fo c a.toNat).toNat data) (bump fo a.toNat k.toNat c)))) ∧
  (∀ (r : BitVec 3) (a : BitVec 4) (k : BitVec 3) (h : Nat), DoesWhen (.kst r a k)
    (fun fo c => ofHelper fo h ∧ addrTrap fo c (rdA fo c a.toNat).toNat 520 256 = none ∧
      (spGet candList0 c.lists r.toNat).ents.length = 64)
    (fun fo c => launch { mkFlight (.kst r a k) fo c [chunkAcc (rdA fo c a.toNat).toNat 520] 1 with
        vals := [wN (rdA fo c a.toNat).toNat], data := listImage (spGet candList0 c.lists r.toNat) }
        (bump fo a.toNat k.toNat c))) ∧
  (∀ (r a : BitVec 4) (k : BitVec 3) (t v : Nat),
    DoesWhen (.qld r a k) (fun fo c => addrTrap fo c (rdA fo c a.toNat).toNat 1056 256 = some (t, v))
      (fun fo c => takeTrap fo t (wN v) c) ∧
    DoesWhen (.qst r a k) (fun fo c => addrTrap fo c (rdA fo c a.toNat).toNat 1056 256 = some (t, v))
      (fun fo c => takeTrap fo t (wN v) c)) ∧
  (∀ (r : BitVec 3) (a : BitVec 4) (k : BitVec 3) (t v : Nat),
    DoesWhen (.kld r a k) (fun fo c => addrTrap fo c (rdA fo c a.toNat).toNat 520 256 = some (t, v))
      (fun fo c => takeTrap fo t (wN v) c) ∧
    DoesWhen (.kst r a k) (fun fo c => addrTrap fo c (rdA fo c a.toNat).toNat 520 256 = some (t, v) ∧
      (spGet candList0 c.lists r.toNat).ents.length = 64) (fun fo c => takeTrap fo t (wN v) c)) ∧
  (∀ l : CandList, l.count ≤ 64 → l.ents.length = 64 → (listImage l).length = 520 ∧
    ∃ m, listOfImage (listImage l) = some m ∧ m.count = l.count ∧ m.live = l.live)

/-- HPUSH sends its vector to the slot at PROD and HPOP reads the slot at CONS; each advances its own count by one. Of a
handle without a remote end, with its slot in no fenced bank, HPUSH of the primary into a ring that is not full
withholds the vector for the slot address of PROD, when there is room, and retires an advance of PROD by one; HPUSH of
a helper seeks the port for it. HPOP of a ring that is not empty reads the slot of CONS, or goes on seeking where its
bank is taken, and retires an advance of CONS by one. With a remote end in the cluster HPUSH withholds a message with
the vector, or sends it from a helper; with one outside it traps HANDLE_REMOTE. A full ring of a handle whose end is
local or in the cluster traps HANDLE_OVER, an empty one HANDLE_UNDER (which of OVER and REMOTE where both hold is the
choice of assumption 23, not stated). A slot of a fenced bank traps LOCAL_RANGE. HPOP of a remote handle also sends
the advance of CONS. An advance adds to its own count modulo 2^32 and leaves the other. (R126, R57, R128, R384, R56) -/
def Obligations.RingHandles : Prop :=
  (∀ (g : BitVec 8) (h : BitVec 4), DoesWhen (.hpush g h)
    (fun fo c => ofPrim fo ∧ hFilled (rdHandle c h.toNat) < hSlots (rdHandle c h.toNat) ∧ hRv (rdHandle c h.toNat) = false ∧
      meetsFence c.fences (hAddr (rdHandle c h.toNat) (hProd (rdHandle c h.toNat)) 0) 256 = false ∧
      fits c (.store (hAddr (rdHandle c h.toNat) (hProd (rdHandle c h.toNat)) 0) (vecBytes (rdGrid c g.toNat))) = true)
    (fun fo c => retire fo 1 0 [.handle h.toNat true 1] { c with newWith := c.newWith ++ [⟨ordOf fo c,
      .store (hAddr (rdHandle c h.toNat) (hProd (rdHandle c h.toNat)) 0) (vecBytes (rdGrid c g.toNat))⟩] })) ∧
  (∀ (g : BitVec 8) (h : BitVec 4) (k : Nat), DoesWhen (.hpush g h)
    (fun fo c => ofHelper fo k ∧ hFilled (rdHandle c h.toNat) < hSlots (rdHandle c h.toNat) ∧ hRv (rdHandle c h.toNat) = false ∧
      meetsFence c.fences (hAddr (rdHandle c h.toNat) (hProd (rdHandle c h.toNat)) 0) 256 = false)
    (fun fo c =>
      let a := hAddr (rdHandle c h.toNat) (hProd (rdHandle c h.toNat)) 0
      retire fo 1 0 [.handle h.toNat true 1] (launch { mkFlight (.hpush g h) fo c [mkAcc 0 a 256] 1 with
        vals := [wN a], data := vecBytes (rdGrid c g.toNat) } c))) ∧
  (∀ (g : BitVec 8) (h : BitVec 4), DoesWhen (.hpop g h)
    (fun _ c => hFilled (rdHandle c h.toNat) ≠ 0 ∧ hRv (rdHandle c h.toNat) = false ∧
      meetsFence c.fences (hAddr (rdHandle c h.toNat) (hCons (rdHandle c h.toNat)) 0) 256 = false ∧
      ¬accFree c (hAddr (rdHandle c h.toNat) (hCons (rdHandle c h.toNat)) 0) 256)
    (fun fo c => addFlight (mkFlight (.hpop g h) fo c [mkAcc 0 (hAddr (rdHandle c h.toNat) (hCons (rdHandle c h.toNat)) 0) 256] 5)
      (retire fo 1 0 [.handle h.toNat false 1] c))) ∧
  (∀ (g : BitVec 8) (h : BitVec 4), DoesWhen (.hpop g h)
    (fun _ c => hFilled (rdHandle c h.toNat) ≠ 0 ∧ hRv (rdHandle c h.toNat) = false ∧
      meetsFence c.fences (hAddr (rdHandle c h.toNat) (hCons (rdHandle c h.toNat)) 0) 256 = false ∧
      accFree c (hAddr (rdHandle c h.toNat) (hCons (rdHandle c h.toNat)) 0) 256)
    (fun fo c =>
      let a := hAddr (rdHandle c h.toNat) (hCons (rdHandle c h.toNat)) 0
      retire fo 5 0 [.vec (.grid g.toNat) (bytesVec (spBytes fo c a 256) 64) (BitVec.allOnes 64)]
        (accTake (retire fo 1 0 [.handle h.toNat false 1] c) a 256))) ∧
  (∀ (g : BitVec 8) (h : BitVec 4), DoesWhen (.hpush g h)
    (fun _ c => hSlots (rdHandle c h.toNat) ≤ hFilled (rdHandle c h.toNat) ∧
      (hRv (rdHandle c h.toNat) = false ∨ sameCluster c.num (hRcore (rdHandle c h.toNat)) = true))
    (fun fo c => takeTrap fo cHANDLEOVER 0 c)) ∧
  (∀ (g : BitVec 8) (h : BitVec 4), DoesWhen (.hpush g h)
    (fun _ c => hFilled (rdHandle c h.toNat) < hSlots (rdHandle c h.toNat) ∧ hRv (rdHandle c h.toNat) = true ∧
      sameCluster c.num (hRcore (rdHandle c h.toNat)) = false) (fun fo c => takeTrap fo cHANDLEREMOTE 0 c)) ∧
  (∀ (g : BitVec 8) (h : BitVec 4), DoesWhen (.hpush g h)
    (fun _ c => hFilled (rdHandle c h.toNat) < hSlots (rdHandle c h.toNat) ∧
      meetsFence (if hRv (rdHandle c h.toNat) then c.winFence.getD (kOf (hRcore (rdHandle c h.toNat))) 0 else c.fences)
        (hAddr (rdHandle c h.toNat) (hProd (rdHandle c h.toNat)) 0) 256 = true ∧
      (hRv (rdHandle c h.toNat) = true → sameCluster c.num (hRcore (rdHandle c h.toNat)) = true))
    (fun fo c => takeTrap fo cLOCALRANGE (wN (hAddr (rdHandle c h.toNat) (hProd (rdHandle c h.toNat)) 0)) c)) ∧
  (∀ (g : BitVec 8) (h : BitVec 4), DoesWhen (.hpop g h)
    (fun _ c => hFilled (rdHandle c h.toNat) ≠ 0 ∧
      meetsFence c.fences (hAddr (rdHandle c h.toNat) (hCons (rdHandle c h.toNat)) 0) 256 = true)
    (fun fo c => takeTrap fo cLOCALRANGE (wN (hAddr (rdHandle c h.toNat) (hCons (rdHandle c h.toNat)) 0)) c)) ∧
  (∀ (g : BitVec 8) (h : BitVec 4),
    let w (c : Core) : Wh := .hpush (hRcore (rdHandle c h.toNat)) (hRh (rdHandle c h.toNat))
      (hAddr (rdHandle c h.toNat) (hProd (rdHandle c h.toNat)) 0) (vecBytes (rdGrid c g.toNat))
    let there (c : Core) : Prop := hFilled (rdHandle c h.toNat) < hSlots (rdHandle c h.toNat) ∧
      hRv (rdHandle c h.toNat) = true ∧ sameCluster c.num (hRcore (rdHandle c h.toNat)) = true ∧
      meetsFence (c.winFence.getD (kOf (hRcore (rdHandle c h.toNat))) 0)
        (hAddr (rdHandle c h.toNat) (hProd (rdHandle c h.toNat)) 0) 256 = false
    DoesWhen (.hpush g h) (fun fo c => ofPrim fo ∧ there c ∧ fits c (w c) = true)
      (fun fo c => retire fo 1 0 [.handle h.toNat true 1] { c with newWith := c.newWith ++ [⟨ordOf fo c, w c⟩] }) ∧
    (∀ k, DoesWhen (.hpush g h) (fun fo c => ofHelper fo k ∧ there c) (fun fo c => retire fo 1 0 [.handle h.toNat true 1]
      (let c1 := { c with cyc := { c.cyc with out := c.cyc.out ++ [(fo.ctx, w c)] } }
       c1.setHelper k { c1.helper k with xst := (c1.helper k).xst + 1 })))) ∧
  (∀ (g : BitVec 8) (h : BitVec 4),
    let w (c : Core) : Wh := .hadv (hRcore (rdHandle c h.toNat)) (hRh (rdHandle c h.toNat)) false 1
    let a (c : Core) : Nat := hAddr (rdHandle c h.toNat) (hCons (rdHandle c h.toNat)) 0
    let there (c : Core) : Prop := hFilled (rdHandle c h.toNat) ≠ 0 ∧ hRv (rdHandle c h.toNat) = true ∧
      meetsFence c.fences (a c) 256 = false ∧ accFree c (a c) 256
    let got (fo : Focus) (c d : Core) : Core :=
      retire fo 5 0 [.vec (.grid g.toNat) (bytesVec (spBytes fo c (a c) 256) 64) (BitVec.allOnes 64)]
        (accTake (retire fo 1 0 [.handle h.toNat false 1] d) (a c) 256)
    DoesWhen (.hpop g h) (fun fo c => ofPrim fo ∧ there c ∧ fits c (w c) = true)
      (fun fo c => got fo c { c with newWith := c.newWith ++ [⟨ordOf fo c, w c⟩] }) ∧
    (∀ k, DoesWhen (.hpop g h) (fun fo c => ofHelper fo k ∧ there c)
      (fun fo c => got fo c { c with cyc := { c.cyc with out := c.cyc.out ++ [(fo.ctx, w c)] } }))) ∧
  (∀ (g : BitVec 8) (h : BitVec 4), DoesWhen (.hpop g h)
    (fun _ c => hFilled (rdHandle c h.toNat) = 0) (fun fo c => takeTrap fo cHANDLEUNDER 0 c)) ∧
  (∀ (d : BitVec 128) (n : Nat), hProd (handleAdd d true n) = (hProd d + n) % 2 ^ 32 ∧
    hCons (handleAdd d true n) = hCons d ∧ hCons (handleAdd d false n) = (hCons d + n) % 2 ^ 32 ∧
    hProd (handleAdd d false n) = hProd d)

/-- The slot an operand of a handle names. The address of operand hN+o is BASE plus ((P + o) mod the number of slots)
times the slot size of SLOT times 256 bytes; P is CONS when the operand is read and PROD when it is written; the first
256 bytes of the slot are the operand, and the slot lies inside the ring. (R57) -/
def Obligations.HandleSlotAddress : Prop :=
  ∀ (fo : Focus) (c : Core) (f : BitVec 9), f.toNat / 2 ^ 7 = 3 →
    (fAddr fo c f false = some (hAddr (rdHandle c (f.toNat / 2 ^ 3 % 16)) (hCons (rdHandle c (f.toNat / 2 ^ 3 % 16)))
      (f.toNat % 8))) ∧
    (fAddr fo c f true = some (hAddr (rdHandle c (f.toNat / 2 ^ 3 % 16)) (hProd (rdHandle c (f.toNat / 2 ^ 3 % 16)))
      (f.toNat % 8))) ∧
    (∀ (d : BitVec 128) (p o : Nat),
      hAddr d p o = hBase d + (p + o) % 2 ^ hLog d * (hSlot d * 256) ∧
      hBase d ≤ hAddr d p o ∧ hAddr d p o + hSlot d * 256 ≤ hBase d + 2 ^ hLog d * (hSlot d * 256))

/-- LIFT takes a free place and withholds its vector; LPOP takes the oldest poppable vector of the selected core. LIFT
with the gate open and a free place withholds its vector in the primary, when there is room (at issue, whatever its
read beats: the choice of assumption 56), or sends it from a helper, and retires the fall of FREE; a closed gate traps
LIFT_GATED, a full FIFO LIFT_FULL. LPOP retires, with latency 5, the oldest poppable vector of the base core that
LIFTSRC selects and frees its place with the issue cycle; with none it traps LIFT_EMPTY. (R129, R384, R47) -/
def Obligations.LiftFifo : Prop :=
  (∀ (g : BitVec 8), DoesWhen (.lift g)
    (fun fo c => c.gate = 0 ∧ c.liftFree ≠ 0 ∧ ofPrim fo ∧ fits c (.lift (rdGrid c g.toNat)) = true)
    (fun fo c => retire fo 1 0 [.liftFall] { c with newWith := c.newWith ++ [⟨ordOf fo c, .lift (rdGrid c g.toNat)⟩] })) ∧
  (∀ (g : BitVec 8) (h : Nat), DoesWhen (.lift g) (fun fo c => ofHelper fo h ∧ c.gate = 0 ∧ c.liftFree ≠ 0)
    (fun fo c => retire fo 1 0 [.liftFall] { c with cyc := { c.cyc with out := c.cyc.out ++ [(fo.ctx, .lift (rdGrid c g.toNat))] } })) ∧
  (∀ (g : BitVec 8), DoesWhen (.lift g) (fun _ c => c.gate ≠ 0) (fun fo c => takeTrap fo cLIFTGATED 0 c)) ∧
  (∀ (g : BitVec 8), DoesWhen (.lift g) (fun _ c => c.gate = 0 ∧ c.liftFree = 0) (fun fo c => takeTrap fo cLIFTFULL 0 c)) ∧
  (∀ (g : BitVec 8) (n : Nat) (v : Vec) (l m : List (Nat × Nat × Vec)), DoesWhen (.lpop g)
    (fun _ c => c.lift = l ++ (c.liftSrc, 0, v) :: m ∧ n = c.liftSrc ∧ ∀ e ∈ l, ¬(e.1 = c.liftSrc ∧ e.2.1 = 0))
    (fun fo c => retire fo 5 0 [.vec (.grid g.toNat) v (BitVec.allOnes 64)] (retire fo 1 0 [.lpop n] c))) ∧
  (∀ (g : BitVec 8), DoesWhen (.lpop g) (fun _ c => ∀ e ∈ c.lift, ¬(e.1 = c.liftSrc ∧ e.2.1 = 0))
    (fun fo c => takeTrap fo cLIFTEMPTY 0 c))

/-- GLD, GST, GATOM, CINV and CCLEAN: a translated access is issued or performed; a misaligned one traps. The translation
is looked up at issue and the access carries its physical address from then (DEDUCED, assumption 63). With its address
aligned and translated, GLD sends a read of its width for its destination and counts it outstanding; GST of a helper
writes the store buffer, after the cycles its translation takes, and of a gateway writes at home; GATOM sends the
atomic with its two operands and its ordering bits, and CINV and CCLEAN a flush of the line, CINV dropping it; each
counts what it sends outstanding. With a translation that fails the context takes the fault of its cause. A misaligned
address traps MISALIGN with the address. (R122, R123, R124, R125, R116, R37, R414) -/
def Obligations.GlobalAccesses : Prop :=
  (∀ (d x : BitVec 6) (w : BitVec 2) (im : BitVec 10) (s s1 : State) (c : Core) (t : Xl), Ready (.gld d x w im) s c →
    globalAddr s.focus c x w.toNat im % 2 ^ w.toNat = 0 →
    s.xlate s.focus.core (agentOf s.focus) c.lctx (globalAddr s.focus c x w.toNat im) .read = (.ok t, s1) →
    exec (.gld d x w im) s = .next ((s1.modCore s.focus.core (outReq (helperOf s.focus) s1.seq d.toNat)).addReq
      { req0 with core := s.focus.core, agent := agentOf s.focus, op := .read, lctx := c.lctx, pa := t.pa,
                  len := 2 ^ w.toNat, home := t.lat, dst := d.toNat, off := 64 * t.coh, look := true,
                  fill := t.coh ≠ 2 && s.focus.ctx ≠ .gate })) ∧
  (∀ (d x : BitVec 6) (w : BitVec 2) (im : BitVec 10) (s s1 : State) (c : Core) (t : Xl), Ready (.gst d x w im) s c →
    globalAddr s.focus c x w.toNat im % 2 ^ w.toNat = 0 →
    s.xlate s.focus.core (agentOf s.focus) c.lctx (globalAddr s.focus c x w.toNat im) .write = (.ok t, s1) →
    (∀ h, ofHelper s.focus h → t.lat = 0 → exec (.gst d x w im) s = .next (s1.sbPut s.focus.core h t.pa
      (leBytes (2 ^ w.toNat) (rdS s.focus c d.toNat).toNat) (t.coh = 2) s1.seq)) ∧
    (∀ h, ofHelper s.focus h → t.lat ≠ 0 → exec (.gst d x w im) s = .next
      ((s1.modCore s.focus.core (fun k => holdReq h s1.seq { k with gwOut := k.gwOut + 1 })).addReq
        { req0 with core := s.focus.core, agent := .helper h, op := .put, lctx := c.lctx, pa := t.pa, len := 2 ^ w.toNat,
                    data := (leBytes (2 ^ w.toNat) (rdS s.focus c d.toNat).toNat).map some, home := t.lat, off := 64 * t.coh,
                    look := true })) ∧
    (ofGate s.focus → exec (.gst d x w im) s = .next (s1.lineWrite s.focus.core 0 c.lctx t.coh t.pa
      ((leBytes (2 ^ w.toNat) (rdS s.focus c d.toNat).toNat).map some) false))) ∧
  (∀ (d x y : BitVec 6) (o : BitVec 2) (f : BitVec 4) (h : Nat) (s s1 : State) (c : Core) (t : Xl), Ready (.gatom d x y o f) s c →
    (ofHelper s.focus h ∨ ofGate s.focus ∧ h = 0) → (rdS s.focus c x.toNat).toNat % 8 = 0 →
    s.xlate s.focus.core (agentOf s.focus) c.lctx (rdS s.focus c x.toNat).toNat (.atomic f.toNat) = (.ok t, s1) →
    exec (.gatom d x y o f) s = .next ((s1.modCore s.focus.core (fun k =>
      let k1 := outReq h s1.seq d.toNat { k with gwOut := k.gwOut + 1 }
      if o.getLsbD 0 then k1.setHelper h { k1.helper h with acq := some d.toNat } else k1)).addReq
      { req0 with core := s.focus.core, agent := agentOf s.focus,
                  op := .atomic f.toNat (rdS s.focus c d.toNat) (rdS s.focus c y.toNat), lctx := c.lctx, pa := t.pa,
                  len := 8, home := t.lat, dst := d.toNat, off := 64 * t.coh, look := true, order := o.getLsbD 1 })) ∧
  (∀ (x : BitVec 6) (im : BitVec 10) (s s1 : State) (c : Core) (t : Xl),
    globalAddr s.focus c x 3 im % 8 = 0 →
    s.xlate s.focus.core (agentOf s.focus) c.lctx (globalAddr s.focus c x 3 im) .clean = (.ok t, s1) →
    let u (drop : Bool) := (s1.modCore s.focus.core (holdReq (helperOf s.focus) s1.seq)).addReq
      { req0 with core := s.focus.core, agent := agentOf s.focus, op := .clean drop, lctx := c.lctx, pa := t.pa, len := 8,
                  home := t.lat, off := 64 * t.coh, look := true }
    (Ready (.cinv x im) s c → exec (.cinv x im) s = .next (u true)) ∧
    (Ready (.cclean x im) s c → exec (.cclean x im) s = .next (u false))) ∧
  (∀ (d x y : BitVec 6) (w o : BitVec 2) (im : BitVec 10) (f : BitVec 4) (s s1 : State) (c : Core) (e : Nat × Nat),
    let va := globalAddr s.focus c x w.toNat im
    (Ready (.gld d x w im) s c → va % 2 ^ w.toNat = 0 → s.xlate s.focus.core (agentOf s.focus) c.lctx va .read = (.error e, s1) →
      exec (.gld d x w im) s = .next (s1.opFault s.focus e.1 e.2 va false false)) ∧
    (Ready (.gst d x w im) s c → va % 2 ^ w.toNat = 0 → s.xlate s.focus.core (agentOf s.focus) c.lctx va .write = (.error e, s1) →
      exec (.gst d x w im) s = .next (s1.opFault s.focus e.1 e.2 va true false)) ∧
    (Ready (.gatom d x y o f) s c → (rdS s.focus c x.toNat).toNat % 8 = 0 →
      s.xlate s.focus.core (agentOf s.focus) c.lctx (rdS s.focus c x.toNat).toNat (.atomic f.toNat) = (.error e, s1) →
      exec (.gatom d x y o f) s = .next (s1.opFault s.focus e.1 e.2 (rdS s.focus c x.toNat).toNat true true)) ∧
    (globalAddr s.focus c x 3 im % 8 = 0 →
      s.xlate s.focus.core (agentOf s.focus) c.lctx (globalAddr s.focus c x 3 im) .clean = (.error e, s1) →
      let t := s1.opFault s.focus e.1 e.2 (globalAddr s.focus c x 3 im) true false
      (Ready (.cinv x im) s c → exec (.cinv x im) s = .next t) ∧ (Ready (.cclean x im) s c → exec (.cclean x im) s = .next t))) ∧
  (∀ (d x y : BitVec 6) (o : BitVec 2) (f : BitVec 4), DoesWhen (.gatom d x y o f)
    (fun fo c => (rdS fo c x.toNat).toNat % 8 ≠ 0)
    (fun fo c => takeTrap fo cMISALIGN (wN (rdS fo c x.toNat).toNat) c)) ∧
  (∀ (x : BitVec 6) (im : BitVec 10),
    DoesWhen (.cinv x im) (fun fo c => globalAddr fo c x 3 im % 8 ≠ 0)
      (fun fo c => takeTrap fo cMISALIGN (wN (globalAddr fo c x 3 im)) c) ∧
    DoesWhen (.cclean x im) (fun fo c => globalAddr fo c x 3 im % 8 ≠ 0)
      (fun fo c => takeTrap fo cMISALIGN (wN (globalAddr fo c x 3 im)) c)) ∧
  (∀ (d x : BitVec 6) (w : BitVec 2) (im : BitVec 10), DoesWhen (.gld d x w im)
    (fun fo c => globalAddr fo c x w.toNat im % 2 ^ w.toNat ≠ 0)
    (fun fo c => takeTrap fo cMISALIGN (wN (globalAddr fo c x w.toNat im)) c)) ∧
  (∀ (d x : BitVec 6) (w : BitVec 2) (im : BitVec 10), DoesWhen (.gst d x w im)
    (fun fo c => globalAddr fo c x w.toNat im % 2 ^ w.toNat ≠ 0)
    (fun fo c => takeTrap fo cMISALIGN (wN (globalAddr fo c x w.toNat im)) c))

/-- Every V-class, tap and distribution operation on grid operands retires its result after its latency. Wherever an
operation of the V class other than NIL and HOLD, all of whose vector operands are in the grid, stands ready with its
unit free, its tap word valid and room for its stores, it retires the effects its own rule gives for the registers as
they stand, after its latency and the added beats of its reads, and begins the occupancy of its unit. Nothing else of
the state changes. (R259, R261, R262, R264, R265, R47, R328) -/
def Obligations.VectorOperationsIssue : Prop :=
  ∀ (i : Instr) (s : State) (c : Core), Ready i s c → classOf i = some .V → isNil i = false → isHold i = false →
    gridOnly i = true → vClear i s.focus c →
    exec i s = .next (s.withCore (vOccupy i
      (retire s.focus (gridAfter i s.focus) (gridEffs i s.focus c).1 (gridEffs i s.focus c).2 c)))

/-- An operation of the V class with stream or handle operands makes their accesses; the order of its checks is the choice
of assumption 132. With its unit occupied a V1 operation traps UNIT_BUSY; else with a bad tap word it traps its cause;
else the first failing address among x, y and d traps; else without room for its stores it traps WITHHOLD_OVF (which
of these causes is named where several hold is the choice of assumption 132, not of a rule); else its post-increments
retire with the issue cycle and the operation seeks its ports. (R264, R265, R110, R261, R345, R384) -/
def Obligations.VectorOperationsFromStorage : Prop :=
  ∀ (i : Instr) (s : State) (c : Core), Ready i s c → classOf i = some .V → isNil i = false → isHold i = false →
    (let w := match tapReg i with
      | some r => rdS s.focus c r
      | none => 0
    let dst := match vDst i with
      | some d => fDst s.focus c d
      | none => .grid 0
    (vBusy s.focus c i = true → exec i s = .next (s.withCore (takeTrap s.focus cUNITBUSY 0 c))) ∧
    (vBusy s.focus c i = false → ∀ e, (tapReg i).isSome = true → tapCheck c w = some e →
      exec i s = .next (s.withCore (takeTrap s.focus e 0 c))) ∧
    (vBusy s.focus c i = false → ((tapReg i).isSome = true → tapCheck c w = none) →
      (∀ k v, firstTrap s.focus c (vAddrs s.focus c i) = some (k, v) →
        exec i s = .next (s.withCore (takeTrap s.focus k (wN v) c))) ∧
      (firstTrap s.focus c (vAddrs s.focus c i) = none →
        (256 < c.storeUse + vNeed c i dst w → exec i s = .next (s.withCore (takeTrap s.focus cWITHHOLD 0 c))) ∧
        (c.storeUse + vNeed c i dst w ≤ 256 → exec i s = .next (s.withCore (vOccupy i
          (launch (vFlight i s.focus c w dst)
            (if vBumps s.focus c i = [] then c else retire s.focus 1 0 (vBumps s.focus c i) c))))))))

/-- A V1 operation whose unit is still occupied traps UNIT_BUSY with rollback. A V1 operation of the primary whose unit is
occupied does not issue: its effect is the trap UNIT_BUSY of its slot and bundle, taken with rollback to the shadow.
(R261) -/
def Obligations.UnitBusyTrap : Prop :=
  ∀ (i : Instr) (s : State) (c : Core), Ready i s c → classOf i = some .V → isNil i = false → isHold i = false → ofPrim s.focus →
    s.focus.slot = 4 → (0 < c.p.v1Busy ∨ (transBf i).isSome = true ∧ 0 < c.p.vtBusy) →
    ∃ e : Core, exec i s = .next (s.withCore e) ∧ e.p = c.shadow ∧ e.withheld = [] ∧ e.newWith = [] ∧
      e.run = .restore 16 false 0x15 ∧ e.trapRec0 = trapRecord 0x15 4 0 s.focus.bundle c.region

/-- The integer, bitwise and moving operations on 32-bit lanes, lane by lane. Of vectors of 64 lanes, the .s32 results of
VADD, VSUB, VMUL, VFMA, VFMS, VMIN, VMAX, VCLAMP, VABS, VNEG and the shifts, and the results of VAND, VOR, VXOR, VMOV,
VBC and VIOTA, are in every lane the arithmetic of the lanes as signed or unsigned 32-bit numbers; the lanes the
predicate selects are written, or every lane where the operation says so. (R262, R266, R271, R279, R270) -/
def Obligations.WordLaneResults : Prop :=
  ∀ (p : BitVec 2) (d x y : BitVec 9) (l : BitVec 6) (m : Word) (vx vy vd : Vec),
    vx.length = 64 → vy.length = 64 → vd.length = 64 →
    let z (a : Lane) : Int := a.toInt
    let l2 (f : Lane → Lane → Lane) : Option ((Vec × Flags) × Word) := some ((List.zipWith f vx vy, 0), m)
    vecRes (.vadd 5 p d x y) m vx vy vd = l2 (fun a b => BitVec.ofInt 32 (z a + z b)) ∧
    vecRes (.vsub 5 p d x y) m vx vy vd = l2 (fun a b => BitVec.ofInt 32 (z a - z b)) ∧
    vecRes (.vmul 5 p d x y) m vx vy vd = l2 (fun a b => BitVec.ofInt 32 (z a * z b)) ∧
    vecRes (.vmin 5 p d x y) m vx vy vd = l2 (fun a b => BitVec.ofInt 32 (min (z a) (z b))) ∧
    vecRes (.vmax 5 p d x y) m vx vy vd = l2 (fun a b => BitVec.ofInt 32 (max (z a) (z b))) ∧
    vecRes (.vshl 5 p d x y) m vx vy vd = l2 (fun a b => a <<< (b.toNat % 32)) ∧
    vecRes (.vshr 5 p d x y) m vx vy vd = l2 (fun a b => a >>> (b.toNat % 32)) ∧
    vecRes (.vsar 5 p d x y) m vx vy vd = l2 (fun a b => a.sshiftRight (b.toNat % 32)) ∧
    vecRes (.vand 5 p d x y) m vx vy vd = l2 (fun a b => a &&& b) ∧
    vecRes (.vor 5 p d x y) m vx vy vd = l2 (fun a b => a ||| b) ∧
    vecRes (.vxor 5 p d x y) m vx vy vd = l2 (fun a b => a ^^^ b) ∧
    vecRes (.vfma 5 p d x y) m vx vy vd = some ((List.zipWith (fun c (e : Lane × Lane) =>
      BitVec.ofInt 32 (z c + z e.1 * z e.2)) vd (List.zip vx vy), 0), m) ∧
    vecRes (.vfms 5 p d x y) m vx vy vd = some ((List.zipWith (fun c (e : Lane × Lane) =>
      BitVec.ofInt 32 (z c - z e.1 * z e.2)) vd (List.zip vx vy), 0), m) ∧
    vecRes (.vclamp 5 p d x y) m vx vy vd = some ((List.zipWith (fun c (e : Lane × Lane) =>
      BitVec.ofInt 32 (min (max (z e.1) (z c)) (z e.2))) vd (List.zip vx vy), 0), m) ∧
    vecRes (.vabs 5 p d x) m vx vy vd = some ((vx.map (fun a => BitVec.ofInt 32 (z a).natAbs), 0), m) ∧
    vecRes (.vneg 5 p d x) m vx vy vd = some ((vx.map (fun a => BitVec.ofInt 32 (-(z a))), 0), m) ∧
    vecRes (.vmov 5 p d x) m vx vy vd = some ((vx, 0), m) ∧
    vecRes (.vbc 5 p d x l) m vx vy vd = some ((vx.map (fun _ => vx.getD l.toNat 0), 0), m) ∧
    vecRes (.viota 5 p d) m vx vy vd = some (((List.range 64).map (fun e => BitVec.ofNat 32 e), 0), m)

/-- The .f32 operations apply the scalar arithmetic to every lane and join the flags of all lanes. Of vectors of 64 lanes,
the .f32 results of VADD, VSUB, VMUL, VMIN, VMAX, VRCP, VRSQ, VEXP2, VLOG2 and VTANH are in every lane the result of
the FP32 arithmetic, the flags being the union over all lanes, suppressed ones included; the lanes the predicate
selects are written. (R262, R266, R198, R199, R200, R273, R274, R275, R276) -/
def Obligations.FloatLaneResults : Prop :=
  ∀ (p : BitVec 2) (d x y : BitVec 9) (m : Word) (vx vy vd : Vec), vx.length = 64 → vy.length = 64 →
    let l2 (f : Nat → Nat → Nat × Flags) : Option ((Vec × Flags) × Word) :=
      let r := List.zipWith (fun (a b : Lane) => f a.toNat b.toNat) vx vy
      some ((r.map (fun e => BitVec.ofNat 32 e.1), r.foldl (fun u e => u ||| e.2) 0), m)
    let l1 (f : Nat → Nat × Flags) : Option ((Vec × Flags) × Word) :=
      let r := vx.map (fun a => f a.toNat)
      some ((r.map (fun e => BitVec.ofNat 32 e.1), r.foldl (fun u e => u ||| e.2) 0), m)
    vecRes (.vadd 0 p d x y) m vx vy vd = l2 (fpAdd fmt32) ∧
    vecRes (.vsub 0 p d x y) m vx vy vd = l2 (fpSub fmt32) ∧
    vecRes (.vmul 0 p d x y) m vx vy vd = l2 (fpMul fmt32) ∧
    vecRes (.vmin 0 p d x y) m vx vy vd = l2 (fun a b => (fpMin fmt32 a b, 0)) ∧
    vecRes (.vmax 0 p d x y) m vx vy vd = l2 (fun a b => (fpMax fmt32 a b, 0)) ∧
    vecRes (.vrcp 0 p d x) m vx vy vd = l1 rcp32 ∧
    vecRes (.vrsq 0 p d x) m vx vy vd = l1 rsq32 ∧
    vecRes (.vexp2 0 p d x) m vx vy vd = l1 exp232 ∧
    vecRes (.vlog2 0 p d x) m vx vy vd = l1 log232 ∧
    vecRes (.vtanh 0 p d x) m vx vy vd = l1 tanh32

/-- VSEL writes every lane from x where the predicate bit is 1 and from y where it is 0, bit for bit. The result of VSEL
has lane i of x where bit i of the selected predicate is 1 and lane i of y where it is 0, and every lane is written;
under p0 it is x. (R268) -/
def Obligations.SelectCopiesLanes : Prop :=
  ∀ (p : BitVec 2) (d x y : BitVec 9) (m : Word) (vx vy vd : Vec), vx.length = 64 → vy.length = 64 →
    ∃ r, vecRes (.vsel 5 p d x y) m vx vy vd = some ((r, 0), BitVec.allOnes 64) ∧ r.length = 64 ∧
      (∀ i, i < 64 → r.getD i 0 = if m.getLsbD i then vx.getD i 0 else vy.getD i 0) ∧
      (∀ c : Core, m = rdP c 0 → r = vx)

/-- VCMP writes a predicate: bit i when the lane is enabled and every element pair of it satisfies the relation. The
effect of VCMP on .s32 operands is one predicate: bit i is 1 exactly when bit i of the selecting predicate is 1 and
lane i of x and lane i of y, read signed or, with N, as natural numbers, satisfy the relation of the condition code:
equal, not equal, less, less or equal, greater, greater or equal. A landing on p0 is discarded. (R267, R94, R51) -/
def Obligations.CompareWritesPredicate : Prop :=
  (∀ (c : Core) (p q : BitVec 2) (k : BitVec 3) (n : BitVec 1) (x y : BitVec 9) (dst : VDst) (m w : Word) (t b : Nat)
      (qs : List QReg) (vx vy vd : Vec), k.toNat < 6 →
    ∃ v, vecEffs c (.vcmp 5 p q k n x y) dst m w t b qs vx vy vd = (0, [.preg q.toNat v]) ∧
      ∀ i, i < 64 → v.getLsbD i = (m.getLsbD i &&
        (let a : Lane := vx.getD i 0
         let e : Lane := vy.getD i 0
         let u : Int := if n = 1 then a.toNat else a.toInt
         let z : Int := if n = 1 then e.toNat else e.toInt
         if k = 0 then decide (u = z) else if k = 1 then decide (u ≠ z) else if k = 2 then decide (u < z)
         else if k = 3 then decide (u ≤ z) else if k = 4 then decide (z < u) else decide (z ≤ u)))) ∧
  (∀ (e : Pend) (c : Core) (v : Word) (q : Nat), rdP (landEff e c (.preg 0 v)) q = rdP c q) ∧
  (∀ (e : Pend) (c : Core) (v : Word) (q : Nat), q ≠ 0 → rdP (landEff e c (.preg q v)) q = v)

/-- QTAG sets the tag mask, or ORs into it, and changes no point. The effect of QTAG lands at the end of its issue cycle:
the tag mask of the register becomes the immediate, or with .or the old mask with the bits of the immediate set; the
points of every register are as before, and so is every other tag mask. (R334) -/
def Obligations.TagMaskSet : Prop :=
  (∀ (t : BitVec 3) (p : BitVec 2) (d : BitVec 4) (m : BitVec 16) (fo : Focus) (c : Core),
    latV (.qtag t p d m) = 1 ∧ (gridEffs (.qtag t p d m) fo c).2 = [.qtag d.toNat m (decide (t = 1))]) ∧
  (∀ (e : Pend) (c : Core) (d : Nat) (m : BitVec 16) (o : Bool),
    let r := landEff e c (.qtag d m o)
    (spGet qReg0 r.p.q d).tag = (if o then (spGet qReg0 c.p.q d).tag ||| m else m) ∧
    (∀ k, (spGet qReg0 r.p.q k).lanes = (spGet qReg0 c.p.q k).lanes) ∧
    (∀ k, k ≠ d → spGet qReg0 r.p.q k = spGet qReg0 c.p.q k))

/-- The list operations of the sort and sample unit, their latencies and what they bring about. With its lane free, each
operation takes the lane for its occupancy. KMERGEL retires the merge of the 64 lanes under indices that count up from
the register, which moves by 64; of the masked form, of those that pass the valid mask register; KMASK with a valid
mask register retires the mask of the list; GSET.fl retires the flush of the mask cache; GSTEP of a reserved token
retires a result that changes nothing; KMERGE, GSET.ld, GSET.rs and GSTEP seek their access, a masked KMERGE with its
mask register as it stands; KSAMP and GSET.st of the primary retire their store, those of a helper seek its port; a
GMASK that misses seeks its row, one that hits the mask cache retires the cached mask, in the primary behind an access
that only keeps its rank places. GSTEP and GMASK work on the automaton as it stands at their issue (assumption 55,
DEDUCED). A masked form without a valid mask register traps GRAM_NOMASK; KSEND sends its list, withheld in the primary
and at once from a helper; a route word with bits above 15, or of a tree or node that does not take it (R411), traps
POST_TARGET; KSAMP of an empty row under KTRAP traps KSAMP_EMPTY. The K lane of the primary occupied traps UNIT_BUSY,
whatever the operation. (R300, R301, R302, R304, R306, R307, R310, R312, R313, R316, R317, R318) -/
def Obligations.SortUnitOperations : Prop :=
  (∀ (r : BitVec 3) (g : BitVec 8) (a : BitVec 4), DoesWhen (.kmergel r g a 0) laneFree (fun fo c =>
    retire fo (6 + (fo.beats - 1)) 0 [.list r.toNat (.merge (List.zip (rdGrid c g.toNat)
        ((List.range 64).map (fun i => rdA fo c a.toNat + BitVec.ofNat 32 i))))]
      (retire fo 1 0 [effA fo a.toNat (rdA fo c a.toNat + 64)] (laneTake (.kmergel r g a 0) fo c)))) ∧
  (∀ (r : BitVec 3) (g : BitVec 8) (a : BitVec 4), DoesWhen (.kmergel r g a 1)
    (fun fo c => laneFree fo c ∧ (maskOf fo c).valid = true) (fun fo c =>
    retire fo (6 + (fo.beats - 1)) 0 [.list r.toNat (.merge ((List.zip (rdGrid c g.toNat)
        ((List.range 64).map (fun i => rdA fo c a.toNat + BitVec.ofNat 32 i))).filter
          (fun e => decide (e.2.toNat / 512 = (maskOf fo c).chunk) && (maskOf fo c).bits.getLsbD (e.2.toNat % 512))))]
      (retire fo 1 0 [effA fo a.toNat (rdA fo c a.toNat + 64)] (laneTake (.kmergel r g a 1) fo c)))) ∧
  (∀ (r : BitVec 3) (g : BitVec 8) (a : BitVec 4), DoesWhen (.kmergel r g a 1)
    (fun fo c => laneFree fo c ∧ (maskOf fo c).valid = false)
    (fun fo c => takeTrap fo cGRAMNOMASK 0 (laneTake (.kmergel r g a 1) fo c))) ∧
  (∀ (r : BitVec 3) (g : BitVec 8) (a : BitVec 4) (m : BitVec 1), DoesWhen (.kmerge r g a m)
    (fun fo c => laneFree fo c ∧ addrTrap fo c (rdA fo c a.toNat).toNat 256 4 = none ∧ (m = 1 → (maskOf fo c).valid = true))
    (fun fo c => let c1 := laneTake (.kmerge r g a m) fo c
      launch { mkFlight (.kmerge r g a m) fo c1 [mkAcc 0 (rdA fo c a.toNat).toNat 256] (6 + (fo.beats - 1)) with
               vx := rdGrid c g.toNat, mreg := if m = 1 then some (maskOf fo c) else none }
        (retire fo 1 0 [effA fo a.toNat (rdA fo c a.toNat + 256)] c1))) ∧
  (∀ (r : BitVec 3) (g : BitVec 8) (a : BitVec 4), DoesWhen (.kmerge r g a 1)
    (fun fo c => laneFree fo c ∧ (maskOf fo c).valid = false)
    (fun fo c => takeTrap fo cGRAMNOMASK 0 (laneTake (.kmerge r g a 1) fo c))) ∧
  (∀ (r : BitVec 3), DoesWhen (.kmask r) (fun fo c => laneFree fo c ∧ (maskOf fo c).valid = true)
    (fun fo c => retire fo 4 0 [.list r.toNat (.mask (maskOf fo c))] (laneTake (.kmask r) fo c))) ∧
  DoesWhen .gsetFl laneFree (fun fo c => retire fo 1 0 [.mcFlush] (laneTake .gsetFl fo c)) ∧
  (∀ (a : BitVec 4), DoesWhen (.gstep a) (fun fo c => laneFree fo c ∧ 0xFFFFFFFE ≤ (rdA fo c a.toNat).toNat)
    (fun fo c => retire fo 5 0 [.gramNone] (laneTake (.gstep a) fo c))) ∧
  (∀ (e : Pend) (c : Core), landEff e c .gramNone = c) ∧
  (∀ (a : BitVec 4), DoesWhen (.gstep a) (fun fo c => laneFree fo c ∧ (gramOf fo c).valid = true ∧
      (rdA fo c a.toNat).toNat < 512 * ((gramOf fo c).nchunk + 1) ∧ (rdA fo c a.toNat).toNat < 0xFFFFFFFE)
    (fun fo c => let c1 := laneTake (.gstep a) fo c
      launch { mkFlight (.gstep a) fo c1 [mkAcc 0 ((gramOf fo c).tcls + (rdA fo c a.toNat).toNat) 1] 5 with gr := gramOf fo c } c1)) ∧
  (∀ (k : BitVec 3), DoesWhen (.gmask k) (fun fo c => laneFree fo c ∧ (gramOf fo c).valid = true ∧ k.toNat ≤ (gramOf fo c).nchunk ∧
      c.mcache.find? (fun e => e.1 = ((gramOf fo c).mask, (gramOf fo c).state, gramTop (gramOf fo c), k.toNat)) = none)
    (fun fo c => let c1 := laneTake (.gmask k) fo c
      let g := gramOf fo c
      addFlight { mkFlight (.gmask k) fo c1 [mkAcc 0 (g.mrow + 2 * (g.state * g.nsym + gramTop g)) 2] 6 with delay := 1, gr := g } c1)) ∧
  (∀ (k : BitVec 3) (row : Nat) (b : BitVec 512), DoesWhen (.gmask k) (fun fo c => laneFree fo c ∧ (gramOf fo c).valid = true ∧
      k.toNat ≤ (gramOf fo c).nchunk ∧
      c.mcache.find? (fun e => e.1 = ((gramOf fo c).mask, (gramOf fo c).state, gramTop (gramOf fo c), k.toNat)) =
        some (((gramOf fo c).mask, (gramOf fo c).state, gramTop (gramOf fo c), k.toNat), row, b))
    (fun fo c => let c1 := laneTake (.gmask k) fo c
      let g := gramOf fo c
      let fin := [Eff.mask ⟨true, k.toNat, b⟩, Eff.mcFill (g.mask, g.state, gramTop g, k.toNat) row b false]
      match fo.ctx with
      | .helper _ => retire fo 6 0 fin c1
      | _ => addFlight { mkFlight (.gmask k) fo c1 [ghostIf true (mkAcc 0 (g.mrow + 2 * (g.state * g.nsym + gramTop g)) 2)] 6 with
               delay := 1, vals := [wN row], fin := fin, gr := g } c1)) ∧
  (∀ (a : BitVec 4), DoesWhen (.gsetLd a) (fun fo c => laneFree fo c ∧ addrTrap fo c (rdA fo c a.toNat).toNat 64 64 = none)
    (fun fo c => let c1 := laneTake (.gsetLd a) fo c
      launch (mkFlight (.gsetLd a) fo c1 [mkAcc 0 (rdA fo c a.toNat).toNat 64] 3) c1)) ∧
  (∀ (a : BitVec 4), DoesWhen (.gsetRs a) (fun fo c => laneFree fo c ∧ addrTrap fo c (rdA fo c a.toNat).toNat 64 64 = none)
    (fun fo c => let c1 := laneTake (.gsetRs a) fo c
      launch (mkFlight (.gsetRs a) fo c1 [mkAcc 0 (rdA fo c a.toNat).toNat 64] 3) c1)) ∧
  (∀ (a : BitVec 4), DoesWhen (.gsetSt a) (fun fo c => laneFree fo c ∧ ofPrim fo ∧ c.storeUse < 256 ∧
      addrTrap fo c (rdA fo c a.toNat).toNat 64 64 = none)
    (fun fo c => retire fo 1 0 [.withhold (.store (rdA fo c a.toNat).toNat (gramImage (gramOf fo c)))] (laneTake (.gsetSt a) fo c))) ∧
  (∀ (a : BitVec 4) (h : Nat), DoesWhen (.gsetSt a) (fun fo c => ofHelper fo h ∧ addrTrap fo c (rdA fo c a.toNat).toNat 64 64 = none)
    (fun fo c => let c1 := laneTake (.gsetSt a) fo c
      launch { mkFlight (.gsetSt a) fo c1 [mkAcc 0 (rdA fo c a.toNat).toNat 64] 1 with
               vals := [wN (rdA fo c a.toNat).toNat], data := gramImage (gramOf fo c1) } c1)) ∧
  (∀ (r : BitVec 3) (g : BitVec 8) (a : BitVec 4) (p : BitVec 2), DoesWhen (.ksamp r g a p)
    (fun fo c => laneFree fo c ∧ ofPrim fo ∧ c.storeUse < 256 ∧ addrTrap fo c (rdA fo c a.toNat).toNat 8 8 = none ∧ c.ktrap = false)
    (fun fo c => let sm := sampOf r g p c
      retire fo (12 + (fo.beats - 1)) 0 [.withhold (.store (rdA fo c a.toNat).toNat (leBytes 8 (sampRec sm))),
        .kstat sm.nan sm.held sm.empty sm.badt] (laneTake (.ksamp r g a p) fo c))) ∧
  (∀ (r : BitVec 3) (g : BitVec 8) (a : BitVec 4) (p : BitVec 2) (h : Nat), DoesWhen (.ksamp r g a p)
    (fun fo c => ofHelper fo h ∧ addrTrap fo c (rdA fo c a.toNat).toNat 8 8 = none ∧ c.ktrap = false)
    (fun fo c => let sm := sampOf r g p c
      let c1 := laneTake (.ksamp r g a p) fo c
      addFlight { mkFlight (.ksamp r g a p) fo c1 [mkAcc 0 (rdA fo c a.toNat).toNat 8] 1 with
                  vals := [wN (rdA fo c a.toNat).toNat], data := leBytes 8 (sampRec sm), delay := 11 + (fo.beats - 1),
                  fin := [.kstat sm.nan sm.held sm.empty sm.badt] } c1)) ∧
  (∀ (r : BitVec 3) (a : BitVec 4) (s : State) (c : Core), Ready (.ksend r a) s c → ofPrim s.focus → c.p.kBusy = 0 →
    s.treeTakes c (rdA s.focus c a.toNat).toNat = true → (rdA s.focus c a.toNat).toNat < 2 ^ 16 →
    fits c (.ksend ((rdA s.focus c a.toNat).toNat % 256) ((rdA s.focus c a.toNat).toNat / 256) (spGet candList0 c.lists r.toNat)) = true →
    exec (.ksend r a) s = .next (s.withCore
      (let c1 := laneTake (.ksend r a) s.focus c
       { c1 with newWith := c1.newWith ++ [⟨ordOf s.focus c, .ksend ((rdA s.focus c a.toNat).toNat % 256)
          ((rdA s.focus c a.toNat).toNat / 256) (spGet candList0 c.lists r.toNat)⟩] }))) ∧
  (∀ (r : BitVec 3) (a : BitVec 4) (s : State) (c : Core) (h : Nat), Ready (.ksend r a) s c → ofHelper s.focus h →
    s.treeTakes c (rdA s.focus c a.toNat).toNat = true → (rdA s.focus c a.toNat).toNat < 2 ^ 16 →
    exec (.ksend r a) s = .next (s.withCore
      (let c1 := laneTake (.ksend r a) s.focus c
       { c1 with cyc := { c1.cyc with out := c1.cyc.out ++ [(s.focus.ctx, .ksend ((rdA s.focus c a.toNat).toNat % 256)
          ((rdA s.focus c a.toNat).toNat / 256) (spGet candList0 c.lists r.toNat))] } }))) ∧
  (∀ (r : BitVec 3) (a : BitVec 4) (s : State) (c : Core), Ready (.ksend r a) s c → laneFree s.focus c →
    (s.treeTakes c (rdA s.focus c a.toNat).toNat = false ∨ 2 ^ 16 ≤ (rdA s.focus c a.toNat).toNat) →
    exec (.ksend r a) s = .next (s.withCore (takeTrap s.focus cPOSTTARGET 0 (laneTake (.ksend r a) s.focus c)))) ∧
  (∀ (r : BitVec 3) (g : BitVec 8) (a : BitVec 4) (p : BitVec 2), DoesWhen (.ksamp r g a p)
    (fun fo c => laneFree fo c ∧ addrTrap fo c (rdA fo c a.toNat).toNat 8 8 = none ∧ c.ktrap = true ∧ (sampOf r g p c).empty = true)
    (fun fo c => takeTrap fo cKSAMPEMPTY 0 (laneTake (.ksamp r g a p) fo c))) ∧
  (∀ i : Instr, (match i with
      | .kclr _ => True
      | .kmerge _ _ _ _ => True
      | .kmergel _ _ _ _ => True
      | .ksort _ _ _ => True
      | .ktop _ _ _ => True
      | .ksamp _ _ _ _ => True
      | .kmask _ => True
      | .ksend _ _ => True
      | .gsetLd _ => True
      | .gsetSt _ => True
      | .gsetRs _ => True
      | .gsetFl => True
      | .gstep _ => True
      | .gmask _ => True
      | _ => False) →
    DoesWhen i (fun fo c => ofPrim fo ∧ 0 < c.p.kBusy) (fun fo c => takeTrap fo cUNITBUSY 0 c))

/-- KCLR sets the count of its list and every entry to 0; KTOP writes one lane for each position of the list. With its
lane free KCLR retires a clear of its list with the issue cycle; when it lands the list has count 0 and 64 entries
that are 0, and every other list is as before. With its lane free KTOP retires one vector of 64 lanes for every lane
of its grid destination: at position p below the count the score, or with I = 1 the index; at and beyond the count
0xFF800000 or 0xFFFFFFFF. (R305, R309) -/
def Obligations.ClearList : Prop :=
  ((∀ (r : BitVec 3), DoesWhen (.kclr r) laneFree (fun fo c => retire fo 1 0 [.list r.toNat .clear] (laneTake (.kclr r) fo c))) ∧
  (∀ (e : Pend) (c : Core) (r : Nat),
    let d := landEff e c (.list r .clear)
    (spGet candList0 d.lists r).count = 0 ∧ (spGet candList0 d.lists r).ents = List.replicate 64 (0, 0) ∧
    (∀ k, k ≠ r → spGet candList0 d.lists k = spGet candList0 c.lists k))) ∧
  (∀ (r : BitVec 3) (g : BitVec 8) (k : BitVec 1) (s : State) (c : Core), Ready (.ktop r g k) s c → laneFree s.focus c →
    ∃ v : Vec, exec (.ktop r g k) s = .next (s.withCore
        (retire s.focus 3 0 [.vec (.grid g.toNat) v (BitVec.allOnes 64)] (laneTake (.ktop r g k) s.focus c))) ∧
      v.length = 64 ∧ ∀ p, p < 64 → v.getD p 0 =
        (let l := spGet candList0 c.lists r.toNat
         if p < l.count then (if k = 1 then (l.ents.getD p (0, 0)).2 else (l.ents.getD p (0, 0)).1)
         else if k = 1 then 0xFFFFFFFF else 0xFF800000))

/-- KSORT orders 64 lanes, or the list itself, by score descending and index ascending, stably. Of two entries the one of
greater score ranks ahead, of equal scores, −0 being equal to +0, the one of smaller index; plus infinity ranks ahead
of every number, minus infinity behind it, and a NaN as minus infinity. With its lane free KSORT retires, for S = 0,
the sort of the 64 lanes under indices 0 to 63 and, for S = 1, the sort of the list. A sorted list is a permutation of
what was sorted, every entry of it does not rank behind a later one, and entries of equal rank keep their order; a
sort of 64 lanes has count 64. (R308, R303, R304, R199) -/
def Obligations.SortingLists : Prop :=
  (∀ (r : BitVec 3) (g : BitVec 8), DoesWhen (.ksort r g 0) laneFree (fun fo c =>
    retire fo (6 + (fo.beats - 1)) 0 [.list r.toNat (.sortNew (List.zip (rdGrid c g.toNat)
      ((List.range 64).map (fun i => BitVec.ofNat 32 i))))] (laneTake (.ksort r g 0) fo c))) ∧
  (∀ (r : BitVec 3) (g : BitVec 8), DoesWhen (.ksort r g 1) laneFree (fun fo c =>
    retire fo 6 0 [.list r.toNat .sortSelf] (laneTake (.ksort r g 1) fo c))) ∧
  (∀ l : List (Lane × Lane), (rankSort l).Perm l ∧ (rankSort l).Pairwise (fun a b => ranksAhead b a = false) ∧
    ∀ a : Lane × Lane, (rankSort l).filter (fun b => !ranksAhead a b && !ranksAhead b a) =
      l.filter (fun b => !ranksAhead a b && !ranksAhead b a)) ∧
  (∀ (a b : Lane × Lane) (p q : Rat) (x y : Bool), v32 a.1.toNat = .fin p x → v32 b.1.toNat = .fin q y →
    (ranksAhead a b = true ↔ q < p ∨ p = q ∧ a.2.toNat < b.2.toNat)) ∧
  (∀ (a b : Lane × Lane) (q : Rat) (y : Bool), v32 b.1.toNat = .fin q y →
    (a.1 = 0x7F800000 → ranksAhead a b = true ∧ ranksAhead b a = false) ∧
    (a.1 = 0xFF800000 → ranksAhead a b = false ∧ ranksAhead b a = true)) ∧
  (∀ (i j : Lane), ranksAhead (0x7F800000, i) (0xFF800000, j) = true ∧ ranksAhead (0xFF800000, i) (0x7F800000, j) = false ∧
    (∀ v : Lane, v = 0x7F800000 ∨ v = 0xFF800000 → ranksAhead (v, i) (v, j) = decide (i.toNat < j.toNat))) ∧
  (∀ (a b : Lane × Lane), v32 a.1.toNat = .nan →
    ranksAhead a b = ranksAhead (0xFF800000, a.2) b ∧ ranksAhead b a = ranksAhead b (0xFF800000, a.2)) ∧
  (∀ (v : Vec) (l : CandList), v.length = 64 →
    (applyList (.sortNew (List.zip v ((List.range 64).map (fun i => BitVec.ofNat 32 i)))) l).1.count = 64)

/-- Engine commands are withheld with their register values; EQRY answers what its selector names. With room in the
withhold buffer every engine command is withheld with the values its registers hold at issue; a matrix command, and
CNEXT for its MMUL, also adds one to the count of matrix commands issued; CSEAL adds one to the sealed count of its
queue and retires it to its register. SENDM to a core number of the right form withholds its message, to any other
value traps POST_TARGET; a form without room traps as WithheldEffects states. EQRY writes its register with latency 2.
Item 0 is the timeline of the queue, item 1 its sealed count, item 4 the matrix timeline, item 5 the timed commands
waiting; a selector with bits above the table or an item above 7 gives all ones. Nothing else changes. (R143, R144,
R150, R152, R153, R154, R155, R156, R157, R284, R230, R293) -/
def Obligations.EngineCommandsIssue : Prop :=
  ((∀ (x y z : BitVec 6) (l b : BitVec 1), DoesWhen (.mmul x y z l b) (fun fo c => fits c (.cmd ⟨0x10, 0, rdS fo c x.toNat,
      rdS fo c y.toNat, rdS fo c z.toNat, 2 * l.toNat + b.toNat, fo.bundle⟩) = true)
    (fun fo c => { c with p := { c.p with mIssued := c.p.mIssued + 1 }, newWith := c.newWith ++ [⟨ordOf fo c, .cmd ⟨0x10, 0,
      rdS fo c x.toNat, rdS fo c y.toNat, rdS fo c z.toNat, 2 * l.toNat + b.toNat, fo.bundle⟩⟩] })) ∧
  (∀ (x y z : BitVec 6) (b : BitVec 1), DoesWhen (.mdrain x y z b) (fun fo c => fits c (.cmd ⟨0x11, 0, rdS fo c x.toNat,
      rdS fo c y.toNat, rdS fo c z.toNat, b.toNat, fo.bundle⟩) = true)
    (fun fo c => { c with p := { c.p with mIssued := c.p.mIssued + 1 }, newWith := c.newWith ++ [⟨ordOf fo c, .cmd ⟨0x11, 0,
      rdS fo c x.toNat, rdS fo c y.toNat, rdS fo c z.toNat, b.toNat, fo.bundle⟩⟩] })) ∧
  (∀ (x y z : BitVec 6), DoesWhen (.bfill x y z) (fun fo c => fits c (.cmd ⟨0x12, 0, rdS fo c x.toNat,
      rdS fo c y.toNat, rdS fo c z.toNat, 0, fo.bundle⟩) = true)
    (fun fo c => { c with p := { c.p with mIssued := c.p.mIssued + 1 }, newWith := c.newWith ++ [⟨ordOf fo c, .cmd ⟨0x12, 0,
      rdS fo c x.toNat, rdS fo c y.toNat, rdS fo c z.toNat, 0, fo.bundle⟩⟩] })) ∧
  (∀ (x : BitVec 6), DoesWhen (.mcode x) (fun fo c => fits c (.cmd ⟨0x13, 0, rdS fo c x.toNat, 0, 0, 0, fo.bundle⟩) = true)
    (fun fo c => { c with p := { c.p with mIssued := c.p.mIssued + 1 }, newWith := c.newWith ++ [⟨ordOf fo c,
      .cmd ⟨0x13, 0, rdS fo c x.toNat, 0, 0, 0, fo.bundle⟩⟩] })) ∧
  (∀ (x y z : BitVec 6), DoesWhen (.swap x y z) (fun fo c => fits c (.cmd ⟨0x14, 0, rdS fo c x.toNat,
      rdS fo c y.toNat, rdS fo c z.toNat, 0, fo.bundle⟩) = true)
    (fun fo c => { c with p := { c.p with mIssued := c.p.mIssued + 1 }, newWith := c.newWith ++ [⟨ordOf fo c, .cmd ⟨0x14, 0,
      rdS fo c x.toNat, rdS fo c y.toNat, rdS fo c z.toNat, 0, fo.bundle⟩⟩] })) ∧
  (∀ (x y z : BitVec 6) (q : BitVec 2), DoesWhen (.cpy x y z q) (fun fo c => fits c (.cmd ⟨0x20, q.toNat, rdS fo c x.toNat,
      rdS fo c y.toNat, rdS fo c z.toNat, 0, fo.bundle⟩) = true)
    (fun fo c => { c with newWith := c.newWith ++ [⟨ordOf fo c, .cmd ⟨0x20, q.toNat, rdS fo c x.toNat, rdS fo c y.toNat,
      rdS fo c z.toNat, 0, fo.bundle⟩⟩] })) ∧
  (∀ (x z : BitVec 6) (q : BitVec 2),
    DoesWhen (.cpyt x z q) (fun fo c => fits c (.cmd ⟨0x21, q.toNat, rdS fo c x.toNat, 0, rdS fo c z.toNat, 0, fo.bundle⟩) = true)
      (fun fo c => withholdNow fo (.cmd ⟨0x21, q.toNat, rdS fo c x.toNat, 0, rdS fo c z.toNat, 0, fo.bundle⟩) c) ∧
    DoesWhen (.cgath x z q) (fun fo c => fits c (.cmd ⟨0x22, q.toNat, rdS fo c x.toNat, 0, rdS fo c z.toNat, 0, fo.bundle⟩) = true)
      (fun fo c => withholdNow fo (.cmd ⟨0x22, q.toNat, rdS fo c x.toNat, 0, rdS fo c z.toNat, 0, fo.bundle⟩) c) ∧
    DoesWhen (.cscat x z q) (fun fo c => fits c (.cmd ⟨0x23, q.toNat, rdS fo c x.toNat, 0, rdS fo c z.toNat, 0, fo.bundle⟩) = true)
      (fun fo c => withholdNow fo (.cmd ⟨0x23, q.toNat, rdS fo c x.toNat, 0, rdS fo c z.toNat, 0, fo.bundle⟩) c) ∧
    DoesWhen (.ctime x q) (fun fo c => fits c (.cmd ⟨0x25, q.toNat, rdS fo c x.toNat, 0, 0, 0, fo.bundle⟩) = true)
      (fun fo c => withholdNow fo (.cmd ⟨0x25, q.toNat, rdS fo c x.toNat, 0, 0, 0, fo.bundle⟩) c)) ∧
  (∀ (x y z : BitVec 6) (q : BitVec 2) (l b : BitVec 1), DoesWhen (.cnext x y z q l b) (fun fo c => fits c (.cmd ⟨0x26, q.toNat,
      rdS fo c x.toNat, rdS fo c y.toNat, rdS fo c z.toNat, 2 * l.toNat + b.toNat, fo.bundle⟩) = true)
    (fun fo c => withholdNow fo (.cmd ⟨0x26, q.toNat, rdS fo c x.toNat, rdS fo c y.toNat, rdS fo c z.toNat,
      2 * l.toNat + b.toNat, fo.bundle⟩) { c with p := { c.p with mIssued := c.p.mIssued + 1 } })) ∧
  (∀ (x : BitVec 6) (q : BitVec 2), DoesWhen (.cseal x q)
    (fun fo c => fits c (.cmd ⟨0x24, q.toNat, 0, 0, 0, 0, fo.bundle⟩) = true)
    (fun fo c => let n := (c.p.sealed.getD q.toNat 0 + 1) % 2 ^ 64
      retireS fo 1 0 x.toNat (wN n) (withholdNow fo (.cmd ⟨0x24, q.toNat, 0, 0, 0, 0, fo.bundle⟩)
        { c with p := { c.p with sealed := setAt c.p.sealed q.toNat n } }))) ∧
  (∀ (x y : BitVec 6) (m : BitVec 5), DoesWhen (.sendm x y m) (fun fo c => (rdS fo c x.toNat).toNat < 512 ∧
      (rdS fo c x.toNat).toNat % 128 < 120 ∧ fits c (.sendm (rdS fo c x.toNat).toNat m.toNat (rdS fo c y.toNat)) = true)
    (fun fo c => withholdNow fo (.sendm (rdS fo c x.toNat).toNat m.toNat (rdS fo c y.toNat)) c)) ∧
  (∀ (x y : BitVec 6) (m : BitVec 5), DoesWhen (.sendm x y m)
    (fun fo c => 512 ≤ (rdS fo c x.toNat).toNat ∨ 120 ≤ (rdS fo c x.toNat).toNat % 128)
    (fun fo c => takeTrap fo cPOSTTARGET 0 c))) ∧
  ((∀ (x y : BitVec 6), Does (.eqry x y) (fun fo c => retireS fo 2 0 x.toNat (eqryVal c (rdS fo c y.toNat)) c)) ∧
  (∀ (c : Core) (q : Nat), q < 4 → eqryVal c (wN q) = wN (c.eng.qs.getD q copyQ0).tl ∧
    eqryVal c (wN (4 + q)) = wN (c.p.sealed.getD q 0)) ∧
  (∀ c : Core, c.upper = false → eqryVal c (wN 16) = wN c.mat.tl) ∧
  (∀ c : Core, eqryVal c (wN 20) = wN c.eng.tsb.length) ∧
  (∀ (c : Core) (v : Word), (2 ^ 12 ≤ v.toNat ∨ 8 ≤ v.toNat / 4 % 16) → eqryVal c v = BitVec.allOnes 64))

/-- A wait whose condition holds issues: FWAIT subtracts its count, PHASE has fills under way kept from the cache, no
other changes anything. FWAIT with the flag at least its count, after the subtractions already due this cycle, retires
the subtraction. TWAIT with its timeline reached and, outside a helper, its value sealed; HWAIT with enough elements
filled and HFREE with enough room; MWAIT with its mailbox present; LWAIT with entries or free places enough; FENCE
with nothing of its context outstanding: each leaves the state as it is. PHASE with every global write performed
notes, and does nothing else, that fills under way are not to be cached. (R127, R129, R132, R133, R135, R136, R137,
R164, R178, R232) -/
def Obligations.WaitsMet : Prop :=
  (∀ (f : BitVec 5) (n : BitVec 13), DoesWhen (.fwait f n)
    (fun _ c => n.toNat + flagTaken c f.toNat ≤ (spGet 0 c.f f.toNat).toNat)
    (fun fo c => retire fo 1 0 [.flagSub f.toNat n.toNat] c)) ∧
  (∀ (i : Instr) (s : State) (c : Core), Ready i s c →
    (match i with
      | .twait t r => (rdS s.focus c r.toNat).toNat ≤ timeline c t.toNat ∧
          ((∃ h, ofHelper s.focus h) ∨ (rdS s.focus c r.toNat).toNat ≤ sealedAt c t.toNat)
      | .hwait h n => n.toNat ≤ hSlots (rdHandle c h.toNat) ∧ n.toNat ≤ hFilled (rdHandle c h.toNat)
      | .hfree h n => hFilled (rdHandle c h.toNat) + n.toNat ≤ hSlots (rdHandle c h.toNat)
      | .mwait m => mbPresent c m.toNat = true
      | .lwait n => n.toNat ≤ if c.upper then liftFill c c.liftSrc else c.liftFree
      | .fence => ((ofPrim s.focus ∨ ofGate s.focus) ∧ primQuiet c = true) ∨
          (∃ h, ofHelper s.focus h ∧ helperQuiet h c = true ∧ noStores h c = true)
      | _ => False) →
    exec i s = .next s) ∧
  DoesWhen .phase (fun _ c => phaseDone c = true) (fun _ c => { c with phaseWb := true })

/-- A wait whose condition fails keeps its context waiting and changes nothing else; some values trap. A wait met at the
start of its cycle issues, whatever the cycle has done since (R132). In the primary any other unmet FWAIT, TWAIT,
HWAIT, HFREE, MWAIT, LWAIT or FENCE leaves the core in its wait, in a helper the core is as it was; each is unmet
exactly when its condition fails and it takes no trap. An unmet PHASE also has the helper cache written back; that it
goes on waiting for stores that siblings issue after it is the reading of assumption 115. TWAIT outside a helper for a
value that is not sealed traps TWAIT_AHEAD; HWAIT and HFREE for more than the ring holds trap HANDLE_RANGE. (R132,
R127, R129, R133, R135, R136, R137, R164, R178, R232) -/
def Obligations.WaitsUnmet : Prop :=
  (∀ (i : Instr), (match i with
      | .fwait _ _ => True
      | .twait _ _ => True
      | .hwait _ _ => True
      | .hfree _ _ => True
      | .mwait _ => True
      | .lwait _ => True
      | .fence => True
      | _ => False) →
    DoesWhen i (fun fo c => ofPrim fo ∧ 10 ∉ c.cyc.met ∧ waitEval fo c i = .unmet) (fun _ c => { c with run := .wait }) ∧
    (∀ h, DoesWhen i (fun fo c => ofHelper fo h ∧ waitEval fo c i = .unmet) (fun _ c => c)) ∧
    DoesWhen i (fun fo c => ofPrim fo ∧ 10 ∈ c.cyc.met ∧ waitEval fo c i = .unmet) (fun _ c => c)) ∧
  (∀ (fo : Focus) (c : Core) (f m : BitVec 5) (n : BitVec 13) (t : BitVec 5) (r : BitVec 6) (h : BitVec 4),
    (waitEval fo c (.fwait f n) = .unmet ↔ (spGet 0 c.f f.toNat).toNat < n.toNat + flagTaken c f.toNat) ∧
    (waitEval fo c (.twait t r) = .unmet ↔ timeline c t.toNat < (rdS fo c r.toNat).toNat ∧
      ((∃ k, ofHelper fo k) ∨ (rdS fo c r.toNat).toNat ≤ sealedAt c t.toNat)) ∧
    (waitEval fo c (.hwait h n) = .unmet ↔ n.toNat ≤ hSlots (rdHandle c h.toNat) ∧ hFilled (rdHandle c h.toNat) < n.toNat) ∧
    (waitEval fo c (.hfree h n) = .unmet ↔ n.toNat ≤ hSlots (rdHandle c h.toNat) ∧
      hSlots (rdHandle c h.toNat) < hFilled (rdHandle c h.toNat) + n.toNat) ∧
    (waitEval fo c (.mwait m) = .unmet ↔ mbPresent c m.toNat = false) ∧
    (waitEval fo c (.lwait n) = .unmet ↔ (if c.upper then liftFill c c.liftSrc else c.liftFree) < n.toNat) ∧
    (waitEval fo c .fence = .unmet ↔ ((∀ k, ¬ofHelper fo k) ∧ primQuiet c = false) ∨
      (∃ k, ofHelper fo k ∧ (helperQuiet k c && noStores k c) = false))) ∧
  DoesWhen .phase (fun fo c => ofPrim fo ∧ 10 ∉ c.cyc.met ∧ phaseDone c = false) (fun _ c => { c with run := .wait, phaseWb := true }) ∧
  DoesWhen .phase (fun fo c => (ofPrim fo ∧ 10 ∈ c.cyc.met ∨ ∃ h, ofHelper fo h) ∧ phaseDone c = false)
    (fun _ c => { c with phaseWb := true }) ∧
  (∀ (t : BitVec 5) (r : BitVec 6), DoesWhen (.twait t r)
    (fun fo c => ofPrim fo ∧ sealedAt c t.toNat < (rdS fo c r.toNat).toNat) (fun fo c => takeTrap fo cTWAITAHEAD 0 c)) ∧
  (∀ (h : BitVec 4) (n : BitVec 13), DoesWhen (.hwait h n)
    (fun _ c => hSlots (rdHandle c h.toNat) < n.toNat) (fun fo c => takeTrap fo cHANDLERANGE 0 c)) ∧
  (∀ (h : BitVec 4) (n : BitVec 13), DoesWhen (.hfree h n)
    (fun _ c => hSlots (rdHandle c h.toNat) < n.toNat) (fun fo c => takeTrap fo cHANDLERANGE 0 c))

/-- FPOST, FPOSTX, HADV, BARA, CHK and CKPT: what each posts, where, and when it traps. The primary withholds its posts
when there is room. FPOST of a helper retires the increment; FPOSTX to a core number of the right form and BARA of a
helper are sent; FPOSTX to another value traps POST_TARGET. HADV retires its advance within the ring and traps past
it; of a handle with a remote end the advance is also posted there, withheld by the primary and sent by a helper. CHK
passes when its timeline has reached its value and traps SCHED_MISS otherwise. CKPT marks the cycle, at whose end the
region closes. (R133, R134, R127, R128, R373, R377, R381, R111) -/
def Obligations.PostsAndMarks : Prop :=
  (∀ (f : BitVec 5) (n : BitVec 13), DoesWhen (.fpost f n) (fun fo c => ofPrim fo ∧ fits c (.flag f.toNat n.toNat) = true)
    (fun fo c => { c with newWith := c.newWith ++ [⟨ordOf fo c, .flag f.toNat n.toNat⟩] })) ∧
  (∀ (f : BitVec 5) (n : BitVec 13) (h : Nat), DoesWhen (.fpost f n) (fun fo _ => ofHelper fo h)
    (fun fo c => retire fo 1 0 [.flagAdd f.toNat n.toNat] c)) ∧
  (∀ (f : BitVec 5) (r : BitVec 6) (n : BitVec 7), DoesWhen (.fpostx f r n)
    (fun fo c => ofPrim fo ∧ (rdS fo c r.toNat).toNat < 512 ∧ (rdS fo c r.toNat).toNat % 128 < 120 ∧
      fits c (.flagx (rdS fo c r.toNat).toNat f.toNat n.toNat) = true)
    (fun fo c => { c with newWith := c.newWith ++ [⟨ordOf fo c, .flagx (rdS fo c r.toNat).toNat f.toNat n.toNat⟩] })) ∧
  (∀ (f : BitVec 5) (r : BitVec 6) (n : BitVec 7), DoesWhen (.fpostx f r n)
    (fun fo c => ¬ofPrim fo ∧ (rdS fo c r.toNat).toNat < 512 ∧ (rdS fo c r.toNat).toNat % 128 < 120)
    (fun fo c => { c with cyc := { c.cyc with out := c.cyc.out ++
      [(fo.ctx, Wh.flagx (rdS fo c r.toNat).toNat f.toNat n.toNat)] } })) ∧
  (∀ (f : BitVec 5) (r : BitVec 6) (n : BitVec 7), DoesWhen (.fpostx f r n)
    (fun fo c => 512 ≤ (rdS fo c r.toNat).toNat ∨ 120 ≤ (rdS fo c r.toNat).toNat % 128)
    (fun fo c => takeTrap fo cPOSTTARGET 0 c)) ∧
  (∀ (h : BitVec 4) (b : BitVec 1) (n : BitVec 12), DoesWhen (.hadv h b n)
    (fun _ c => hRv (rdHandle c h.toNat) = false ∧
      if b = 1 then hFilled (rdHandle c h.toNat) + n.toNat ≤ hSlots (rdHandle c h.toNat)
      else n.toNat ≤ hFilled (rdHandle c h.toNat))
    (fun fo c => retire fo 1 0 [.handle h.toNat (decide (b = 1)) n.toNat] c)) ∧
  (∀ (h : BitVec 4) (b : BitVec 1) (n : BitVec 12),
    let w (c : Core) : Wh := .hadv (hRcore (rdHandle c h.toNat)) (hRh (rdHandle c h.toNat)) (decide (b = 1)) n.toNat
    let within (c : Core) : Prop := hRv (rdHandle c h.toNat) = true ∧
      if b = 1 then hFilled (rdHandle c h.toNat) + n.toNat ≤ hSlots (rdHandle c h.toNat) else n.toNat ≤ hFilled (rdHandle c h.toNat)
    DoesWhen (.hadv h b n) (fun fo c => ofPrim fo ∧ within c ∧ fits c (w c) = true)
      (fun fo c => retire fo 1 0 [.handle h.toNat (decide (b = 1)) n.toNat] { c with newWith := c.newWith ++ [⟨ordOf fo c, w c⟩] }) ∧
    (∀ k, DoesWhen (.hadv h b n) (fun fo c => ofHelper fo k ∧ within c)
      (fun fo c => retire fo 1 0 [.handle h.toNat (decide (b = 1)) n.toNat]
        { c with cyc := { c.cyc with out := c.cyc.out ++ [(fo.ctx, w c)] } }))) ∧
  (∀ (h : BitVec 4) (n : BitVec 12), DoesWhen (.hadv h 1 n)
    (fun _ c => hSlots (rdHandle c h.toNat) < hFilled (rdHandle c h.toNat) + n.toNat)
    (fun fo c => takeTrap fo cHANDLEOVER 0 c)) ∧
  (∀ (h : BitVec 4) (n : BitVec 12), DoesWhen (.hadv h 0 n)
    (fun _ c => hFilled (rdHandle c h.toNat) < n.toNat) (fun fo c => takeTrap fo cHANDLEUNDER 0 c)) ∧
  (∀ (b : BitVec 5) (k : BitVec 3), DoesWhen (.bara b k)
    (fun fo c => ofPrim fo ∧ fits c (.bara (b.toNat * 8 + k.toNat)) = true)
    (fun fo c => { c with newWith := c.newWith ++ [⟨ordOf fo c, .bara (b.toNat * 8 + k.toNat)⟩] })) ∧
  (∀ (b : BitVec 5) (k : BitVec 3), DoesWhen (.bara b k) (fun fo _ => ¬ofPrim fo)
    (fun fo c => { c with cyc := { c.cyc with out := c.cyc.out ++ [(fo.ctx, Wh.bara (b.toNat * 8 + k.toNat))] } })) ∧
  (∀ (r : BitVec 5) (s : State) (c : Core), Ready (.chk r) s c →
    let v := (rdS s.focus c r.toNat).toNat
    (v / 2 ^ 61 < 5 → v % 2 ^ 61 ≤ timeline c (v / 2 ^ 61) → exec (.chk r) s = .next s) ∧
    ((5 ≤ v / 2 ^ 61 ∨ timeline c (v / 2 ^ 61) < v % 2 ^ 61) →
      exec (.chk r) s = .next (s.withCore (takeTrap s.focus cSCHEDMISS 0 c)))) ∧
  Does .ckpt (fun _ c => { c with cyc := { c.cyc with ckpt := true } })

/-- A form that decode refuses traps ILLEGAL; NIL and HOLD change nothing. Every operation of a slot whose form, slot or
context the checks of decode refuse, at a core that runs a launch, takes the trap ILLEGAL of that slot, with the value
0, and has none of its own effect. What they refuse is stated for each slot and context: beside ill-formed words and
the other classes, a branch out of the code store; in the primary global accesses, control flow outside I1, in a delay
slot or a repetition, V1 operations in V0, LIFT, matrix commands and CNEXT on an upper core, LPOP on a base core, CHK
without schedule-check mode and the registers of gateways; in a helper the vector and engine classes, operations of
the primary alone, a HALT mask, BR on a predicate and registers above 31; in a gateway all but what R414 lists (HOLD
there is the choice of assumption 22). Wherever NIL or HOLD of a class stands ready in a slot of that class, executing
it answers the same state; what a HOLD denies to helpers is settled before. (R98, R90, R91, R99, R100, R108, R414,
R251, R255, R82, R80, R214) -/
def Obligations.IllegalFormsTrap : Prop :=
  ((∀ (i : Instr) (s : State) (c : Core), isSlotOp i = true → s.core s.focus.core = some c → legal s.focus c i = false →
    exec i s = .next (s.withCore (takeTrap s.focus cILLEGAL 0 c))) ∧
  (∀ (fo : Focus) (c : Core) (i : Instr), (isNil i = true ∨ isHold i = true) →
    (legal fo c i = true ↔ classOf i = some (slotCls fo.slot) ∧ (isHold i = true → (match fo.ctx with
      | .prim => True
      | .helper _ => False
      | .gate => fo.slot = 0 ∨ fo.slot = 2 ∨ fo.slot = 3 ∨ fo.slot = 7)))) ∧
  (let reach (fo : Focus) (o : BitVec 18) : Prop := 0 ≤ (fo.bundle : Int) + o.toInt ∧
      (fo.bundle : Int) + o.toInt < (if fo.ctx = .gate then 2048 else 16384)
   let form (fo : Focus) (i : Instr) : Prop := wf i = true ∧ isNil i = false ∧ isHold i = false ∧
      classOf i = some (slotCls fo.slot) ∧ (match i with
        | .br _ _ o => reach fo o
        | .brz _ o => reach fo o
        | .brnz _ o => reach fo o
        | .call o => reach fo o
        | .loop _ o => reach fo o
        | _ => True)
   let v1 (i : Instr) : Bool := match i with
      | .vrcp _ _ _ _ => true
      | .vrsq _ _ _ _ => true
      | .vexp2 _ _ _ _ => true
      | .vlog2 _ _ _ _ => true
      | .vtanh _ _ _ _ => true
      | .tap _ _ _ _ => true
      | .tapfin _ _ _ _ => true
      | .vsteer _ _ _ _ _ => true
      | .qset _ _ _ _ _ => true
      | .qadd _ _ _ _ _ => true
      | .qmul _ _ _ _ _ => true
      | .qscale _ _ _ _ _ => true
      | .qshift _ _ _ _ _ => true
      | .qmix _ _ _ _ _ => true
      | .qcond _ _ _ _ _ => true
      | .qmom _ _ _ _ _ => true
      | .qquant _ _ _ _ _ => true
      | .qtag _ _ _ _ => true
      | .qsamp _ _ _ _ _ => true
      | _ => false
   let flow (c : Core) (fo : Focus) : Prop := fo.slot = 1 ∧ c.p.slotDue = false ∧ c.p.rep = none
   let notGate (n : BitVec 12) : Prop := n ≠ 0x600 ∧ n ≠ 0x601
   (∀ (fo : Focus) (c : Core) (i : Instr), ofPrim fo → isNil i = false → isHold i = false →
     (legal fo c i = true ↔ form fo i ∧ (v1 i = true → fo.slot = 4) ∧ (match i with
      | .gld _ _ _ _ => False
      | .gst _ _ _ _ => False
      | .gatom _ _ _ _ _ => False
      | .cinv _ _ => False
      | .cclean _ _ => False
      | .br _ _ _ => flow c fo
      | .brz _ _ => flow c fo
      | .brnz _ _ => flow c fo
      | .jmp _ => flow c fo
      | .call _ => flow c fo
      | .loop _ _ => flow c fo
      | .rep _ _ _ => flow c fo
      | .halt _ => flow c fo
      | .start _ _ _ => fo.slot = 1
      | .trap _ _ => fo.slot = 1
      | .lift _ => c.upper = false
      | .mmul _ _ _ _ _ => c.upper = false
      | .mdrain _ _ _ _ => c.upper = false
      | .bfill _ _ _ => c.upper = false
      | .mcode _ => c.upper = false
      | .swap _ _ _ => c.upper = false
      | .cnext _ _ _ _ _ _ => c.upper = false
      | .lpop _ => c.upper = true
      | .chk _ => c.schk = true
      | .mfc _ n => notGate n
      | .mtc _ n => notGate n
      | _ => True))) ∧
   (∀ (fo : Focus) (c : Core) (i : Instr) (h : Nat), ofHelper fo h → isNil i = false → isHold i = false →
     (legal fo c i = true ↔ form fo i ∧ (∀ r ∈ srcs i ++ dsts fo i, r < 32) ∧ classOf i ≠ some .V ∧ classOf i ≠ some .E ∧
      (match i with
      | .adda _ _ _ => False
      | .mva _ _ => False
      | .mvs _ _ => False
      | .spld _ _ => False
      | .spst _ _ => False
      | .loop _ _ => False
      | .rep _ _ _ => False
      | .start _ _ _ => False
      | .mtc _ _ => False
      | .qld _ _ _ => False
      | .qst _ _ _ => False
      | .ckpt => False
      | .chk _ => False
      | .halt m => m = 0
      | .br k _ _ => k = 0
      | .lift _ => c.upper = false
      | .lpop _ => c.upper = true
      | .mfc _ n => notGate n
      | _ => True))) ∧
   (∀ (fo : Focus) (c : Core) (i : Instr), fo.ctx = .gate → isNil i = false → isHold i = false →
     (legal fo c i = true ↔ form fo i ∧ v1 i = false ∧ (match i with
      | .spld _ _ => False
      | .spst _ _ => False
      | .takem _ _ => False
      | .start _ _ _ => False
      | .rep _ _ _ => False
      | .br _ _ _ => fo.slot = 0 ∧ c.p.slotDue = false
      | .brz _ _ => fo.slot = 0 ∧ c.p.slotDue = false
      | .brnz _ _ => fo.slot = 0 ∧ c.p.slotDue = false
      | .jmp _ => fo.slot = 0 ∧ c.p.slotDue = false
      | .call _ => fo.slot = 0 ∧ c.p.slotDue = false
      | .loop _ _ => fo.slot = 0 ∧ c.p.slotDue = false
      | .halt m => fo.slot = 0 ∧ m = 0 ∧ c.p.slotDue = false
      | .mfc _ n => fo.slot = 0 ∧ (n = 4 ∨ n = 0x600 ∨ n = 0x601)
      | .mtc _ n => fo.slot = 0 ∧ (n = 4 ∨ n = 0x601)
      | .ld _ _ _ _ => True
      | .st _ _ _ _ => True
      | .ldacq _ _ _ => True
      | .strel _ _ _ => True
      | .vld _ _ _ _ => True
      | .vst _ _ _ _ => True
      | .vldx _ _ _ => True
      | .vstx _ _ _ => True
      | .gld _ _ _ _ => True
      | .gst _ _ _ _ => True
      | .gatom _ _ _ _ _ => True
      | .fpostx _ _ _ => True
      | .phase => True
      | .fence => True
      | i => classOf i = some .I ∧ fo.slot = 0 ∨ classOf i = some .V ∧ fo.slot = 3))))) ∧
  (∀ (i : Instr) (s : State) (c : Core), (isNil i = true ∨ isHold i = true) → Ready i s c → exec i s = .next s)

/-- Execution and steps always answer, but for a slot operation at a core that runs no launch. For every constructor and
every state, execution answers a next state, except that an operation of a slot whose focus names no core bound to a
launch answers the fault noCore: the model has no other stop. No rule speaks of such a state, which no run reaches:
that it answers a fault is the choice of assumption 124 (DESIGN CHOICE). In every state whose next piece of work is
not an event holding an operation of a slot, which no rule ever puts there, the step answers a next state. (R1, R98,
R4, R62, R212) -/
def Obligations.ExecutionAlwaysAnswers : Prop :=
  (∀ (i : Instr) (s : State), (∃ t, exec i s = .next t) ∨
    (isSlotOp i = true ∧ s.core s.focus.core = none ∧ exec i s = .fault .noCore)) ∧
  (∀ s : State, (∀ u i rest, s.agenda = .event u i :: rest → isSlotOp i = false) → ∃ t, step s = .next t)

/-- A step runs the operation decoded in its slot, or its event, or begins a cycle. When the next piece of work is a slot
of a context of a core that is not dead, the slot of the bundle decodes to an operation, and the operation is not held
back, the step executes exactly that operation at the focus of the slot and then does what follows every slot; a slot
that fetches nothing to execute answers the state fetching gives. When the next piece of work is an event about a
unit, the step executes it with the focus at that unit; other work of a cycle is done by the part; with no work left
the step begins the next cycle. (R92, R98, R4, R62) -/
def Obligations.StepRunsTheDecodedSlot : Prop :=
  ((∀ (s : State) (num slot : Nat) (who : Ctx) (rest : List Work) (c : Core) (i : Instr),
    s.agenda = .slot num who slot :: rest →
    let s0 := { s with agenda := rest }
    s0.core num = some c → slotDead who c = false → s0.slotInstr num who slot c = .ok i →
    s0.slotHeld who (s0.slotFocus num who slot c) c i = none →
    step s = (match exec i { s0 with focus := s0.slotFocus num who slot c } with
      | .next t => .next (slotDone who (s0.slotFocus num who slot c) c i t)
      | .fault f => .fault f
      | .refused r => .refused r)) ∧
  (∀ (s t : State) (num slot : Nat) (who : Ctx) (rest : List Work), s.agenda = .slot num who slot :: rest →
    ({ s with agenda := rest } : State).fetchSlot num who slot = .error t → step s = .next t)) ∧
  ((∀ (s : State) (u : Nat) (i : Instr) (rest : List Work), s.agenda = .event u i :: rest →
    step s = exec i { s with agenda := rest, focus := s.eventFocus u }) ∧
  (∀ (s : State) (w : Work) (rest : List Work), s.agenda = w :: rest → (∀ n k j, w ≠ .slot n k j) → (∀ u i, w ≠ .event u i) →
    step s = .next (({ s with agenda := rest } : State).doWork w)) ∧
  (∀ s : State, s.agenda = [] → step s = .next s.startCycle))

/-- A slot operation, but for global accesses and control registers, changes its core alone; but for global accesses none
writes storage or memory. Every slot operation but the global accesses, MFC and MTC answers a state that differs from
the one before in its core alone. Of the same operations, and of MFC and MTC, the scratchpad, the spill memory and the
B-store of every core read as before: stores come about at the end of the cycle or later; every byte of memory and
every hub register reads as before. (R4, R111, R109, R219) -/
def Obligations.SlotOperationsTouchTheirCore : Prop :=
  (∀ (i : Instr) (s t : State), isSlotOp i = true → reachesOut i = false → exec i s = .next t → ∃ d, t = s.withCore d) ∧
  (∀ (i : Instr) (s t : State), isSlotOp i = true → (reachesOut i = false ∨ ∃ d n, i = .mfc d n ∨ i = .mtc d n) →
    exec i s = .next t →
    (∀ a, memRead t.mem a = memRead s.mem a) ∧ (∀ off, t.reg off = s.reg off) ∧
    (∀ n, (t.core n).map (fun c => (c.sp, c.spill, c.bstore)) = (s.core n).map (fun c => (c.sp, c.spill, c.bstore))))

/-- A result that lands writes its register, or the lanes selected, and no other; its flags join FPSTAT of its context,
where a set wins over a clear. A scalar result landing in the primary is read back from its register, unless that is
s0, and every other s-register reads as before; so with a pointer, a counter and a predicate; in a helper that owns
its registers the x-register reads the value, x0 reads zero, and the registers of every other helper are as before. s0
reads zero and p0 all ones always. A vector landing in the grid writes the lanes its predicate selects and leaves
every other word as it was; of several results in a group each lands so, in their order. Its flags are ORed into
FPSTAT of its own context, and of no other; its QSTAT events stand in QSTAT from then on (R340). Over the results of
the primary in one cycle a flag stands exactly if one of them sets it or it stood and none of them clears it; the
flags of a result without a grid destination stand at the end of the cycle in which it lands. (R4, R11, R51, R83, R85,
R219, R240, R45, R49, R50, R200, R262) -/
def Obligations.ResultsLand : Prop :=
  (∀ (e : Pend) (c : Core) (fo : Focus) (r k : Nat) (v : Word), ofPrim fo →
    rdS fo (landEff e c (.sreg r v)) k = if k = r ∧ r ≠ 0 then v else rdS fo c k) ∧
  (∀ (e : Pend) (c : Core) (fo : Focus) (r k : Nat) (v : Lane), ofPrim fo →
    rdA fo (landEff e c (.areg r v)) k = if k = r then v else rdA fo c k) ∧
  (∀ (e : Pend) (c : Core) (r k : Nat) (v : Lane), spGet 0 (landEff e c (.lcnt r v)).p.lc k = if k = r then v else spGet 0 c.p.lc k) ∧
  (∀ (e : Pend) (c : Core) (r k : Nat) (v : Word), rdP (landEff e c (.preg r v)) k = if k = r ∧ r ≠ 0 then v else rdP c k) ∧
  (∀ (e : Pend) (c : Core) (fo : Focus) (h r k : Nat) (v : Word), ofHelper fo h → h < c.helpers.length →
    ownsRegs (c.helper h) = true → rdS fo (landEff e c (.xreg h r v)) k = if k = r ∧ r ≠ 0 then v else rdS fo c k) ∧
  (∀ (e : Pend) (c : Core) (h r k : Nat) (v : Word), k ≠ h → (landEff e c (.xreg h r v)).helper k = c.helper k) ∧
  (∀ (fo : Focus) (c : Core), rdS fo c 0 = 0 ∧ rdP c 0 = BitVec.allOnes 64) ∧
  (∀ (c : Core) (who : Ctx) (g : BitVec 8) (v : Vec) (m : Word) (left : List Nat) (fl : Flags) (ns : List QNote),
    let d := landGroupGrid c ⟨who, [(g.toNat, v, m)], left, fl, ns⟩
    (∀ i, i < 64 → (rdGrid d g.toNat).getD i 0 = if m.getLsbD i then v.getD i 0 else (rdGrid c g.toNat).getD i 0) ∧
    (∀ k, (∀ i, i < 64 → m.getLsbD i = true → k ≠ gridKey g.toNat i) → spGet 0 d.p.grid k = spGet 0 c.p.grid k)) ∧
  (∀ (c : Core) (who : Ctx) (w : List (Nat × Vec × Word)) (g : Nat × Vec × Word) (left : List Nat) (fl : Flags) (ns : List QNote),
    (landGroupGrid c ⟨who, w ++ [g], left, fl, ns⟩).p.grid = wrGrid (landGroupGrid c ⟨who, w, left, fl, ns⟩).p.grid g.1 g.2.1 g.2.2) ∧
  (∀ (c : Core) (w : List (Nat × Vec × Word)) (left : List Nat) (fl : Flags) (ns : List QNote) (h : Nat), h < c.helpers.length →
    (landGroupGrid c ⟨.prim, w, left, fl, ns⟩).p.fpstat = c.p.fpstat ||| fl ∧
    (landGroupGrid c ⟨.prim, w, left, fl, ns⟩).p.qstat = ns.foldl qstatNote c.p.qstat ∧
    (landGroupGrid c ⟨.prim, w, left, fl, ns⟩).helper h = c.helper h ∧
    (landGroupGrid c ⟨.helper h, w, left, fl, ns⟩).helper h = { c.helper h with fpstat := (c.helper h).fpstat ||| fl } ∧
    (landGroupGrid c ⟨.helper h, w, left, fl, ns⟩).p.fpstat = c.p.fpstat ∧
    (∀ k, k ≠ h → (landGroupGrid c ⟨.helper h, w, left, fl, ns⟩).helper k = c.helper k)) ∧
  (∀ (c : Core) (l : List Pend) (b : Nat), b < 6 → (∀ e ∈ l, e.who = .prim) →
    (fpSets l (fpClears l c)).p.fpstat.getLsbD b =
      (l.any (fun e => (gridOf e).isEmpty && e.fl.getLsbD b) || (c.p.fpstat.getLsbD b &&
        !l.any (fun e => e.effs.any (fun x => match x with
          | .fpClear v => v.getLsbD b
          | _ => false))))) ∧
  (∀ (c : Core) (e : Pend) (b : Nat), e ∈ c.p.pend → e.rem ≤ 1 → e.who = .prim → gridOf e = [] → e.fl.getLsbD b = true →
    e.effs.any isTap = false → e.effs.any isTapFin = false → (landAll true c).p.fpstat.getLsbD b = true)

/-- Withheld effects leave in program order at a CKPT or HALT, which captures the primary; without room for one, its
operation traps. Everything withheld stands in program order. A release leaves nothing withheld; it sends the
messages, gives the commands to their engines and MTCs their effect, starts helpers, and hands the stores, in order,
to the scratchpad, which holds them at the end of the cycle. A CKPT that no trap meets captures the primary as it
stands at the end of its cycle, opens the region of the next bundle, not retried, with no flag, handle or list change
to undo; in a cycle without one the captured state stays, and what is withheld without a release stays withheld. In
the primary a store, message, command or MTC for which the withhold buffer has no room traps WITHHOLD_OVF. (R111,
R381, R382, R384, R257, R133, R126, R128, R310) -/
def Obligations.WithheldEffects : Prop :=
  (∀ c : Core, (allWithheld c).Perm (c.withheld ++ c.newWith) ∧
    (c.withheld.Pairwise (fun a b => a.ord ≤ b.ord) → (allWithheld c).Pairwise (fun a b => a.ord ≤ b.ord))) ∧
  (∀ c : Core, (releaseAll c).1.withheld = [] ∧ (releaseAll c).1.newWith = [] ∧
    (releaseAll c).1.cyc.out = (allWithheld c).filterMap (fun e => match e.w with
      | .xst a d => some (.prim, .xst a d)
      | .hpush k h a d => some (.prim, .hpush k h a d)
      | .flagx k f n => some (.prim, .flagx k f n)
      | .hadv k h p n => some (.prim, .hadv k h p n)
      | .sendm k m v => some (.prim, .sendm k m v)
      | .bara b => some (.prim, .bara b)
      | .ksend t n l => some (.prim, .ksend t n l)
      | .lift v => some (.prim, .lift v)
      | .xld k a l f => some (.prim, .xld k a l f)
      | .fault m v => some (.prim, .fault m v)
      | _ => none) ++ c.cyc.out ∧
    ((∀ e ∈ allWithheld c, (match e.w with
      | .tapRec _ _ _ => false
      | _ => true) = true) → (releaseAll c).2 = (allWithheld c).flatMap (fun e => match e.w with
      | .store a d => [(a, d)]
      | .storeQ a d => [(a, d)]
      | .storeK a d => [(a, d)]
      | .scatter _ ws => ws.map (fun w => (w.1, leBytes 4 w.2.toNat))
      | _ => []))) ∧
  (∀ (c : Core) (st : List (Nat × List Byte)) (out : List (Ctx × Wh)) (o h en m n f : Nat) (a v : Word) (k : Cmd),
    releaseOne (c, st, out) ⟨o, .spill n v⟩ = ({ c with spill := spSet 0 c.spill n v }, st, out) ∧
    releaseOne (c, st, out) ⟨o, .mtc n v⟩ = (applyMtc n v c, st, out) ∧
    releaseOne (c, st, out) ⟨o, .takem m⟩ = (mbClear m { c with p := { c.p with marks := c.p.marks.erase m } }, st, out) ∧
    releaseOne (c, st, out) ⟨o, .cmd k⟩ = (if k.op < 0x20 then matAccept k c else copyAccept k c, st, out) ∧
    (h < c.helpers.length → let d := (releaseOne (c, st, out) ⟨o, .start h en a⟩).1
      (d.helper h).st = .live ∧ (d.helper h).pc = en ∧ (∀ r, spGet 0 (d.helper h).x r = if r = 1 then a else 0) ∧
      ∀ j, j ≠ h → d.helper j = c.helper j) ∧
    (releaseOne (c, st, out) ⟨o, .flag f n⟩).1.hpend = c.hpend ++ [⟨1, .gate, o, 0, 7, 0, [.flagAdd f n]⟩]) ∧
  (∀ c : Core, c.cyc.trapped = false → c.cyc.ckpt = true →
    let e := endCore c
    e.shadow = e.p ∧ e.region = slotBundle c.p 7 ∧ e.retry = false ∧ e.fTaken = [] ∧ e.hTaken = [] ∧ e.listSave = [] ∧ e.listCk = e.lists) ∧
  (∀ c : Core, (c.cyc.trapped = true ∨ c.cyc.ckpt = false) → (endCore c).shadow = c.shadow ∧ (endCore c).region = c.region) ∧
  (∀ c : Core, (c.cyc.trapped = true ∨ c.cyc.ckpt = false ∧ c.cyc.halt = none) →
    ∀ e ∈ c.withheld ++ c.newWith, e ∈ (endCore c).withheld) ∧
  (∀ c : Core, c.cyc.trapped = false → (c.cyc.ckpt = true ∨ c.cyc.halt.isSome = true) →
    (∀ e ∈ c.p.pend ++ c.hpend, 1 < e.rem) →
    (endCore c).withheld = [] ∧ (endCore c).newWith = [] ∧ (endCore c).sp = (spPuts (releaseAll c).2 (spPuts c.cyc.portWr c)).sp) ∧
  (∀ (d x y z : BitVec 6) (w q : BitVec 2) (im : BitVec 10) (f m r : BitVec 5) (n : BitVec 13) (j : BitVec 7) (u : BitVec 12)
      (l b : BitVec 1) (k t : BitVec 3) (g i : BitVec 8) (a h : BitVec 4) (en : BitVec 14),
    let cm (op : Nat) (q : Nat) (v1 v2 v3 : Focus → Core → Word) (fl : Nat) (fo : Focus) (c : Core) : Wh :=
      .cmd ⟨op, q, v1 fo c, v2 fo c, v3 fo c, fl, fo.bundle⟩
    let sx (v : BitVec 6) (fo : Focus) (c : Core) : Word := rdS fo c v.toNat
    let o (_ : Focus) (_ : Core) : Word := 0
    let any (_ : Focus) (_ : Core) : Prop := True
    FullTraps (.spst d u) any (fun fo c => .spill u.toNat (rdS fo c d.toNat)) ∧
    FullTraps (.st d x w im) (fun fo c => addrTrap fo c (localAddr fo c x w.toNat im) (2 ^ w.toNat) (2 ^ w.toNat) = none)
      (fun fo c => .store (localAddr fo c x w.toNat im) (leBytes (2 ^ w.toNat) (rdS fo c d.toNat).toNat)) ∧
    FullTraps (.strel d x im) (fun fo c => addrTrap fo c (localAddr fo c x 3 im) 8 8 = none)
      (fun fo c => .store (localAddr fo c x 3 im) (leBytes 8 (rdS fo c d.toNat).toNat)) ∧
    FullTraps (.vst g a k i) (fun fo c => addrTrap fo c (vecAddr fo c a i) 256 4 = none)
      (fun fo c => .store (vecAddr fo c a i) (vecBytes (rdGrid c g.toNat))) ∧
    FullTraps (.vstx g a i) (fun fo c => lanesTrap fo c (laneAddrs fo c a i) = none)
      (fun fo c => .scatter 64 (List.zip (laneAddrs fo c a i) (rdGrid c g.toNat))) ∧
    FullTraps (.qst h a k) (fun fo c => addrTrap fo c (rdA fo c a.toNat).toNat 1056 256 = none)
      (fun fo c => .storeQ (rdA fo c a.toNat).toNat (qImage (spGet qReg0 c.p.q h.toNat) ++ List.replicate 30 0)) ∧
    FullTraps (.kst t a k) (fun fo c => addrTrap fo c (rdA fo c a.toNat).toNat 520 256 = none ∧
        (spGet candList0 c.lists t.toNat).ents.length = 64)
      (fun fo c => .storeK (rdA fo c a.toNat).toNat (listImage (spGet candList0 c.lists t.toNat))) ∧
    FullTraps (.xst d x w im) (fun fo c => windowTrap c (localAddr fo c x w.toNat im) (2 ^ w.toNat) = none)
      (fun fo c => .xst (localAddr fo c x w.toNat im) (leBytes (2 ^ w.toNat) (rdS fo c d.toNat).toNat)) ∧
    FullTraps (.hpush g h) (fun _ c => hFilled (rdHandle c h.toNat) < hSlots (rdHandle c h.toNat) ∧ hRv (rdHandle c h.toNat) = false ∧
        meetsFence c.fences (hAddr (rdHandle c h.toNat) (hProd (rdHandle c h.toNat)) 0) 256 = false)
      (fun _ c => .store (hAddr (rdHandle c h.toNat) (hProd (rdHandle c h.toNat)) 0) (vecBytes (rdGrid c g.toNat))) ∧
    FullTraps (.hadv h b u) (fun _ c => hRv (rdHandle c h.toNat) = true ∧
        if b = 1 then hFilled (rdHandle c h.toNat) + u.toNat ≤ hSlots (rdHandle c h.toNat) else u.toNat ≤ hFilled (rdHandle c h.toNat))
      (fun _ c => .hadv (hRcore (rdHandle c h.toNat)) (hRh (rdHandle c h.toNat)) (decide (b = 1)) u.toNat) ∧
    FullTraps (.hpush g h) (fun _ c => hFilled (rdHandle c h.toNat) < hSlots (rdHandle c h.toNat) ∧ hRv (rdHandle c h.toNat) = true ∧
        sameCluster c.num (hRcore (rdHandle c h.toNat)) = true ∧ meetsFence (c.winFence.getD (kOf (hRcore (rdHandle c h.toNat))) 0)
          (hAddr (rdHandle c h.toNat) (hProd (rdHandle c h.toNat)) 0) 256 = false)
      (fun _ c => .hpush (hRcore (rdHandle c h.toNat)) (hRh (rdHandle c h.toNat))
        (hAddr (rdHandle c h.toNat) (hProd (rdHandle c h.toNat)) 0) (vecBytes (rdGrid c g.toNat))) ∧
    FullTraps (.hpop g h) (fun _ c => hFilled (rdHandle c h.toNat) ≠ 0 ∧ hRv (rdHandle c h.toNat) = true ∧
        meetsFence c.fences (hAddr (rdHandle c h.toNat) (hCons (rdHandle c h.toNat)) 0) 256 = false)
      (fun _ c => .hadv (hRcore (rdHandle c h.toNat)) (hRh (rdHandle c h.toNat)) false 1) ∧
    DoesWhen (.ksamp t g a w) (fun fo c => ofPrim fo ∧ c.p.kBusy = 0 ∧ addrTrap fo c (rdA fo c a.toNat).toNat 8 8 = none ∧
        c.ktrap = false ∧ 256 ≤ c.storeUse) (fun fo c => takeTrap fo cWITHHOLD 0 (laneTake (.ksamp t g a w) fo c)) ∧
    DoesWhen (.gsetSt a) (fun fo c => ofPrim fo ∧ c.p.kBusy = 0 ∧ addrTrap fo c (rdA fo c a.toNat).toNat 64 64 = none ∧
        256 ≤ c.storeUse) (fun fo c => takeTrap fo cWITHHOLD 0 (laneTake (.gsetSt a) fo c)) ∧
    (∀ (s : State) (e : Core), Ready (.ksend t a) s e → ofPrim s.focus → e.p.kBusy = 0 →
      s.treeTakes e (rdA s.focus e a.toNat).toNat = true → (rdA s.focus e a.toNat).toNat < 2 ^ 16 →
      fits e (.ksend ((rdA s.focus e a.toNat).toNat % 256) ((rdA s.focus e a.toNat).toNat / 256) (spGet candList0 e.lists t.toNat)) = false →
      exec (.ksend t a) s = .next (s.withCore (takeTrap s.focus cWITHHOLD 0 (laneTake (.ksend t a) s.focus e)))) ∧
    FullTraps (.lift g) (fun _ c => c.gate = 0 ∧ c.liftFree ≠ 0) (fun _ c => .lift (rdGrid c g.toNat)) ∧
    FullTraps (.start d h en) (fun _ c => freeState (c.helper h.toNat) = true ∧ startHeld h.toNat (c.withheld ++ c.newWith) = false)
      (fun fo c => .start h.toNat en.toNat (rdS fo c d.toNat)) ∧
    (u.toNat ≠ 4 → ¬(0x10 ≤ u.toNat ∧ u.toNat ≤ 0x13) → u.toNat ≠ 0x601 →
      FullTraps (.mtc d u) any (fun fo c => .mtc u.toNat (rdS fo c d.toNat))) ∧
    FullTraps (.fpost f n) any (fun _ _ => .flag f.toNat n.toNat) ∧
    FullTraps (.fpostx f d j) (fun fo c => (rdS fo c d.toNat).toNat < 512 ∧ (rdS fo c d.toNat).toNat % 128 < 120)
      (fun fo c => .flagx (rdS fo c d.toNat).toNat f.toNat j.toNat) ∧
    FullTraps (.bara r k) any (fun _ _ => .bara (r.toNat * 8 + k.toNat)) ∧
    FullTraps (.takem d m) (fun _ c => mbPresent c m.toNat = true) (fun _ _ => .takem m.toNat) ∧
    FullTraps (.sendm x y m) (fun fo c => (rdS fo c x.toNat).toNat < 512 ∧ (rdS fo c x.toNat).toNat % 128 < 120)
      (fun fo c => .sendm (rdS fo c x.toNat).toNat m.toNat (rdS fo c y.toNat)) ∧
    FullTraps (.mmul x y z l b) any (cm 0x10 0 (sx x) (sx y) (sx z) (2 * l.toNat + b.toNat)) ∧
    FullTraps (.mdrain x y z b) any (cm 0x11 0 (sx x) (sx y) (sx z) b.toNat) ∧
    FullTraps (.bfill x y z) any (cm 0x12 0 (sx x) (sx y) (sx z) 0) ∧
    FullTraps (.mcode x) any (cm 0x13 0 (sx x) o o 0) ∧
    FullTraps (.swap x y z) any (cm 0x14 0 (sx x) (sx y) (sx z) 0) ∧
    FullTraps (.cpy x y z q) any (cm 0x20 q.toNat (sx x) (sx y) (sx z) 0) ∧
    FullTraps (.cpyt x z q) any (cm 0x21 q.toNat (sx x) o (sx z) 0) ∧
    FullTraps (.cgath x z q) any (cm 0x22 q.toNat (sx x) o (sx z) 0) ∧
    FullTraps (.cscat x z q) any (cm 0x23 q.toNat (sx x) o (sx z) 0) ∧
    FullTraps (.cseal x q) any (cm 0x24 q.toNat o o o 0) ∧
    FullTraps (.ctime x q) any (cm 0x25 q.toNat (sx x) o o 0) ∧
    FullTraps (.cnext x y z q l b) any (cm 0x26 q.toNat (sx x) (sx y) (sx z) (2 * l.toNat + b.toNat)))

/-- Bytes written to memory are read back, every other byte reads as before, and the canonical form is kept. After bytes
are put at an address, each of them is read at its place and every other address reads as before; a single byte
likewise; the canonical form of a memory, strictly rising addresses and no listed byte equal to what an unlisted one
reads as, is kept by both; the number in n bytes just written is the number, modulo 2^(8n). (R6, R26, R14) -/
def Obligations.MemoryReadsWhatWasWritten : Prop :=
  (∀ (m : Memory) (a b : Nat) (l : List Byte),
    memRead (memPut m a l) b = if a ≤ b ∧ b < a + l.length then l.getD (b - a) 0 else memRead m b) ∧
  (∀ (m : Memory) (a b : Nat) (v : Byte), memRead (memWrite m a v) b = if b = a then v else memRead m b) ∧
  (∀ (m : Memory) (a : Nat) (l : List Byte), Memory.wf m = true → Memory.wf (memPut m a l) = true) ∧
  (∀ (m : Memory) (a : Nat) (v : Byte), Memory.wf m = true → Memory.wf (memWrite m a v) = true) ∧
  (∀ (m : Memory) (a n v : Nat), memNat (memPutNat m a n v) a n = v % 2 ^ (8 * n))

/-- Taking a trap in the primary: the shadow restored, withheld effects gone, the record written, sixteen cycles of
restore. A trap of the primary restores the shadow and discards every withheld effect; the record names cause, slot,
bundle and region, the value and the job time; a soft failure of a region not yet retried marks it retried and counts,
the core keeping its cause, and one of a region already retried is SOFT_REPEAT with that first cause in the record.
Helpers, their results on their way, the scratchpad, spill memory and mailboxes stay as they are. (R386, R391, R379,
R389, R390, R111, R128, R133) -/
def Obligations.PrimaryTrapEntry : Prop :=
  ∀ (fo : Focus) (c : Core) (k : Nat) (v : Word), ofPrim fo →
    let e := takeTrap fo k v c
    e.p = c.shadow ∧ e.withheld = [] ∧ e.newWith = [] ∧ e.trapRec1 = v ∧ e.trapRec2 = wN fo.jobt ∧ e.cyc.trapped = true ∧
    (softCause k = false → e.run = .restore 16 false k ∧ e.trapRec0 = trapRecord k fo.slot 0 fo.bundle c.region ∧
      e.retry = c.retry ∧ e.softcnt = c.softcnt ∧ e.softFirst = c.softFirst) ∧
    (softCause k = true → c.retry = false → e.run = .restore 16 true k ∧
      e.trapRec0 = trapRecord k fo.slot 0 fo.bundle c.region ∧ e.retry = true ∧ e.softcnt = min (c.softcnt + 1) 0xFFFFFFFF ∧
      e.softFirst = k) ∧
    (softCause k = true → c.retry = true → e.run = .restore 16 false 0x34 ∧
      e.trapRec0 = trapRecord 0x34 fo.slot c.softFirst fo.bundle c.region ∧ e.softFirst = c.softFirst) ∧
    e.helpers = c.helpers ∧ e.hpend = c.hpend ∧ e.hflights = c.hflights ∧ e.sp = c.sp ∧ e.spill = c.spill ∧ e.mb = c.mb ∧
    e.inbox = c.inbox ∧ e.region = c.region ∧ e.eng = c.eng ∧ e.mat = c.mat

/-- Taking a trap in a helper stops it precisely; in a gateway it stops the gateway with its cause. A trap of a helper
leaves it TRAPPED, or RELEASED once the primary has halted, with the cause, the bundle and the position of the
operation in its status and no transfer pending; its registers, every other helper and the primary are as before, and
the trigger of a halt wave is noted, also of a helper released because the primary has halted (assumption 78,
DEDUCED). A trap of a gateway stops it, with cause, slot and bundle in its record. (R100, R379, R222, R226, R390, R17) -/
def Obligations.HelperTrapEntry : Prop :=
  (∀ (fo : Focus) (c : Core) (h k : Nat) (v : Word), ofHelper fo h → h < c.helpers.length →
    let e := takeTrap fo k v c
    (e.helper h).st = (if c.run = .halted then .released else .trapped) ∧ (e.helper h).cause = k ∧
    (e.helper h).pc = fo.bundle ∧ (e.helper h).pos = slotPos fo.slot ∧ (e.helper h).next = none ∧
    (e.helper h).x = (c.helper h).x ∧ (∀ j, j ≠ h → e.helper j = c.helper j) ∧ e.p = c.p ∧ e.withheld = c.withheld ∧
    e.run = c.run ∧ e.cyc.trig = c.cyc.trig ++ [(0x39, h, fo.bundle, k)]) ∧
  (∀ (fo : Focus) (c : Core) (k : Nat) (v : Word), ofGate fo →
    let e := takeTrap fo k v c
    e.run = .stopped ∧ e.trapRec0 = trapRecord k fo.slot 0 fo.bundle c.region ∧ e.trapRec1 = v ∧ e.p = c.p)

/-- The end of a restore: a soft failure goes on from the shadow; a trap due in its trap cycle is taken for its own
operation. At the end of the restore of a soft failure the primary runs again and nothing else changes; without a
restore under way, or at an absent core, nothing changes. A trap due in its trap cycle is taken with the bundle and
slot of its own operation; with none due nothing changes. (R386, R379, R458) -/
def Obligations.ReturnFromTrap : Prop :=
  (∀ (s : State) (c : Core) (n k : Nat), s.core s.focus.core = some c → c.run = .restore n true k →
    exec .rollbackRestoreEnd s = .next (s.withCore { c with run := .run })) ∧
  (∀ (s : State) (c : Core), s.core s.focus.core = some c → c.run = .run → exec .rollbackRestoreEnd s = .next s) ∧
  (∀ s : State, s.core s.focus.core = none → exec .rollbackRestoreEnd s = .next s ∧ exec .deferredTrap s = .next s) ∧
  (∀ (s : State) (c : Core), s.core s.focus.core = some c → c.p.pend = [] → exec .deferredTrap s = .next s) ∧
  (∀ (s : State) (c : Core) (e : Pend) (k : Nat) (v : Word), s.core s.focus.core = some c → c.p.pend = [e] → e.rem ≤ 1 →
    e.effs = [.trap k v] → exec .deferredTrap s = .next (s.withCore (primTrap k e.slot e.bundle v s.focus.jobt c)))

/-- Rollback of the primary never changes the registers, program counter or status of a helper. A rollback leaves every
helper, with its registers, program counter and status, as it was, and gives back the grid of the checkpoint, with
whatever rows helpers wrote since, and every list saved since the checkpoint, each saved once, when the primary first
changes it, with its value of the checkpoint; a trap of a helper is precise and rolls nothing back. (R390) -/
def Obligations.RollbackSparesHelpers : Prop :=
  (∀ (c : Core), (rollback c).helpers = c.helpers ∧ (rollback c).hpend = c.hpend ∧ (rollback c).p.grid = c.shadow.grid) ∧
  (∀ (c : Core) (l : Nat) (k : CandList), (c.listSave.map (·.1)).Nodup → (l, k) ∈ c.listSave →
    spGet candList0 (rollback c).lists l = k) ∧
  (∀ (c : Core) (l : Nat), l ∉ c.listSave.map (·.1) → spGet candList0 (rollback c).lists l = spGet candList0 c.lists l) ∧
  (∀ (c : Core) (b : Bool) (l : Nat) (op : ListOp), (c.listSave.map (·.1)).Nodup →
    ((landList b l op c).listSave.map (·.1)).Nodup ∧ (b = true → l ∈ (landList b l op c).listSave.map (·.1))) ∧
  (∀ (c : Core) (h k b p : Nat), (helperTrap h k b p c).p = c.p ∧ (helperTrap h k b p c).withheld = c.withheld ∧
    (helperTrap h k b p c).lists = c.lists)

/-- The machine after reset: counters at zero, nothing bound, queued or cached, sixteen free launch contexts. After reset
the graticule counter stands at 0; no core runs a launch, no fault, invalidation, launch, message or request is
outstanding, no line is cached; every hub register reads its reset value; there are sixteen launch contexts and four
slot tables of sixty-four free slots. That memory reads zero where nothing wrote it is the choice of assumption 2, and
that the counter stands at 0, the slot tables are empty and nothing is cached, faulted or queued that of assumption 3
(DESIGN CHOICE): no rule says so. (R1, R7, R358, R403, R439) -/
def Obligations.ResetValues : Prop :=
  State.reset.tick = 0 ∧ State.reset.cores = [] ∧ State.reset.launches = [] ∧ State.reset.faults = [] ∧
  State.reset.tinv = [] ∧ State.reset.reqs = [] ∧ State.reset.msgs = [] ∧ State.reset.l2 = [] ∧
  (∀ n, State.reset.core n = none) ∧ State.reset.jobs.length = 16 ∧
  State.reset.slots = List.replicate 4 (List.replicate 64 none) ∧
  (∀ off, State.reset.reg off = (regReset off).toNat) ∧ (∀ a, memRead State.reset.mem a = 0)

/-- The state after reset meets the invariant. Memory after reset is in its canonical form and the part has its sixteen
launch contexts. (R1, R26) -/
def Obligations.ResetMeetsTheInvariant : Prop :=
  State.reset.inv

/-- Every step keeps memory in its canonical form and the sixteen launch contexts. From every state that meets the
invariant, whether or not a run reaches it, every next state of a step meets it: memory is listed by strictly rising
addresses with no byte equal to what an unlisted one reads as, and there are sixteen launch contexts. (R1, R26, R27,
R6) -/
def Obligations.StepsKeepTheInvariant : Prop :=
  ∀ s t : State, s.inv → step s = .next t → t.inv

/-- Posts, mail, handle advances and window stores reach their core and change what they name; inbox, helper and histogram
events. A flag post adds its count, saturating with its overflow note, and no other flag changes; mail for an absent
mailbox with none waiting makes it present with the value, for a present one it enters the inbox; a write to a mailbox
port of a core of the context of the sender arrives there, any other is noted; a handle advance moves one count of one
handle; a window store writes its bytes and no other; an inbox read takes the oldest entry and sets the tag, or clears
it; freeing a trapped helper releases it; clearing a histogram zeroes its 32 bins. At an absent core nothing changes.
A post, mail value or advance lands by R53, R231 and R128, a write at a mailbox port by R235, EGRAPH by R159; the two
cycles of the table load that EGRAPH begins are the choice of assumption 11. (R53, R55, R128, R133, R159, R225, R231,
R234, R235, R298, R64) -/
def Obligations.MessagesArrive : Prop :=
  (∀ (src n f k : Nat) (s : State) (c : Core), s.core n = some c → ∃ d, exec (.flagPostArrival src n f k) s = .next (s.setCore n d) ∧
    (spGet 0 d.f (f % 32)).toNat = min ((spGet 0 c.f (f % 32)).toNat + k) 0xFFFF ∧
    (∀ g, g ≠ f % 32 → spGet 0 d.f g = spGet 0 c.f g) ∧
    (0xFFFF < (spGet 0 c.f (f % 32)).toNat + k → d.fovf = true) ∧ d.p = c.p ∧ d.sp = c.sp ∧ d.mb = c.mb) ∧
  (∀ (src n m : Nat) (v : Word) (s : State) (c : Core), s.core n = some c →
    (spGet ((0 : Word), false) c.mb (m % 32)).2 = false → m % 32 ∉ c.p.marks → (∀ e ∈ c.inbox, e.1 ≠ m % 32) → (∀ e ∈ c.recvHeld, e.1 ≠ m % 32) →
    exec (.mailboxArrival src n m v) s = .next (s.setCore n { c with mb := spSet (0, false) c.mb (m % 32) (v, true) })) ∧
  (∀ (src n m : Nat) (v : Word) (s : State) (c : Core), s.core n = some c →
    (spGet ((0 : Word), false) c.mb (m % 32)).2 = true → c.inbox.length < 63 → (∀ e ∈ c.recvHeld, e.1 ≠ m % 32) →
    exec (.mailboxArrival src n m v) s = .next (s.setCore n { c with inbox := c.inbox ++ [(m % 32, v)] })) ∧
  (∀ (src n m : Nat) (v : Word) (s : State) (c : Core), s.core src = some c →
    (m < 32 → s.takes c.lctx n = true → exec (.mailboxPortWrite src n m v) s = .next (s.soon n [.mailboxArrival src n m v])) ∧
    ((32 ≤ m ∨ s.takes c.lctx n = false) → exec (.mailboxPortWrite src n m v) s = .next (s.note (dieOf n) 0x0A 3 c.lctx n src))) ∧
  (∀ (src n h k : Nat) (prod : Bool) (s : State) (c : Core), s.core n = some c →
    exec (.handleAdvanceArrival src n h prod k) s = .next (s.setCore n
      { c with handles := spSet 0 c.handles (h % 16) (handleAdd (rdHandle c (h % 16)) prod k) })) ∧
  (∀ (src n a : Nat) (data : List Byte) (s : State) (c : Core), s.core n = some c →
    ∃ d, exec (.clusterWindowStore src n a data) s = .next (s.setCore n d) ∧
      (∀ b, memRead d.sp b = if a ≤ b ∧ b < a + data.length then data.getD (b - a) 0 else memRead c.sp b) ∧ d.p = c.p) ∧
  (∀ (s : State) (c : Core) (m : Nat) (v : Word) (l : List (Nat × Word)), s.core s.focus.core = some c → c.inbox = (m, v) :: l →
    exec .inboxpop s = .next (s.withCore { c with inbox := l, tagV := true, tagMb := m })) ∧
  (∀ (s : State) (c : Core), s.core s.focus.core = some c → c.inbox = [] →
    exec .inboxpop s = .next (s.withCore { c with tagV := false })) ∧
  (∀ (s : State) (c : Core) (n h : Nat), s.core n = some c → (c.helper h).st = .trapped →
    exec (.hctlFree n h) s = .next (s.setCore n (c.setHelper h { c.helper h with st := .released }))) ∧
  (∀ (s : State) (c : Core) (n h : Nat), s.core n = some c → (c.helper h).st ≠ .trapped → exec (.hctlFree n h) s = .next s) ∧
  (∀ (s : State) (c : Core) (n t : Nat), s.core n = some c → ∃ d, exec (.histselClr n t) s = .next (s.setCore n d) ∧
    (∀ b, spGet 0 d.mat.hist b = if 32 * t ≤ b ∧ b < 32 * t + 32 then 0 else spGet 0 c.mat.hist b) ∧ d.p = c.p) ∧
  (∀ (s : State) (c : Core) (n : Nat) (v : Word), s.core n = some c → ∃ d, exec (.egraphWrite n v) s = .next (s.setCore n d) ∧
    d.eng.egraph = wN (v.toNat % 2 ^ 32 / 64 * 64) ∧ d.eng.egLoad = some (d.eng.egraph.toNat, graphPieces d.eng.egraph.toNat, false) ∧ d.p = c.p ∧ d.sp = c.sp) ∧
  (∀ (s : State) (src n k f h t : Nat) (v : Word) (b : Bool) (l : List Byte), s.core n = none →
    exec (.flagPostArrival src n f k) s = .next s ∧ exec (.mailboxArrival src n f v) s = .next s ∧
    exec (.handleAdvanceArrival src n h b k) s = .next s ∧ exec (.clusterWindowStore src n k l) s = .next s ∧
    exec (.hctlFree n h) s = .next s ∧ exec (.histselClr n t) s = .next s ∧ exec (.egraphWrite n v) s = .next s)

/-- Storage errors, illegal helper bundles, the end of a part, and the events of gateways. A live helper whose bundle is
malformed takes the trap ILLEGAL there; an uncorrectable grid error of a running primary is noted and taken as
GRID_PARITY in the next cycle; a halted core whose launch stands ends its part with its mailboxes and inbox emptied;
BQTAKE gives the next index of the batch queue and moves it, or all ones; GWTLINC adds one to the timeline; a gateway
window write stores its doubleword, or waits a cycle while the program of the gateway uses its port; a run sets the
core running at its entry, a stop leaves it idle. That the trap of a storage error is raised with the next bundle, and
its slot, are the choices of assumptions 27 and 85; what a gateway holds between runs is the reading of assumption
107. (R73, R90, R98, R100, R226, R227, R379, R386, R414, R415, R416) -/
def Obligations.CoreAndGatewayEvents : Prop :=
  (∀ (s : State) (c : Core) (n h p : Nat), s.core n = some c → s.hNext n (c.helper h) = .bad p → (c.helper h).st = .live →
    exec (.helperBundleIllegal n h) s = .next (s.setCore n (helperTrap h 0x12 (c.helper h).pc p c))) ∧
  (∀ (s : State) (c : Core) (n k : Nat), s.core n = some c → c.run = .run → n < 512 →
    exec (.storageError n 0 true k) s = .next
      ((s.note (dieOf n) 5 1 c.lctx n 0).setCore n (nextTrap 0x30 (s.eccSlot n 0 c) c))) ∧
  (∀ (s : State) (c : Core) (n k row : Nat), s.core n = some c → c.run = .run → n < 512 → (row = 1 ∨ row = 2) →
    exec (.storageError n row false k) s = .next ((s.note (dieOf n) 5 0 c.lctx n row).setCore n
      { c with cecnt := min (c.cecnt + 1) 0xFFFF })) ∧
  (∀ (s : State) (c : Core) (l : Launch), s.core s.focus.core = some c → s.launchOf c.launch = some l → c.run = .halted →
    ∃ t d, exec .corePartEnd s = .next t ∧ t.core s.focus.core = some d ∧ d.run = .ended ∧ d.mb = [] ∧ d.inbox = [] ∧
      d.recvHeld = [] ∧ (∀ k, k ≠ s.focus.core → t.core k = s.core k)) ∧
  (∀ (s : State) (c : Core), s.core s.focus.core = some c → c.run ≠ .halted → exec .corePartEnd s = .next s) ∧
  (∀ (s : State) (g d : Nat), s.fld 0x1A80 31 0 < s.fld 0x1A88 31 0 → exec (.bqtake g d) s = .next
    ((s.setFld 0x1A80 31 0 (s.fld 0x1A80 31 0 + 1)).modCore (512 + g)
      (fun c => retireS ⟨512 + g, .gate, 0, 0, 1, 0, 0⟩ 1 0 d (wN (s.fld 0x1A80 31 0)) c))) ∧
  (∀ (s : State) (g d : Nat), s.fld 0x1A88 31 0 ≤ s.fld 0x1A80 31 0 → exec (.bqtake g d) s = .next
    (s.modCore (512 + g) (fun c => retireS ⟨512 + g, .gate, 0, 0, 1, 0, 0⟩ 1 0 d (BitVec.allOnes 64) c))) ∧
  (∀ (s : State), exec .gwtlinc s = .next
    (s.setReg (gwReg (s.focus.core - 512) 2) (s.reg (gwReg (s.focus.core - 512) 2) + 1))) ∧
  (∀ (s : State) (c : Core) (g off : Nat) (v : Word), s.core (512 + g) = some c → off + 8 ≤ 0x10000 →
    (s.windowBusy g = false → exec (.gatewayWindowAccess g off true v) s =
      .next (s.setCore (512 + g) { c with sp := memPut c.sp off (leBytes 8 v.toNat) })) ∧
    (s.windowBusy g = true → exec (.gatewayWindowAccess g off true v) s =
      .next (s.later (s.tick + 1) 0 (.gatewayWindowAccess g off true v))) ∧
    exec (.gatewayWindowAccess g off false v) s = .next s) ∧
  (∀ (s : State) (c : Core), s.core (512 + (s.focus.core - 512)) = some c →
    ∃ d, exec .gatewayRun s = .next (s.setCore (512 + (s.focus.core - 512)) d) ∧ d.run = .run ∧
      d.p.pc = s.reg (gwReg (s.focus.core - 512) 0) % 2 ^ 11 ∧ d.sp = c.sp ∧ d.p.s = c.p.s ∧ d.trapRec0 = 0) ∧
  (∀ (s : State) (c : Core), s.core (512 + (s.focus.core - 512)) = some c →
    ∃ d, exec .gatewayStop s = .next (s.setCore (512 + (s.focus.core - 512)) d) ∧ d.run = .idle ∧ d.p.pend = [] ∧
      d.sp = c.sp ∧ d.p.s = c.p.s)

/-- Accesses at their homes, their returns, the store buffer, page walks, faults and invalidations. A request not yet
performed is performed once at its home: a read notes the bytes read, a write writes its bytes, an atomic applies its
function to the doubleword and notes the old one. A load whose data has come fills the cache unless its line has left
it meanwhile, in which case an older copy leaves it too (R178, R182), and its value goes on two cycles; a value that
returns is handed to the agent that asked. The front store-buffer entry drains with all its stores into its line, asks
for the line first, counting a miss, or goes to the home; while a load before it is out it stays (R69, R175). A home
in a gateway whose port is in use waits a cycle. A walk installs its leaf or faults; beyond 2^52 it faults with cause
0x05. RETRY resumes the agent of a written entry and takes the entry out. An invalidation enters the queue while fewer
than nine stand in it and, once no access under it remains, leaves it. Where nothing matches, nothing changes. (R32,
R34, R36, R37, R38, R41, R69, R122, R168, R171, R173, R182) -/
def Obligations.GlobalMemoryEvents : Prop :=
  (∀ (s : State) (r : Req) (id : Nat), s.reqs.find? (fun q => q.id = id) = some r → r.look = false → r.got = none → r.op = .read →
    (s.windowWaits r = false →
      let x := s.readAt r.core r.lctx (reqCoh r) (reqSpan r).1 (reqSpan r).2
      let bs := if byPath r && s.cached (reqCoh r) r.pa then underWrites (s.ownWrites r) (reqSpan r).1 x.1 else x.1
      exec (.homeRead id) s = .next ({ x.2.putReq id (fun q => { q with got := some bs, perf := x.2.seq + 1 }) with
        seq := x.2.seq + 1 } : State)) ∧
    (s.windowWaits r = true → exec (.homeRead id) s = .next (s.putReq id (fun q => { q with home := 1 })))) ∧
  (∀ (s : State) (r : Req) (id h : Nat), s.reqs.find? (fun q => q.id = id) = some r → r.look = false → r.got = none → r.op = .write →
    r.agent = .helper h → regionOf (localOf r.pa) ≠ .regs →
    exec (.homeWrite id) s = .next (((((s.passWrite r).homeWrite (reqCoh r) r.pa (r.data.length / 64 + 2) r.data).modCore r.core
      (hostWritten s r)).modCore r.core (fun c => reqOver r { c with gwOut := c.gwOut - 1 })).dropReq id)) ∧
  (∀ (s : State) (r : Req) (id f : Nat) (x y : Word), s.reqs.find? (fun q => q.id = id) = some r → r.look = false → r.got = none →
    r.op = .atomic f x y → s.windowWaits r = false → exec (.homeAtomic id) s = .next (let a := s.atomicAt r f x y
      (a.2.modCore r.core (fun c => hostWritten s r { c with gwOut := c.gwOut - 1 })).putReq id (fun q =>
        { q with got := some (leBytes 8 a.1.toNat) }))) ∧
  (∀ (s : State) (id : Nat), s.reqs.find? (fun q => q.id = id) = none → exec (.homeRead id) s = .next s ∧
    exec (.homeWrite id) s = .next s ∧ exec (.homeAtomic id) s = .next s ∧ exec (.globalReadReturn id) s = .next s) ∧
  (∀ (s : State) (r : Req) (c : Core) (id h : Nat) (bs : List Byte), s.reqs.find? (fun q => q.id = id) = some r →
    r.got = some bs → r.ret = 0 → r.agent = .helper h → s.core r.core = some c → c.frozen = false →
    (c.helper h).reqs.contains id = true →
    let mine := if r.fill then (bs.drop (r.pa % 64)).take r.len else bs
    let on := s.putReq id (fun q => { q with look := false, fill := false, got := some mine, ret := 2, mark := 1 })
    (r.op = .read → r.mark = 0 → r.fill = false → exec (.globalReadReturn id) s = .next on) ∧
    (r.op = .read → r.mark = 0 → r.fill = true → r.stale = true →
      exec (.globalReadReturn id) s = .next (on.hcPass r.core r.lctx (r.pa / 64) r.perf)) ∧
    (r.op = .read → r.mark = 0 → r.fill = true → r.stale = false → r.len ≠ 64 →
      exec (.globalReadReturn id) s = .next (on.hcInsert r.core r.lctx (r.pa / 64) r.perf bs)) ∧
    ((r.op ≠ .read ∨ r.mark ≠ 0) → r.fill = false →
      exec (.globalReadReturn id) s = .next ((s.dropReq id).valueBack r (wN (leNat bs))))) ∧
  (∀ (s : State) (r : Req) (c : Core) (id h : Nat) (bs : List Byte), s.reqs.find? (fun q => q.id = id) = some r →
    r.got = some bs → r.ret = 0 → r.agent = .helper h → s.core r.core = some c → c.frozen = false →
    (c.helper h).reqs.contains id = false → r.fill = true → r.stale = false → r.len = 64 →
    exec (.globalReadReturn id) s = .next (((s.dropReq id).hcInsert r.core r.lctx (r.pa / 64) r.perf bs).sbDrain r.core)) ∧
  (∀ (s : State) (c : Core) (n x line perf : Nat) (d : List Byte), s.core n = some c → hcFind c line = none → hcVictim c line = none →
    s.hcInsert n x line perf d = { s.setCore n { c with hc := c.hc ++ [⟨line, d, 0, s.seq, perf⟩] } with seq := s.seq + 1 }) ∧
  (∀ (s : State) (c : Core) (n x line perf : Nat) (d : List Byte) (e : CLine), s.core n = some c → hcFind c line = some e →
    (perf ≤ e.perf → s.hcInsert n x line perf d = s ∧ s.hcPass n x line perf = s) ∧
    (e.perf < perf → s.hcInsert n x line perf d =
      s.hcUse n line (fun k => { k with data := mergeLine d k.data k.dirty, perf := perf }))) ∧
  (∀ (s : State) (a ctx va : Nat) (w k : Bool), 2 ^ 52 ≤ va →
    exec (.pageWalk a ctx va w k) s = .next (s.walkFault (walkAgent a).1 (walkAgent a).2 ctx va 0x05 7 w k)) ∧
  (∀ (s s1 : State) (a ctx va : Nat) (x : Xl), va < 2 ^ 52 →
    s.walkFor (walkAgent a).1 (walkAgent a).2 ctx va .read = (.ok x, s1) → exec (.pageWalk a ctx va false false) s = .next s1) ∧
  (∀ (s : State) (e : FaultE) (n : Nat), s.faults.find? (fun x => x.written && x.entry = n) = some e →
    exec (.retry n) s = .next (({ s with faults := s.faults.erase e } : State).resumeAgent e)) ∧
  (∀ (s : State) (n : Nat), s.faults.find? (fun x => x.written && x.entry = n) = none →
    exec (.retry n) s = .next s ∧ exec (.abandon n) s = .next s) ∧
  (∀ (s : State) (e : FaultE) (n : Nat), s.faults.find? (fun x => x.written && x.entry = n) = some e →
    let s1 : State := { s with faults := s.faults.erase e }
    (e.agent = .gateway → exec (.abandon n) s = .next (s1.modCore e.core (fun c => { c with trapRec0 := 0 }))) ∧
    (e.agent = .hubAgent → exec (.abandon n) s =
      .next { s1 with enc := s1.enc.filter (fun j => !(j.running && j.sess / 8 = e.core - 512)) }) ∧
    (∀ (h : Nat) (c : Core), e.agent = .helper h → e.core < 0x10000 → s.core e.core = some c → h < c.helpers.length →
      ∃ d, exec (.abandon n) s = .next (s1.setCore e.core d) ∧ (d.helper h).st = .abandoned ∧
        (d.helper h).cause = (c.helper h).cause ∧ (∀ k, k ≠ h → d.helper k = c.helper k) ∧ d.p = c.p ∧ d.sp = c.sp) ∧
    (∀ (c : Core) (l : Launch), (e.agent = .fill ∨ ∃ q, e.agent = .queue q) → e.core < 0x10000 → s.core e.core = some c →
      s.launchOf c.launch = some l → exec (.abandon n) s = .next (s1.endLaunch l.id 4 0))) ∧
  (∀ s : State, (s.reg 0x1108 / 2 ^ 63 % 2 = 0 ∨ ∀ e ∈ s.faults, e.written = true) → exec .faultRecordDeferred s = .next s) ∧
  (∀ (s : State) (e : FaultE), s.faults = [e] → e.written = false → s.reg 0x1108 / 2 ^ 63 % 2 = 1 → s.fqFree = true →
    exec .faultRecordDeferred s = .next ({ s with faults := [] }.fqWrite e)) ∧
  (∀ s : State, ∃ t, exec .faultRecordDeferred s = .next t ∧
    (t.reg 0x1108 / 2 ^ 63 % 2 = 0 ∨ t.fqFree = false ∨ ∀ e ∈ t.faults, e.written = true)) ∧
  (∀ (s : State) (c : Core), s.core s.focus.core = some c → c.sb = [] → exec .storeBufferDrain s = .next s) ∧
  (∀ (s : State) (c : Core) (e : SbE) (l : List SbE) (x : CLine), s.core s.focus.core = some c → c.sb = e :: l → e.parts ≠ [] →
    (∀ p ∈ e.parts, s.sbHeld s.focus.core c e.line p = false ∧ p.coh10 = false) → hcFind c e.line = some x →
    exec .storeBufferDrain s = .next { s.withCore { c with sb := l, hc := c.hc.map (fun x => if x.line = e.line then
      { x with data := (sbSum e.parts (x.data, x.dirty)).1, dirty := (sbSum e.parts (x.data, x.dirty)).2, lru := s.seq } else x) } with
      seq := s.seq + 1 }) ∧
  (∀ (s : State) (c : Core) (e : SbE) (p : SbP) (ps : List SbP) (l : List SbE), s.core s.focus.core = some c → c.sb = e :: l →
    e.parts = p :: ps →
    ((∀ q ∈ e.parts, s.sbHeld s.focus.core c e.line q = false ∧ q.coh10 = true) →
      exec .storeBufferDrain s = .next ((s.withCore { c with sb := l }).lineWrite s.focus.core p.h c.lctx 2
        (64 * e.line) (sbBytes e.parts) false)) ∧
    (s.sbHeld s.focus.core c e.line p = true → exec .storeBufferDrain s = .next s) ∧
    ((∀ q ∈ e.parts, s.sbHeld s.focus.core c e.line q = false ∧ q.coh10 = false) → hcFind c e.line = none →
      (fillOut s s.focus.core e.line = true → exec .storeBufferDrain s = .next s) ∧
      (fillOut s s.focus.core e.line = false → s.atomPends s.focus.core e.line = false → ∃ t d, exec .storeBufferDrain s = .next t ∧
        t.core s.focus.core = some d ∧ d.sb = c.sb ∧ d.hc = c.hc ∧ d.evs = c.evs ++ [(0x0E, p.h)]))) ∧
  (∀ (l : List SbP) (p : SbP) (x : List Byte × BitVec 64), sbSum [] x = x ∧
    sbSum (l ++ [p]) x = (mergeLine (sbSum l x).1 p.data p.mask, (sbSum l x).2 ||| p.mask)) ∧
  (∀ (s : State) (ctx va : Nat), s.tinv.length < 9 →
    (∃ t, exec (.tinvPage ctx va) s = .next t ∧ t.tinv = s.tinv ++ [pageTinv ctx va]) ∧
    (∃ t, exec (.tinvContext ctx) s = .next t ∧ t.tinv = s.tinv ++ [wN (2 ^ 62 + ctx % 16 * 2 ^ 52)]) ∧
    (∃ t, exec .tinvAll s = .next t ∧ t.tinv = s.tinv ++ [wN (2 ^ 63)])) ∧
  (∀ (s : State) (ctx va : Nat), 9 ≤ s.tinv.length → exec (.tinvPage ctx va) s = .next s ∧ exec (.tinvContext ctx) s = .next s ∧
    exec .tinvAll s = .next s) ∧
  (∀ (s : State) (w : Word) (l : List Word), s.tinv = w :: l → s.tinvRun = none → (s.tinvStart w).accessesUnder = false →
    ∃ t, exec .tinvComplete s = .next t ∧ t.tinv = l ∧ t.tinvRun = none) ∧
  (∀ (s : State) (w : Word) (l : List Word) (x : List (Nat × Nat) × Nat × Nat), s.tinv = w :: l → s.tinvRun = some x →
    (s.framesFlush x.1).accessesUnder = false → ∃ t, exec .tinvComplete s = .next t ∧ t.tinv = l ∧ t.tinvRun = none) ∧
  (∀ (s : State), s.tinv = [] → exec .tinvComplete s = .next s)

/-- The copy engine and the matrix engine start and complete their commands, or have nothing to do. A completed copy
command leaves its place, hands its successors in the graph to the decrements and sends the flag post its descriptor
asks for, one, both or neither; the due command of lowest time is brought before its queue, and leaves the time-sorted
buffer as it starts; a queue with nothing to start or stop, or no burst, is unchanged. Of the matrix engine, the next
command of its kind starts when what it needs is there and completes when its run is done, with its completion
counted; without one nothing changes. A block command starts once its block is read at its bank, a graph command once
its node is loaded and free of predecessors, and each stops its queue where that fails. The turn of a queue at a bank
is the reading of assumption 34; what the units do after their start stands in R287 and R293 to R295. (R141, R142,
R145, R148, R150, R155, R158, R160, R285, R286, R296, R297) -/
def Obligations.EngineEvents : Prop :=
  (∀ (s : State) (c : Core) (n q : Nat) (k : CopyCmd), s.core n = some c → (c.cq q).fin = some k → nodeOf c k = none →
    k.c.z.getLsbD 53 = false → exec (.copyCommandComplete n q) s = .next (s.setCore n (c.setCq q { c.cq q with fin := none }))) ∧
  (∀ (s : State) (c : Core) (n q : Nat) (k : CopyCmd), s.core n = some c → (c.cq q).fin = some k →
    let c1 := c.setCq q { c.cq q with fin := none }
    let dec (l : List Nat) : Core := { c1 with eng := { c1.eng with dec := c1.eng.dec ++ l } }
    let post (d : Core) : Core := { d with cyc := { d.cyc with out := d.cyc.out ++ [(.gate,
      .flagx (k.c.z.toNat / 2 ^ 44 % 2 ^ 9) (k.c.z.toNat / 2 ^ 32 % 2 ^ 5) (k.c.z.toNat / 2 ^ 37 % 2 ^ 7))] } }
    (∀ g, nodeOf c k = some g → k.c.z.getLsbD 53 = false → exec (.copyCommandComplete n q) s = .next (s.setCore n (dec g.succ))) ∧
    (∀ g, nodeOf c k = some g → k.c.z.getLsbD 53 = true → exec (.copyCommandComplete n q) s = .next (s.setCore n (post (dec g.succ)))) ∧
    (nodeOf c k = none → k.c.z.getLsbD 53 = true → exec (.copyCommandComplete n q) s = .next (s.setCore n (post c1)))) ∧
  (∀ (s : State) (c : Core) (n q : Nat), s.core n = some c → (c.cq q).fin = none → exec (.copyCommandComplete n q) s = .next s) ∧
  (∀ (s : State) (c : Core) (n q : Nat), s.core n = some c → atBoundary c q = true →
    exec (.timedCommandDue n q) s = .next (s.setCore n (c.setCq q { c.cq q with due := dueTimed c q (s.jobTime c.lctx) }))) ∧
  (∀ (c : Core) (q t : Nat) (e : Nat × Nat × CopyCmd), dueTimed c q t = some e → e ∈ c.eng.tsb ∧ e.2.1 = q ∧ e.1 ≤ t ∧
    ∀ f ∈ c.eng.tsb, f.2.1 = q → f.1 ≤ t → goesOn (c.cq q) f.2.2 = true → e.1 ≤ f.1) ∧
  (∀ (s : State) (c : Core) (n q : Nat) (k : CopyCmd) (l : List CopyCmd), s.core n = some c → startable c q = true →
    k.c.op = 0x20 → nodeOf c k = none →
    ((c.cq q).due = none → (c.cq q).cmds = k :: l →
      exec (.copyCommandStart n q) s = .next (s.setCore n (c.setCq q { c.cq q with cmds := { k with started := true } :: l }))) ∧
    (∀ t, (c.cq q).due = some (t, q, k) → (c.cq q).cmds = l → exec (.copyCommandStart n q) s = .next (s.setCore n
      ({ c with eng := { c.eng with tsb := c.eng.tsb.erase (t, q, k) } }.setCq q
        { c.cq q with cmds := { k with started := true } :: l, due := none })))) ∧
  (∀ (s : State) (c : Core) (n q : Nat) (k : CopyCmd) (l : List CopyCmd), s.core n = some c → startable c q = true →
    (c.cq q).due = none → (c.cq q).cmds = k :: l →
    (∀ g, nodeOf c k = some g → g.pred = none → ∃ d, exec (.copyCommandStart n q) s = .next (s.setCore n d) ∧
      d.cyc.trig = c.cyc.trig ++ [(0x3A, q, k.c.bundle, cENGDESC)] ∧ d.sp = c.sp ∧ d.p = c.p) ∧
    (∀ g, nodeOf c k = some g → g.pred = some 0 → k.c.op = 0x20 → exec (.copyCommandStart n q) s =
      .next (s.setCore n (c.setCq q { c.cq q with cmds := { k with started := true } :: l }))) ∧
    (nodeOf c k = none → k.c.op ≠ 0x20 →
      let a := k.c.x.toNat % 2 ^ 32
      let c1 : Core := { c with cyc := { c.cyc with turns := c.cyc.turns ++ [bankOf a], used := c.cyc.used ++ [bankOf a] } }
      (bankOf a ∈ c.cyc.turns → exec (.copyCommandStart n q) s = .next s) ∧
      (bankOf a ∉ c.cyc.turns → blockCheck c k.c.op (readBlk c a) = none → exec (.copyCommandStart n q) s = .next (s.setCore n
        (c1.setCq q { c.cq q with cmds := { k with blk := readBlk c a, started := true, delay := 1 } :: l }))) ∧
      (bankOf a ∉ c.cyc.turns → ∀ e, blockCheck c k.c.op (readBlk c a) = some e →
        ∃ d, exec (.copyCommandStart n q) s = .next (s.setCore n d) ∧
          d.cyc.trig = c.cyc.trig ++ [(0x3A, q, k.c.bundle, e)] ∧ d.sp = c.sp ∧ d.p = c.p))) ∧
  (∀ (s : State) (c : Core) (n q : Nat), s.core n = some c → startable c q = false → exec (.copyCommandStart n q) s = .next s) ∧
  (∀ (s : State) (c : Core) (n q : Nat), s.core n = some c → stoppable c q = false → exec (.queueStop n q) s = .next s) ∧
  (∀ (s : State) (c : Core) (n q : Nat) (k : CopyCmd) (l : List CopyCmd), s.core n = some c → stoppable c q = true →
    (startView c q).1.cmds = k :: l → ∃ d, exec (.queueStop n q) s = .next (s.setCore n d) ∧
      d.cyc.trig = c.cyc.trig ++ [(0x3A, q, k.c.bundle, k.cause.getD 0)] ∧ d.sp = c.sp ∧ d.p = c.p) ∧
  (∀ (s : State) (c : Core) (n q : Nat), s.core n = some c →
    let c0 := burstWrite q c
    let c1 := if (c.cq q).burst.isSome && (c0.cq q).burst.isNone && atBoundary c0 q
      then c0.setCq q { c0.cq q with due := dueTimed c0 q (s.jobTime c0.lctx) } else c0
    (running c1 q = none → exec (.copyBurst n q) s = .next (s.setCore n c1)) ∧
    (∀ k, running c1 q = some k →
      (copyTotal k = 0 → exec (.copyBurst n q) s = .next (s.setCore n (copyFinish q c1))) ∧
      (copyTotal k ≠ 0 → (c1.eng.rd = true ∨ turnOf c1 ≠ some q) → exec (.copyBurst n q) s = .next (s.setCore n c1)) ∧
      (copyTotal k ≠ 0 → c1.eng.rd = false → turnOf c1 = some q → (c1.cq q).burst = none →
        exec (.copyBurst n q) s = .next ((s.setCore n c1).burstStart n q c1 k)) ∧
      (copyTotal k ≠ 0 → c1.eng.rd = false → turnOf c1 = some q → (c1.cq q).burst ≠ none →
        exec (.copyBurst n q) s = .next ((s.setCore n (burstRead q c1)).burstSend n q)))) ∧
  (∀ (c : Core) (q : Nat) (k : CopyCmd) (b : Burst), running c q = some k → (c.cq q).burst = some b →
    (b.data = [] ∨ b.req ≠ none ∨ b.dparts ≠ [] ∨ burstPaid c q = false) → burstWrite q c = c) ∧
  (∀ (c : Core) (q : Nat) (k : CopyCmd) (l : List CopyCmd), (c.cq q).cmds = k :: l → q < c.eng.qs.length →
    ((copyFinish q c).cq q).cmds = l ∧ ((copyFinish q c).cq q).fin = some k ∧ ((copyFinish q c).cq q).burst = none ∧
    (copyFinish q c).sp = c.sp ∧ (copyFinish q c).p = c.p) ∧
  (∀ (s : State) (c : Core) (k : MCmd), s.core s.focus.core = some c → nextOf c 0x10 = some k → tokensOk c k.c = true →
    (k.c.x.getLsbD 63 = false ∨ streamOut c k.c = false) →
      ∃ d, exec .mmulStart s = .next (s.withCore d) ∧ d.mat.runs.length = c.mat.runs.length + 1 ∧ d.sp = c.sp ∧ d.p = c.p) ∧
  (∀ (s : State) (c : Core) (k : MCmd), s.core s.focus.core = some c → nextOf c 0x10 = some k → tokensOk c k.c = true →
    k.c.x.getLsbD 63 = true → streamOut c k.c = true → exec .mmulStart s = .next (s.withCore (matFail k cLOCALRANGE c))) ∧
  (∀ (s : State) (c : Core) (k : MCmd), s.core s.focus.core = some c → nextOf c 0x10 = some k → tokensOk c k.c = false →
    exec .mmulStart s = .next s) ∧
  (∀ (s : State) (c : Core) (r : MRun) (l : List MRun), s.core s.focus.core = some c → c.mat.runs = r :: l → runDone r = true →
    exec .mmulComplete s = .next (s.withCore (matDone r.no { c with mat := { c.mat with runs := l } }))) ∧
  (∀ (s : State) (c : Core) (k : MCmd), s.core s.focus.core = some c → nextOf c 0x11 = some k →
    ∃ d, exec .mdrainStart s = .next (s.withCore d) ∧ d.mat.drain = some ⟨k.no, k.c, 0, some (0, []), none, [], []⟩ ∧ d.sp = c.sp) ∧
  (∀ (s : State) (c : Core) (k : MCmd), s.core s.focus.core = some c → nextOf c 0x12 = some k →
    ∃ d, exec .bfillStart s = .next (s.withCore d) ∧ d.mat.fill = some ⟨k.no, k.c, 0, none, none, [], []⟩ ∧ d.sp = c.sp) ∧
  (∀ (s : State) (c : Core) (k : MCmd), s.core s.focus.core = some c → nextOf c 0x13 = some k →
    ∃ d, exec .mcodeStart s = .next (s.withCore d) ∧ d.mat.mcode = some ⟨k.no, k.c, 0, none, none, [], []⟩ ∧ d.sp = c.sp) ∧
  (∀ (s : State) (c : Core) (u : MUnit), s.core s.focus.core = some c →
    (c.mat.drain = some u → drainDone u = true →
      let s1 := s.withCore (matDone u.no { c with mat := { c.mat with drain := none } })
      (u.c.z.getLsbD 17 = false → exec .mdrainComplete s = .next s1) ∧
      (u.c.z.getLsbD 17 = true → exec .mdrainComplete s = .next (let t := s1.barTime s.focus.core
        t.2.send (t.1 + 1) s.focus.core c.lctx (.arrival (u.c.z.toNat / 2 ^ 9 % 256) 1)))) ∧
    (c.mat.fill = some u → fillDone u = true →
      exec .bfillComplete s = .next (s.withCore (matDone u.no { c with mat := { c.mat with fill := none } }))) ∧
    (c.mat.mcode = some u → 16 ≤ u.step → ∀ b, u.data = some b →
      exec .mcodeComplete s = .next (s.withCore (matDone u.no { c with mat := { c.mat with
        mcode := none, cbA := bookOf b.2 0, cbB := bookOf b.2 32, code := true } }))) ∧
    (c.mat.swap = some u → swapDoneB c = true → ∃ d, exec .swapComplete s = .next (s.withCore d) ∧ d.mat.swap = none ∧
      d.mat.swapDone = c.mat.swapDone + 1)) ∧
  (∀ (s : State) (c : Core) (u : MUnit), s.core s.focus.core = some c → c.mat.swap = some u → c.mat.swapLive = false →
    (s.nowCore c.launch c.mat.partner = s.focus.core →
      exec .swapExchangeStart s = .next (s.withCore (swapGo c))) ∧
    (∀ pn p v, s.nowCore c.launch c.mat.partner = pn → pn ≠ s.focus.core → s.core pn = some p → p.mat.swap = some v →
      swLen u.c = swLen v.c → p.mat.swapDone = c.mat.swapDone →
      exec .swapExchangeStart s = .next ((s.withCore (swapGo c)).setCore pn (swapGo p))) ∧
    (∀ pn p v, s.nowCore c.launch c.mat.partner = pn → pn ≠ s.focus.core → s.core pn = some p → p.mat.swap = some v →
      p.mat.swapDone ≠ c.mat.swapDone → exec .swapExchangeStart s = .next s)) ∧
  (∀ c : Core, (swapGo c).mat.swapLive = true ∧ (swapGo c).mat.swapTx = c.mat.swap ∧ (swapGo c).sp = c.sp ∧ (swapGo c).p = c.p) ∧
  (∀ (s : State) (c : Core), s.core s.focus.core = some c →
    (failing (s.partnerAccepted c) c = none → exec .matrixTimelineStop s = .next s) ∧
    (∀ k, failing (s.partnerAccepted c) c = some k →
      exec .matrixTimelineStop s = .next (s.withCore (matFail k (k.cause.getD 0) c))))

/-- Packets consumed, stages released, launches finished, pre-empted, killed, replayed and swapped; barriers and encoders.
Without a packet the four packet events change nothing; with one, each takes it and its sequence number and does what
its type asks. A stage of a running launch is released; a launch running with no part left is finished with status 0
and the next decision follows. A kill whose launch is quiet finishes it. A replay consumes its packets of its graph in
order; a swap-in copies the page of its fault to a frame of the pool, makes the leaf resident and retries, or waits
for a frame; a swap-out goes on with its list. A barrier counts its arrivals, modulo its target, and triggers when the
target is reached. What passes the target counts toward the next frame. Of a context with several killed launches each
that is quiet finishes. The end of a pre-emption leaves the launch with the images it resumes from (R398). The swap
engine's choices of a frame and its times are assumption 108's, the retries in slot 63 assumption 145's, the times of
the encoder assumption 114's. (R358, R361, R364, R368, R370, R371, R375, R377, R378, R393, R399, R433) -/
def Obligations.SchedulerEvents : Prop :=
  (∀ s : State, s.hasPacket s.focus.core = false → exec .launchPacket s = .next s ∧ exec .replay s = .next s ∧
    exec .kill s = .next s ∧ exec .record s = .next s) ∧
  (∀ s : State, s.hasPacket s.focus.core = true →
    let m := s.focus.core
    let t := s.takePacket m
    let ra := (t.1.getD 7 0).toNat
    ((t.1.getD 0 0).toNat / 2 ^ 60 = 0 → exec .launchPacket s = .next ((t.2.2.typeZero m t.2.1 t.1).decide)) ∧
    (otherBad t.1 0 = false → exec .kill s = .next
      (let s1 := t.2.2.killCtx (s.strCtx m) true none
       ({ s1 with kills := s1.kills ++ [(m, t.2.1, s.strCtx m, ra)] }.killRecords (s.strCtx m)).decide)) ∧
    (otherBad t.1 8 = false →
      let g := (t.1.getD 1 0).toNat % 256
      let s1 := (((s.graphs.filter (fun e => e.1 = g)).map (·.2)).map (s.patched g)).foldl (fun st p =>
        let q := st.takeSeq m
        { q.2 with extra := spSet 0 q.2.extra m ((spGet 0 q.2.extra m + 1) % 2 ^ 32) }.typeZero m q.1 p) t.2.2
      exec .replay s = .next ((s1.finishPacket m t.2.1 (s.strCtx m) ra 0 0).decide)) ∧
    (otherBad t.1 18 = false → ∀ k, k = (t.1.getD 1 0).toNat / 256 % 1024 → 0 < k → k ≤ 512 →
      let g := (t.1.getD 1 0).toNat % 256
      let s1 := { t.2.2 with graphs := t.2.2.graphs.filter (fun e => e.1 ≠ g) }
      s1.slotsUsed + k ≤ 512 →
      exec .record s = .next ({ s1 with recording := s1.recording ++ [(m, g, k, t.2.1, ra)] }.decide))) ∧
  (∀ (s : State) (id : Nat), s.launchOf id = none → exec (.stageRelease id) s = .next s ∧ exec (.launchComplete id) s = .next s ∧
    exec (.preemptionEnd id) s = .next s ∧ exec (.replayPass id) s = .next s) ∧
  (∀ (s : State) (l : Launch) (id : Nat), s.launchOf id = some l → l.state = .running →
    let u := s.releaseStage id
    ∀ k, u.launchOf id = some k →
      (k.passes = 0 → exec (.stageRelease id) s = .next u) ∧
      (k.passes ≠ 0 → exec (.stageRelease id) s = .next (u.programPass k (l.nrel = 0 && k.nrel ≠ 0 && !l.resume)))) ∧
  (∀ (s : State) (l : Launch) (id : Nat), s.launchOf id = some l → l.state = .running → l.left = [] → l.passes = 0 →
    exec (.launchComplete id) s = .next (s.finish id 0 0).decide) ∧
  (∀ (s : State) (l : Launch) (id : Nat), s.launchOf id = some l → l.state = .finished → l.passes = 0 →
    (s.hubReadOut l.ctx = true → exec (.launchComplete id) s = .next (s.later (s.tick + 1) 0 (.launchComplete id))) ∧
    (s.hubReadOut l.ctx = false → exec (.launchComplete id) s = .next (s.finish id l.status l.cause).decide)) ∧
  (∀ (s : State) (l : Launch) (id : Nat), s.launchOf id = some l → l.state = .preempting → l.images ≠ [] →
    exec (.preemptionEnd id) s = .next
      (let s1 := s.modLaunch id (fun k => { k with state := .preempted, clusters := [] })
       ({ s1 with cores := s1.cores.filter (fun e => !(e.2.launch = id && e.1 < 512)) }.setNoc).decide)) ∧
  (∀ (s : State) (l : Launch) (ctx : Nat), s.launches = [l] → l.ctx = ctx → l.state = .killing → s.killQuiet l.id = true →
    let s2 := (s.finishKilled l).killRecords ctx
    s2.launches = [] → exec (.killComplete ctx) s = .next s2.decide) ∧
  (∀ (s : State) (ctx : Nat),
    let mine := s.launches.filter (fun l => l.ctx = ctx && l.state = .killing)
    let s1 := mine.foldl (fun st l => if st.killQuiet l.id then st.finishKilled l else st) s
    let s2 := s1.killRecords ctx
    let on (t : State) : State := if t.launches.length < s.launches.length then t.decide else t
    (s2.launches.any (fun l => l.ctx = ctx && leaving l) = true →
      exec (.killComplete ctx) s = .next (on (s2.later (s.tick + 1) ctx (.killComplete ctx)))) ∧
    (s2.launches.any (fun l => l.ctx = ctx && leaving l) = false → exec (.killComplete ctx) s = .next (on s2))) ∧
  (∀ (s : State) (l : Launch) (id : Nat), s.launchOf id = some l → l.passes ≠ 0 → partsOver l = true → l.pass + 1 < l.passes → l.pass ≠ 0 →
    exec (.replayPass id) s = .next ((s.passResults l).nextPass l l.sigs l.jobBack)) ∧
  (∀ (s : State) (l : Launch) (id : Nat), s.launchOf id = some l → l.passes ≠ 0 → partsOver l = true → l.passes ≤ l.pass + 1 →
    exec (.replayPass id) s = .next ((s.passResults l).complete l.id)) ∧
  (∀ s : State, exec .schedulerWindow s = .next ((s.setFld 0x1408 47 0 0).decide)) ∧
  (∀ (s : State) (ctx k : Nat), s.swapOn = false → exec (.swapOut ctx k) s = .next { s with swapAct := none }) ∧
  (∀ (s : State) (ctx k : Nat), s.swapOn = true → s.swapAct = none → s.poolCount < s.lowWm →
    exec (.swapOut ctx k) s = .next
      (({ s with swapAct := some (k, 0), swapGone := [], swapFaults := [] }.setFld 0x1530 15 8 k).swapNext ctx k)) ∧
  (∀ (s : State) (ctx k x i : Nat), s.swapOn = true → s.swapAct = some (x, i) →
    let u := s.setFld 0x1530 15 8 x
    ((u.slotList x).2 ≤ i → exec (.swapOut ctx k) s = .next (u.swapSlotDone x)) ∧
    (i < (u.slotList x).2 → exec (.swapOut ctx k) s = .next (u.swapEntry x i))) ∧
  (∀ (s : State) (n : Nat), s.faults.find? (fun e => e.written && e.entry = n) = none → exec (.swapIn n) s = .next s) ∧
  (∀ (s : State) (e : FaultE) (n : Nat), s.faults.find? (fun e => e.written && e.entry = n) = some e →
    let l := s.leafOf e.ctx e.page
    (l.1 = none → exec (.swapIn n) s = .next (l.2.retryEntry n)) ∧
    (∀ a v, l.1 = some (a, v) →
      (leafSwap v = 0 → exec (.swapIn n) s = .next (l.2.retryEntry n)) ∧
      (leafSwap v ≠ 0 → (leafSwap v = 1 ∨ l.2.fwBusy = true ∨ l.2.swapOn = false ∨ l.2.poolCount = 0) →
        exec (.swapIn n) s = .next (l.2.later (l.2.slot63 0) 0 (.swapIn n))) ∧
      (leafSwap v ≠ 0 → leafSwap v ≠ 1 → l.2.fwBusy = false → l.2.swapOn = true → 0 < l.2.poolCount →
        let k := l.2.poolCount - 1
        let frame := l.2.peek (l.2.poolAt k) 8 / 2 ^ 16 % 2 ^ 36 * 0x10000
        let r := l.2.homeRead 2 (leafFrame v) 1026 0x10000
        let s2 := ((r.2.physWrite frame r.1).setFld 0x1510 31 0 k).physWrite a
          (leBytes 8 (setBits (setBits v 59 58 0) 51 16 (frame / 0x10000)))
        let s3 : State := { s2 with
          swapUsed := s2.swapUsed.erase ((leafFrame v - s2.swapBase) / 0x10000),
          swapGone := s2.swapGone.erase (leafSeq v) }
        exec (.swapIn n) s = .next ((s3.countSat 0x1530 31 16 1).retryEntry n)))) ∧
  (∀ (s : State) (b n : Nat), 0 < s.fld (barReg b 4) 31 16 + n →
    s.fld (barReg b 4) 31 16 + n < max 1 (s.fld (barReg b 0) 15 0) →
    exec (.barrierArrival b n) s = .next (s.setFld (barReg b 4) 31 16 (s.fld (barReg b 4) 31 16 + n))) ∧
  (∀ (s : State) (b n : Nat), s.fld (barReg b 4) 31 16 + n = max 1 (s.fld (barReg b 0) 15 0) →
    ∃ k, exec (.barrierArrival b n) s = .next (State.barCount (s.barTrigger b) b k 0)) ∧
  (∀ (s : State) (b n : Nat),
    let t := max 1 (s.fld (barReg b 0) 15 0)
    let c := s.fld (barReg b 4) 31 16 + n
    exec (.barrierArrival b n) s = .next (((List.replicate (c / t) b).foldl State.barTrigger s).setFld (barReg b 4) 31 16 (c % t))) ∧
  (∀ (s : State) (e : Nat) (j : EncJob), s.sessIdle e = true →
    s.fld (0x3050000 + 64 * e) 63 63 = 1 → s.enc.find? (fun j => !j.running && j.sess = e) = some j →
    ∃ t, exec (.encodeJobStart e) s = .next t ∧
      t.enc = if Config.encoders then modFirst (fun j => !j.running && j.sess = e) (fun k => { k with running := true }) s.enc
        else s.enc) ∧
  (∀ (s u : State) (e : Nat) (j : EncJob), s.enc.find? (fun j => j.running && j.sess = e) = some j →
    let b := j.bar
    let ctx := s.fld (barReg b 0) 62 59
    let size := 2 ^ (j.ring.toNat % 16 + 12)
    let base := j.ring.toNat / 2 ^ 12 % 2 ^ 40 * 4096
    let len := Config.streamLen s.seq
    let n := frameBytes (s.reg (0x3050000 + 64 * e))
    (s.encFault ctx .read (n / 0x10000 + 2) (j.frame.toNat / 2 ^ 12 % 2 ^ 40 * 4096) n).1 = none →
    (s.encFault ctx .read (n / 0x10000 + 2) (j.frame.toNat / 2 ^ 12 % 2 ^ 40 * 4096) n).2.encFault ctx .write
      (size / 0x10000 + 2) base size = (none, u) →
    exec (.encodeJobComplete e) s = .next
      (if size < (s.fld (barReg b 5) 31 0 + 2 ^ 32 - s.fld (barReg b 6) 31 0) % 2 ^ 32 + len
       then s.later (s.tick + 1) 0 (.encodeJobComplete e) else
       let d := (List.range len).map (Config.streamByte s.seq)
       let o := s.fld (barReg b 5) 31 0 % size
       let s1 := (u.ctxPut ctx (base + o) (d.take (min len (size - o)))).ctxPut ctx base (d.drop (min len (size - o)))
       (({ s1 with seq := s1.seq + 1, enc := s1.enc.erase j }.countMod (barReg b 5) 31 0 len).triggerDone b).soon 0
         [.encodeJobStart e])) ∧
  (∀ (s : State) (e : Nat), s.sessIdle e = false → exec (.encodeJobStart e) s = .next s) ∧
  (∀ (s : State) (e : Nat), s.enc.find? (fun j => j.running && j.sess = e) = none → exec (.encodeJobComplete e) s = .next s)

/-- Halt waves, stops, resumes, steps and breakpoints move a context through its debug states. A host halt triggers a wave
in a running context, is kept while a resume waits, and is without effect in a stopped one. At the stop tick the
context is STOPPED. A resume or step of a stopped context at an admissible tick waits for it; at another it is
refused; of a context not stopped it does nothing. At its tick a resumed context runs again and its parked messages go
on. Clearing the cause empties the causes of a running or stopped context. At its tick the core of a core step is let
go and a cycle later stands again. A breakpoint that matches triggers a wave, once for the standing bundle; a core
that is absent changes nothing. A CORESTEP of a core that runs no launch of the job is refused as one too early is. In
which cycle a wave reaches a core is drawn (assumption 79). (R417, R418, R419, R420, R421, R422, R423, R424, R425) -/
def Obligations.DebugEvents : Prop :=
  (∀ (s : State) (n : Nat) (v : Word), ((s.jobOf n).state = 0 → exec (.hostHalt n v) s = .next (s.trigger n 0x3D none 15 0 0)) ∧
    ((s.jobOf n).state = 2 → exec (.hostHalt n v) s = .next s) ∧
    ((s.jobOf n).state = 3 → exec (.hostHalt n v) s = .next { s with jobs := setAt s.jobs n { s.jobOf n with hostHeld := true } })) ∧
  (∀ s : State, (s.jobOf s.focus.core).state ≠ 1 → exec .haltFlit s = .next s) ∧
  (∀ s : State, (s.jobOf s.focus.core).state = 1 → (∀ e ∈ s.cores, ofJob s.focus.core e.2 = true → e.2.frozen = true) →
    exec .haltFlit s = .next (s.later (s.tick + 1) s.focus.core .haltFlit)) ∧
  (∀ (s : State) (k : Nat) (c : Core), (s.jobOf s.focus.core).state = 1 → s.cores = [(k, c)] → ofJob s.focus.core c = true →
    c.frozen = false → exec .haltFlit s = .next ((if s.drawBit.1 then s.drawBit.2.freezeCore k else s.drawBit.2).later
      (s.tick + 1) s.focus.core .haltFlit)) ∧
  (∀ s : State, s.stopsNow.contains s.focus.core = true → s.focus.core < s.jobs.length →
    ∃ t, exec .stopTick s = .next t ∧ (t.jobOf s.focus.core).state = 2 ∧ (t.jobOf s.focus.core).wave = false) ∧
  (∀ s : State, s.stopsNow.contains s.focus.core = false → exec .stopTick s = .next s) ∧
  (∀ (s : State) (n : Nat) (v : Word), (s.jobOf n).state ≠ 2 → exec (.resume n v) s = .next s ∧ exec (.jobstep n v) s = .next s ∧
    exec (.corestep n v) s = .next s) ∧
  (∀ (s : State) (n : Nat) (v : Word), (s.jobOf n).state = 2 → s.tickOk n = false →
    exec (.resume n v) s = .next (s.refused n true) ∧ exec (.jobstep n v) s = .next (s.refused n true)) ∧
  (∀ (s : State) (n : Nat) (v : Word), (s.jobOf n).state = 2 → s.tickOk n = true → n < s.jobs.length →
    (∃ t, exec (.resume n v) s = .next t ∧ (t.jobOf n).state = 3 ∧ (t.jobOf n).resume = some (s.reg (dbg n 0x20)) ∧
      (t.jobOf n).step = none) ∧
    (∃ t, exec (.jobstep n v) s = .next t ∧ (t.jobOf n).state = 3 ∧ (t.jobOf n).step = some (v.toNat % 2 ^ 20 + 1)) ∧
    (∀ c, s.core (v.toNat / 2 ^ 48 % 512) = some c → c.lctx = n → c.run ≠ .ended →
      ∃ t, exec (.corestep n v) s = .next t ∧
        (t.jobOf n).core = (s.jobOf n).core ++ [(v.toNat / 2 ^ 48 % 512, s.reg (dbg n 0x20), none)] ∧ (t.jobOf n).state = 2)) ∧
  (∀ (s : State) (n : Nat) (v : Word), (s.jobOf n).state = 2 →
    (s.tickOk n = false ∨ s.core (v.toNat / 2 ^ 48 % 512) = none ∨
      ∃ c, s.core (v.toNat / 2 ^ 48 % 512) = some c ∧ (c.lctx ≠ n ∨ c.run = .ended)) →
    exec (.corestep n v) s = .next (s.refused n true)) ∧
  (∀ (s : State) (n : Nat) (v : Word), ((s.jobOf n).state = 0 ∨ (s.jobOf n).state = 2) → n < s.jobs.length →
    ∃ t, exec (.clearcause n v) s = .next t ∧ (t.jobOf n).causes = [] ∧ (t.jobOf n).state = (s.jobOf n).state) ∧
  (∀ s : State, (s.jobOf s.focus.core).state ≠ 3 → exec .resumeAtTick s = .next s) ∧
  (∀ (s : State) (r : Nat), (s.jobOf s.focus.core).state = 3 → (s.jobOf s.focus.core).resume = some r → r ≤ s.tick + 1 →
    s.focus.core < s.jobs.length → ∃ t, exec .resumeAtTick s = .next t ∧ (t.jobOf s.focus.core).state = 0 ∧
      (t.jobOf s.focus.core).resume = none ∧ (∀ m ∈ t.parked, m.lctx ≠ s.focus.core)) ∧
  (∀ (s : State) (k : Nat), (s.jobOf s.focus.core).state = 0 → (s.jobOf s.focus.core).step = some k → k ≤ s.tick + 1 →
    exec .jobstepEnd s = .next (s.freezeAll s.focus.core)) ∧
  (∀ s : State, (s.jobOf s.focus.core).core = [] → exec .corestepAtTick s = .next s) ∧
  (∀ (s : State) (k r : Nat), (s.jobOf s.focus.core).core = [(k, r, none)] → (s.jobOf s.focus.core).state = 2 → r ≤ s.tick + 1 →
    exec .corestepAtTick s = .next (((s.modCore k thaw).setJob s.focus.core
      { s.jobOf s.focus.core with core := [(k, r, some s.tick)] }).later (s.tick + 1) s.focus.core .corestepAtTick)) ∧
  (∀ (s : State) (k r t : Nat), (s.jobOf s.focus.core).core = [(k, r, some t)] → (s.jobOf s.focus.core).state = 2 → t < s.tick →
    exec .corestepAtTick s = .next ((s.freezeCore k).setJob s.focus.core { s.jobOf s.focus.core with core := [] })) ∧
  (∀ (s : State) (c : Core) (i : Nat), s.core s.focus.core = some c → isGate c = false → s.bpMatch s.focus.core c = some i →
    exec .breakpoint s = .next ((s.trigger c.lctx 0x3C (some s.focus.core) 15 (slotBundle c.p 0) i).modCore s.focus.core
      (fun d => { d with bpSkip := true }))) ∧
  (∀ s : State, s.core s.focus.core = none → exec .breakpoint s = .next s ∧ exec .breakpointTakesEffect s = .next s) ∧
  (∀ (s : State) (c : Core), s.core s.focus.core = some c →
    exec .breakpointTakesEffect s = .next (s.syncBps s.focus.core c.lctx))

/-- Writes of hub registers and the services behind them: windows, legend, survey, recorder, frames and streams. A
register write off a doubleword boundary changes nothing; of a register that no service stands behind it writes its
writable fields. An expand window disabled takes its format and view. Legend reads and writes move the offset on by
one. A survey pulse is counted; a shadow trigger copies every counter of every core to its shadow; one set too close
is ignored, and one on an unlocked chip arms nothing. A stream whose slots fit nowhere is refused with nothing else
written. A frame frees the slots due and counts, unless the firmware is busy. A stream with a packet has it taken, by
the event of its type, within 470 cycles; one without is left; a disabled boot leaves streams as they are. The survey
pulse is R426's and R427's. That a trigger on an unlocked chip arms nothing is the reading of assumption 104, that a
heartbeat outside the host window writes nothing that of assumption 111. (R21, R203, R206, R342, R426, R429, R431,
R434, R438, R439, R440, R443) -/
def Obligations.HubRegisterEvents : Prop :=
  (∀ (s : State) (off : Nat) (v : Word), off % 8 ≠ 0 → exec (.registerWrite off v) s = .next s) ∧
  (∀ (s : State) (off : Nat) (v : Word), off % 8 = 0 → off < 0x2000 → s.hubLow off v.toNat = none →
    exec (.registerWrite off v) s = .next (s.putFields off (rwMask off) v.toNat)) ∧
  (∀ (s : State) (w : Nat) (v : Word), v.getLsbD 63 = false →
    exec (.fwCtlWrite w v) s = .next ((s.startFills.setReg (fwReg w 0) (v.toNat / 2 ^ 58 * 2 ^ 58 + v.toNat / 2 ^ 12 % 2 ^ 40 * 2 ^ 12)).setFld
      (fwReg w 5) 63 63 0)) ∧
  (∀ s : State, exec .legdataRead s = .next (s.setFld 0x1388 31 3 (s.fld 0x1388 31 3 + 1))) ∧
  (∀ (s : State) (v : Word), s.fld 0x1380 2 0 * 2 ^ 30 < s.fld 0x1388 31 3 * 8 + 8 →
    exec (.legdataWrite v) s = .next (s.setFld 0x1388 31 3 (s.fld 0x1388 31 3 + 1))) ∧
  (∀ (s : State) (v : Word), s.fld 0x1388 31 3 * 8 + 8 ≤ s.fld 0x1380 2 0 * 2 ^ 30 →
    exec (.legdataWrite v) s = .next
      (s.physWrite (s.chip * 2 ^ 45 + s.carveLo + s.fld 0x1388 31 3 * 8) (leBytes 8 v.toNat)).legNext) ∧
  (∀ (s : State) (d : Nat), exec (.frdata d) s = .next (s.setFld (0x8210 + 32 * d) 12 0 (s.fld (0x8210 + 32 * d) 12 0 + 1))) ∧
  (∀ s : State, ∃ t, exec .surveyPulse s = .next t ∧ t.survPulses = s.survPulses + 1 ∧ t.cores = s.cores ∧ t.tick = s.tick) ∧
  (∀ (s : State) (v : Word), v.toNat < s.tick + 4096 → exec (.shtrig v) s = .next s) ∧
  (∀ (s : State) (v : Word), s.tick + 4096 ≤ v.toNat →
    (s.locked = true → exec (.shtrig v) s = .next (((s.setReg 0x8100 v.toNat).setFld 0x8108 63 63 1).later v.toNat 0 .shadowTrigger)) ∧
    (s.locked = false → exec (.shtrig v) s = .next (s.setReg 0x8100 v.toNat))) ∧
  (∀ s : State, ∃ t, exec .shadowTrigger s = .next t ∧
    ∀ n, (t.core n).map (fun c => (c.shcnt, c.cnt)) = (s.core n).map (fun c => (c.cnt, c.cnt))) ∧
  (∀ (s : State) (v : Word), s.timers.any (fun e => e.2.2 = .attestationReport) = true → exec (.attreq v) s = .next s) ∧
  (∀ (s : State) (v : Word), s.timers.any (fun e => e.2.2 = .attestationReport) = false →
    ∃ t, exec (.attreq v) s = .next t ∧ t.fld 0x188 63 63 = 0 ∧ t.reg 0x180 = v.toNat / 2 ^ 12 % 2 ^ 40 * 2 ^ 12) ∧
  (∀ s : State, ∃ t, exec .attestationReport s = .next t ∧ t.fld 0x188 63 63 = 1) ∧
  (∀ s : State, isHost (s.reg 0x108) = false → exec .heartbeat s = .next s) ∧
  (∀ s : State, isHost (s.reg 0x108) = true →
    exec .heartbeat s = .next (s.homeWrite 2 (s.reg 0x108) 2 ((leBytes 8 s.frames).map some))) ∧
  (∀ s : State, ∃ t, exec .majorFrame s = .next t ∧ t.freeing = [] ∧
    t.frames = (if s.fwBusy then s.frames else s.frames + 1) ∧ t.cores = s.cores ∧ t.mem = s.mem) ∧
  (∀ s : State, (s.hasPacket s.focus.core = false ∨ s.bootFail = true) → exec .streamPoll s = .next s) ∧
  (∀ s : State, s.hasPacket s.focus.core = true → s.bootFail = false →
    let p := s.packetAt s.focus.core
    let ev := packetEvent ((p.1.getD 0 0).toNat / 2 ^ 60)
    let d := p.2.drawIn 0 469
    (d.1 = 0 → exec .streamPoll s = .next (d.2.soon s.focus.core [ev])) ∧
    (d.1 ≠ 0 → exec .streamPoll s = .next (d.2.later (s.tick + d.1) s.focus.core ev))) ∧
  (∀ (s : State) (m : Nat) (v : Word), s.bootFail = true → exec (.streamEnable m v) s = .next s ∧ exec (.streamDisable m v) s = .next s) ∧
  (∀ (s : State) (m : Nat) (v : Word), s.bootFail = false →
    let t := s.strFields m v.toNat
    let fit := slotChoice t.slots (t.fld (strReg m 8) 46 41)
    (fit ≠ none → exec (.streamEnable m v) s = .next (t.placeSlots m)) ∧
    (fit = none → exec (.streamEnable m v) s = .next (s.setFld (strReg m 0x28) 15 8 0x0E)) ∧
    exec (.streamDisable m v) s = .next (let s1 := s.strFields m v.toNat
      { s1 with freeing := s1.freeing ++ s1.heldSlots m }))

/-- Links, graticule discipline, exchange plans, reduction trees and dispatch groups. A good flit ends the retries of its
port and takes effect, an access of a frozen job waiting in the port; a bad one counts one. A link down or up sets its
state bit, counts and is noted. A discipline message moves no counter of the master, and elsewhere sets the offset
still to steer. A plan write on a busy slot changes nothing; a late plan ends with LATE; a phase not due starts
nothing, a block is read as it is injected and written as it is performed, or notes its fault; a complete plan posts
and ends DONE. A tree write while a check runs changes nothing. A list for a node short of its inputs waits there, the
last one merges and goes on to the parent or the target. A list for a group that is not set up is noted and dropped;
the last one of a group builds its tables. In mode 0 a plan that differs from a peer's ends with MISMATCH, and a block
that goes to another chip changes nothing here. That DISCIPLINE_SEND has no effect here is the reading of assumption
105; when a plan is read and whether it is late are drawn (assumptions 38 and 39); link credits, untranslated pages
and the times of trees rest on assumptions 45, 74 and 106. The note of a dropped list names its sender (R434). (R400,
R401, R402, R403, R404, R405, R406, R407, R409, R411, R413, R434) -/
def Obligations.LinkAndTreeEvents : Prop :=
  (∀ (s : State) (p : Nat), let s1 := { s with linkRetry := spSet 0 s.linkRetry p 0 }
    (s.nextFlit p = none → exec (.linkFlitReceive p true) s = .next s1) ∧
    (∀ e, s.nextFlit p = some e →
      exec (.linkFlitReceive p true) s = .next (({ s1 with wire := s1.wire.erase e } : State).flitLands p e.2))) ∧
  (∀ (s : State) (p ctx coh pa len n f r : Nat) (op : ReqOp) (data : List (Option Byte)) (e : Word × Word) (k : Option Nat),
    let x : Flit := .access ctx coh pa len op data
    (((s.jobOf ctx).state = 2 ∨ (s.jobOf ctx).state = 3) → s.flitLands p x = { s with portHeld := s.portHeld ++ [(p, x)] }) ∧
    ((s.jobOf ctx).state < 2 → s.flitLands p x = s.peerAccess p ctx coh pa len op data) ∧
    s.flitLands p (.halt n f e) = s.joinWave n f e ∧
    ((s.jobOf n).state ≠ 2 → s.flitLands p (.resume n r k) = s)) ∧
  (∀ (s : State) (p : Nat), ∃ t, exec (.linkFlitReceive p false) s = .next t ∧
    spGet 0 t.linkRetry p = spGet 0 s.linkRetry p + 1 ∧ t.mem = s.mem ∧ t.cores = s.cores) ∧
  (∀ (s : State) (p q : Nat), exec (.linkDown p) s = .next (((s.setFld (lst p) 63 63 0).countSat (lst p) 31 16 1).note 4 6 1 0 0x1FF p) ∧
    exec (.linkUp p q) s = .next (((s.setFld (lst p) 63 63 1).setFld (lst p) 54 48 q).note 4 6 2 0 0x1FF p)) ∧
  (∀ s : State, exec .disciplineSend s = .next s) ∧
  (∀ (s : State) (p v : Nat), s.isMaster = true → exec (.graticuleDiscipline p v) s = .next s) ∧
  (∀ (s : State) (p v : Nat), s.isMaster = false → ∃ t, exec (.graticuleDiscipline p v) s = .next t ∧
    t.gratOff = (v : Int) - s.tick ∧ t.tick = s.tick ∧ t.cores = s.cores) ∧
  (∀ (s : State) (n : Nat) (v : Word), s.fld (planStat n) 63 63 = 1 → exec (.plan n v) s = .next s) ∧
  (∀ (s : State) (n : Nat) (v : Word), s.fld (planStat n) 63 63 = 0 →
    let va := v.toNat / 2 ^ 6 % 2 ^ 46 * 64
    let r := (s.setFld (planStat n) 63 63 1).planHead n va
    (r.1 = none → exec (.plan n v) s = .next (r.2.planEnd n 4 0)) ∧
    (∀ d, r.1 = some d → planFormat d = true → exec (.plan n v) s = .next (r.2.planEnd n 3 0)) ∧
    (∀ d s0, r.1 = some d → planFormat d = false → r.2.planTables n va d = (none, s0) →
      exec (.plan n v) s = .next (s0.planEnd n 4 0)) ∧
    (∀ d p s0, r.1 = some d → planFormat d = false → r.2.planTables n va d = (some p, s0) → p.mode = 0 → s0.drawBit.1 = true →
      exec (.plan n v) s = .next (s0.drawBit.2.planEnd n 2 0)) ∧
    (∀ d p s0, r.1 = some d → planFormat d = false → r.2.planTables n va d = (some p, s0) → (p.mode = 0 → s0.drawBit.1 = false) →
      let s1 := s0.drawBit.2
      let w := s.tick + (Config.draw s1.draws).toNat
      let t0 := p.head.getD 1 0
      let e : PlanE := ⟨n, p, t0, planPhases p.n (p.n * p.n) p.counts 0, 0, wN (p.head.getD 3 0), false, [], w⟩
      let s2 : State := { s1 with draws := s1.draws + 1, plans := s1.plans ++ [e] }
      exec (.plan n v) s = .next (if t0 < w + 4096 then s2.later (max s.tick (t0 - 4096)) 0 (.planLate n) else s2.planGo n e))) ∧
  (∀ (s : State) (n : Nat) (e : PlanE),
    let tab := schedTable e.phases
    let bad := s.pagesBad n (e.desc.head.getD 2 0) tab.length .write (fun _ => true)
    s.planGo n e = (((if bad then s else s.ctxPut n (e.desc.head.getD 2 0) tab).modPlan n (fun q => { q with fault := bad })).timePlan n)) ∧
  (∀ (s : State) (n x : Nat), s.plans.find? (fun p => p.ctx = n) = none → exec (.planLate n) s = .next s ∧
    exec (.planPhase n x) s = .next s ∧ exec (.planComplete n) s = .next s) ∧
  (∀ (s : State) (e : PlanE) (n x : Nat), s.plans.find? (fun p => p.ctx = n) = some e →
    ((s.jobOf n).state < 2 → e.t0 ≤ s.tick + 4096 → exec (.planLate n) s = .next (s.planEnd n 1 0)) ∧
    (2 ≤ (s.jobOf n).state → exec (.planLate n) s = .next (s.later (s.tick + 1) 0 (.planLate n))) ∧
    ((s.jobOf n).state < 2 → s.tick + 4096 < e.t0 → exec (.planLate n) s = .next
      (if e.ready + 4096 ≤ e.t0 then s.planGo n e else s.later (e.t0 - 4096) 0 (.planLate n))) ∧
    exec (.planComplete n) s = .next (((s.postWord n e.post.toNat).planEnd n 0 e.phases.length).countMod (planStat n) 31 0 1) ∧
    (x < 1024 → exec (.planPhase n x) s = .next (s.phaseStart n x e)) ∧
    (1024 ≤ x →
      let p := x % 1024
      let i := (x / 1024 - 1) % 16
      let b := (x / 1024 - 1) / 32
      let j := if p = 1023 then i else match e.phases[p]? with
        | some f => (f.2.2.getD i none).getD i
        | none => i
      let k := if p = 1023 then b else movedBefore e.phases p i j + b
      let me := s.party e.desc.mode
      ((x / 1024 - 1) / 16 % 2 = 0 →
        let r := s.readBlock n me e.desc i j k
        let y := blockNo p i b true
        let t := r.2.drawIn 1 640
        (∀ d, r.1 = some d → exec (.planPhase n x) s = .next ((t.2.modPlan n (fun q => { q with fly := q.fly ++ [(y, d)] })).later
          (s.tick + t.1) 0 (.planPhase n y))) ∧
        (r.1 = none → exec (.planPhase n x) s = .next (r.2.planFaults n))) ∧
      ((x / 1024 - 1) / 16 % 2 = 1 → ∀ g, e.fly.find? (fun h => h.1 = x) = some g →
        let s1 := s.modPlan n (fun q => { q with fly := q.fly.filter (fun h => h.1 ≠ x) })
        (∀ w, s1.writeBlock n me e.desc i j k g.2 = some w → exec (.planPhase n x) s = .next (w.planCheck n)) ∧
        (s1.writeBlock n me e.desc i j k g.2 = none → exec (.planPhase n x) s = .next (s1.planFaults n))))) ∧
  (∀ (s : State) (ctx : Nat) (p : PlanDesc) (m i j k : Nat) (d : List Byte),
    (j ≠ m → s.writeBlock ctx (some m) p i j k d = some s) ∧
    (i ≠ m → s.flowUp (some m) i j = true → ∃ l, l.length = 4096 ∧
      s.readBlock ctx (some m) p i j k = (some l, { s with draws := s.draws + 4096 })) ∧
    (s.flowUp (some m) i j = false → s.readBlock ctx (some m) p i j k = (none, s))) ∧
  (∀ (s : State) (e : PlanE) (n x : Nat), (x ≠ e.next ∨ 2 ≤ (s.jobOf n).state ∨ s.tick + 1 < e.t0 + phaseAt e x) →
    s.phaseStart n x e = s) ∧
  (∀ (s : State) (v : Word), s.fld 0x1A08 63 63 = 1 → exec (.treeset v) s = .next s) ∧
  (∀ (s : State) (v : Word), s.fld 0x1A08 63 63 = 0 → ∃ t, exec (.treeset v) s = .next t ∧ t.reg 0x1A00 = v.toNat ∧
    t.fld 0x1A08 63 63 = 1) ∧
  (∀ s : State, s.fld 0x1A08 63 63 = 0 → exec .treeCheckDone s = .next s) ∧
  (∀ s : State, s.fld 0x1A08 63 63 = 1 →
    let v := s.reg 0x1A00
    let s0 := { s.setFld 0x1A08 63 63 0 with trees := s.trees.filter (fun e => e.1 ≠ v / 2 ^ 58 % 64) }
    ∀ s1, s0.ctxBytes (v / 2 ^ 52 % 16) (v % 2 ^ 52) 16 = (none, s1) →
      exec .treeCheckDone s = .next ((s1.setFld 0x1A08 55 48 0x41).treeValid (v / 2 ^ 58 % 64) false)) ∧
  (∀ s : State, s.fld 0x1A08 63 63 = 1 →
    let v := s.reg 0x1A00
    let s0 := { s.setFld 0x1A08 63 63 0 with trees := s.trees.filter (fun e => e.1 ≠ v / 2 ^ 58 % 64) }
    ∀ (s1 s2 : State) (h b : List Byte), s0.ctxBytes (v / 2 ^ 52 % 16) (v % 2 ^ 52) 16 = (some h, s1) →
      let h0 := leNat (h.take 8)
      let h1 := leNat (h.drop 8)
      s1.ctxBytes (v / 2 ^ 52 % 16) (v % 2 ^ 52 + 16) (8 * min (h0 % 256) 128) = (some b, s2) →
      let nodes := dwsOf b (min (h0 % 256) 128)
      treeTopoBad nodes = false → v % 2 ^ 52 % 64 = 0 → treeFormatBad h0 h1 nodes = false →
      exec .treeCheckDone s = .next ((({ s2 with trees := s2.trees ++ [(v / 2 ^ 58 % 64, ⟨v / 2 ^ 52 % 16, h0 / 2 ^ 8 % 256, wN h1,
        nodes.map (fun w => (nodeParent w, nodeNin w, bits w 17 16, bits w 22 18)), []⟩)] } : State).setFld
          0x1A08 55 48 0).treeValid (v / 2 ^ 58 % 64) true)) ∧
  (∀ (s : State) (t n : Nat) (d : List (Lane × Lane)), s.trees.find? (fun e => e.1 = t) = none →
    exec (.treeNodeInput t n d) s = .next s ∧ exec (.treeRootDelivery t) s = .next s) ∧
  (∀ (s : State) (e : Nat × Tree) (t n : Nat) (d : List (Lane × Lane)), s.trees.find? (fun e => e.1 = t) = some e →
    n < e.2.nodes.length → (e.2.got.filter (fun g => g.1 = n)).length + 1 < (e.2.nodes.getD n (0xFF, 0, 0, 0)).2.1 →
    exec (.treeNodeInput t n d) s = .next (s.modTree t (fun r => { r with got := r.got ++ [(n, d)] }))) ∧
  (∀ (s : State) (e : Nat × Tree) (t : Nat) (d : List (Lane × Lane)), s.trees.find? (fun e => e.1 = t) = some e →
    0 < e.2.nodes.length → (e.2.nodes.getD 0 (0xFF, 0, 0, 0)).2.1 ≤ (e.2.got.filter (fun g => g.1 = 0)).length + 1 →
    exec (.treeNodeInput t 0 d) s = .next ((s.modTree t (fun r => { r with got := r.got.filter (fun g => g.1 ≠ 0) ++
      [(rootOut, nodeMerge e.2.k ((e.2.got.filter (fun g => g.1 = 0)).map (·.2) ++ [d]))] })).send
        (8 + (d.length + 7) / 8) (coreIn (24 * (e.2.nodes.getD 0 (0xFF, 0, 0, 0)).2.2.1 + (e.2.nodes.getD 0 (0xFF, 0, 0, 0)).2.2.2) 0)
        e.2.ctx (.treeRoot t))) ∧
  (∀ (s : State) (e : Nat × Tree) (t n : Nat) (d : List (Lane × Lane)), s.trees.find? (fun e => e.1 = t) = some e →
    0 < n → n < e.2.nodes.length → (e.2.nodes.getD n (0xFF, 0, 0, 0)).2.1 ≤ (e.2.got.filter (fun g => g.1 = n)).length + 1 →
    let x := e.2.nodes.getD n (0xFF, 0, 0, 0)
    let y := e.2.nodes.getD x.1 (0xFF, 0, 0, 0)
    let f := s.forwardTime x.2.2.1 x.2.2.2 y.2.2.1 y.2.2.2
    exec (.treeNodeInput t n d) s = .next ((f.2.modTree t (fun r => { r with got := r.got.filter (fun g => g.1 ≠ n) })).send
      (8 + (d.length + 7) / 8 + f.1) (coreIn (24 * x.2.2.1 + x.2.2.2) 0) e.2.ctx
      (.treeIn t x.1 (nodeMerge e.2.k ((e.2.got.filter (fun g => g.1 = n)).map (·.2) ++ [d]))))) ∧
  (∀ (s : State) (e : Nat × Tree) (g : Nat × List (Lane × Lane)) (t : Nat), s.trees.find? (fun e => e.1 = t) = some e →
    e.2.got.find? (fun g => g.1 = rootOut) = some g → e.2.target.getLsbD 63 = true →
    exec (.treeRootDelivery t) s = .next
      (let s1 := s.modTree t (fun r => { r with got := r.got.erase g })
       let x := e.2.nodes.getD 0 (0xFF, 0, 0, 0)
       let src := coreIn (24 * x.2.2.1 + x.2.2.2) 0
       let b := s1.barTime src
       b.2.send b.1 src e.2.ctx (.toDispatch (e.2.target.toNat / 2 ^ 8 % 16) (e.2.target.toNat % 256) g.2))) ∧
  (∀ (s : State) (g x : Nat) (d : List (Lane × Lane)), s.fld (dgReg g 0) 63 63 = 0 →
    exec (.dispatchDelivery g x d) s = .next (s.note 4 0x0A 6 (s.fld (dgReg g 0) 62 59) 0x1FF s.focus.core)) ∧
  (∀ (s : State) (g x : Nat) (d : List (Lane × Lane)), s.fld (dgReg g 0) 63 63 = 1 → x < s.fld (dgReg g 0) 7 0 →
    (∀ e ∈ s.dispatched, ¬(e.1 = g ∧ e.2.1 = x)) →
    let t := ({ s with dispatched := s.dispatched ++ [(g, x, d)] } : State).countMod (dgReg g 4) 7 0 1
    (t.fld (dgReg g 4) 7 0 ≠ s.fld (dgReg g 0) 7 0 → exec (.dispatchDelivery g x d) s = .next t) ∧
    (t.fld (dgReg g 4) 7 0 = s.fld (dgReg g 0) 7 0 → exec (.dispatchDelivery g x d) s = .next (t.dispatchBuild g)))

/-- The reset ladder, power-up, thermal events, domains and cache snoops. Resets of rungs 1 to 5 do their work and set the
end of the rung; rung 2 makes the firmware busy and checks its image again, rungs 3 and 4 kill every launch, rung 5
and a power-on leave nothing but what the part does not hold; rungs 4 and 5 are over with the last cluster, or when
the boot fails. Power-up of a cluster not yet powered powers it, counts it, marks the stack with its last cluster and
sets the power-up of the next cluster 4,700 cycles later; of any other it changes nothing. A throttle lowers BUDGET,
to 33 at the least, its end raises it, at most to what it was. A thermal trip finishes every launch, ends a power-up
and leaves no line cached. A closed domain opens after its time, a domain asked to close closes when it is quiet. A
snoop cleans the line of the host, or drops it. The rungs' times within their bounds and what rung 4 drops rest on
assumption 109, throttle and trip on 110, the image check of rung 2 on 131, snoops on 123, and memory after power-on
on 2, each the model's choice. (R183, R440, R441, R444, R445, R446, R447, R454, R455) -/
def Obligations.ResetsAndPower : Prop :=
  (∀ s : State, exec .resetStream s = .next ((s.resetStream s.focus.core).rungBegins 1 940000) ∧
    exec .firmwareCoreRestart s = .next ({ s with fwBusy := true }.rungBegins 2 9400000) ∧
    exec .commandProcessorReset s = .next (s.killEverything.rungBegins 3 47000000) ∧
    exec .functionLevelReset s = .next (s.dropRungs.killEverything.rungBegins 4 93500000) ∧
    s.dropRungs.rungUp = 0 ∧ (∀ e ∈ s.dropRungs.timers, e ∈ s.timers ∧ ∀ r, e.2.2 = .resetRungComplete r → 4 < r)) ∧
  (∀ s : State, ∃ t, exec .secondaryBusReset s = .next t ∧ t.cores = [] ∧ t.launches = [] ∧ t.fwBusy = true ∧ t.l2 = [] ∧
    t.reqs = [] ∧ t.tick = s.tick ∧
    (∀ a, chipOf a = s.chip → regionOf (localOf a) ≠ .host → memRead t.mem a = 0)) ∧
  (∀ s : State, ∃ t, exec .powerOn s = .next t ∧ t.cores = [] ∧ t.launches = [] ∧ t.fwBusy = false ∧ t.faults = [] ∧
    t.tick = s.tick ∧ t.jobs = List.replicate 16 job0) ∧
  (∀ (s : State), exec (.resetRungComplete 1) s = .next (s.rungOver 1) ∧
    exec (.resetRungComplete 2) s = .next ((({ s with
      draws := s.draws + 1, fwBusy := false, frames := 0, sram := [], bootFail := !Config.imageGood s.draws } : State).rebuildSlots).rungOver 2) ∧
    exec (.resetRungComplete 5) s = .next (s.bootRung 5) ∧
    (∀ k, let t := ({ s with rungUp := k } : State).boot
      (t.bootFail = true → s.bootRung k = ({ t with rungUp := 0 } : State).rungOver k) ∧ (t.bootFail = false → s.bootRung k = t)) ∧
    (s.launches.any leaving = true →
      exec (.resetRungComplete 3) s = .next (s.later (s.tick + 1) 0 (.resetRungComplete 3)) ∧
      exec (.resetRungComplete 4) s = .next (s.later (s.tick + 1) 0 (.resetRungComplete 4))) ∧
    (s.launches.any leaving = false →
      exec (.resetRungComplete 3) s = .next (({ s with fwBusy := false }.settleStreams).rungOver 3) ∧
      exec (.resetRungComplete 4) s = .next
        (((({ s.fresh with mem := s.drained } : State).keepRecorder s).setReg 0x118 (s.reg 0x118)).bootRung 4)) ∧
    (s.rungOver 2).fld 0x118 34 32 = 2) ∧
  (∀ (s : State) (k : Nat), (96 ≤ k ∨ s.powered k = true) → exec (.clusterPowerUp k) s = .next s) ∧
  (∀ (s : State) (c : Nat), c < 96 → s.powered c = false →
    let k := { spGet cluster0 s.clusters c with powered := true }
    let s1 := ({ s with clusters := spSet cluster0 s.clusters c k } : State).countMod 0x130 14 8 1
    let s2 := if c % 24 = 23 then s1.setFld 0x130 (c / 24) (c / 24) 1 else s1
    exec (.clusterPowerUp c) s = .next
      (if c = 95 then s2.rungUpOver else s2.later (s.tick + 4700) 0 (.clusterPowerUp (c + 1))).decide) ∧
  (∀ s : State, (s.rungUp = 0 → s.rungUpOver = s) ∧
    (s.rungUp ≠ 0 → s.rungUpOver = ({ s with rungUp := 0 } : State).rungOver s.rungUp)) ∧
  (∀ s : State, ∃ t u, exec .thermalThrottle s = .next t ∧ exec .thermalThrottleEnd s = .next u ∧ t.mem = s.mem ∧
    u.mem = s.mem ∧ t.cores = s.cores ∧ u.cores = s.cores ∧
    33 ≤ t.fld 0x128 7 0 ∧ (33 < s.fld 0x128 7 0 → t.fld 0x128 7 0 < s.fld 0x128 7 0) ∧
    (s.fld 0x128 7 0 < s.budgetWas → s.budgetWas < 256 → s.fld 0x128 7 0 < u.fld 0x128 7 0 ∧ u.fld 0x128 7 0 ≤ s.budgetWas) ∧
    (s.budgetWas ≤ s.fld 0x128 7 0 → u.fld 0x128 7 0 = s.fld 0x128 7 0)) ∧
  (∀ (s : State) (k : Nat), ∃ t, exec (.thermalTrip k) s = .next t ∧ t.l2 = [] ∧ t.retained = [] ∧ t.parked = [] ∧
    t.launches = [] ∧ (∀ e ∈ t.timers, ∀ j, e.2.2 ≠ .clusterPowerUp j)) ∧
  (∀ (s : State) (k : Nat), (s.gateOf k = 0 → exec (.updomClose k) s = .next (s.setGate k 1)) ∧
    (s.gateOf k ≠ 0 → exec (.updomClose k) s = .next s) ∧
    (s.gateOf k = 1 → exec (.updomOpen k) s = .next (s.setGate k 0)) ∧
    (s.gateOf k = 2 → s.timers.any (fun e => e.2.2 = .domainOpened k) = false →
      exec (.updomOpen k) s = .next (s.later (s.tick + 4700) 0 (.domainOpened k))) ∧
    (s.gateOf k = 1 → ∃ t, exec (.domainClose k) s = .next t ∧ t.clusters = (s.setGate k 2).clusters) ∧
    (s.gateOf k ≠ 1 → exec (.domainClose k) s = .next s) ∧
    (s.gateOf k = 2 → exec (.domainOpened k) s = .next (s.setGate k 0)) ∧
    (s.gateOf k ≠ 2 → exec (.domainOpened k) s = .next s)) ∧
  (∀ (s : State) (x : Nat), ∃ t, exec (.cxlCacheSnoop x true) s = .next t ∧ ∀ e ∈ t.l2, ¬(e.line = x ∧ e.cxl = true)) ∧
  (∀ (s : State) (x : Nat), (∀ e ∈ s.l2, ¬(e.line = x ∧ e.cxl = true)) → ∀ b, exec (.cxlCacheSnoop x b) s = .next s)
end

