-- ==== Sys2Proof/Laws/Buffer.lean ====
section
/-! SUPPORT. What the operations of the store buffer, of the swap engine's ear and of the rungs' end can do, each said once. -/

namespace Sys2Proof.Laws

open Sys2Proof Sys2Proof.Machine

/-! ### The store buffer (R69) -/

/-- A store enters behind all stores the buffer holds: none is lost and none changes its place. -/
theorem sbStore_parts (line : Nat) (p : SbP) (c : Core) :
    (sbStore line p c).sb.flatMap (fun e => e.parts) = c.sb.flatMap (fun e => e.parts) ++ [p] := by
  unfold sbStore
  cases h : c.sb.getLast? with
  | none => simp [List.getLast?_eq_none_iff.mp h]
  | some e =>
    have hs := List.dropLast_append_getLast? e h
    by_cases hl : e.line = line
    · simp only [hl, if_true]
      conv => rhs; rw [← hs]
      simp
    · simp [hl]

/-- It takes an entry more, or none where it joins the youngest. -/
theorem sbStore_length (line : Nat) (p : SbP) (c : Core) : (sbStore line p c).sb.length =
    if (match c.sb.getLast? with
      | some e => decide (e.line = line)
      | none => false) = true then c.sb.length else c.sb.length + 1 := by
  unfold sbStore
  cases h : c.sb.getLast? with
  | none => simp [List.getLast?_eq_none_iff.mp h]
  | some e =>
    have hs := congrArg List.length (List.dropLast_append_getLast? e h)
    by_cases hl : e.line = line
    · simp only [hl, if_true, decide_true]
      simpa using hs
    · simp [hl]

/-- Nothing of the core but its buffer changes. -/
theorem sbStore_else (line : Nat) (p : SbP) (c : Core) : { sbStore line p c with sb := c.sb } = c := by
  unfold sbStore
  split
  · split <;> rfl
  · rfl

theorem sbLess_else (n : Nat) (c : Core) : { sbLess n c with sb := c.sb } = c := by
  unfold sbLess
  split
  · split <;> rfl
  · rfl

/-- A later write that has been performed changes the bytes of earlier requests and nothing else of the state. -/
theorem passWrite_else (s : State) (r : Req) : { s.passWrite r with reqs := s.reqs } = s := rfl

theorem passWrite_length (s : State) (r : Req) : (s.passWrite r).reqs.length = s.reqs.length := by
  simp [State.passWrite]

/-! ### The swap engine and the ladder (R375, R440) -/

/-- What the swap engine hears of a fault stands in `swapFaults` alone. -/
theorem swapHears_else (s : State) (ctx cause page : Nat) : { s.swapHears ctx cause page with swapFaults := s.swapFaults } = s := by
  unfold State.swapHears
  split <;> rfl

/-- Dropping the rungs touches only their timers and the power-up that is under way. -/
theorem dropRungs_else (s : State) : { s.dropRungs with rungUp := s.rungUp, timers := s.timers } = s := rfl

end Sys2Proof.Laws
end

