-- ==== Sys2Proof/Laws/Core.lean ====
section
/-! SUPPORT. What the shared operations of a core's meanings do, each said once: reaching the core, results on their way,
withheld effects, traps, banks. -/

namespace Sys2Proof.Laws

open Sys2Proof.Machine

/-! ### Reaching the core -/

theorem onCore_ready {i : Instr} {f : Focus → Core → Core} {s : State} {c : Core} (h : Ready i s c) :
    onCore i f s = .next (s.withCore (f s.focus c)) := by
  simp only [onCore, h.1, h.2, if_true, State.withCore]

theorem onState_ready {i : Instr} {f : Focus → Core → State} {s : State} {c : Core} (h : Ready i s c) :
    onState i f s = .next (f s.focus c) := by
  simp only [onState, h.1, h.2, if_true]

theorem onCore_illegal {i : Instr} {f : Focus → Core → Core} {s : State} {c : Core} (h : s.core s.focus.core = some c)
    (hl : legal s.focus c i = false) :
    onCore i f s = .next (s.withCore (takeTrap s.focus cILLEGAL 0 c)) := by
  simp only [onCore, h, hl, State.withCore]
  rfl

theorem onState_illegal {i : Instr} {f : Focus → Core → State} {s : State} {c : Core} (h : s.core s.focus.core = some c)
    (hl : legal s.focus c i = false) :
    onState i f s = .next (s.withCore (takeTrap s.focus cILLEGAL 0 c)) := by
  simp only [onState, h, hl, State.withCore]
  rfl

theorem onCore_noCore {i : Instr} {f : Focus → Core → Core} {s : State} (h : s.core s.focus.core = none) :
    onCore i f s = .fault .noCore := by
  simp only [onCore, h]

theorem onState_noCore {i : Instr} {f : Focus → Core → State} {s : State} (h : s.core s.focus.core = none) :
    onState i f s = .fault .noCore := by
  simp only [onState, h]

/-! ### The list of cores -/

theorem look_put_same {l : List (Nat × Core)} {n : Nat} {a : Core} (c : Core) (h : lookCore l n = some a) :
    lookCore (putCore l n c) n = some c := by
  induction l with
  | nil => cases h
  | cons e l ih =>
    obtain ⟨m, d⟩ := e
    by_cases hm : m = n
    · simp [putCore, lookCore, hm]
    · simp only [lookCore, hm, if_false] at h
      simp [putCore, lookCore, hm, ih h]

theorem look_put_other {l : List (Nat × Core)} {n k : Nat} (c : Core) (h : k ≠ n) :
    lookCore (putCore l n c) k = lookCore l k := by
  induction l with
  | nil => rfl
  | cons e l ih =>
    obtain ⟨m, d⟩ := e
    by_cases hm : m = n
    · subst hm
      simp [putCore, lookCore, Ne.symm h]
    · by_cases hk : m = k
      · subst hk
        simp [putCore, lookCore, hm]
      · simp [putCore, lookCore, hm, hk, ih]

theorem put_look {l : List (Nat × Core)} {n : Nat} {a : Core} (h : lookCore l n = some a) : putCore l n a = l := by
  induction l with
  | nil => rfl
  | cons e l ih =>
    obtain ⟨m, d⟩ := e
    by_cases hm : m = n
    · simp only [lookCore, hm, if_true, Option.some.injEq] at h
      simp [putCore, hm, h]
    · simp only [lookCore, hm, if_false] at h
      simp [putCore, hm, ih h]

/-- A core put where it stood changes nothing. -/
theorem setCore_self {s : State} {n : Nat} {c : Core} (h : s.core n = some c) : s.setCore n c = s := by
  unfold State.setCore
  rw [put_look h]

@[simp] theorem core_setCore_same {s : State} {n : Nat} {c : Core} (d : Core) (h : s.core n = some c) :
    (s.setCore n d).core n = some d := look_put_same d h

theorem core_setCore_other (s : State) {n k : Nat} (d : Core) (h : k ≠ n) : (s.setCore n d).core k = s.core k :=
  look_put_other d h

/-! ### Results on their way -/

theorem retire_prim {fo : Focus} (h : fo.ctx = .prim) (lat : Nat) (fl : Flags) (effs : List Eff) (c : Core) :
    retire fo lat fl effs c = { c with p := { c.p with
      pend := c.p.pend ++ [⟨lat, .prim, c.p.iss * 8 + fo.slot, fo.bundle, fo.slot, fl, effs⟩] } } := by
  simp only [retire, ordOf, h]

theorem retire_helper {fo : Focus} {k : Nat} (h : fo.ctx = .helper k) (lat : Nat) (fl : Flags) (effs : List Eff) (c : Core) :
    retire fo lat fl effs c = { c with
      hpend := c.hpend ++ [⟨lat, .helper k, c.age * 8 + fo.slot, fo.bundle, fo.slot, fl, effs⟩] } := by
  simp only [retire, ordOf, h]

/-! ### Words given bit by bit -/

theorem wBits_getLsbD (f : Nat → Bool) (k : Nat) : (wBits f).getLsbD k = (decide (k < 64) && f k) := by
  unfold wBits
  rw [BitVec.getLsbD_ofFnLE]
  by_cases h : k < 64 <;> simp [h]

end Sys2Proof.Laws
end

