-- ==== Sys2Proof/Laws/Flights.lean ====
section
/-! SUPPORT. An access to the scratchpad whose banks are free transfers all its bytes in its cycle. -/

namespace Sys2Proof.Laws

open Sys2Proof.Machine

theorem spBytes_append (fo : Focus) (c : Core) (a m n : Nat) :
    spBytes fo c a (m + n) = spBytes fo c a m ++ spBytes fo c (a + m) n := by
  simp only [spBytes, List.range_add, List.map_append, List.map_map]
  congr 1
  apply List.map_congr_left
  intro k _
  simp [Nat.add_assoc]

/-- The parts of an access read, in order, its bytes. -/
theorem parts_bytes (fo : Focus) (c : Core) (a n : Nat) (hn : 0 < n) :
    ((partsOf a n).foldl (fun g p => putPart p.key (spBytes fo c p.addr p.len) g) []).flatMap (·.2) = spBytes fo c a n := by
  by_cases hb : bankOf a = bankOf (a + n - 1)
  · simp [partsOf, hb, putPart]
  · have hlt : (bankOf a + 1) * 0x80000 - a ≤ n := by
      unfold bankOf at *
      omega
    rw [partsOf, if_neg hb]
    simp only [List.foldl, putPart]
    simp only [show ¬(1 < 0) by omega, if_false, List.flatMap_cons, List.flatMap_nil, List.append_nil]
    rw [← spBytes_append, Nat.add_sub_cancel' hlt]

theorem stepAcc_free (fo : Focus) (c : Core) (a n : Nat) (hn : 0 < n) (hf : accFree c a n) :
    ∃ acc, stepAcc fo c (mkAcc 0 a n) =
        (acc, { c.cyc with turns := c.cyc.turns ++ accBanks a n, used := c.cyc.used ++ accBanks a n }) ∧
      acc.doneB = true ∧ acc.bytes = spBytes fo c a n ∧ acc.fld = 0 := by
  have h0 : ∀ p ∈ partsOf a n, c.cyc.turns.contains (bankOf p.addr) = false := by
    intro p hp
    have := hf (bankOf p.addr) (List.mem_map_of_mem hp)
    simp [this]
  have h1 : (partsOf a n).filter (fun p => !c.cyc.turns.contains (bankOf p.addr)) = partsOf a n := by
    rw [List.filter_eq_self]
    intro p hp
    rw [h0 p hp]
    rfl
  have h2 : (partsOf a n).filter (fun p => c.cyc.turns.contains (bankOf p.addr)) = [] := by
    rw [List.filter_eq_nil_iff]
    intro p hp
    rw [h0 p hp]
    simp
  simp only [stepAcc, mkAcc, h1, h2]
  exact ⟨_, rfl, rfl, parts_bytes fo c a n hn, rfl⟩

/-- One cycle of a flight with one access whose banks are free: it completes with the bytes read. -/
theorem pump_free (fl : Flight) (c : Core) (a n : Nat) (ha : fl.accs = [mkAcc 0 a n]) (hw : writes fl = false)
    (hn : 0 < n) (hf : accFree c a n) :
    ∃ acc, pump fl c = complete { fl with accs := [acc] } (accTake c a n) ∧
      acc.bytes = spBytes fl.foc c a n ∧ acc.fld = 0 := by
  obtain ⟨acc, h, hd, hb, hfl⟩ := stepAcc_free fl.foc c a n hn hf
  refine ⟨acc, ?_, hb, hfl⟩
  unfold pump
  simp [ha, stepAccs, h, hd, hw, accTake]

end Sys2Proof.Laws
end

