-- ==== Sys2Proof/Laws/Sparse.lean ====
section
/-! SUPPORT. Sparse data reads back what was written, everything else as before, and every operation keeps the canonical
form. -/

namespace Sys2Proof.Laws

open Sys2Proof.Machine

variable {α : Type}

@[simp] theorem spGet_nil (d : α) (k : Nat) : spGet d [] k = d := rfl

theorem spGet_cons (d : α) (j : Nat) (v : α) (m : Sparse α) (k : Nat) :
    spGet d ((j, v) :: m) k = if k = j then v else spGet d m k := rfl

/-- Reads after keeping only the entries whose index passes a test. -/
theorem spGet_filter (d : α) (p : Nat → Bool) (m : Sparse α) (k : Nat) :
    spGet d (m.filter (fun e => p e.1)) k = if p k then spGet d m k else d := by
  induction m with
  | nil => simp
  | cons e m ih =>
    obtain ⟨j, v⟩ := e
    by_cases hp : p j = true <;> by_cases hk : k = j
    · subst hk
      simp [hp, spGet_cons]
    · simp [hp, spGet_cons, hk, ih]
    · subst hk
      simp [hp, ih]
    · simp [hp, spGet_cons, hk, ih]

theorem spGet_append (d : α) (l m : Sparse α) (k : Nat) (h : ∀ e ∈ l, e.1 ≠ k) : spGet d (l ++ m) k = spGet d m k := by
  induction l with
  | nil => rfl
  | cons e l ih =>
    have h1 := h e (by simp)
    simp only [List.cons_append, spGet]
    rw [if_neg (fun hh => h1 hh.symm)]
    exact ih (fun x hx => h x (by simp [hx]))

theorem spGet_spDel (d : α) (m : Sparse α) (k x : Nat) : spGet d (spDel m k) x = if x = k then d else spGet d m x := by
  have := spGet_filter d (fun i => decide (i ≠ k)) m x
  unfold spDel
  rw [this]
  by_cases h : x = k <;> simp [h]

/-- A value written is read back, and every other index reads as before. -/
theorem spGet_spSet [DecidableEq α] (d : α) (m : Sparse α) (k : Nat) (v : α) (x : Nat) :
    spGet d (spSet d m k v) x = if x = k then v else spGet d m x := by
  induction m with
  | nil =>
    by_cases hv : v = d <;> by_cases hx : x = k <;> simp [spSet, hv, hx, spGet_cons]
  | cons e m ih =>
    obtain ⟨j, w⟩ := e
    unfold spSet
    by_cases h1 : k < j
    · by_cases hv : v = d
      · have hj : j ≠ k := by omega
        by_cases hx : x = k
        · subst hx
          simp [h1, hv, spGet_cons, spGet_spDel, hj.symm]
        · simp [h1, hv, spGet_cons, spGet_spDel, hx]
      · by_cases hx : x = k <;> simp [h1, hv, spGet_cons, hx]
    · by_cases h2 : k = j
      · subst h2
        by_cases hv : v = d <;> by_cases hx : x = k <;> simp [hv, hx, spGet_cons, spGet_spDel]
      · simp only [h1, h2, if_false, spGet_cons, ih]
        by_cases hx : x = k
        · subst hx
          simp [h2]
        · simp [hx]

theorem spGet_spRun [DecidableEq α] (d : α) (k : Nat) (vs : List α) (x : Nat) :
    spGet d (spRun d k vs) x = if k ≤ x ∧ x < k + vs.length then vs.getD (x - k) d else d := by
  induction vs generalizing k with
  | nil => simp [spRun]
  | cons v vs ih =>
    unfold spRun
    by_cases hx : x = k
    · subst hx
      by_cases hv : v = d
      · simp [hv, ih]
      · simp [hv, spGet_cons]
    · have hlt : (k + 1 ≤ x ∧ x < k + 1 + vs.length) ↔ (k ≤ x ∧ x < k + (v :: vs).length) := by
        simp only [List.length_cons]
        omega
      have hget : k + 1 ≤ x → vs.getD (x - (k + 1)) d = (v :: vs).getD (x - k) d := by
        intro h
        have : x - k = (x - (k + 1)) + 1 := by omega
        rw [this, List.getD_cons_succ]
      by_cases hv : v = d
      · subst hv
        simp only [if_true, ih]
        by_cases h : k + 1 ≤ x ∧ x < k + 1 + vs.length
        · rw [if_pos h, if_pos (hlt.1 h), hget h.1]
        · rw [if_neg h, if_neg (fun hh => h (hlt.2 hh))]
      · simp only [hv, if_false, spGet_cons, if_neg hx, ih]
        by_cases h : k + 1 ≤ x ∧ x < k + 1 + vs.length
        · rw [if_pos h, if_pos (hlt.1 h), hget h.1]
        · rw [if_neg h, if_neg (fun hh => h (hlt.2 hh))]

theorem mem_spRun [DecidableEq α] {d : α} {k : Nat} {vs : List α} {e : Nat × α} (h : e ∈ spRun d k vs) :
    k ≤ e.1 ∧ e.1 < k + vs.length := by
  induction vs generalizing k with
  | nil => simp [spRun] at h
  | cons v vs ih =>
    unfold spRun at h
    simp only [List.length_cons]
    split at h
    · have := ih h
      omega
    · rcases List.mem_cons.1 h with h | h
      · subst h
        simp
      · have := ih h
        omega

/-- Values written in a run are read back, and every index outside the run reads as before. -/
theorem spGet_spSetRun [DecidableEq α] (d : α) (m : Sparse α) (k : Nat) (vs : List α) (x : Nat) :
    spGet d (spSetRun d m k vs) x = if k ≤ x ∧ x < k + vs.length then vs.getD (x - k) d else spGet d m x := by
  have f1 : ∀ y, spGet d (m.filter (fun p => decide (p.1 < k))) y = if y < k then spGet d m y else d := by
    intro y
    have := spGet_filter d (fun i => decide (i < k)) m y
    simpa using this
  have f2 : ∀ y, spGet d (m.filter (fun p => decide (k + vs.length ≤ p.1))) y = if k + vs.length ≤ y then spGet d m y else d := by
    intro y
    have := spGet_filter d (fun i => decide (k + vs.length ≤ i)) m y
    simpa using this
  unfold spSetRun
  by_cases h1 : x < k
  · rw [if_neg (by omega)]
    have hl : ∀ (l r : Sparse α), (∀ e ∈ r, e.1 ≠ x) → spGet d (l ++ r) x = spGet d l x := by
      intro l r hr
      induction l with
      | nil =>
        induction r with
        | nil => rfl
        | cons e r ih2 =>
          have := hr e (by simp)
          simp only [List.nil_append, spGet]
          rw [if_neg (fun hh => this hh.symm)]
          have := ih2 (fun y hy => hr y (by simp [hy]))
          simpa using this
      | cons e l ih =>
        simp only [List.cons_append, spGet, ih]
    rw [List.append_assoc, hl _ _ ?_, f1, if_pos h1]
    intro e he
    rcases List.mem_append.1 he with he | he
    · have := mem_spRun he
      omega
    · have := (List.mem_filter.1 he).2
      simp at this
      omega
  · rw [List.append_assoc, spGet_append]
    · by_cases h2 : x < k + vs.length
      · rw [if_pos (by omega)]
        have hl : ∀ (l r : Sparse α), (∀ e ∈ r, e.1 ≠ x) → spGet d (l ++ r) x = spGet d l x := by
          intro l r hr
          induction l with
          | nil =>
            induction r with
            | nil => rfl
            | cons e r ih2 =>
              have := hr e (by simp)
              simp only [List.nil_append, spGet]
              rw [if_neg (fun hh => this hh.symm)]
              have := ih2 (fun y hy => hr y (by simp [hy]))
              simpa using this
          | cons e l ih =>
            simp only [List.cons_append, spGet, ih]
        rw [hl _ _ ?_, spGet_spRun, if_pos (by omega)]
        intro e he
        have := (List.mem_filter.1 he).2
        simp at this
        omega
      · rw [if_neg (by omega), spGet_append, f2, if_pos (by omega)]
        intro e he
        have := mem_spRun he
        omega
    · intro e he
      have := (List.mem_filter.1 he).2
      simp at this
      omega

/-! ### The canonical form -/

theorem wfFrom_le [DecidableEq α] {d : α} {m : Sparse α} {a b : Nat} (h : b ≤ a) (hm : spWfFrom d a m = true) :
    spWfFrom d b m = true := by
  cases m with
  | nil => rfl
  | cons e m =>
    obtain ⟨j, v⟩ := e
    simp only [spWfFrom, Bool.and_eq_true, decide_eq_true_eq] at hm ⊢
    exact ⟨⟨by omega, hm.1.2⟩, hm.2⟩

theorem wfFrom_filter [DecidableEq α] {d : α} {m : Sparse α} {a : Nat} (p : Nat × α → Bool) (hm : spWfFrom d a m = true) :
    spWfFrom d a (m.filter p) = true := by
  induction m generalizing a with
  | nil => rfl
  | cons e m ih =>
    obtain ⟨j, v⟩ := e
    simp only [spWfFrom, Bool.and_eq_true, decide_eq_true_eq] at hm
    by_cases hp : p (j, v) = true
    · simp only [List.filter_cons, hp, if_true, spWfFrom, Bool.and_eq_true, decide_eq_true_eq]
      exact ⟨hm.1, ih hm.2⟩
    · simp only [List.filter_cons, hp]
      exact wfFrom_le (by omega) (ih hm.2)

/-- Keeping some entries keeps the canonical form. -/
theorem wf_filter [DecidableEq α] {d : α} {m : Sparse α} (p : Nat × α → Bool) (hm : spWf d m = true) :
    spWf d (m.filter p) = true := wfFrom_filter p hm

theorem wfFrom_spSet [DecidableEq α] {d : α} {m : Sparse α} {a k : Nat} (v : α) (hk : a ≤ k) (hm : spWfFrom d a m = true) :
    spWfFrom d a (spSet d m k v) = true := by
  induction m generalizing a with
  | nil =>
    by_cases hv : v = d <;> simp [spSet, spWfFrom, hv, hk]
  | cons e m ih =>
    obtain ⟨j, w⟩ := e
    simp only [spWfFrom, Bool.and_eq_true, decide_eq_true_eq, Bool.not_eq_true', decide_eq_false_iff_not] at hm
    unfold spSet
    by_cases h1 : k < j
    · by_cases hv : v = d
      · simp only [h1, hv, if_true, spWfFrom, Bool.and_eq_true, decide_eq_true_eq, Bool.not_eq_true', decide_eq_false_iff_not]
        exact ⟨hm.1, wfFrom_filter _ hm.2⟩
      · simp only [h1, hv, if_true, if_false, spWfFrom, Bool.and_eq_true, decide_eq_true_eq, Bool.not_eq_true',
          decide_eq_false_iff_not]
        exact ⟨⟨hk, by simp⟩, ⟨by omega, hm.1.2⟩, hm.2⟩
    · by_cases h2 : k = j
      · subst h2
        by_cases hv : v = d
        · simp only [h1, hv, if_true, if_false]
          exact wfFrom_le (by omega) (wfFrom_filter _ hm.2)
        · simp only [h1, hv, if_true, if_false, spWfFrom, Bool.and_eq_true, decide_eq_true_eq, Bool.not_eq_true',
            decide_eq_false_iff_not]
          exact ⟨⟨hk, by simp⟩, hm.2⟩
      · simp only [h1, h2, if_false, spWfFrom, Bool.and_eq_true, decide_eq_true_eq, Bool.not_eq_true',
          decide_eq_false_iff_not]
        exact ⟨hm.1, ih (by omega) hm.2⟩

/-- A write keeps the canonical form. -/
theorem wf_spSet [DecidableEq α] {d : α} {m : Sparse α} (k : Nat) (v : α) (hm : spWf d m = true) :
    spWf d (spSet d m k v) = true := wfFrom_spSet v (Nat.zero_le _) hm

theorem wfFrom_spRun [DecidableEq α] (d : α) (k : Nat) (vs : List α) : spWfFrom d k (spRun d k vs) = true := by
  induction vs generalizing k with
  | nil => rfl
  | cons v vs ih =>
    unfold spRun
    by_cases hv : v = d
    · simp only [hv, if_true]
      exact wfFrom_le (by omega) (ih (k + 1))
    · simp only [hv, if_false, spWfFrom, Bool.and_eq_true, decide_eq_true_eq, Bool.not_eq_true', decide_eq_false_iff_not]
      exact ⟨⟨Nat.le_refl _, by simp⟩, ih (k + 1)⟩

theorem wfFrom_append [DecidableEq α] {d : α} {l m : Sparse α} {a b : Nat} (hl : spWfFrom d a l = true)
    (hb : ∀ e ∈ l, e.1 < b) (hab : a ≤ b) (hm : spWfFrom d b m = true) : spWfFrom d a (l ++ m) = true := by
  induction l generalizing a with
  | nil => exact wfFrom_le hab hm
  | cons e l ih =>
    obtain ⟨j, v⟩ := e
    simp only [List.cons_append, spWfFrom, Bool.and_eq_true, decide_eq_true_eq] at hl ⊢
    have hj := hb (j, v) (by simp)
    exact ⟨hl.1, ih hl.2 (fun x hx => hb x (by simp [hx])) (by simpa using hj)⟩

theorem wfFrom_of_ge [DecidableEq α] {d : α} {m : Sparse α} {a b : Nat} (hm : spWfFrom d a m = true)
    (h : ∀ e ∈ m, b ≤ e.1) : spWfFrom d b m = true := by
  cases m with
  | nil => rfl
  | cons e m =>
    obtain ⟨j, v⟩ := e
    simp only [spWfFrom, Bool.and_eq_true, decide_eq_true_eq] at hm ⊢
    have := h (j, v) (by simp)
    exact ⟨⟨by simpa using this, hm.1.2⟩, hm.2⟩

/-- A run of writes keeps the canonical form. -/
theorem wf_spSetRun [DecidableEq α] {d : α} {m : Sparse α} (k : Nat) (vs : List α) (hm : spWf d m = true) :
    spWf d (spSetRun d m k vs) = true := by
  unfold spWf spSetRun at *
  rw [List.append_assoc]
  refine wfFrom_append (b := k) (wfFrom_filter _ hm) ?_ (Nat.zero_le _) ?_
  · intro e he
    have := (List.mem_filter.1 he).2
    simpa using this
  · refine wfFrom_append (b := k + vs.length) (wfFrom_spRun d k vs) ?_ (by omega) ?_
    · intro e he
      exact (mem_spRun he).2
    · refine wfFrom_of_ge (wfFrom_filter _ hm) ?_
      intro e he
      have := (List.mem_filter.1 he).2
      simpa using this

/-! ### Memory -/

theorem memRead_memPut (m : Memory) (a b : Nat) (l : List Byte) :
    memRead (memPut m a l) b = if a ≤ b ∧ b < a + l.length then l.getD (b - a) 0 else memRead m b :=
  spGet_spSetRun 0 m a l b

theorem memRead_memWrite (m : Memory) (a b : Nat) (v : Byte) :
    memRead (memWrite m a v) b = if b = a then v else memRead m b := spGet_spSet 0 m a v b

theorem wf_memPut {m : Memory} (a : Nat) (l : List Byte) (h : Memory.wf m = true) : Memory.wf (memPut m a l) = true :=
  wf_spSetRun a l h

theorem wf_memWrite {m : Memory} (a : Nat) (v : Byte) (h : Memory.wf m = true) : Memory.wf (memWrite m a v) = true :=
  wf_spSet a v h

theorem wf_memFilter {m : Memory} (p : Nat × Byte → Bool) (h : Memory.wf m = true) : Memory.wf (m.filter p) = true :=
  wf_filter p h

@[simp] theorem length_leBytes (n v : Nat) : (leBytes n v).length = n := by
  induction n generalizing v with
  | zero => rfl
  | succ n ih => simp [leBytes, ih]

theorem leNat_leBytes (n v : Nat) : leNat (leBytes n v) = v % 2 ^ (8 * n) := by
  induction n generalizing v with
  | zero => simp [leBytes, leNat, Nat.mod_one]
  | succ n ih =>
    simp only [leBytes, leNat, ih]
    rw [BitVec.toNat_ofNat, Nat.mod_mod]
    rw [show 8 * (n + 1) = 8 + 8 * n by ring, pow_add, Nat.mod_mul]
    norm_num

end Sys2Proof.Laws
end

