-- ==== Sys2Proof/Laws/State.lean ====
section
/-! SUPPORT. What each update of the state leaves, field by field, and what it sets. -/

namespace Sys2Proof.Laws

open Sys2Proof.Machine

@[simp] theorem setCore_tick (s : State) (n : Nat) (c : Core) : (s.setCore n c).tick = s.tick := rfl
@[simp] theorem setCore_focus (s : State) (n : Nat) (c : Core) : (s.setCore n c).focus = s.focus := rfl
@[simp] theorem setCore_agenda (s : State) (n : Nat) (c : Core) : (s.setCore n c).agenda = s.agenda := rfl
@[simp] theorem setCore_inputs (s : State) (n : Nat) (c : Core) : (s.setCore n c).inputs = s.inputs := rfl
@[simp] theorem setCore_timers (s : State) (n : Nat) (c : Core) : (s.setCore n c).timers = s.timers := rfl
@[simp] theorem setCore_draws (s : State) (n : Nat) (c : Core) : (s.setCore n c).draws = s.draws := rfl
@[simp] theorem setCore_seq (s : State) (n : Nat) (c : Core) : (s.setCore n c).seq = s.seq := rfl
@[simp] theorem setCore_clusters (s : State) (n : Nat) (c : Core) : (s.setCore n c).clusters = s.clusters := rfl
@[simp] theorem setCore_gcode (s : State) (n : Nat) (c : Core) : (s.setCore n c).gcode = s.gcode := rfl
@[simp] theorem setCore_mem (s : State) (n : Nat) (c : Core) : (s.setCore n c).mem = s.mem := rfl
@[simp] theorem setCore_l2 (s : State) (n : Nat) (c : Core) : (s.setCore n c).l2 = s.l2 := rfl
@[simp] theorem setCore_reqs (s : State) (n : Nat) (c : Core) : (s.setCore n c).reqs = s.reqs := rfl
@[simp] theorem setCore_msgs (s : State) (n : Nat) (c : Core) : (s.setCore n c).msgs = s.msgs := rfl
@[simp] theorem setCore_parked (s : State) (n : Nat) (c : Core) : (s.setCore n c).parked = s.parked := rfl
@[simp] theorem setCore_hubTlb (s : State) (n : Nat) (c : Core) : (s.setCore n c).hubTlb = s.hubTlb := rfl
@[simp] theorem setCore_walks (s : State) (n : Nat) (c : Core) : (s.setCore n c).walks = s.walks := rfl
@[simp] theorem setCore_regs (s : State) (n : Nat) (c : Core) : (s.setCore n c).regs = s.regs := rfl
@[simp] theorem setCore_faults (s : State) (n : Nat) (c : Core) : (s.setCore n c).faults = s.faults := rfl
@[simp] theorem setCore_tinv (s : State) (n : Nat) (c : Core) : (s.setCore n c).tinv = s.tinv := rfl
@[simp] theorem setCore_tinvRun (s : State) (n : Nat) (c : Core) : (s.setCore n c).tinvRun = s.tinvRun := rfl
@[simp] theorem setCore_walkers (s : State) (n : Nat) (c : Core) : (s.setCore n c).walkers = s.walkers := rfl
@[simp] theorem setCore_faultIrqs (s : State) (n : Nat) (c : Core) : (s.setCore n c).faultIrqs = s.faultIrqs := rfl
@[simp] theorem setCore_poison (s : State) (n : Nat) (c : Core) : (s.setCore n c).poison = s.poison := rfl
@[simp] theorem setCore_decode (s : State) (n : Nat) (c : Core) : (s.setCore n c).decode = s.decode := rfl
@[simp] theorem setCore_launches (s : State) (n : Nat) (c : Core) : (s.setCore n c).launches = s.launches := rfl
@[simp] theorem setCore_finished (s : State) (n : Nat) (c : Core) : (s.setCore n c).finished = s.finished := rfl
@[simp] theorem setCore_credits (s : State) (n : Nat) (c : Core) : (s.setCore n c).credits = s.credits := rfl
@[simp] theorem setCore_graphs (s : State) (n : Nat) (c : Core) : (s.setCore n c).graphs = s.graphs := rfl
@[simp] theorem setCore_recording (s : State) (n : Nat) (c : Core) : (s.setCore n c).recording = s.recording := rfl
@[simp] theorem setCore_extra (s : State) (n : Nat) (c : Core) : (s.setCore n c).extra = s.extra := rfl
@[simp] theorem setCore_lastOf (s : State) (n : Nat) (c : Core) : (s.setCore n c).lastOf = s.lastOf := rfl
@[simp] theorem setCore_deciding (s : State) (n : Nat) (c : Core) : (s.setCore n c).deciding = s.deciding := rfl
@[simp] theorem setCore_kills (s : State) (n : Nat) (c : Core) : (s.setCore n c).kills = s.kills := rfl
@[simp] theorem setCore_retained (s : State) (n : Nat) (c : Core) : (s.setCore n c).retained = s.retained := rfl
@[simp] theorem setCore_jobs (s : State) (n : Nat) (c : Core) : (s.setCore n c).jobs = s.jobs := rfl
@[simp] theorem setCore_bps (s : State) (n : Nat) (c : Core) : (s.setCore n c).bps = s.bps := rfl
@[simp] theorem setCore_trees (s : State) (n : Nat) (c : Core) : (s.setCore n c).trees = s.trees := rfl
@[simp] theorem setCore_plans (s : State) (n : Nat) (c : Core) : (s.setCore n c).plans = s.plans := rfl
@[simp] theorem setCore_dispatched (s : State) (n : Nat) (c : Core) : (s.setCore n c).dispatched = s.dispatched := rfl
@[simp] theorem setCore_enc (s : State) (n : Nat) (c : Core) : (s.setCore n c).enc = s.enc := rfl
@[simp] theorem setCore_slots (s : State) (n : Nat) (c : Core) : (s.setCore n c).slots = s.slots := rfl
@[simp] theorem setCore_freeing (s : State) (n : Nat) (c : Core) : (s.setCore n c).freeing = s.freeing := rfl
@[simp] theorem setCore_frames (s : State) (n : Nat) (c : Core) : (s.setCore n c).frames = s.frames := rfl
@[simp] theorem setCore_frec (s : State) (n : Nat) (c : Core) : (s.setCore n c).frec = s.frec := rfl
@[simp] theorem setCore_survPulses (s : State) (n : Nat) (c : Core) : (s.setCore n c).survPulses = s.survPulses := rfl
@[simp] theorem setCore_meas (s : State) (n : Nat) (c : Core) : (s.setCore n c).meas = s.meas := rfl
@[simp] theorem setCore_bootFail (s : State) (n : Nat) (c : Core) : (s.setCore n c).bootFail = s.bootFail := rfl
@[simp] theorem setCore_fwBusy (s : State) (n : Nat) (c : Core) : (s.setCore n c).fwBusy = s.fwBusy := rfl
@[simp] theorem setCore_rungUp (s : State) (n : Nat) (c : Core) : (s.setCore n c).rungUp = s.rungUp := rfl
@[simp] theorem setCore_budgetWas (s : State) (n : Nat) (c : Core) : (s.setCore n c).budgetWas = s.budgetWas := rfl
@[simp] theorem setCore_sram (s : State) (n : Nat) (c : Core) : (s.setCore n c).sram = s.sram := rfl
@[simp] theorem setCore_linkRetry (s : State) (n : Nat) (c : Core) : (s.setCore n c).linkRetry = s.linkRetry := rfl
@[simp] theorem setCore_wire (s : State) (n : Nat) (c : Core) : (s.setCore n c).wire = s.wire := rfl
@[simp] theorem setCore_portHeld (s : State) (n : Nat) (c : Core) : (s.setCore n c).portHeld = s.portHeld := rfl
@[simp] theorem setCore_l2evs (s : State) (n : Nat) (c : Core) : (s.setCore n c).l2evs = s.l2evs := rfl
@[simp] theorem setCore_frq (s : State) (n : Nat) (c : Core) : (s.setCore n c).frq = s.frq := rfl
@[simp] theorem setCore_gratOff (s : State) (n : Nat) (c : Core) : (s.setCore n c).gratOff = s.gratOff := rfl
@[simp] theorem setCore_gratWait (s : State) (n : Nat) (c : Core) : (s.setCore n c).gratWait = s.gratWait := rfl
@[simp] theorem setCore_gratIn (s : State) (n : Nat) (c : Core) : (s.setCore n c).gratIn = s.gratIn := rfl
@[simp] theorem setCore_swapUsed (s : State) (n : Nat) (c : Core) : (s.setCore n c).swapUsed = s.swapUsed := rfl
@[simp] theorem setCore_swapAct (s : State) (n : Nat) (c : Core) : (s.setCore n c).swapAct = s.swapAct := rfl
@[simp] theorem setCore_swapGone (s : State) (n : Nat) (c : Core) : (s.setCore n c).swapGone = s.swapGone := rfl
@[simp] theorem setCore_swapFaults (s : State) (n : Nat) (c : Core) : (s.setCore n c).swapFaults = s.swapFaults := rfl

@[simp] theorem soon_tick (s : State) (u : Nat) (l : List Instr) : (s.soon u l).tick = s.tick := rfl
@[simp] theorem soon_focus (s : State) (u : Nat) (l : List Instr) : (s.soon u l).focus = s.focus := rfl
@[simp] theorem soon_inputs (s : State) (u : Nat) (l : List Instr) : (s.soon u l).inputs = s.inputs := rfl
@[simp] theorem soon_timers (s : State) (u : Nat) (l : List Instr) : (s.soon u l).timers = s.timers := rfl
@[simp] theorem soon_draws (s : State) (u : Nat) (l : List Instr) : (s.soon u l).draws = s.draws := rfl
@[simp] theorem soon_seq (s : State) (u : Nat) (l : List Instr) : (s.soon u l).seq = s.seq := rfl
@[simp] theorem soon_cores (s : State) (u : Nat) (l : List Instr) : (s.soon u l).cores = s.cores := rfl
@[simp] theorem soon_clusters (s : State) (u : Nat) (l : List Instr) : (s.soon u l).clusters = s.clusters := rfl
@[simp] theorem soon_gcode (s : State) (u : Nat) (l : List Instr) : (s.soon u l).gcode = s.gcode := rfl
@[simp] theorem soon_mem (s : State) (u : Nat) (l : List Instr) : (s.soon u l).mem = s.mem := rfl
@[simp] theorem soon_l2 (s : State) (u : Nat) (l : List Instr) : (s.soon u l).l2 = s.l2 := rfl
@[simp] theorem soon_reqs (s : State) (u : Nat) (l : List Instr) : (s.soon u l).reqs = s.reqs := rfl
@[simp] theorem soon_msgs (s : State) (u : Nat) (l : List Instr) : (s.soon u l).msgs = s.msgs := rfl
@[simp] theorem soon_parked (s : State) (u : Nat) (l : List Instr) : (s.soon u l).parked = s.parked := rfl
@[simp] theorem soon_hubTlb (s : State) (u : Nat) (l : List Instr) : (s.soon u l).hubTlb = s.hubTlb := rfl
@[simp] theorem soon_walks (s : State) (u : Nat) (l : List Instr) : (s.soon u l).walks = s.walks := rfl
@[simp] theorem soon_regs (s : State) (u : Nat) (l : List Instr) : (s.soon u l).regs = s.regs := rfl
@[simp] theorem soon_faults (s : State) (u : Nat) (l : List Instr) : (s.soon u l).faults = s.faults := rfl
@[simp] theorem soon_tinv (s : State) (u : Nat) (l : List Instr) : (s.soon u l).tinv = s.tinv := rfl
@[simp] theorem soon_tinvRun (s : State) (u : Nat) (l : List Instr) : (s.soon u l).tinvRun = s.tinvRun := rfl
@[simp] theorem soon_walkers (s : State) (u : Nat) (l : List Instr) : (s.soon u l).walkers = s.walkers := rfl
@[simp] theorem soon_faultIrqs (s : State) (u : Nat) (l : List Instr) : (s.soon u l).faultIrqs = s.faultIrqs := rfl
@[simp] theorem soon_poison (s : State) (u : Nat) (l : List Instr) : (s.soon u l).poison = s.poison := rfl
@[simp] theorem soon_decode (s : State) (u : Nat) (l : List Instr) : (s.soon u l).decode = s.decode := rfl
@[simp] theorem soon_launches (s : State) (u : Nat) (l : List Instr) : (s.soon u l).launches = s.launches := rfl
@[simp] theorem soon_finished (s : State) (u : Nat) (l : List Instr) : (s.soon u l).finished = s.finished := rfl
@[simp] theorem soon_credits (s : State) (u : Nat) (l : List Instr) : (s.soon u l).credits = s.credits := rfl
@[simp] theorem soon_graphs (s : State) (u : Nat) (l : List Instr) : (s.soon u l).graphs = s.graphs := rfl
@[simp] theorem soon_recording (s : State) (u : Nat) (l : List Instr) : (s.soon u l).recording = s.recording := rfl
@[simp] theorem soon_extra (s : State) (u : Nat) (l : List Instr) : (s.soon u l).extra = s.extra := rfl
@[simp] theorem soon_lastOf (s : State) (u : Nat) (l : List Instr) : (s.soon u l).lastOf = s.lastOf := rfl
@[simp] theorem soon_deciding (s : State) (u : Nat) (l : List Instr) : (s.soon u l).deciding = s.deciding := rfl
@[simp] theorem soon_kills (s : State) (u : Nat) (l : List Instr) : (s.soon u l).kills = s.kills := rfl
@[simp] theorem soon_retained (s : State) (u : Nat) (l : List Instr) : (s.soon u l).retained = s.retained := rfl
@[simp] theorem soon_jobs (s : State) (u : Nat) (l : List Instr) : (s.soon u l).jobs = s.jobs := rfl
@[simp] theorem soon_bps (s : State) (u : Nat) (l : List Instr) : (s.soon u l).bps = s.bps := rfl
@[simp] theorem soon_trees (s : State) (u : Nat) (l : List Instr) : (s.soon u l).trees = s.trees := rfl
@[simp] theorem soon_plans (s : State) (u : Nat) (l : List Instr) : (s.soon u l).plans = s.plans := rfl
@[simp] theorem soon_dispatched (s : State) (u : Nat) (l : List Instr) : (s.soon u l).dispatched = s.dispatched := rfl
@[simp] theorem soon_enc (s : State) (u : Nat) (l : List Instr) : (s.soon u l).enc = s.enc := rfl
@[simp] theorem soon_slots (s : State) (u : Nat) (l : List Instr) : (s.soon u l).slots = s.slots := rfl
@[simp] theorem soon_freeing (s : State) (u : Nat) (l : List Instr) : (s.soon u l).freeing = s.freeing := rfl
@[simp] theorem soon_frames (s : State) (u : Nat) (l : List Instr) : (s.soon u l).frames = s.frames := rfl
@[simp] theorem soon_frec (s : State) (u : Nat) (l : List Instr) : (s.soon u l).frec = s.frec := rfl
@[simp] theorem soon_survPulses (s : State) (u : Nat) (l : List Instr) : (s.soon u l).survPulses = s.survPulses := rfl
@[simp] theorem soon_meas (s : State) (u : Nat) (l : List Instr) : (s.soon u l).meas = s.meas := rfl
@[simp] theorem soon_bootFail (s : State) (u : Nat) (l : List Instr) : (s.soon u l).bootFail = s.bootFail := rfl
@[simp] theorem soon_fwBusy (s : State) (u : Nat) (l : List Instr) : (s.soon u l).fwBusy = s.fwBusy := rfl
@[simp] theorem soon_rungUp (s : State) (u : Nat) (l : List Instr) : (s.soon u l).rungUp = s.rungUp := rfl
@[simp] theorem soon_budgetWas (s : State) (u : Nat) (l : List Instr) : (s.soon u l).budgetWas = s.budgetWas := rfl
@[simp] theorem soon_sram (s : State) (u : Nat) (l : List Instr) : (s.soon u l).sram = s.sram := rfl
@[simp] theorem soon_linkRetry (s : State) (u : Nat) (l : List Instr) : (s.soon u l).linkRetry = s.linkRetry := rfl
@[simp] theorem soon_wire (s : State) (u : Nat) (l : List Instr) : (s.soon u l).wire = s.wire := rfl
@[simp] theorem soon_portHeld (s : State) (u : Nat) (l : List Instr) : (s.soon u l).portHeld = s.portHeld := rfl
@[simp] theorem soon_l2evs (s : State) (u : Nat) (l : List Instr) : (s.soon u l).l2evs = s.l2evs := rfl
@[simp] theorem soon_frq (s : State) (u : Nat) (l : List Instr) : (s.soon u l).frq = s.frq := rfl
@[simp] theorem soon_gratOff (s : State) (u : Nat) (l : List Instr) : (s.soon u l).gratOff = s.gratOff := rfl
@[simp] theorem soon_gratWait (s : State) (u : Nat) (l : List Instr) : (s.soon u l).gratWait = s.gratWait := rfl
@[simp] theorem soon_gratIn (s : State) (u : Nat) (l : List Instr) : (s.soon u l).gratIn = s.gratIn := rfl
@[simp] theorem soon_swapUsed (s : State) (u : Nat) (l : List Instr) : (s.soon u l).swapUsed = s.swapUsed := rfl
@[simp] theorem soon_swapAct (s : State) (u : Nat) (l : List Instr) : (s.soon u l).swapAct = s.swapAct := rfl
@[simp] theorem soon_swapGone (s : State) (u : Nat) (l : List Instr) : (s.soon u l).swapGone = s.swapGone := rfl
@[simp] theorem soon_swapFaults (s : State) (u : Nat) (l : List Instr) : (s.soon u l).swapFaults = s.swapFaults := rfl

@[simp] theorem later_tick (s : State) (n u : Nat) (i : Instr) : (s.later n u i).tick = s.tick := rfl
@[simp] theorem later_focus (s : State) (n u : Nat) (i : Instr) : (s.later n u i).focus = s.focus := rfl
@[simp] theorem later_agenda (s : State) (n u : Nat) (i : Instr) : (s.later n u i).agenda = s.agenda := rfl
@[simp] theorem later_inputs (s : State) (n u : Nat) (i : Instr) : (s.later n u i).inputs = s.inputs := rfl
@[simp] theorem later_draws (s : State) (n u : Nat) (i : Instr) : (s.later n u i).draws = s.draws := rfl
@[simp] theorem later_seq (s : State) (n u : Nat) (i : Instr) : (s.later n u i).seq = s.seq := rfl
@[simp] theorem later_cores (s : State) (n u : Nat) (i : Instr) : (s.later n u i).cores = s.cores := rfl
@[simp] theorem later_clusters (s : State) (n u : Nat) (i : Instr) : (s.later n u i).clusters = s.clusters := rfl
@[simp] theorem later_gcode (s : State) (n u : Nat) (i : Instr) : (s.later n u i).gcode = s.gcode := rfl
@[simp] theorem later_mem (s : State) (n u : Nat) (i : Instr) : (s.later n u i).mem = s.mem := rfl
@[simp] theorem later_l2 (s : State) (n u : Nat) (i : Instr) : (s.later n u i).l2 = s.l2 := rfl
@[simp] theorem later_reqs (s : State) (n u : Nat) (i : Instr) : (s.later n u i).reqs = s.reqs := rfl
@[simp] theorem later_msgs (s : State) (n u : Nat) (i : Instr) : (s.later n u i).msgs = s.msgs := rfl
@[simp] theorem later_parked (s : State) (n u : Nat) (i : Instr) : (s.later n u i).parked = s.parked := rfl
@[simp] theorem later_hubTlb (s : State) (n u : Nat) (i : Instr) : (s.later n u i).hubTlb = s.hubTlb := rfl
@[simp] theorem later_walks (s : State) (n u : Nat) (i : Instr) : (s.later n u i).walks = s.walks := rfl
@[simp] theorem later_regs (s : State) (n u : Nat) (i : Instr) : (s.later n u i).regs = s.regs := rfl
@[simp] theorem later_faults (s : State) (n u : Nat) (i : Instr) : (s.later n u i).faults = s.faults := rfl
@[simp] theorem later_tinv (s : State) (n u : Nat) (i : Instr) : (s.later n u i).tinv = s.tinv := rfl
@[simp] theorem later_tinvRun (s : State) (n u : Nat) (i : Instr) : (s.later n u i).tinvRun = s.tinvRun := rfl
@[simp] theorem later_walkers (s : State) (n u : Nat) (i : Instr) : (s.later n u i).walkers = s.walkers := rfl
@[simp] theorem later_faultIrqs (s : State) (n u : Nat) (i : Instr) : (s.later n u i).faultIrqs = s.faultIrqs := rfl
@[simp] theorem later_poison (s : State) (n u : Nat) (i : Instr) : (s.later n u i).poison = s.poison := rfl
@[simp] theorem later_decode (s : State) (n u : Nat) (i : Instr) : (s.later n u i).decode = s.decode := rfl
@[simp] theorem later_launches (s : State) (n u : Nat) (i : Instr) : (s.later n u i).launches = s.launches := rfl
@[simp] theorem later_finished (s : State) (n u : Nat) (i : Instr) : (s.later n u i).finished = s.finished := rfl
@[simp] theorem later_credits (s : State) (n u : Nat) (i : Instr) : (s.later n u i).credits = s.credits := rfl
@[simp] theorem later_graphs (s : State) (n u : Nat) (i : Instr) : (s.later n u i).graphs = s.graphs := rfl
@[simp] theorem later_recording (s : State) (n u : Nat) (i : Instr) : (s.later n u i).recording = s.recording := rfl
@[simp] theorem later_extra (s : State) (n u : Nat) (i : Instr) : (s.later n u i).extra = s.extra := rfl
@[simp] theorem later_lastOf (s : State) (n u : Nat) (i : Instr) : (s.later n u i).lastOf = s.lastOf := rfl
@[simp] theorem later_deciding (s : State) (n u : Nat) (i : Instr) : (s.later n u i).deciding = s.deciding := rfl
@[simp] theorem later_kills (s : State) (n u : Nat) (i : Instr) : (s.later n u i).kills = s.kills := rfl
@[simp] theorem later_retained (s : State) (n u : Nat) (i : Instr) : (s.later n u i).retained = s.retained := rfl
@[simp] theorem later_jobs (s : State) (n u : Nat) (i : Instr) : (s.later n u i).jobs = s.jobs := rfl
@[simp] theorem later_bps (s : State) (n u : Nat) (i : Instr) : (s.later n u i).bps = s.bps := rfl
@[simp] theorem later_trees (s : State) (n u : Nat) (i : Instr) : (s.later n u i).trees = s.trees := rfl
@[simp] theorem later_plans (s : State) (n u : Nat) (i : Instr) : (s.later n u i).plans = s.plans := rfl
@[simp] theorem later_dispatched (s : State) (n u : Nat) (i : Instr) : (s.later n u i).dispatched = s.dispatched := rfl
@[simp] theorem later_enc (s : State) (n u : Nat) (i : Instr) : (s.later n u i).enc = s.enc := rfl
@[simp] theorem later_slots (s : State) (n u : Nat) (i : Instr) : (s.later n u i).slots = s.slots := rfl
@[simp] theorem later_freeing (s : State) (n u : Nat) (i : Instr) : (s.later n u i).freeing = s.freeing := rfl
@[simp] theorem later_frames (s : State) (n u : Nat) (i : Instr) : (s.later n u i).frames = s.frames := rfl
@[simp] theorem later_frec (s : State) (n u : Nat) (i : Instr) : (s.later n u i).frec = s.frec := rfl
@[simp] theorem later_survPulses (s : State) (n u : Nat) (i : Instr) : (s.later n u i).survPulses = s.survPulses := rfl
@[simp] theorem later_meas (s : State) (n u : Nat) (i : Instr) : (s.later n u i).meas = s.meas := rfl
@[simp] theorem later_bootFail (s : State) (n u : Nat) (i : Instr) : (s.later n u i).bootFail = s.bootFail := rfl
@[simp] theorem later_fwBusy (s : State) (n u : Nat) (i : Instr) : (s.later n u i).fwBusy = s.fwBusy := rfl
@[simp] theorem later_rungUp (s : State) (n u : Nat) (i : Instr) : (s.later n u i).rungUp = s.rungUp := rfl
@[simp] theorem later_budgetWas (s : State) (n u : Nat) (i : Instr) : (s.later n u i).budgetWas = s.budgetWas := rfl
@[simp] theorem later_sram (s : State) (n u : Nat) (i : Instr) : (s.later n u i).sram = s.sram := rfl
@[simp] theorem later_linkRetry (s : State) (n u : Nat) (i : Instr) : (s.later n u i).linkRetry = s.linkRetry := rfl
@[simp] theorem later_wire (s : State) (n u : Nat) (i : Instr) : (s.later n u i).wire = s.wire := rfl
@[simp] theorem later_portHeld (s : State) (n u : Nat) (i : Instr) : (s.later n u i).portHeld = s.portHeld := rfl
@[simp] theorem later_l2evs (s : State) (n u : Nat) (i : Instr) : (s.later n u i).l2evs = s.l2evs := rfl
@[simp] theorem later_frq (s : State) (n u : Nat) (i : Instr) : (s.later n u i).frq = s.frq := rfl
@[simp] theorem later_gratOff (s : State) (n u : Nat) (i : Instr) : (s.later n u i).gratOff = s.gratOff := rfl
@[simp] theorem later_gratWait (s : State) (n u : Nat) (i : Instr) : (s.later n u i).gratWait = s.gratWait := rfl
@[simp] theorem later_gratIn (s : State) (n u : Nat) (i : Instr) : (s.later n u i).gratIn = s.gratIn := rfl
@[simp] theorem later_swapUsed (s : State) (n u : Nat) (i : Instr) : (s.later n u i).swapUsed = s.swapUsed := rfl
@[simp] theorem later_swapAct (s : State) (n u : Nat) (i : Instr) : (s.later n u i).swapAct = s.swapAct := rfl
@[simp] theorem later_swapGone (s : State) (n u : Nat) (i : Instr) : (s.later n u i).swapGone = s.swapGone := rfl
@[simp] theorem later_swapFaults (s : State) (n u : Nat) (i : Instr) : (s.later n u i).swapFaults = s.swapFaults := rfl

@[simp] theorem send_tick (s : State) (n m k : Nat) (b : Body) : (s.send n m k b).tick = s.tick := rfl
@[simp] theorem send_focus (s : State) (n m k : Nat) (b : Body) : (s.send n m k b).focus = s.focus := rfl
@[simp] theorem send_agenda (s : State) (n m k : Nat) (b : Body) : (s.send n m k b).agenda = s.agenda := rfl
@[simp] theorem send_inputs (s : State) (n m k : Nat) (b : Body) : (s.send n m k b).inputs = s.inputs := rfl
@[simp] theorem send_timers (s : State) (n m k : Nat) (b : Body) : (s.send n m k b).timers = s.timers := rfl
@[simp] theorem send_draws (s : State) (n m k : Nat) (b : Body) : (s.send n m k b).draws = s.draws := rfl
@[simp] theorem send_cores (s : State) (n m k : Nat) (b : Body) : (s.send n m k b).cores = s.cores := rfl
@[simp] theorem send_clusters (s : State) (n m k : Nat) (b : Body) : (s.send n m k b).clusters = s.clusters := rfl
@[simp] theorem send_gcode (s : State) (n m k : Nat) (b : Body) : (s.send n m k b).gcode = s.gcode := rfl
@[simp] theorem send_mem (s : State) (n m k : Nat) (b : Body) : (s.send n m k b).mem = s.mem := rfl
@[simp] theorem send_l2 (s : State) (n m k : Nat) (b : Body) : (s.send n m k b).l2 = s.l2 := rfl
@[simp] theorem send_reqs (s : State) (n m k : Nat) (b : Body) : (s.send n m k b).reqs = s.reqs := rfl
@[simp] theorem send_parked (s : State) (n m k : Nat) (b : Body) : (s.send n m k b).parked = s.parked := rfl
@[simp] theorem send_hubTlb (s : State) (n m k : Nat) (b : Body) : (s.send n m k b).hubTlb = s.hubTlb := rfl
@[simp] theorem send_walks (s : State) (n m k : Nat) (b : Body) : (s.send n m k b).walks = s.walks := rfl
@[simp] theorem send_regs (s : State) (n m k : Nat) (b : Body) : (s.send n m k b).regs = s.regs := rfl
@[simp] theorem send_faults (s : State) (n m k : Nat) (b : Body) : (s.send n m k b).faults = s.faults := rfl
@[simp] theorem send_tinv (s : State) (n m k : Nat) (b : Body) : (s.send n m k b).tinv = s.tinv := rfl
@[simp] theorem send_tinvRun (s : State) (n m k : Nat) (b : Body) : (s.send n m k b).tinvRun = s.tinvRun := rfl
@[simp] theorem send_walkers (s : State) (n m k : Nat) (b : Body) : (s.send n m k b).walkers = s.walkers := rfl
@[simp] theorem send_faultIrqs (s : State) (n m k : Nat) (b : Body) : (s.send n m k b).faultIrqs = s.faultIrqs := rfl
@[simp] theorem send_poison (s : State) (n m k : Nat) (b : Body) : (s.send n m k b).poison = s.poison := rfl
@[simp] theorem send_decode (s : State) (n m k : Nat) (b : Body) : (s.send n m k b).decode = s.decode := rfl
@[simp] theorem send_launches (s : State) (n m k : Nat) (b : Body) : (s.send n m k b).launches = s.launches := rfl
@[simp] theorem send_finished (s : State) (n m k : Nat) (b : Body) : (s.send n m k b).finished = s.finished := rfl
@[simp] theorem send_credits (s : State) (n m k : Nat) (b : Body) : (s.send n m k b).credits = s.credits := rfl
@[simp] theorem send_graphs (s : State) (n m k : Nat) (b : Body) : (s.send n m k b).graphs = s.graphs := rfl
@[simp] theorem send_recording (s : State) (n m k : Nat) (b : Body) : (s.send n m k b).recording = s.recording := rfl
@[simp] theorem send_extra (s : State) (n m k : Nat) (b : Body) : (s.send n m k b).extra = s.extra := rfl
@[simp] theorem send_lastOf (s : State) (n m k : Nat) (b : Body) : (s.send n m k b).lastOf = s.lastOf := rfl
@[simp] theorem send_deciding (s : State) (n m k : Nat) (b : Body) : (s.send n m k b).deciding = s.deciding := rfl
@[simp] theorem send_kills (s : State) (n m k : Nat) (b : Body) : (s.send n m k b).kills = s.kills := rfl
@[simp] theorem send_retained (s : State) (n m k : Nat) (b : Body) : (s.send n m k b).retained = s.retained := rfl
@[simp] theorem send_jobs (s : State) (n m k : Nat) (b : Body) : (s.send n m k b).jobs = s.jobs := rfl
@[simp] theorem send_bps (s : State) (n m k : Nat) (b : Body) : (s.send n m k b).bps = s.bps := rfl
@[simp] theorem send_trees (s : State) (n m k : Nat) (b : Body) : (s.send n m k b).trees = s.trees := rfl
@[simp] theorem send_plans (s : State) (n m k : Nat) (b : Body) : (s.send n m k b).plans = s.plans := rfl
@[simp] theorem send_dispatched (s : State) (n m k : Nat) (b : Body) : (s.send n m k b).dispatched = s.dispatched := rfl
@[simp] theorem send_enc (s : State) (n m k : Nat) (b : Body) : (s.send n m k b).enc = s.enc := rfl
@[simp] theorem send_slots (s : State) (n m k : Nat) (b : Body) : (s.send n m k b).slots = s.slots := rfl
@[simp] theorem send_freeing (s : State) (n m k : Nat) (b : Body) : (s.send n m k b).freeing = s.freeing := rfl
@[simp] theorem send_frames (s : State) (n m k : Nat) (b : Body) : (s.send n m k b).frames = s.frames := rfl
@[simp] theorem send_frec (s : State) (n m k : Nat) (b : Body) : (s.send n m k b).frec = s.frec := rfl
@[simp] theorem send_survPulses (s : State) (n m k : Nat) (b : Body) : (s.send n m k b).survPulses = s.survPulses := rfl
@[simp] theorem send_meas (s : State) (n m k : Nat) (b : Body) : (s.send n m k b).meas = s.meas := rfl
@[simp] theorem send_bootFail (s : State) (n m k : Nat) (b : Body) : (s.send n m k b).bootFail = s.bootFail := rfl
@[simp] theorem send_fwBusy (s : State) (n m k : Nat) (b : Body) : (s.send n m k b).fwBusy = s.fwBusy := rfl
@[simp] theorem send_rungUp (s : State) (n m k : Nat) (b : Body) : (s.send n m k b).rungUp = s.rungUp := rfl
@[simp] theorem send_budgetWas (s : State) (n m k : Nat) (b : Body) : (s.send n m k b).budgetWas = s.budgetWas := rfl
@[simp] theorem send_sram (s : State) (n m k : Nat) (b : Body) : (s.send n m k b).sram = s.sram := rfl
@[simp] theorem send_linkRetry (s : State) (n m k : Nat) (b : Body) : (s.send n m k b).linkRetry = s.linkRetry := rfl
@[simp] theorem send_wire (s : State) (n m k : Nat) (b : Body) : (s.send n m k b).wire = s.wire := rfl
@[simp] theorem send_portHeld (s : State) (n m k : Nat) (b : Body) : (s.send n m k b).portHeld = s.portHeld := rfl
@[simp] theorem send_l2evs (s : State) (n m k : Nat) (b : Body) : (s.send n m k b).l2evs = s.l2evs := rfl
@[simp] theorem send_frq (s : State) (n m k : Nat) (b : Body) : (s.send n m k b).frq = s.frq := rfl
@[simp] theorem send_gratOff (s : State) (n m k : Nat) (b : Body) : (s.send n m k b).gratOff = s.gratOff := rfl
@[simp] theorem send_gratWait (s : State) (n m k : Nat) (b : Body) : (s.send n m k b).gratWait = s.gratWait := rfl
@[simp] theorem send_gratIn (s : State) (n m k : Nat) (b : Body) : (s.send n m k b).gratIn = s.gratIn := rfl
@[simp] theorem send_swapUsed (s : State) (n m k : Nat) (b : Body) : (s.send n m k b).swapUsed = s.swapUsed := rfl
@[simp] theorem send_swapAct (s : State) (n m k : Nat) (b : Body) : (s.send n m k b).swapAct = s.swapAct := rfl
@[simp] theorem send_swapGone (s : State) (n m k : Nat) (b : Body) : (s.send n m k b).swapGone = s.swapGone := rfl
@[simp] theorem send_swapFaults (s : State) (n m k : Nat) (b : Body) : (s.send n m k b).swapFaults = s.swapFaults := rfl

@[simp] theorem setReg_tick (s : State) (off v : Nat) : (s.setReg off v).tick = s.tick := rfl
@[simp] theorem setReg_focus (s : State) (off v : Nat) : (s.setReg off v).focus = s.focus := rfl
@[simp] theorem setReg_agenda (s : State) (off v : Nat) : (s.setReg off v).agenda = s.agenda := rfl
@[simp] theorem setReg_inputs (s : State) (off v : Nat) : (s.setReg off v).inputs = s.inputs := rfl
@[simp] theorem setReg_timers (s : State) (off v : Nat) : (s.setReg off v).timers = s.timers := rfl
@[simp] theorem setReg_draws (s : State) (off v : Nat) : (s.setReg off v).draws = s.draws := rfl
@[simp] theorem setReg_seq (s : State) (off v : Nat) : (s.setReg off v).seq = s.seq := rfl
@[simp] theorem setReg_cores (s : State) (off v : Nat) : (s.setReg off v).cores = s.cores := rfl
@[simp] theorem setReg_clusters (s : State) (off v : Nat) : (s.setReg off v).clusters = s.clusters := rfl
@[simp] theorem setReg_gcode (s : State) (off v : Nat) : (s.setReg off v).gcode = s.gcode := rfl
@[simp] theorem setReg_mem (s : State) (off v : Nat) : (s.setReg off v).mem = s.mem := rfl
@[simp] theorem setReg_l2 (s : State) (off v : Nat) : (s.setReg off v).l2 = s.l2 := rfl
@[simp] theorem setReg_reqs (s : State) (off v : Nat) : (s.setReg off v).reqs = s.reqs := rfl
@[simp] theorem setReg_msgs (s : State) (off v : Nat) : (s.setReg off v).msgs = s.msgs := rfl
@[simp] theorem setReg_parked (s : State) (off v : Nat) : (s.setReg off v).parked = s.parked := rfl
@[simp] theorem setReg_hubTlb (s : State) (off v : Nat) : (s.setReg off v).hubTlb = s.hubTlb := rfl
@[simp] theorem setReg_walks (s : State) (off v : Nat) : (s.setReg off v).walks = s.walks := rfl
@[simp] theorem setReg_faults (s : State) (off v : Nat) : (s.setReg off v).faults = s.faults := rfl
@[simp] theorem setReg_tinv (s : State) (off v : Nat) : (s.setReg off v).tinv = s.tinv := rfl
@[simp] theorem setReg_tinvRun (s : State) (off v : Nat) : (s.setReg off v).tinvRun = s.tinvRun := rfl
@[simp] theorem setReg_walkers (s : State) (off v : Nat) : (s.setReg off v).walkers = s.walkers := rfl
@[simp] theorem setReg_faultIrqs (s : State) (off v : Nat) : (s.setReg off v).faultIrqs = s.faultIrqs := rfl
@[simp] theorem setReg_poison (s : State) (off v : Nat) : (s.setReg off v).poison = s.poison := rfl
@[simp] theorem setReg_decode (s : State) (off v : Nat) : (s.setReg off v).decode = s.decode := rfl
@[simp] theorem setReg_launches (s : State) (off v : Nat) : (s.setReg off v).launches = s.launches := rfl
@[simp] theorem setReg_finished (s : State) (off v : Nat) : (s.setReg off v).finished = s.finished := rfl
@[simp] theorem setReg_credits (s : State) (off v : Nat) : (s.setReg off v).credits = s.credits := rfl
@[simp] theorem setReg_graphs (s : State) (off v : Nat) : (s.setReg off v).graphs = s.graphs := rfl
@[simp] theorem setReg_recording (s : State) (off v : Nat) : (s.setReg off v).recording = s.recording := rfl
@[simp] theorem setReg_extra (s : State) (off v : Nat) : (s.setReg off v).extra = s.extra := rfl
@[simp] theorem setReg_lastOf (s : State) (off v : Nat) : (s.setReg off v).lastOf = s.lastOf := rfl
@[simp] theorem setReg_deciding (s : State) (off v : Nat) : (s.setReg off v).deciding = s.deciding := rfl
@[simp] theorem setReg_kills (s : State) (off v : Nat) : (s.setReg off v).kills = s.kills := rfl
@[simp] theorem setReg_retained (s : State) (off v : Nat) : (s.setReg off v).retained = s.retained := rfl
@[simp] theorem setReg_jobs (s : State) (off v : Nat) : (s.setReg off v).jobs = s.jobs := rfl
@[simp] theorem setReg_bps (s : State) (off v : Nat) : (s.setReg off v).bps = s.bps := rfl
@[simp] theorem setReg_trees (s : State) (off v : Nat) : (s.setReg off v).trees = s.trees := rfl
@[simp] theorem setReg_plans (s : State) (off v : Nat) : (s.setReg off v).plans = s.plans := rfl
@[simp] theorem setReg_dispatched (s : State) (off v : Nat) : (s.setReg off v).dispatched = s.dispatched := rfl
@[simp] theorem setReg_enc (s : State) (off v : Nat) : (s.setReg off v).enc = s.enc := rfl
@[simp] theorem setReg_slots (s : State) (off v : Nat) : (s.setReg off v).slots = s.slots := rfl
@[simp] theorem setReg_freeing (s : State) (off v : Nat) : (s.setReg off v).freeing = s.freeing := rfl
@[simp] theorem setReg_frames (s : State) (off v : Nat) : (s.setReg off v).frames = s.frames := rfl
@[simp] theorem setReg_frec (s : State) (off v : Nat) : (s.setReg off v).frec = s.frec := rfl
@[simp] theorem setReg_survPulses (s : State) (off v : Nat) : (s.setReg off v).survPulses = s.survPulses := rfl
@[simp] theorem setReg_meas (s : State) (off v : Nat) : (s.setReg off v).meas = s.meas := rfl
@[simp] theorem setReg_bootFail (s : State) (off v : Nat) : (s.setReg off v).bootFail = s.bootFail := rfl
@[simp] theorem setReg_fwBusy (s : State) (off v : Nat) : (s.setReg off v).fwBusy = s.fwBusy := rfl
@[simp] theorem setReg_rungUp (s : State) (off v : Nat) : (s.setReg off v).rungUp = s.rungUp := rfl
@[simp] theorem setReg_budgetWas (s : State) (off v : Nat) : (s.setReg off v).budgetWas = s.budgetWas := rfl
@[simp] theorem setReg_sram (s : State) (off v : Nat) : (s.setReg off v).sram = s.sram := rfl
@[simp] theorem setReg_linkRetry (s : State) (off v : Nat) : (s.setReg off v).linkRetry = s.linkRetry := rfl
@[simp] theorem setReg_wire (s : State) (off v : Nat) : (s.setReg off v).wire = s.wire := rfl
@[simp] theorem setReg_portHeld (s : State) (off v : Nat) : (s.setReg off v).portHeld = s.portHeld := rfl
@[simp] theorem setReg_l2evs (s : State) (off v : Nat) : (s.setReg off v).l2evs = s.l2evs := rfl
@[simp] theorem setReg_frq (s : State) (off v : Nat) : (s.setReg off v).frq = s.frq := rfl
@[simp] theorem setReg_gratOff (s : State) (off v : Nat) : (s.setReg off v).gratOff = s.gratOff := rfl
@[simp] theorem setReg_gratWait (s : State) (off v : Nat) : (s.setReg off v).gratWait = s.gratWait := rfl
@[simp] theorem setReg_gratIn (s : State) (off v : Nat) : (s.setReg off v).gratIn = s.gratIn := rfl
@[simp] theorem setReg_swapUsed (s : State) (off v : Nat) : (s.setReg off v).swapUsed = s.swapUsed := rfl
@[simp] theorem setReg_swapAct (s : State) (off v : Nat) : (s.setReg off v).swapAct = s.swapAct := rfl
@[simp] theorem setReg_swapGone (s : State) (off v : Nat) : (s.setReg off v).swapGone = s.swapGone := rfl
@[simp] theorem setReg_swapFaults (s : State) (off v : Nat) : (s.setReg off v).swapFaults = s.swapFaults := rfl

@[simp] theorem setFld_tick (s : State) (off hi lo v : Nat) : (s.setFld off hi lo v).tick = s.tick := rfl
@[simp] theorem setFld_focus (s : State) (off hi lo v : Nat) : (s.setFld off hi lo v).focus = s.focus := rfl
@[simp] theorem setFld_agenda (s : State) (off hi lo v : Nat) : (s.setFld off hi lo v).agenda = s.agenda := rfl
@[simp] theorem setFld_inputs (s : State) (off hi lo v : Nat) : (s.setFld off hi lo v).inputs = s.inputs := rfl
@[simp] theorem setFld_timers (s : State) (off hi lo v : Nat) : (s.setFld off hi lo v).timers = s.timers := rfl
@[simp] theorem setFld_draws (s : State) (off hi lo v : Nat) : (s.setFld off hi lo v).draws = s.draws := rfl
@[simp] theorem setFld_seq (s : State) (off hi lo v : Nat) : (s.setFld off hi lo v).seq = s.seq := rfl
@[simp] theorem setFld_cores (s : State) (off hi lo v : Nat) : (s.setFld off hi lo v).cores = s.cores := rfl
@[simp] theorem setFld_clusters (s : State) (off hi lo v : Nat) : (s.setFld off hi lo v).clusters = s.clusters := rfl
@[simp] theorem setFld_gcode (s : State) (off hi lo v : Nat) : (s.setFld off hi lo v).gcode = s.gcode := rfl
@[simp] theorem setFld_mem (s : State) (off hi lo v : Nat) : (s.setFld off hi lo v).mem = s.mem := rfl
@[simp] theorem setFld_l2 (s : State) (off hi lo v : Nat) : (s.setFld off hi lo v).l2 = s.l2 := rfl
@[simp] theorem setFld_reqs (s : State) (off hi lo v : Nat) : (s.setFld off hi lo v).reqs = s.reqs := rfl
@[simp] theorem setFld_msgs (s : State) (off hi lo v : Nat) : (s.setFld off hi lo v).msgs = s.msgs := rfl
@[simp] theorem setFld_parked (s : State) (off hi lo v : Nat) : (s.setFld off hi lo v).parked = s.parked := rfl
@[simp] theorem setFld_hubTlb (s : State) (off hi lo v : Nat) : (s.setFld off hi lo v).hubTlb = s.hubTlb := rfl
@[simp] theorem setFld_walks (s : State) (off hi lo v : Nat) : (s.setFld off hi lo v).walks = s.walks := rfl
@[simp] theorem setFld_faults (s : State) (off hi lo v : Nat) : (s.setFld off hi lo v).faults = s.faults := rfl
@[simp] theorem setFld_tinv (s : State) (off hi lo v : Nat) : (s.setFld off hi lo v).tinv = s.tinv := rfl
@[simp] theorem setFld_tinvRun (s : State) (off hi lo v : Nat) : (s.setFld off hi lo v).tinvRun = s.tinvRun := rfl
@[simp] theorem setFld_walkers (s : State) (off hi lo v : Nat) : (s.setFld off hi lo v).walkers = s.walkers := rfl
@[simp] theorem setFld_faultIrqs (s : State) (off hi lo v : Nat) : (s.setFld off hi lo v).faultIrqs = s.faultIrqs := rfl
@[simp] theorem setFld_poison (s : State) (off hi lo v : Nat) : (s.setFld off hi lo v).poison = s.poison := rfl
@[simp] theorem setFld_decode (s : State) (off hi lo v : Nat) : (s.setFld off hi lo v).decode = s.decode := rfl
@[simp] theorem setFld_launches (s : State) (off hi lo v : Nat) : (s.setFld off hi lo v).launches = s.launches := rfl
@[simp] theorem setFld_finished (s : State) (off hi lo v : Nat) : (s.setFld off hi lo v).finished = s.finished := rfl
@[simp] theorem setFld_credits (s : State) (off hi lo v : Nat) : (s.setFld off hi lo v).credits = s.credits := rfl
@[simp] theorem setFld_graphs (s : State) (off hi lo v : Nat) : (s.setFld off hi lo v).graphs = s.graphs := rfl
@[simp] theorem setFld_recording (s : State) (off hi lo v : Nat) : (s.setFld off hi lo v).recording = s.recording := rfl
@[simp] theorem setFld_extra (s : State) (off hi lo v : Nat) : (s.setFld off hi lo v).extra = s.extra := rfl
@[simp] theorem setFld_lastOf (s : State) (off hi lo v : Nat) : (s.setFld off hi lo v).lastOf = s.lastOf := rfl
@[simp] theorem setFld_deciding (s : State) (off hi lo v : Nat) : (s.setFld off hi lo v).deciding = s.deciding := rfl
@[simp] theorem setFld_kills (s : State) (off hi lo v : Nat) : (s.setFld off hi lo v).kills = s.kills := rfl
@[simp] theorem setFld_retained (s : State) (off hi lo v : Nat) : (s.setFld off hi lo v).retained = s.retained := rfl
@[simp] theorem setFld_jobs (s : State) (off hi lo v : Nat) : (s.setFld off hi lo v).jobs = s.jobs := rfl
@[simp] theorem setFld_bps (s : State) (off hi lo v : Nat) : (s.setFld off hi lo v).bps = s.bps := rfl
@[simp] theorem setFld_trees (s : State) (off hi lo v : Nat) : (s.setFld off hi lo v).trees = s.trees := rfl
@[simp] theorem setFld_plans (s : State) (off hi lo v : Nat) : (s.setFld off hi lo v).plans = s.plans := rfl
@[simp] theorem setFld_dispatched (s : State) (off hi lo v : Nat) : (s.setFld off hi lo v).dispatched = s.dispatched := rfl
@[simp] theorem setFld_enc (s : State) (off hi lo v : Nat) : (s.setFld off hi lo v).enc = s.enc := rfl
@[simp] theorem setFld_slots (s : State) (off hi lo v : Nat) : (s.setFld off hi lo v).slots = s.slots := rfl
@[simp] theorem setFld_freeing (s : State) (off hi lo v : Nat) : (s.setFld off hi lo v).freeing = s.freeing := rfl
@[simp] theorem setFld_frames (s : State) (off hi lo v : Nat) : (s.setFld off hi lo v).frames = s.frames := rfl
@[simp] theorem setFld_frec (s : State) (off hi lo v : Nat) : (s.setFld off hi lo v).frec = s.frec := rfl
@[simp] theorem setFld_survPulses (s : State) (off hi lo v : Nat) : (s.setFld off hi lo v).survPulses = s.survPulses := rfl
@[simp] theorem setFld_meas (s : State) (off hi lo v : Nat) : (s.setFld off hi lo v).meas = s.meas := rfl
@[simp] theorem setFld_bootFail (s : State) (off hi lo v : Nat) : (s.setFld off hi lo v).bootFail = s.bootFail := rfl
@[simp] theorem setFld_fwBusy (s : State) (off hi lo v : Nat) : (s.setFld off hi lo v).fwBusy = s.fwBusy := rfl
@[simp] theorem setFld_rungUp (s : State) (off hi lo v : Nat) : (s.setFld off hi lo v).rungUp = s.rungUp := rfl
@[simp] theorem setFld_budgetWas (s : State) (off hi lo v : Nat) : (s.setFld off hi lo v).budgetWas = s.budgetWas := rfl
@[simp] theorem setFld_sram (s : State) (off hi lo v : Nat) : (s.setFld off hi lo v).sram = s.sram := rfl
@[simp] theorem setFld_linkRetry (s : State) (off hi lo v : Nat) : (s.setFld off hi lo v).linkRetry = s.linkRetry := rfl
@[simp] theorem setFld_wire (s : State) (off hi lo v : Nat) : (s.setFld off hi lo v).wire = s.wire := rfl
@[simp] theorem setFld_portHeld (s : State) (off hi lo v : Nat) : (s.setFld off hi lo v).portHeld = s.portHeld := rfl
@[simp] theorem setFld_l2evs (s : State) (off hi lo v : Nat) : (s.setFld off hi lo v).l2evs = s.l2evs := rfl
@[simp] theorem setFld_frq (s : State) (off hi lo v : Nat) : (s.setFld off hi lo v).frq = s.frq := rfl
@[simp] theorem setFld_gratOff (s : State) (off hi lo v : Nat) : (s.setFld off hi lo v).gratOff = s.gratOff := rfl
@[simp] theorem setFld_gratWait (s : State) (off hi lo v : Nat) : (s.setFld off hi lo v).gratWait = s.gratWait := rfl
@[simp] theorem setFld_gratIn (s : State) (off hi lo v : Nat) : (s.setFld off hi lo v).gratIn = s.gratIn := rfl
@[simp] theorem setFld_swapUsed (s : State) (off hi lo v : Nat) : (s.setFld off hi lo v).swapUsed = s.swapUsed := rfl
@[simp] theorem setFld_swapAct (s : State) (off hi lo v : Nat) : (s.setFld off hi lo v).swapAct = s.swapAct := rfl
@[simp] theorem setFld_swapGone (s : State) (off hi lo v : Nat) : (s.setFld off hi lo v).swapGone = s.swapGone := rfl
@[simp] theorem setFld_swapFaults (s : State) (off hi lo v : Nat) : (s.setFld off hi lo v).swapFaults = s.swapFaults := rfl

@[simp] theorem countMod_tick (s : State) (off hi lo n : Nat) : (s.countMod off hi lo n).tick = s.tick := rfl
@[simp] theorem countMod_focus (s : State) (off hi lo n : Nat) : (s.countMod off hi lo n).focus = s.focus := rfl
@[simp] theorem countMod_agenda (s : State) (off hi lo n : Nat) : (s.countMod off hi lo n).agenda = s.agenda := rfl
@[simp] theorem countMod_inputs (s : State) (off hi lo n : Nat) : (s.countMod off hi lo n).inputs = s.inputs := rfl
@[simp] theorem countMod_timers (s : State) (off hi lo n : Nat) : (s.countMod off hi lo n).timers = s.timers := rfl
@[simp] theorem countMod_draws (s : State) (off hi lo n : Nat) : (s.countMod off hi lo n).draws = s.draws := rfl
@[simp] theorem countMod_seq (s : State) (off hi lo n : Nat) : (s.countMod off hi lo n).seq = s.seq := rfl
@[simp] theorem countMod_cores (s : State) (off hi lo n : Nat) : (s.countMod off hi lo n).cores = s.cores := rfl
@[simp] theorem countMod_clusters (s : State) (off hi lo n : Nat) : (s.countMod off hi lo n).clusters = s.clusters := rfl
@[simp] theorem countMod_gcode (s : State) (off hi lo n : Nat) : (s.countMod off hi lo n).gcode = s.gcode := rfl
@[simp] theorem countMod_mem (s : State) (off hi lo n : Nat) : (s.countMod off hi lo n).mem = s.mem := rfl
@[simp] theorem countMod_l2 (s : State) (off hi lo n : Nat) : (s.countMod off hi lo n).l2 = s.l2 := rfl
@[simp] theorem countMod_reqs (s : State) (off hi lo n : Nat) : (s.countMod off hi lo n).reqs = s.reqs := rfl
@[simp] theorem countMod_msgs (s : State) (off hi lo n : Nat) : (s.countMod off hi lo n).msgs = s.msgs := rfl
@[simp] theorem countMod_parked (s : State) (off hi lo n : Nat) : (s.countMod off hi lo n).parked = s.parked := rfl
@[simp] theorem countMod_hubTlb (s : State) (off hi lo n : Nat) : (s.countMod off hi lo n).hubTlb = s.hubTlb := rfl
@[simp] theorem countMod_walks (s : State) (off hi lo n : Nat) : (s.countMod off hi lo n).walks = s.walks := rfl
@[simp] theorem countMod_faults (s : State) (off hi lo n : Nat) : (s.countMod off hi lo n).faults = s.faults := rfl
@[simp] theorem countMod_tinv (s : State) (off hi lo n : Nat) : (s.countMod off hi lo n).tinv = s.tinv := rfl
@[simp] theorem countMod_tinvRun (s : State) (off hi lo n : Nat) : (s.countMod off hi lo n).tinvRun = s.tinvRun := rfl
@[simp] theorem countMod_walkers (s : State) (off hi lo n : Nat) : (s.countMod off hi lo n).walkers = s.walkers := rfl
@[simp] theorem countMod_faultIrqs (s : State) (off hi lo n : Nat) : (s.countMod off hi lo n).faultIrqs = s.faultIrqs := rfl
@[simp] theorem countMod_poison (s : State) (off hi lo n : Nat) : (s.countMod off hi lo n).poison = s.poison := rfl
@[simp] theorem countMod_decode (s : State) (off hi lo n : Nat) : (s.countMod off hi lo n).decode = s.decode := rfl
@[simp] theorem countMod_launches (s : State) (off hi lo n : Nat) : (s.countMod off hi lo n).launches = s.launches := rfl
@[simp] theorem countMod_finished (s : State) (off hi lo n : Nat) : (s.countMod off hi lo n).finished = s.finished := rfl
@[simp] theorem countMod_credits (s : State) (off hi lo n : Nat) : (s.countMod off hi lo n).credits = s.credits := rfl
@[simp] theorem countMod_graphs (s : State) (off hi lo n : Nat) : (s.countMod off hi lo n).graphs = s.graphs := rfl
@[simp] theorem countMod_recording (s : State) (off hi lo n : Nat) : (s.countMod off hi lo n).recording = s.recording := rfl
@[simp] theorem countMod_extra (s : State) (off hi lo n : Nat) : (s.countMod off hi lo n).extra = s.extra := rfl
@[simp] theorem countMod_lastOf (s : State) (off hi lo n : Nat) : (s.countMod off hi lo n).lastOf = s.lastOf := rfl
@[simp] theorem countMod_deciding (s : State) (off hi lo n : Nat) : (s.countMod off hi lo n).deciding = s.deciding := rfl
@[simp] theorem countMod_kills (s : State) (off hi lo n : Nat) : (s.countMod off hi lo n).kills = s.kills := rfl
@[simp] theorem countMod_retained (s : State) (off hi lo n : Nat) : (s.countMod off hi lo n).retained = s.retained := rfl
@[simp] theorem countMod_jobs (s : State) (off hi lo n : Nat) : (s.countMod off hi lo n).jobs = s.jobs := rfl
@[simp] theorem countMod_bps (s : State) (off hi lo n : Nat) : (s.countMod off hi lo n).bps = s.bps := rfl
@[simp] theorem countMod_trees (s : State) (off hi lo n : Nat) : (s.countMod off hi lo n).trees = s.trees := rfl
@[simp] theorem countMod_plans (s : State) (off hi lo n : Nat) : (s.countMod off hi lo n).plans = s.plans := rfl
@[simp] theorem countMod_dispatched (s : State) (off hi lo n : Nat) : (s.countMod off hi lo n).dispatched = s.dispatched := rfl
@[simp] theorem countMod_enc (s : State) (off hi lo n : Nat) : (s.countMod off hi lo n).enc = s.enc := rfl
@[simp] theorem countMod_slots (s : State) (off hi lo n : Nat) : (s.countMod off hi lo n).slots = s.slots := rfl
@[simp] theorem countMod_freeing (s : State) (off hi lo n : Nat) : (s.countMod off hi lo n).freeing = s.freeing := rfl
@[simp] theorem countMod_frames (s : State) (off hi lo n : Nat) : (s.countMod off hi lo n).frames = s.frames := rfl
@[simp] theorem countMod_frec (s : State) (off hi lo n : Nat) : (s.countMod off hi lo n).frec = s.frec := rfl
@[simp] theorem countMod_survPulses (s : State) (off hi lo n : Nat) : (s.countMod off hi lo n).survPulses = s.survPulses := rfl
@[simp] theorem countMod_meas (s : State) (off hi lo n : Nat) : (s.countMod off hi lo n).meas = s.meas := rfl
@[simp] theorem countMod_bootFail (s : State) (off hi lo n : Nat) : (s.countMod off hi lo n).bootFail = s.bootFail := rfl
@[simp] theorem countMod_fwBusy (s : State) (off hi lo n : Nat) : (s.countMod off hi lo n).fwBusy = s.fwBusy := rfl
@[simp] theorem countMod_rungUp (s : State) (off hi lo n : Nat) : (s.countMod off hi lo n).rungUp = s.rungUp := rfl
@[simp] theorem countMod_budgetWas (s : State) (off hi lo n : Nat) : (s.countMod off hi lo n).budgetWas = s.budgetWas := rfl
@[simp] theorem countMod_sram (s : State) (off hi lo n : Nat) : (s.countMod off hi lo n).sram = s.sram := rfl
@[simp] theorem countMod_linkRetry (s : State) (off hi lo n : Nat) : (s.countMod off hi lo n).linkRetry = s.linkRetry := rfl
@[simp] theorem countMod_wire (s : State) (off hi lo n : Nat) : (s.countMod off hi lo n).wire = s.wire := rfl
@[simp] theorem countMod_portHeld (s : State) (off hi lo n : Nat) : (s.countMod off hi lo n).portHeld = s.portHeld := rfl
@[simp] theorem countMod_l2evs (s : State) (off hi lo n : Nat) : (s.countMod off hi lo n).l2evs = s.l2evs := rfl
@[simp] theorem countMod_frq (s : State) (off hi lo n : Nat) : (s.countMod off hi lo n).frq = s.frq := rfl
@[simp] theorem countMod_gratOff (s : State) (off hi lo n : Nat) : (s.countMod off hi lo n).gratOff = s.gratOff := rfl
@[simp] theorem countMod_gratWait (s : State) (off hi lo n : Nat) : (s.countMod off hi lo n).gratWait = s.gratWait := rfl
@[simp] theorem countMod_gratIn (s : State) (off hi lo n : Nat) : (s.countMod off hi lo n).gratIn = s.gratIn := rfl
@[simp] theorem countMod_swapUsed (s : State) (off hi lo n : Nat) : (s.countMod off hi lo n).swapUsed = s.swapUsed := rfl
@[simp] theorem countMod_swapAct (s : State) (off hi lo n : Nat) : (s.countMod off hi lo n).swapAct = s.swapAct := rfl
@[simp] theorem countMod_swapGone (s : State) (off hi lo n : Nat) : (s.countMod off hi lo n).swapGone = s.swapGone := rfl
@[simp] theorem countMod_swapFaults (s : State) (off hi lo n : Nat) : (s.countMod off hi lo n).swapFaults = s.swapFaults := rfl

@[simp] theorem note_tick (s : State) (d k e x c y : Nat) : (s.note d k e x c y).tick = s.tick := rfl
@[simp] theorem note_focus (s : State) (d k e x c y : Nat) : (s.note d k e x c y).focus = s.focus := rfl
@[simp] theorem note_agenda (s : State) (d k e x c y : Nat) : (s.note d k e x c y).agenda = s.agenda := rfl
@[simp] theorem note_inputs (s : State) (d k e x c y : Nat) : (s.note d k e x c y).inputs = s.inputs := rfl
@[simp] theorem note_timers (s : State) (d k e x c y : Nat) : (s.note d k e x c y).timers = s.timers := rfl
@[simp] theorem note_draws (s : State) (d k e x c y : Nat) : (s.note d k e x c y).draws = s.draws := rfl
@[simp] theorem note_seq (s : State) (d k e x c y : Nat) : (s.note d k e x c y).seq = s.seq := rfl
@[simp] theorem note_cores (s : State) (d k e x c y : Nat) : (s.note d k e x c y).cores = s.cores := rfl
@[simp] theorem note_clusters (s : State) (d k e x c y : Nat) : (s.note d k e x c y).clusters = s.clusters := rfl
@[simp] theorem note_gcode (s : State) (d k e x c y : Nat) : (s.note d k e x c y).gcode = s.gcode := rfl
@[simp] theorem note_mem (s : State) (d k e x c y : Nat) : (s.note d k e x c y).mem = s.mem := rfl
@[simp] theorem note_l2 (s : State) (d k e x c y : Nat) : (s.note d k e x c y).l2 = s.l2 := rfl
@[simp] theorem note_reqs (s : State) (d k e x c y : Nat) : (s.note d k e x c y).reqs = s.reqs := rfl
@[simp] theorem note_msgs (s : State) (d k e x c y : Nat) : (s.note d k e x c y).msgs = s.msgs := rfl
@[simp] theorem note_parked (s : State) (d k e x c y : Nat) : (s.note d k e x c y).parked = s.parked := rfl
@[simp] theorem note_hubTlb (s : State) (d k e x c y : Nat) : (s.note d k e x c y).hubTlb = s.hubTlb := rfl
@[simp] theorem note_walks (s : State) (d k e x c y : Nat) : (s.note d k e x c y).walks = s.walks := rfl
@[simp] theorem note_faults (s : State) (d k e x c y : Nat) : (s.note d k e x c y).faults = s.faults := rfl
@[simp] theorem note_tinv (s : State) (d k e x c y : Nat) : (s.note d k e x c y).tinv = s.tinv := rfl
@[simp] theorem note_tinvRun (s : State) (d k e x c y : Nat) : (s.note d k e x c y).tinvRun = s.tinvRun := rfl
@[simp] theorem note_walkers (s : State) (d k e x c y : Nat) : (s.note d k e x c y).walkers = s.walkers := rfl
@[simp] theorem note_faultIrqs (s : State) (d k e x c y : Nat) : (s.note d k e x c y).faultIrqs = s.faultIrqs := rfl
@[simp] theorem note_poison (s : State) (d k e x c y : Nat) : (s.note d k e x c y).poison = s.poison := rfl
@[simp] theorem note_decode (s : State) (d k e x c y : Nat) : (s.note d k e x c y).decode = s.decode := rfl
@[simp] theorem note_launches (s : State) (d k e x c y : Nat) : (s.note d k e x c y).launches = s.launches := rfl
@[simp] theorem note_finished (s : State) (d k e x c y : Nat) : (s.note d k e x c y).finished = s.finished := rfl
@[simp] theorem note_credits (s : State) (d k e x c y : Nat) : (s.note d k e x c y).credits = s.credits := rfl
@[simp] theorem note_graphs (s : State) (d k e x c y : Nat) : (s.note d k e x c y).graphs = s.graphs := rfl
@[simp] theorem note_recording (s : State) (d k e x c y : Nat) : (s.note d k e x c y).recording = s.recording := rfl
@[simp] theorem note_extra (s : State) (d k e x c y : Nat) : (s.note d k e x c y).extra = s.extra := rfl
@[simp] theorem note_lastOf (s : State) (d k e x c y : Nat) : (s.note d k e x c y).lastOf = s.lastOf := rfl
@[simp] theorem note_deciding (s : State) (d k e x c y : Nat) : (s.note d k e x c y).deciding = s.deciding := rfl
@[simp] theorem note_kills (s : State) (d k e x c y : Nat) : (s.note d k e x c y).kills = s.kills := rfl
@[simp] theorem note_retained (s : State) (d k e x c y : Nat) : (s.note d k e x c y).retained = s.retained := rfl
@[simp] theorem note_jobs (s : State) (d k e x c y : Nat) : (s.note d k e x c y).jobs = s.jobs := rfl
@[simp] theorem note_bps (s : State) (d k e x c y : Nat) : (s.note d k e x c y).bps = s.bps := rfl
@[simp] theorem note_trees (s : State) (d k e x c y : Nat) : (s.note d k e x c y).trees = s.trees := rfl
@[simp] theorem note_plans (s : State) (d k e x c y : Nat) : (s.note d k e x c y).plans = s.plans := rfl
@[simp] theorem note_dispatched (s : State) (d k e x c y : Nat) : (s.note d k e x c y).dispatched = s.dispatched := rfl
@[simp] theorem note_enc (s : State) (d k e x c y : Nat) : (s.note d k e x c y).enc = s.enc := rfl
@[simp] theorem note_slots (s : State) (d k e x c y : Nat) : (s.note d k e x c y).slots = s.slots := rfl
@[simp] theorem note_freeing (s : State) (d k e x c y : Nat) : (s.note d k e x c y).freeing = s.freeing := rfl
@[simp] theorem note_frames (s : State) (d k e x c y : Nat) : (s.note d k e x c y).frames = s.frames := rfl
@[simp] theorem note_survPulses (s : State) (d k e x c y : Nat) : (s.note d k e x c y).survPulses = s.survPulses := rfl
@[simp] theorem note_meas (s : State) (d k e x c y : Nat) : (s.note d k e x c y).meas = s.meas := rfl
@[simp] theorem note_bootFail (s : State) (d k e x c y : Nat) : (s.note d k e x c y).bootFail = s.bootFail := rfl
@[simp] theorem note_fwBusy (s : State) (d k e x c y : Nat) : (s.note d k e x c y).fwBusy = s.fwBusy := rfl
@[simp] theorem note_rungUp (s : State) (d k e x c y : Nat) : (s.note d k e x c y).rungUp = s.rungUp := rfl
@[simp] theorem note_budgetWas (s : State) (d k e x c y : Nat) : (s.note d k e x c y).budgetWas = s.budgetWas := rfl
@[simp] theorem note_sram (s : State) (d k e x c y : Nat) : (s.note d k e x c y).sram = s.sram := rfl
@[simp] theorem note_linkRetry (s : State) (d k e x c y : Nat) : (s.note d k e x c y).linkRetry = s.linkRetry := rfl
@[simp] theorem note_wire (s : State) (d k e x c y : Nat) : (s.note d k e x c y).wire = s.wire := rfl
@[simp] theorem note_portHeld (s : State) (d k e x c y : Nat) : (s.note d k e x c y).portHeld = s.portHeld := rfl
@[simp] theorem note_l2evs (s : State) (d k e x c y : Nat) : (s.note d k e x c y).l2evs = s.l2evs := rfl
@[simp] theorem note_gratOff (s : State) (d k e x c y : Nat) : (s.note d k e x c y).gratOff = s.gratOff := rfl
@[simp] theorem note_gratWait (s : State) (d k e x c y : Nat) : (s.note d k e x c y).gratWait = s.gratWait := rfl
@[simp] theorem note_gratIn (s : State) (d k e x c y : Nat) : (s.note d k e x c y).gratIn = s.gratIn := rfl
@[simp] theorem note_swapUsed (s : State) (d k e x c y : Nat) : (s.note d k e x c y).swapUsed = s.swapUsed := rfl
@[simp] theorem note_swapAct (s : State) (d k e x c y : Nat) : (s.note d k e x c y).swapAct = s.swapAct := rfl
@[simp] theorem note_swapGone (s : State) (d k e x c y : Nat) : (s.note d k e x c y).swapGone = s.swapGone := rfl
@[simp] theorem note_swapFaults (s : State) (d k e x c y : Nat) : (s.note d k e x c y).swapFaults = s.swapFaults := rfl

@[simp] theorem setJob_tick (s : State) (n : Nat) (j : Job) : (s.setJob n j).tick = s.tick := rfl
@[simp] theorem setJob_focus (s : State) (n : Nat) (j : Job) : (s.setJob n j).focus = s.focus := rfl
@[simp] theorem setJob_agenda (s : State) (n : Nat) (j : Job) : (s.setJob n j).agenda = s.agenda := rfl
@[simp] theorem setJob_inputs (s : State) (n : Nat) (j : Job) : (s.setJob n j).inputs = s.inputs := rfl
@[simp] theorem setJob_timers (s : State) (n : Nat) (j : Job) : (s.setJob n j).timers = s.timers := rfl
@[simp] theorem setJob_draws (s : State) (n : Nat) (j : Job) : (s.setJob n j).draws = s.draws := rfl
@[simp] theorem setJob_seq (s : State) (n : Nat) (j : Job) : (s.setJob n j).seq = s.seq := rfl
@[simp] theorem setJob_cores (s : State) (n : Nat) (j : Job) : (s.setJob n j).cores = s.cores := rfl
@[simp] theorem setJob_clusters (s : State) (n : Nat) (j : Job) : (s.setJob n j).clusters = s.clusters := rfl
@[simp] theorem setJob_gcode (s : State) (n : Nat) (j : Job) : (s.setJob n j).gcode = s.gcode := rfl
@[simp] theorem setJob_mem (s : State) (n : Nat) (j : Job) : (s.setJob n j).mem = s.mem := rfl
@[simp] theorem setJob_l2 (s : State) (n : Nat) (j : Job) : (s.setJob n j).l2 = s.l2 := rfl
@[simp] theorem setJob_reqs (s : State) (n : Nat) (j : Job) : (s.setJob n j).reqs = s.reqs := rfl
@[simp] theorem setJob_msgs (s : State) (n : Nat) (j : Job) : (s.setJob n j).msgs = s.msgs := rfl
@[simp] theorem setJob_parked (s : State) (n : Nat) (j : Job) : (s.setJob n j).parked = s.parked := rfl
@[simp] theorem setJob_hubTlb (s : State) (n : Nat) (j : Job) : (s.setJob n j).hubTlb = s.hubTlb := rfl
@[simp] theorem setJob_walks (s : State) (n : Nat) (j : Job) : (s.setJob n j).walks = s.walks := rfl
@[simp] theorem setJob_regs (s : State) (n : Nat) (j : Job) : (s.setJob n j).regs = s.regs := rfl
@[simp] theorem setJob_faults (s : State) (n : Nat) (j : Job) : (s.setJob n j).faults = s.faults := rfl
@[simp] theorem setJob_tinv (s : State) (n : Nat) (j : Job) : (s.setJob n j).tinv = s.tinv := rfl
@[simp] theorem setJob_tinvRun (s : State) (n : Nat) (j : Job) : (s.setJob n j).tinvRun = s.tinvRun := rfl
@[simp] theorem setJob_walkers (s : State) (n : Nat) (j : Job) : (s.setJob n j).walkers = s.walkers := rfl
@[simp] theorem setJob_faultIrqs (s : State) (n : Nat) (j : Job) : (s.setJob n j).faultIrqs = s.faultIrqs := rfl
@[simp] theorem setJob_poison (s : State) (n : Nat) (j : Job) : (s.setJob n j).poison = s.poison := rfl
@[simp] theorem setJob_decode (s : State) (n : Nat) (j : Job) : (s.setJob n j).decode = s.decode := rfl
@[simp] theorem setJob_launches (s : State) (n : Nat) (j : Job) : (s.setJob n j).launches = s.launches := rfl
@[simp] theorem setJob_finished (s : State) (n : Nat) (j : Job) : (s.setJob n j).finished = s.finished := rfl
@[simp] theorem setJob_credits (s : State) (n : Nat) (j : Job) : (s.setJob n j).credits = s.credits := rfl
@[simp] theorem setJob_graphs (s : State) (n : Nat) (j : Job) : (s.setJob n j).graphs = s.graphs := rfl
@[simp] theorem setJob_recording (s : State) (n : Nat) (j : Job) : (s.setJob n j).recording = s.recording := rfl
@[simp] theorem setJob_extra (s : State) (n : Nat) (j : Job) : (s.setJob n j).extra = s.extra := rfl
@[simp] theorem setJob_lastOf (s : State) (n : Nat) (j : Job) : (s.setJob n j).lastOf = s.lastOf := rfl
@[simp] theorem setJob_deciding (s : State) (n : Nat) (j : Job) : (s.setJob n j).deciding = s.deciding := rfl
@[simp] theorem setJob_kills (s : State) (n : Nat) (j : Job) : (s.setJob n j).kills = s.kills := rfl
@[simp] theorem setJob_retained (s : State) (n : Nat) (j : Job) : (s.setJob n j).retained = s.retained := rfl
@[simp] theorem setJob_bps (s : State) (n : Nat) (j : Job) : (s.setJob n j).bps = s.bps := rfl
@[simp] theorem setJob_trees (s : State) (n : Nat) (j : Job) : (s.setJob n j).trees = s.trees := rfl
@[simp] theorem setJob_plans (s : State) (n : Nat) (j : Job) : (s.setJob n j).plans = s.plans := rfl
@[simp] theorem setJob_dispatched (s : State) (n : Nat) (j : Job) : (s.setJob n j).dispatched = s.dispatched := rfl
@[simp] theorem setJob_enc (s : State) (n : Nat) (j : Job) : (s.setJob n j).enc = s.enc := rfl
@[simp] theorem setJob_slots (s : State) (n : Nat) (j : Job) : (s.setJob n j).slots = s.slots := rfl
@[simp] theorem setJob_freeing (s : State) (n : Nat) (j : Job) : (s.setJob n j).freeing = s.freeing := rfl
@[simp] theorem setJob_frames (s : State) (n : Nat) (j : Job) : (s.setJob n j).frames = s.frames := rfl
@[simp] theorem setJob_frec (s : State) (n : Nat) (j : Job) : (s.setJob n j).frec = s.frec := rfl
@[simp] theorem setJob_survPulses (s : State) (n : Nat) (j : Job) : (s.setJob n j).survPulses = s.survPulses := rfl
@[simp] theorem setJob_meas (s : State) (n : Nat) (j : Job) : (s.setJob n j).meas = s.meas := rfl
@[simp] theorem setJob_bootFail (s : State) (n : Nat) (j : Job) : (s.setJob n j).bootFail = s.bootFail := rfl
@[simp] theorem setJob_fwBusy (s : State) (n : Nat) (j : Job) : (s.setJob n j).fwBusy = s.fwBusy := rfl
@[simp] theorem setJob_rungUp (s : State) (n : Nat) (j : Job) : (s.setJob n j).rungUp = s.rungUp := rfl
@[simp] theorem setJob_budgetWas (s : State) (n : Nat) (j : Job) : (s.setJob n j).budgetWas = s.budgetWas := rfl
@[simp] theorem setJob_sram (s : State) (n : Nat) (j : Job) : (s.setJob n j).sram = s.sram := rfl
@[simp] theorem setJob_linkRetry (s : State) (n : Nat) (j : Job) : (s.setJob n j).linkRetry = s.linkRetry := rfl
@[simp] theorem setJob_wire (s : State) (n : Nat) (j : Job) : (s.setJob n j).wire = s.wire := rfl
@[simp] theorem setJob_portHeld (s : State) (n : Nat) (j : Job) : (s.setJob n j).portHeld = s.portHeld := rfl
@[simp] theorem setJob_l2evs (s : State) (n : Nat) (j : Job) : (s.setJob n j).l2evs = s.l2evs := rfl
@[simp] theorem setJob_frq (s : State) (n : Nat) (j : Job) : (s.setJob n j).frq = s.frq := rfl
@[simp] theorem setJob_gratOff (s : State) (n : Nat) (j : Job) : (s.setJob n j).gratOff = s.gratOff := rfl
@[simp] theorem setJob_gratWait (s : State) (n : Nat) (j : Job) : (s.setJob n j).gratWait = s.gratWait := rfl
@[simp] theorem setJob_gratIn (s : State) (n : Nat) (j : Job) : (s.setJob n j).gratIn = s.gratIn := rfl
@[simp] theorem setJob_swapUsed (s : State) (n : Nat) (j : Job) : (s.setJob n j).swapUsed = s.swapUsed := rfl
@[simp] theorem setJob_swapAct (s : State) (n : Nat) (j : Job) : (s.setJob n j).swapAct = s.swapAct := rfl
@[simp] theorem setJob_swapGone (s : State) (n : Nat) (j : Job) : (s.setJob n j).swapGone = s.swapGone := rfl
@[simp] theorem setJob_swapFaults (s : State) (n : Nat) (j : Job) : (s.setJob n j).swapFaults = s.swapFaults := rfl

@[simp] theorem mapCores_tick (s : State) (f : Nat → Core → Core) : (s.mapCores f).tick = s.tick := rfl
@[simp] theorem mapCores_focus (s : State) (f : Nat → Core → Core) : (s.mapCores f).focus = s.focus := rfl
@[simp] theorem mapCores_agenda (s : State) (f : Nat → Core → Core) : (s.mapCores f).agenda = s.agenda := rfl
@[simp] theorem mapCores_inputs (s : State) (f : Nat → Core → Core) : (s.mapCores f).inputs = s.inputs := rfl
@[simp] theorem mapCores_timers (s : State) (f : Nat → Core → Core) : (s.mapCores f).timers = s.timers := rfl
@[simp] theorem mapCores_draws (s : State) (f : Nat → Core → Core) : (s.mapCores f).draws = s.draws := rfl
@[simp] theorem mapCores_seq (s : State) (f : Nat → Core → Core) : (s.mapCores f).seq = s.seq := rfl
@[simp] theorem mapCores_clusters (s : State) (f : Nat → Core → Core) : (s.mapCores f).clusters = s.clusters := rfl
@[simp] theorem mapCores_gcode (s : State) (f : Nat → Core → Core) : (s.mapCores f).gcode = s.gcode := rfl
@[simp] theorem mapCores_mem (s : State) (f : Nat → Core → Core) : (s.mapCores f).mem = s.mem := rfl
@[simp] theorem mapCores_l2 (s : State) (f : Nat → Core → Core) : (s.mapCores f).l2 = s.l2 := rfl
@[simp] theorem mapCores_reqs (s : State) (f : Nat → Core → Core) : (s.mapCores f).reqs = s.reqs := rfl
@[simp] theorem mapCores_msgs (s : State) (f : Nat → Core → Core) : (s.mapCores f).msgs = s.msgs := rfl
@[simp] theorem mapCores_parked (s : State) (f : Nat → Core → Core) : (s.mapCores f).parked = s.parked := rfl
@[simp] theorem mapCores_hubTlb (s : State) (f : Nat → Core → Core) : (s.mapCores f).hubTlb = s.hubTlb := rfl
@[simp] theorem mapCores_walks (s : State) (f : Nat → Core → Core) : (s.mapCores f).walks = s.walks := rfl
@[simp] theorem mapCores_regs (s : State) (f : Nat → Core → Core) : (s.mapCores f).regs = s.regs := rfl
@[simp] theorem mapCores_faults (s : State) (f : Nat → Core → Core) : (s.mapCores f).faults = s.faults := rfl
@[simp] theorem mapCores_tinv (s : State) (f : Nat → Core → Core) : (s.mapCores f).tinv = s.tinv := rfl
@[simp] theorem mapCores_tinvRun (s : State) (f : Nat → Core → Core) : (s.mapCores f).tinvRun = s.tinvRun := rfl
@[simp] theorem mapCores_walkers (s : State) (f : Nat → Core → Core) : (s.mapCores f).walkers = s.walkers := rfl
@[simp] theorem mapCores_faultIrqs (s : State) (f : Nat → Core → Core) : (s.mapCores f).faultIrqs = s.faultIrqs := rfl
@[simp] theorem mapCores_poison (s : State) (f : Nat → Core → Core) : (s.mapCores f).poison = s.poison := rfl
@[simp] theorem mapCores_decode (s : State) (f : Nat → Core → Core) : (s.mapCores f).decode = s.decode := rfl
@[simp] theorem mapCores_launches (s : State) (f : Nat → Core → Core) : (s.mapCores f).launches = s.launches := rfl
@[simp] theorem mapCores_finished (s : State) (f : Nat → Core → Core) : (s.mapCores f).finished = s.finished := rfl
@[simp] theorem mapCores_credits (s : State) (f : Nat → Core → Core) : (s.mapCores f).credits = s.credits := rfl
@[simp] theorem mapCores_graphs (s : State) (f : Nat → Core → Core) : (s.mapCores f).graphs = s.graphs := rfl
@[simp] theorem mapCores_recording (s : State) (f : Nat → Core → Core) : (s.mapCores f).recording = s.recording := rfl
@[simp] theorem mapCores_extra (s : State) (f : Nat → Core → Core) : (s.mapCores f).extra = s.extra := rfl
@[simp] theorem mapCores_lastOf (s : State) (f : Nat → Core → Core) : (s.mapCores f).lastOf = s.lastOf := rfl
@[simp] theorem mapCores_deciding (s : State) (f : Nat → Core → Core) : (s.mapCores f).deciding = s.deciding := rfl
@[simp] theorem mapCores_kills (s : State) (f : Nat → Core → Core) : (s.mapCores f).kills = s.kills := rfl
@[simp] theorem mapCores_retained (s : State) (f : Nat → Core → Core) : (s.mapCores f).retained = s.retained := rfl
@[simp] theorem mapCores_jobs (s : State) (f : Nat → Core → Core) : (s.mapCores f).jobs = s.jobs := rfl
@[simp] theorem mapCores_bps (s : State) (f : Nat → Core → Core) : (s.mapCores f).bps = s.bps := rfl
@[simp] theorem mapCores_trees (s : State) (f : Nat → Core → Core) : (s.mapCores f).trees = s.trees := rfl
@[simp] theorem mapCores_plans (s : State) (f : Nat → Core → Core) : (s.mapCores f).plans = s.plans := rfl
@[simp] theorem mapCores_dispatched (s : State) (f : Nat → Core → Core) : (s.mapCores f).dispatched = s.dispatched := rfl
@[simp] theorem mapCores_enc (s : State) (f : Nat → Core → Core) : (s.mapCores f).enc = s.enc := rfl
@[simp] theorem mapCores_slots (s : State) (f : Nat → Core → Core) : (s.mapCores f).slots = s.slots := rfl
@[simp] theorem mapCores_freeing (s : State) (f : Nat → Core → Core) : (s.mapCores f).freeing = s.freeing := rfl
@[simp] theorem mapCores_frames (s : State) (f : Nat → Core → Core) : (s.mapCores f).frames = s.frames := rfl
@[simp] theorem mapCores_frec (s : State) (f : Nat → Core → Core) : (s.mapCores f).frec = s.frec := rfl
@[simp] theorem mapCores_survPulses (s : State) (f : Nat → Core → Core) : (s.mapCores f).survPulses = s.survPulses := rfl
@[simp] theorem mapCores_meas (s : State) (f : Nat → Core → Core) : (s.mapCores f).meas = s.meas := rfl
@[simp] theorem mapCores_bootFail (s : State) (f : Nat → Core → Core) : (s.mapCores f).bootFail = s.bootFail := rfl
@[simp] theorem mapCores_fwBusy (s : State) (f : Nat → Core → Core) : (s.mapCores f).fwBusy = s.fwBusy := rfl
@[simp] theorem mapCores_rungUp (s : State) (f : Nat → Core → Core) : (s.mapCores f).rungUp = s.rungUp := rfl
@[simp] theorem mapCores_budgetWas (s : State) (f : Nat → Core → Core) : (s.mapCores f).budgetWas = s.budgetWas := rfl
@[simp] theorem mapCores_sram (s : State) (f : Nat → Core → Core) : (s.mapCores f).sram = s.sram := rfl
@[simp] theorem mapCores_linkRetry (s : State) (f : Nat → Core → Core) : (s.mapCores f).linkRetry = s.linkRetry := rfl
@[simp] theorem mapCores_wire (s : State) (f : Nat → Core → Core) : (s.mapCores f).wire = s.wire := rfl
@[simp] theorem mapCores_portHeld (s : State) (f : Nat → Core → Core) : (s.mapCores f).portHeld = s.portHeld := rfl
@[simp] theorem mapCores_l2evs (s : State) (f : Nat → Core → Core) : (s.mapCores f).l2evs = s.l2evs := rfl
@[simp] theorem mapCores_frq (s : State) (f : Nat → Core → Core) : (s.mapCores f).frq = s.frq := rfl
@[simp] theorem mapCores_gratOff (s : State) (f : Nat → Core → Core) : (s.mapCores f).gratOff = s.gratOff := rfl
@[simp] theorem mapCores_gratWait (s : State) (f : Nat → Core → Core) : (s.mapCores f).gratWait = s.gratWait := rfl
@[simp] theorem mapCores_gratIn (s : State) (f : Nat → Core → Core) : (s.mapCores f).gratIn = s.gratIn := rfl
@[simp] theorem mapCores_swapUsed (s : State) (f : Nat → Core → Core) : (s.mapCores f).swapUsed = s.swapUsed := rfl
@[simp] theorem mapCores_swapAct (s : State) (f : Nat → Core → Core) : (s.mapCores f).swapAct = s.swapAct := rfl
@[simp] theorem mapCores_swapGone (s : State) (f : Nat → Core → Core) : (s.mapCores f).swapGone = s.swapGone := rfl
@[simp] theorem mapCores_swapFaults (s : State) (f : Nat → Core → Core) : (s.mapCores f).swapFaults = s.swapFaults := rfl

@[simp] theorem putReq_tick (s : State) (n : Nat) (f : Req → Req) : (s.putReq n f).tick = s.tick := rfl
@[simp] theorem putReq_focus (s : State) (n : Nat) (f : Req → Req) : (s.putReq n f).focus = s.focus := rfl
@[simp] theorem putReq_agenda (s : State) (n : Nat) (f : Req → Req) : (s.putReq n f).agenda = s.agenda := rfl
@[simp] theorem putReq_inputs (s : State) (n : Nat) (f : Req → Req) : (s.putReq n f).inputs = s.inputs := rfl
@[simp] theorem putReq_timers (s : State) (n : Nat) (f : Req → Req) : (s.putReq n f).timers = s.timers := rfl
@[simp] theorem putReq_draws (s : State) (n : Nat) (f : Req → Req) : (s.putReq n f).draws = s.draws := rfl
@[simp] theorem putReq_seq (s : State) (n : Nat) (f : Req → Req) : (s.putReq n f).seq = s.seq := rfl
@[simp] theorem putReq_cores (s : State) (n : Nat) (f : Req → Req) : (s.putReq n f).cores = s.cores := rfl
@[simp] theorem putReq_clusters (s : State) (n : Nat) (f : Req → Req) : (s.putReq n f).clusters = s.clusters := rfl
@[simp] theorem putReq_gcode (s : State) (n : Nat) (f : Req → Req) : (s.putReq n f).gcode = s.gcode := rfl
@[simp] theorem putReq_mem (s : State) (n : Nat) (f : Req → Req) : (s.putReq n f).mem = s.mem := rfl
@[simp] theorem putReq_l2 (s : State) (n : Nat) (f : Req → Req) : (s.putReq n f).l2 = s.l2 := rfl
@[simp] theorem putReq_msgs (s : State) (n : Nat) (f : Req → Req) : (s.putReq n f).msgs = s.msgs := rfl
@[simp] theorem putReq_parked (s : State) (n : Nat) (f : Req → Req) : (s.putReq n f).parked = s.parked := rfl
@[simp] theorem putReq_hubTlb (s : State) (n : Nat) (f : Req → Req) : (s.putReq n f).hubTlb = s.hubTlb := rfl
@[simp] theorem putReq_walks (s : State) (n : Nat) (f : Req → Req) : (s.putReq n f).walks = s.walks := rfl
@[simp] theorem putReq_regs (s : State) (n : Nat) (f : Req → Req) : (s.putReq n f).regs = s.regs := rfl
@[simp] theorem putReq_faults (s : State) (n : Nat) (f : Req → Req) : (s.putReq n f).faults = s.faults := rfl
@[simp] theorem putReq_tinv (s : State) (n : Nat) (f : Req → Req) : (s.putReq n f).tinv = s.tinv := rfl
@[simp] theorem putReq_tinvRun (s : State) (n : Nat) (f : Req → Req) : (s.putReq n f).tinvRun = s.tinvRun := rfl
@[simp] theorem putReq_walkers (s : State) (n : Nat) (f : Req → Req) : (s.putReq n f).walkers = s.walkers := rfl
@[simp] theorem putReq_faultIrqs (s : State) (n : Nat) (f : Req → Req) : (s.putReq n f).faultIrqs = s.faultIrqs := rfl
@[simp] theorem putReq_poison (s : State) (n : Nat) (f : Req → Req) : (s.putReq n f).poison = s.poison := rfl
@[simp] theorem putReq_decode (s : State) (n : Nat) (f : Req → Req) : (s.putReq n f).decode = s.decode := rfl
@[simp] theorem putReq_launches (s : State) (n : Nat) (f : Req → Req) : (s.putReq n f).launches = s.launches := rfl
@[simp] theorem putReq_finished (s : State) (n : Nat) (f : Req → Req) : (s.putReq n f).finished = s.finished := rfl
@[simp] theorem putReq_credits (s : State) (n : Nat) (f : Req → Req) : (s.putReq n f).credits = s.credits := rfl
@[simp] theorem putReq_graphs (s : State) (n : Nat) (f : Req → Req) : (s.putReq n f).graphs = s.graphs := rfl
@[simp] theorem putReq_recording (s : State) (n : Nat) (f : Req → Req) : (s.putReq n f).recording = s.recording := rfl
@[simp] theorem putReq_extra (s : State) (n : Nat) (f : Req → Req) : (s.putReq n f).extra = s.extra := rfl
@[simp] theorem putReq_lastOf (s : State) (n : Nat) (f : Req → Req) : (s.putReq n f).lastOf = s.lastOf := rfl
@[simp] theorem putReq_deciding (s : State) (n : Nat) (f : Req → Req) : (s.putReq n f).deciding = s.deciding := rfl
@[simp] theorem putReq_kills (s : State) (n : Nat) (f : Req → Req) : (s.putReq n f).kills = s.kills := rfl
@[simp] theorem putReq_retained (s : State) (n : Nat) (f : Req → Req) : (s.putReq n f).retained = s.retained := rfl
@[simp] theorem putReq_jobs (s : State) (n : Nat) (f : Req → Req) : (s.putReq n f).jobs = s.jobs := rfl
@[simp] theorem putReq_bps (s : State) (n : Nat) (f : Req → Req) : (s.putReq n f).bps = s.bps := rfl
@[simp] theorem putReq_trees (s : State) (n : Nat) (f : Req → Req) : (s.putReq n f).trees = s.trees := rfl
@[simp] theorem putReq_plans (s : State) (n : Nat) (f : Req → Req) : (s.putReq n f).plans = s.plans := rfl
@[simp] theorem putReq_dispatched (s : State) (n : Nat) (f : Req → Req) : (s.putReq n f).dispatched = s.dispatched := rfl
@[simp] theorem putReq_enc (s : State) (n : Nat) (f : Req → Req) : (s.putReq n f).enc = s.enc := rfl
@[simp] theorem putReq_slots (s : State) (n : Nat) (f : Req → Req) : (s.putReq n f).slots = s.slots := rfl
@[simp] theorem putReq_freeing (s : State) (n : Nat) (f : Req → Req) : (s.putReq n f).freeing = s.freeing := rfl
@[simp] theorem putReq_frames (s : State) (n : Nat) (f : Req → Req) : (s.putReq n f).frames = s.frames := rfl
@[simp] theorem putReq_frec (s : State) (n : Nat) (f : Req → Req) : (s.putReq n f).frec = s.frec := rfl
@[simp] theorem putReq_survPulses (s : State) (n : Nat) (f : Req → Req) : (s.putReq n f).survPulses = s.survPulses := rfl
@[simp] theorem putReq_meas (s : State) (n : Nat) (f : Req → Req) : (s.putReq n f).meas = s.meas := rfl
@[simp] theorem putReq_bootFail (s : State) (n : Nat) (f : Req → Req) : (s.putReq n f).bootFail = s.bootFail := rfl
@[simp] theorem putReq_fwBusy (s : State) (n : Nat) (f : Req → Req) : (s.putReq n f).fwBusy = s.fwBusy := rfl
@[simp] theorem putReq_rungUp (s : State) (n : Nat) (f : Req → Req) : (s.putReq n f).rungUp = s.rungUp := rfl
@[simp] theorem putReq_budgetWas (s : State) (n : Nat) (f : Req → Req) : (s.putReq n f).budgetWas = s.budgetWas := rfl
@[simp] theorem putReq_sram (s : State) (n : Nat) (f : Req → Req) : (s.putReq n f).sram = s.sram := rfl
@[simp] theorem putReq_linkRetry (s : State) (n : Nat) (f : Req → Req) : (s.putReq n f).linkRetry = s.linkRetry := rfl
@[simp] theorem putReq_wire (s : State) (n : Nat) (f : Req → Req) : (s.putReq n f).wire = s.wire := rfl
@[simp] theorem putReq_portHeld (s : State) (n : Nat) (f : Req → Req) : (s.putReq n f).portHeld = s.portHeld := rfl
@[simp] theorem putReq_l2evs (s : State) (n : Nat) (f : Req → Req) : (s.putReq n f).l2evs = s.l2evs := rfl
@[simp] theorem putReq_frq (s : State) (n : Nat) (f : Req → Req) : (s.putReq n f).frq = s.frq := rfl
@[simp] theorem putReq_gratOff (s : State) (n : Nat) (f : Req → Req) : (s.putReq n f).gratOff = s.gratOff := rfl
@[simp] theorem putReq_gratWait (s : State) (n : Nat) (f : Req → Req) : (s.putReq n f).gratWait = s.gratWait := rfl
@[simp] theorem putReq_gratIn (s : State) (n : Nat) (f : Req → Req) : (s.putReq n f).gratIn = s.gratIn := rfl
@[simp] theorem putReq_swapUsed (s : State) (n : Nat) (f : Req → Req) : (s.putReq n f).swapUsed = s.swapUsed := rfl
@[simp] theorem putReq_swapAct (s : State) (n : Nat) (f : Req → Req) : (s.putReq n f).swapAct = s.swapAct := rfl
@[simp] theorem putReq_swapGone (s : State) (n : Nat) (f : Req → Req) : (s.putReq n f).swapGone = s.swapGone := rfl
@[simp] theorem putReq_swapFaults (s : State) (n : Nat) (f : Req → Req) : (s.putReq n f).swapFaults = s.swapFaults := rfl

@[simp] theorem modLaunch_tick (s : State) (n : Nat) (f : Launch → Launch) : (s.modLaunch n f).tick = s.tick := rfl
@[simp] theorem modLaunch_focus (s : State) (n : Nat) (f : Launch → Launch) : (s.modLaunch n f).focus = s.focus := rfl
@[simp] theorem modLaunch_agenda (s : State) (n : Nat) (f : Launch → Launch) : (s.modLaunch n f).agenda = s.agenda := rfl
@[simp] theorem modLaunch_inputs (s : State) (n : Nat) (f : Launch → Launch) : (s.modLaunch n f).inputs = s.inputs := rfl
@[simp] theorem modLaunch_timers (s : State) (n : Nat) (f : Launch → Launch) : (s.modLaunch n f).timers = s.timers := rfl
@[simp] theorem modLaunch_draws (s : State) (n : Nat) (f : Launch → Launch) : (s.modLaunch n f).draws = s.draws := rfl
@[simp] theorem modLaunch_seq (s : State) (n : Nat) (f : Launch → Launch) : (s.modLaunch n f).seq = s.seq := rfl
@[simp] theorem modLaunch_cores (s : State) (n : Nat) (f : Launch → Launch) : (s.modLaunch n f).cores = s.cores := rfl
@[simp] theorem modLaunch_clusters (s : State) (n : Nat) (f : Launch → Launch) : (s.modLaunch n f).clusters = s.clusters := rfl
@[simp] theorem modLaunch_gcode (s : State) (n : Nat) (f : Launch → Launch) : (s.modLaunch n f).gcode = s.gcode := rfl
@[simp] theorem modLaunch_mem (s : State) (n : Nat) (f : Launch → Launch) : (s.modLaunch n f).mem = s.mem := rfl
@[simp] theorem modLaunch_l2 (s : State) (n : Nat) (f : Launch → Launch) : (s.modLaunch n f).l2 = s.l2 := rfl
@[simp] theorem modLaunch_reqs (s : State) (n : Nat) (f : Launch → Launch) : (s.modLaunch n f).reqs = s.reqs := rfl
@[simp] theorem modLaunch_msgs (s : State) (n : Nat) (f : Launch → Launch) : (s.modLaunch n f).msgs = s.msgs := rfl
@[simp] theorem modLaunch_parked (s : State) (n : Nat) (f : Launch → Launch) : (s.modLaunch n f).parked = s.parked := rfl
@[simp] theorem modLaunch_hubTlb (s : State) (n : Nat) (f : Launch → Launch) : (s.modLaunch n f).hubTlb = s.hubTlb := rfl
@[simp] theorem modLaunch_walks (s : State) (n : Nat) (f : Launch → Launch) : (s.modLaunch n f).walks = s.walks := rfl
@[simp] theorem modLaunch_regs (s : State) (n : Nat) (f : Launch → Launch) : (s.modLaunch n f).regs = s.regs := rfl
@[simp] theorem modLaunch_faults (s : State) (n : Nat) (f : Launch → Launch) : (s.modLaunch n f).faults = s.faults := rfl
@[simp] theorem modLaunch_tinv (s : State) (n : Nat) (f : Launch → Launch) : (s.modLaunch n f).tinv = s.tinv := rfl
@[simp] theorem modLaunch_tinvRun (s : State) (n : Nat) (f : Launch → Launch) : (s.modLaunch n f).tinvRun = s.tinvRun := rfl
@[simp] theorem modLaunch_walkers (s : State) (n : Nat) (f : Launch → Launch) : (s.modLaunch n f).walkers = s.walkers := rfl
@[simp] theorem modLaunch_faultIrqs (s : State) (n : Nat) (f : Launch → Launch) : (s.modLaunch n f).faultIrqs = s.faultIrqs := rfl
@[simp] theorem modLaunch_poison (s : State) (n : Nat) (f : Launch → Launch) : (s.modLaunch n f).poison = s.poison := rfl
@[simp] theorem modLaunch_decode (s : State) (n : Nat) (f : Launch → Launch) : (s.modLaunch n f).decode = s.decode := rfl
@[simp] theorem modLaunch_finished (s : State) (n : Nat) (f : Launch → Launch) : (s.modLaunch n f).finished = s.finished := rfl
@[simp] theorem modLaunch_credits (s : State) (n : Nat) (f : Launch → Launch) : (s.modLaunch n f).credits = s.credits := rfl
@[simp] theorem modLaunch_graphs (s : State) (n : Nat) (f : Launch → Launch) : (s.modLaunch n f).graphs = s.graphs := rfl
@[simp] theorem modLaunch_recording (s : State) (n : Nat) (f : Launch → Launch) : (s.modLaunch n f).recording = s.recording := rfl
@[simp] theorem modLaunch_extra (s : State) (n : Nat) (f : Launch → Launch) : (s.modLaunch n f).extra = s.extra := rfl
@[simp] theorem modLaunch_lastOf (s : State) (n : Nat) (f : Launch → Launch) : (s.modLaunch n f).lastOf = s.lastOf := rfl
@[simp] theorem modLaunch_deciding (s : State) (n : Nat) (f : Launch → Launch) : (s.modLaunch n f).deciding = s.deciding := rfl
@[simp] theorem modLaunch_kills (s : State) (n : Nat) (f : Launch → Launch) : (s.modLaunch n f).kills = s.kills := rfl
@[simp] theorem modLaunch_retained (s : State) (n : Nat) (f : Launch → Launch) : (s.modLaunch n f).retained = s.retained := rfl
@[simp] theorem modLaunch_jobs (s : State) (n : Nat) (f : Launch → Launch) : (s.modLaunch n f).jobs = s.jobs := rfl
@[simp] theorem modLaunch_bps (s : State) (n : Nat) (f : Launch → Launch) : (s.modLaunch n f).bps = s.bps := rfl
@[simp] theorem modLaunch_trees (s : State) (n : Nat) (f : Launch → Launch) : (s.modLaunch n f).trees = s.trees := rfl
@[simp] theorem modLaunch_plans (s : State) (n : Nat) (f : Launch → Launch) : (s.modLaunch n f).plans = s.plans := rfl
@[simp] theorem modLaunch_dispatched (s : State) (n : Nat) (f : Launch → Launch) : (s.modLaunch n f).dispatched = s.dispatched := rfl
@[simp] theorem modLaunch_enc (s : State) (n : Nat) (f : Launch → Launch) : (s.modLaunch n f).enc = s.enc := rfl
@[simp] theorem modLaunch_slots (s : State) (n : Nat) (f : Launch → Launch) : (s.modLaunch n f).slots = s.slots := rfl
@[simp] theorem modLaunch_freeing (s : State) (n : Nat) (f : Launch → Launch) : (s.modLaunch n f).freeing = s.freeing := rfl
@[simp] theorem modLaunch_frames (s : State) (n : Nat) (f : Launch → Launch) : (s.modLaunch n f).frames = s.frames := rfl
@[simp] theorem modLaunch_frec (s : State) (n : Nat) (f : Launch → Launch) : (s.modLaunch n f).frec = s.frec := rfl
@[simp] theorem modLaunch_survPulses (s : State) (n : Nat) (f : Launch → Launch) : (s.modLaunch n f).survPulses = s.survPulses := rfl
@[simp] theorem modLaunch_meas (s : State) (n : Nat) (f : Launch → Launch) : (s.modLaunch n f).meas = s.meas := rfl
@[simp] theorem modLaunch_bootFail (s : State) (n : Nat) (f : Launch → Launch) : (s.modLaunch n f).bootFail = s.bootFail := rfl
@[simp] theorem modLaunch_fwBusy (s : State) (n : Nat) (f : Launch → Launch) : (s.modLaunch n f).fwBusy = s.fwBusy := rfl
@[simp] theorem modLaunch_rungUp (s : State) (n : Nat) (f : Launch → Launch) : (s.modLaunch n f).rungUp = s.rungUp := rfl
@[simp] theorem modLaunch_budgetWas (s : State) (n : Nat) (f : Launch → Launch) : (s.modLaunch n f).budgetWas = s.budgetWas := rfl
@[simp] theorem modLaunch_sram (s : State) (n : Nat) (f : Launch → Launch) : (s.modLaunch n f).sram = s.sram := rfl
@[simp] theorem modLaunch_linkRetry (s : State) (n : Nat) (f : Launch → Launch) : (s.modLaunch n f).linkRetry = s.linkRetry := rfl
@[simp] theorem modLaunch_wire (s : State) (n : Nat) (f : Launch → Launch) : (s.modLaunch n f).wire = s.wire := rfl
@[simp] theorem modLaunch_portHeld (s : State) (n : Nat) (f : Launch → Launch) : (s.modLaunch n f).portHeld = s.portHeld := rfl
@[simp] theorem modLaunch_l2evs (s : State) (n : Nat) (f : Launch → Launch) : (s.modLaunch n f).l2evs = s.l2evs := rfl
@[simp] theorem modLaunch_frq (s : State) (n : Nat) (f : Launch → Launch) : (s.modLaunch n f).frq = s.frq := rfl
@[simp] theorem modLaunch_gratOff (s : State) (n : Nat) (f : Launch → Launch) : (s.modLaunch n f).gratOff = s.gratOff := rfl
@[simp] theorem modLaunch_gratWait (s : State) (n : Nat) (f : Launch → Launch) : (s.modLaunch n f).gratWait = s.gratWait := rfl
@[simp] theorem modLaunch_gratIn (s : State) (n : Nat) (f : Launch → Launch) : (s.modLaunch n f).gratIn = s.gratIn := rfl
@[simp] theorem modLaunch_swapUsed (s : State) (n : Nat) (f : Launch → Launch) : (s.modLaunch n f).swapUsed = s.swapUsed := rfl
@[simp] theorem modLaunch_swapAct (s : State) (n : Nat) (f : Launch → Launch) : (s.modLaunch n f).swapAct = s.swapAct := rfl
@[simp] theorem modLaunch_swapGone (s : State) (n : Nat) (f : Launch → Launch) : (s.modLaunch n f).swapGone = s.swapGone := rfl
@[simp] theorem modLaunch_swapFaults (s : State) (n : Nat) (f : Launch → Launch) : (s.modLaunch n f).swapFaults = s.swapFaults := rfl

@[simp] theorem dropReq_tick (s : State) (n : Nat) : (s.dropReq n).tick = s.tick := rfl
@[simp] theorem dropReq_focus (s : State) (n : Nat) : (s.dropReq n).focus = s.focus := rfl
@[simp] theorem dropReq_agenda (s : State) (n : Nat) : (s.dropReq n).agenda = s.agenda := rfl
@[simp] theorem dropReq_inputs (s : State) (n : Nat) : (s.dropReq n).inputs = s.inputs := rfl
@[simp] theorem dropReq_timers (s : State) (n : Nat) : (s.dropReq n).timers = s.timers := rfl
@[simp] theorem dropReq_draws (s : State) (n : Nat) : (s.dropReq n).draws = s.draws := rfl
@[simp] theorem dropReq_seq (s : State) (n : Nat) : (s.dropReq n).seq = s.seq := rfl
@[simp] theorem dropReq_cores (s : State) (n : Nat) : (s.dropReq n).cores = s.cores := rfl
@[simp] theorem dropReq_clusters (s : State) (n : Nat) : (s.dropReq n).clusters = s.clusters := rfl
@[simp] theorem dropReq_gcode (s : State) (n : Nat) : (s.dropReq n).gcode = s.gcode := rfl
@[simp] theorem dropReq_mem (s : State) (n : Nat) : (s.dropReq n).mem = s.mem := rfl
@[simp] theorem dropReq_l2 (s : State) (n : Nat) : (s.dropReq n).l2 = s.l2 := rfl
@[simp] theorem dropReq_msgs (s : State) (n : Nat) : (s.dropReq n).msgs = s.msgs := rfl
@[simp] theorem dropReq_parked (s : State) (n : Nat) : (s.dropReq n).parked = s.parked := rfl
@[simp] theorem dropReq_hubTlb (s : State) (n : Nat) : (s.dropReq n).hubTlb = s.hubTlb := rfl
@[simp] theorem dropReq_walks (s : State) (n : Nat) : (s.dropReq n).walks = s.walks := rfl
@[simp] theorem dropReq_regs (s : State) (n : Nat) : (s.dropReq n).regs = s.regs := rfl
@[simp] theorem dropReq_faults (s : State) (n : Nat) : (s.dropReq n).faults = s.faults := rfl
@[simp] theorem dropReq_tinv (s : State) (n : Nat) : (s.dropReq n).tinv = s.tinv := rfl
@[simp] theorem dropReq_tinvRun (s : State) (n : Nat) : (s.dropReq n).tinvRun = s.tinvRun := rfl
@[simp] theorem dropReq_walkers (s : State) (n : Nat) : (s.dropReq n).walkers = s.walkers := rfl
@[simp] theorem dropReq_faultIrqs (s : State) (n : Nat) : (s.dropReq n).faultIrqs = s.faultIrqs := rfl
@[simp] theorem dropReq_poison (s : State) (n : Nat) : (s.dropReq n).poison = s.poison := rfl
@[simp] theorem dropReq_decode (s : State) (n : Nat) : (s.dropReq n).decode = s.decode := rfl
@[simp] theorem dropReq_launches (s : State) (n : Nat) : (s.dropReq n).launches = s.launches := rfl
@[simp] theorem dropReq_finished (s : State) (n : Nat) : (s.dropReq n).finished = s.finished := rfl
@[simp] theorem dropReq_credits (s : State) (n : Nat) : (s.dropReq n).credits = s.credits := rfl
@[simp] theorem dropReq_graphs (s : State) (n : Nat) : (s.dropReq n).graphs = s.graphs := rfl
@[simp] theorem dropReq_recording (s : State) (n : Nat) : (s.dropReq n).recording = s.recording := rfl
@[simp] theorem dropReq_extra (s : State) (n : Nat) : (s.dropReq n).extra = s.extra := rfl
@[simp] theorem dropReq_lastOf (s : State) (n : Nat) : (s.dropReq n).lastOf = s.lastOf := rfl
@[simp] theorem dropReq_deciding (s : State) (n : Nat) : (s.dropReq n).deciding = s.deciding := rfl
@[simp] theorem dropReq_kills (s : State) (n : Nat) : (s.dropReq n).kills = s.kills := rfl
@[simp] theorem dropReq_retained (s : State) (n : Nat) : (s.dropReq n).retained = s.retained := rfl
@[simp] theorem dropReq_jobs (s : State) (n : Nat) : (s.dropReq n).jobs = s.jobs := rfl
@[simp] theorem dropReq_bps (s : State) (n : Nat) : (s.dropReq n).bps = s.bps := rfl
@[simp] theorem dropReq_trees (s : State) (n : Nat) : (s.dropReq n).trees = s.trees := rfl
@[simp] theorem dropReq_plans (s : State) (n : Nat) : (s.dropReq n).plans = s.plans := rfl
@[simp] theorem dropReq_dispatched (s : State) (n : Nat) : (s.dropReq n).dispatched = s.dispatched := rfl
@[simp] theorem dropReq_enc (s : State) (n : Nat) : (s.dropReq n).enc = s.enc := rfl
@[simp] theorem dropReq_slots (s : State) (n : Nat) : (s.dropReq n).slots = s.slots := rfl
@[simp] theorem dropReq_freeing (s : State) (n : Nat) : (s.dropReq n).freeing = s.freeing := rfl
@[simp] theorem dropReq_frames (s : State) (n : Nat) : (s.dropReq n).frames = s.frames := rfl
@[simp] theorem dropReq_frec (s : State) (n : Nat) : (s.dropReq n).frec = s.frec := rfl
@[simp] theorem dropReq_survPulses (s : State) (n : Nat) : (s.dropReq n).survPulses = s.survPulses := rfl
@[simp] theorem dropReq_meas (s : State) (n : Nat) : (s.dropReq n).meas = s.meas := rfl
@[simp] theorem dropReq_bootFail (s : State) (n : Nat) : (s.dropReq n).bootFail = s.bootFail := rfl
@[simp] theorem dropReq_fwBusy (s : State) (n : Nat) : (s.dropReq n).fwBusy = s.fwBusy := rfl
@[simp] theorem dropReq_rungUp (s : State) (n : Nat) : (s.dropReq n).rungUp = s.rungUp := rfl
@[simp] theorem dropReq_budgetWas (s : State) (n : Nat) : (s.dropReq n).budgetWas = s.budgetWas := rfl
@[simp] theorem dropReq_sram (s : State) (n : Nat) : (s.dropReq n).sram = s.sram := rfl
@[simp] theorem dropReq_linkRetry (s : State) (n : Nat) : (s.dropReq n).linkRetry = s.linkRetry := rfl
@[simp] theorem dropReq_wire (s : State) (n : Nat) : (s.dropReq n).wire = s.wire := rfl
@[simp] theorem dropReq_portHeld (s : State) (n : Nat) : (s.dropReq n).portHeld = s.portHeld := rfl
@[simp] theorem dropReq_l2evs (s : State) (n : Nat) : (s.dropReq n).l2evs = s.l2evs := rfl
@[simp] theorem dropReq_frq (s : State) (n : Nat) : (s.dropReq n).frq = s.frq := rfl
@[simp] theorem dropReq_gratOff (s : State) (n : Nat) : (s.dropReq n).gratOff = s.gratOff := rfl
@[simp] theorem dropReq_gratWait (s : State) (n : Nat) : (s.dropReq n).gratWait = s.gratWait := rfl
@[simp] theorem dropReq_gratIn (s : State) (n : Nat) : (s.dropReq n).gratIn = s.gratIn := rfl
@[simp] theorem dropReq_swapUsed (s : State) (n : Nat) : (s.dropReq n).swapUsed = s.swapUsed := rfl
@[simp] theorem dropReq_swapAct (s : State) (n : Nat) : (s.dropReq n).swapAct = s.swapAct := rfl
@[simp] theorem dropReq_swapGone (s : State) (n : Nat) : (s.dropReq n).swapGone = s.swapGone := rfl
@[simp] theorem dropReq_swapFaults (s : State) (n : Nat) : (s.dropReq n).swapFaults = s.swapFaults := rfl

@[simp] theorem modCore_tick (s : State) (n : Nat) (f : Core → Core) : (s.modCore n f).tick = s.tick := by
  unfold State.modCore
  split <;> rfl
@[simp] theorem modCore_focus (s : State) (n : Nat) (f : Core → Core) : (s.modCore n f).focus = s.focus := by
  unfold State.modCore
  split <;> rfl
@[simp] theorem modCore_agenda (s : State) (n : Nat) (f : Core → Core) : (s.modCore n f).agenda = s.agenda := by
  unfold State.modCore
  split <;> rfl
@[simp] theorem modCore_inputs (s : State) (n : Nat) (f : Core → Core) : (s.modCore n f).inputs = s.inputs := by
  unfold State.modCore
  split <;> rfl
@[simp] theorem modCore_timers (s : State) (n : Nat) (f : Core → Core) : (s.modCore n f).timers = s.timers := by
  unfold State.modCore
  split <;> rfl
@[simp] theorem modCore_draws (s : State) (n : Nat) (f : Core → Core) : (s.modCore n f).draws = s.draws := by
  unfold State.modCore
  split <;> rfl
@[simp] theorem modCore_seq (s : State) (n : Nat) (f : Core → Core) : (s.modCore n f).seq = s.seq := by
  unfold State.modCore
  split <;> rfl
@[simp] theorem modCore_clusters (s : State) (n : Nat) (f : Core → Core) : (s.modCore n f).clusters = s.clusters := by
  unfold State.modCore
  split <;> rfl
@[simp] theorem modCore_gcode (s : State) (n : Nat) (f : Core → Core) : (s.modCore n f).gcode = s.gcode := by
  unfold State.modCore
  split <;> rfl
@[simp] theorem modCore_mem (s : State) (n : Nat) (f : Core → Core) : (s.modCore n f).mem = s.mem := by
  unfold State.modCore
  split <;> rfl
@[simp] theorem modCore_l2 (s : State) (n : Nat) (f : Core → Core) : (s.modCore n f).l2 = s.l2 := by
  unfold State.modCore
  split <;> rfl
@[simp] theorem modCore_reqs (s : State) (n : Nat) (f : Core → Core) : (s.modCore n f).reqs = s.reqs := by
  unfold State.modCore
  split <;> rfl
@[simp] theorem modCore_msgs (s : State) (n : Nat) (f : Core → Core) : (s.modCore n f).msgs = s.msgs := by
  unfold State.modCore
  split <;> rfl
@[simp] theorem modCore_parked (s : State) (n : Nat) (f : Core → Core) : (s.modCore n f).parked = s.parked := by
  unfold State.modCore
  split <;> rfl
@[simp] theorem modCore_hubTlb (s : State) (n : Nat) (f : Core → Core) : (s.modCore n f).hubTlb = s.hubTlb := by
  unfold State.modCore
  split <;> rfl
@[simp] theorem modCore_walks (s : State) (n : Nat) (f : Core → Core) : (s.modCore n f).walks = s.walks := by
  unfold State.modCore
  split <;> rfl
@[simp] theorem modCore_regs (s : State) (n : Nat) (f : Core → Core) : (s.modCore n f).regs = s.regs := by
  unfold State.modCore
  split <;> rfl
@[simp] theorem modCore_faults (s : State) (n : Nat) (f : Core → Core) : (s.modCore n f).faults = s.faults := by
  unfold State.modCore
  split <;> rfl
@[simp] theorem modCore_tinv (s : State) (n : Nat) (f : Core → Core) : (s.modCore n f).tinv = s.tinv := by
  unfold State.modCore
  split <;> rfl
@[simp] theorem modCore_tinvRun (s : State) (n : Nat) (f : Core → Core) : (s.modCore n f).tinvRun = s.tinvRun := by
  unfold State.modCore
  split <;> rfl
@[simp] theorem modCore_walkers (s : State) (n : Nat) (f : Core → Core) : (s.modCore n f).walkers = s.walkers := by
  unfold State.modCore
  split <;> rfl
@[simp] theorem modCore_faultIrqs (s : State) (n : Nat) (f : Core → Core) : (s.modCore n f).faultIrqs = s.faultIrqs := by
  unfold State.modCore
  split <;> rfl
@[simp] theorem modCore_poison (s : State) (n : Nat) (f : Core → Core) : (s.modCore n f).poison = s.poison := by
  unfold State.modCore
  split <;> rfl
@[simp] theorem modCore_decode (s : State) (n : Nat) (f : Core → Core) : (s.modCore n f).decode = s.decode := by
  unfold State.modCore
  split <;> rfl
@[simp] theorem modCore_launches (s : State) (n : Nat) (f : Core → Core) : (s.modCore n f).launches = s.launches := by
  unfold State.modCore
  split <;> rfl
@[simp] theorem modCore_finished (s : State) (n : Nat) (f : Core → Core) : (s.modCore n f).finished = s.finished := by
  unfold State.modCore
  split <;> rfl
@[simp] theorem modCore_credits (s : State) (n : Nat) (f : Core → Core) : (s.modCore n f).credits = s.credits := by
  unfold State.modCore
  split <;> rfl
@[simp] theorem modCore_graphs (s : State) (n : Nat) (f : Core → Core) : (s.modCore n f).graphs = s.graphs := by
  unfold State.modCore
  split <;> rfl
@[simp] theorem modCore_recording (s : State) (n : Nat) (f : Core → Core) : (s.modCore n f).recording = s.recording := by
  unfold State.modCore
  split <;> rfl
@[simp] theorem modCore_extra (s : State) (n : Nat) (f : Core → Core) : (s.modCore n f).extra = s.extra := by
  unfold State.modCore
  split <;> rfl
@[simp] theorem modCore_lastOf (s : State) (n : Nat) (f : Core → Core) : (s.modCore n f).lastOf = s.lastOf := by
  unfold State.modCore
  split <;> rfl
@[simp] theorem modCore_deciding (s : State) (n : Nat) (f : Core → Core) : (s.modCore n f).deciding = s.deciding := by
  unfold State.modCore
  split <;> rfl
@[simp] theorem modCore_kills (s : State) (n : Nat) (f : Core → Core) : (s.modCore n f).kills = s.kills := by
  unfold State.modCore
  split <;> rfl
@[simp] theorem modCore_retained (s : State) (n : Nat) (f : Core → Core) : (s.modCore n f).retained = s.retained := by
  unfold State.modCore
  split <;> rfl
@[simp] theorem modCore_jobs (s : State) (n : Nat) (f : Core → Core) : (s.modCore n f).jobs = s.jobs := by
  unfold State.modCore
  split <;> rfl
@[simp] theorem modCore_bps (s : State) (n : Nat) (f : Core → Core) : (s.modCore n f).bps = s.bps := by
  unfold State.modCore
  split <;> rfl
@[simp] theorem modCore_trees (s : State) (n : Nat) (f : Core → Core) : (s.modCore n f).trees = s.trees := by
  unfold State.modCore
  split <;> rfl
@[simp] theorem modCore_plans (s : State) (n : Nat) (f : Core → Core) : (s.modCore n f).plans = s.plans := by
  unfold State.modCore
  split <;> rfl
@[simp] theorem modCore_dispatched (s : State) (n : Nat) (f : Core → Core) : (s.modCore n f).dispatched = s.dispatched := by
  unfold State.modCore
  split <;> rfl
@[simp] theorem modCore_enc (s : State) (n : Nat) (f : Core → Core) : (s.modCore n f).enc = s.enc := by
  unfold State.modCore
  split <;> rfl
@[simp] theorem modCore_slots (s : State) (n : Nat) (f : Core → Core) : (s.modCore n f).slots = s.slots := by
  unfold State.modCore
  split <;> rfl
@[simp] theorem modCore_freeing (s : State) (n : Nat) (f : Core → Core) : (s.modCore n f).freeing = s.freeing := by
  unfold State.modCore
  split <;> rfl
@[simp] theorem modCore_frames (s : State) (n : Nat) (f : Core → Core) : (s.modCore n f).frames = s.frames := by
  unfold State.modCore
  split <;> rfl
@[simp] theorem modCore_frec (s : State) (n : Nat) (f : Core → Core) : (s.modCore n f).frec = s.frec := by
  unfold State.modCore
  split <;> rfl
@[simp] theorem modCore_survPulses (s : State) (n : Nat) (f : Core → Core) : (s.modCore n f).survPulses = s.survPulses := by
  unfold State.modCore
  split <;> rfl
@[simp] theorem modCore_meas (s : State) (n : Nat) (f : Core → Core) : (s.modCore n f).meas = s.meas := by
  unfold State.modCore
  split <;> rfl
@[simp] theorem modCore_bootFail (s : State) (n : Nat) (f : Core → Core) : (s.modCore n f).bootFail = s.bootFail := by
  unfold State.modCore
  split <;> rfl
@[simp] theorem modCore_fwBusy (s : State) (n : Nat) (f : Core → Core) : (s.modCore n f).fwBusy = s.fwBusy := by
  unfold State.modCore
  split <;> rfl
@[simp] theorem modCore_rungUp (s : State) (n : Nat) (f : Core → Core) : (s.modCore n f).rungUp = s.rungUp := by
  unfold State.modCore
  split <;> rfl
@[simp] theorem modCore_budgetWas (s : State) (n : Nat) (f : Core → Core) : (s.modCore n f).budgetWas = s.budgetWas := by
  unfold State.modCore
  split <;> rfl
@[simp] theorem modCore_sram (s : State) (n : Nat) (f : Core → Core) : (s.modCore n f).sram = s.sram := by
  unfold State.modCore
  split <;> rfl
@[simp] theorem modCore_linkRetry (s : State) (n : Nat) (f : Core → Core) : (s.modCore n f).linkRetry = s.linkRetry := by
  unfold State.modCore
  split <;> rfl
@[simp] theorem modCore_wire (s : State) (n : Nat) (f : Core → Core) : (s.modCore n f).wire = s.wire := by
  unfold State.modCore
  split <;> rfl
@[simp] theorem modCore_portHeld (s : State) (n : Nat) (f : Core → Core) : (s.modCore n f).portHeld = s.portHeld := by
  unfold State.modCore
  split <;> rfl
@[simp] theorem modCore_l2evs (s : State) (n : Nat) (f : Core → Core) : (s.modCore n f).l2evs = s.l2evs := by
  unfold State.modCore
  split <;> rfl
@[simp] theorem modCore_frq (s : State) (n : Nat) (f : Core → Core) : (s.modCore n f).frq = s.frq := by
  unfold State.modCore
  split <;> rfl
@[simp] theorem modCore_gratOff (s : State) (n : Nat) (f : Core → Core) : (s.modCore n f).gratOff = s.gratOff := by
  unfold State.modCore
  split <;> rfl
@[simp] theorem modCore_gratWait (s : State) (n : Nat) (f : Core → Core) : (s.modCore n f).gratWait = s.gratWait := by
  unfold State.modCore
  split <;> rfl
@[simp] theorem modCore_gratIn (s : State) (n : Nat) (f : Core → Core) : (s.modCore n f).gratIn = s.gratIn := by
  unfold State.modCore
  split <;> rfl
@[simp] theorem modCore_swapUsed (s : State) (n : Nat) (f : Core → Core) : (s.modCore n f).swapUsed = s.swapUsed := by
  unfold State.modCore
  split <;> rfl
@[simp] theorem modCore_swapAct (s : State) (n : Nat) (f : Core → Core) : (s.modCore n f).swapAct = s.swapAct := by
  unfold State.modCore
  split <;> rfl
@[simp] theorem modCore_swapGone (s : State) (n : Nat) (f : Core → Core) : (s.modCore n f).swapGone = s.swapGone := by
  unfold State.modCore
  split <;> rfl
@[simp] theorem modCore_swapFaults (s : State) (n : Nat) (f : Core → Core) : (s.modCore n f).swapFaults = s.swapFaults := by
  unfold State.modCore
  split <;> rfl

/-! ### What the updates set -/

@[simp] theorem setCore_cores (s : State) (n : Nat) (c : Core) : (s.setCore n c).cores = putCore s.cores n c := rfl
@[simp] theorem soon_agenda (s : State) (u : Nat) (l : List Instr) :
    (s.soon u l).agenda = l.map (Work.event u) ++ s.agenda := rfl
@[simp] theorem setJob_jobs (s : State) (n : Nat) (j : Job) : (s.setJob n j).jobs = setAt s.jobs n j := rfl
@[simp] theorem later_timers (s : State) (n u : Nat) (i : Instr) : (s.later n u i).timers = insTimer n u i s.timers := rfl

theorem modCore_some {s : State} {n : Nat} {c : Core} (f : Core → Core) (h : s.core n = some c) :
    s.modCore n f = s.setCore n (f c) := by
  unfold State.modCore State.core at *
  rw [h]

theorem modCore_none {s : State} {n : Nat} (f : Core → Core) (h : s.core n = none) : s.modCore n f = s := by
  unfold State.modCore State.core at *
  rw [h]

/-! ### Lists replaced in one place -/

@[simp] theorem length_setAt {α : Type} (l : List α) (n : Nat) (v : α) : (setAt l n v).length = l.length := by
  induction l generalizing n with
  | nil => rfl
  | cons x l ih => cases n <;> simp [setAt, ih]

theorem getD_setAt {α : Type} (l : List α) (n k : Nat) (v d : α) :
    (setAt l n v).getD k d = if k = n ∧ n < l.length then v else l.getD k d := by
  induction l generalizing n k with
  | nil => simp [setAt]
  | cons x l ih =>
    cases n with
    | zero => cases k <;> simp [setAt]
    | succ n =>
      cases k with
      | zero => simp [setAt]
      | succ k => simpa [setAt] using ih n k

theorem helper_setHelper (c : Core) (h k : Nat) (x : Helper) :
    (c.setHelper h x).helper k = if k = h ∧ h < c.helpers.length then x else c.helper k :=
  getD_setAt c.helpers h k x helper0

theorem jobOf_setJob (s : State) (n k : Nat) (j : Job) :
    (s.setJob n j).jobOf k = if k = n ∧ n < s.jobs.length then j else s.jobOf k := getD_setAt s.jobs n k j job0

/-! ### Hub registers -/

theorem reg_setReg (s : State) (off k v : Nat) : (s.setReg off v).reg k = if k = off then v % 2 ^ 64 else s.reg k := by
  unfold State.setReg State.reg
  simp only [spGet_spSet]
  by_cases h : k = off
  · subst h
    simp
  · simp [h]

theorem reg_lt (s : State) (off : Nat) : s.reg off < 2 ^ 64 := (spGet 0 s.regs off ^^^ regReset off).isLt

theorem bits_setBits (v hi lo x : Nat) (h : lo ≤ hi) : bits (setBits v hi lo x) hi lo = x % 2 ^ (hi + 1 - lo) := by
  unfold setBits bits
  generalize hw : hi + 1 - lo = w
  have hP : 0 < 2 ^ lo := by positivity
  have hQ : 0 < 2 ^ w := by positivity
  have hv : v = v % 2 ^ lo + 2 ^ lo * (v / 2 ^ lo % 2 ^ w + 2 ^ w * (v / 2 ^ lo / 2 ^ w)) := by
    rw [Nat.mod_add_div, Nat.mod_add_div]
  have hs : v - v / 2 ^ lo % 2 ^ w * 2 ^ lo + x % 2 ^ w * 2 ^ lo
      = v % 2 ^ lo + 2 ^ lo * (x % 2 ^ w + 2 ^ w * (v / 2 ^ lo / 2 ^ w)) := by
    have hle : v / 2 ^ lo % 2 ^ w * 2 ^ lo ≤ v := by
      calc v / 2 ^ lo % 2 ^ w * 2 ^ lo ≤ v / 2 ^ lo * 2 ^ lo := Nat.mul_le_mul_right _ (Nat.mod_le _ _)
        _ ≤ v := Nat.div_mul_le_self _ _
    zify [hle]
    have : (v : Int) = v % 2 ^ lo + 2 ^ lo * (v / 2 ^ lo % 2 ^ w + 2 ^ w * (v / 2 ^ lo / 2 ^ w)) := by exact_mod_cast hv
    linear_combination this
  rw [hs, Nat.add_mul_div_left _ _ hP, Nat.div_eq_of_lt (Nat.mod_lt _ hP), Nat.zero_add, Nat.add_mul_mod_self_left,
    Nat.mod_mod]

theorem fld_setFld (s : State) (off hi lo v : Nat) (h : lo ≤ hi) (hb : setBits (s.reg off) hi lo v < 2 ^ 64) :
    (s.setFld off hi lo v).fld off hi lo = v % 2 ^ (hi + 1 - lo) := by
  unfold State.setFld State.fld
  rw [reg_setReg, if_pos rfl, Nat.mod_eq_of_lt hb, bits_setBits _ _ _ _ h]

theorem reg_setFld_other (s : State) (off hi lo v k : Nat) (h : k ≠ off) : (s.setFld off hi lo v).reg k = s.reg k := by
  unfold State.setFld
  rw [reg_setReg, if_neg h]

end Sys2Proof.Laws
end

