-- ==== Sys2Proof/Tests/Slice0.lean ====
section
/-! SUPPORT. Tests: words written out from the encodings of spec/03, ill-formed terms for every check of WellFormed,
single steps of one operation whose results are worked by hand from the rules, and states that meet the hypotheses of the
statements. -/

namespace Sys2Proof.Tests

open Sys2Proof Sys2Proof.Machine

/-! ### Small states -/

/-- A base core in its launch, and an upper core. -/
def c0 : Core := coreAtLaunch 0 false 7 3 0 5 9
def u0 : Core := coreAtLaunch 96 true 7 3 4 5 9

/-- The focus at a slot of the primary, of helper 2 and of a gateway. -/
def fp (slot : Nat) : Focus := ⟨0, .prim, slot, 100, 1, 900, 901⟩
def fh (slot : Nat) : Focus := ⟨0, .helper 2, slot, 100, 1, 900, 901⟩
def fg (slot : Nat) : Focus := ⟨512, .gate, slot, 100, 1, 900, 901⟩
def fu (slot : Nat) : Focus := ⟨96, .prim, slot, 100, 1, 900, 901⟩

/-- The machine after reset with one core, the focus at it. -/
def at0 (c : Core) (f : Focus) : State := { State.reset with cores := [(f.core, c)], focus := f }

def setS (r : Nat) (v : Word) (c : Core) : Core := { c with p := { c.p with s := spSet 0 c.p.s r v } }
def setA (r : Nat) (v : Lane) (c : Core) : Core := { c with p := { c.p with a := spSet 0 c.p.a r v } }
def setX (r : Nat) (v : Word) (c : Core) : Core := c.setHelper 2 { c.helper 2 with x := spSet 0 (c.helper 2).x r v }
def setH (h : Nat) (d : BitVec 128) (c : Core) : Core := { c with handles := spSet 0 c.handles h d }

/-- A state and operands meet a statement's hypotheses. -/
def Met (i : Instr) (P : Focus → Core → Prop) (f : Focus) (c : Core) : Prop := Ready i (at0 c f) c ∧ P f c

theorem ready_at0 {i : Instr} {f : Focus} {c : Core} (h : legal f c i = true) : Ready i (at0 c f) c :=
  ⟨by simp [at0, State.core, lookCore], h⟩

theorem met {i : Instr} {P : Focus → Core → Prop} {f : Focus} {c : Core} (h : legal f c i = true) (hp : P f c) :
    Met i P f c := ⟨ready_at0 h, hp⟩

/-! ### Words written out bit by bit from the encodings (03 R92 to R97) -/

-- I class: opcode 31..24, d 23..18, x 17..12, y 11..6 (R93); worked words of 09 and 16
theorem test_decode_add : decodeSlot .I 0b00010000_000100_000011_000001_000000 = .ok (.add 4 3 1) := by decide
theorem test_decode_addi : decodeSlot .I 0b00010010_000001_000001_000000000001 = .ok (.addi 1 1 1) := by decide
theorem test_decode_mul : decodeSlot .I 0x140C1080 = .ok (.mul 3 1 2) := by decide
theorem test_decode_mtc : decodeSlot .I 0b01010001_000010_000000_000000010000 = .ok (.mtc 2 0x10) := by decide
theorem test_decode_loop : decodeSlot .I 0b01011101_00_000011_111111111111_1111 = .ok (.loop 0 (-1)) := by decide
theorem test_decode_rep : decodeSlot .I 0b01011110_000001_0001_00000000000010 = .ok (.rep 1 1 2) := by decide
theorem test_decode_brnz : decodeSlot .I 0x5A13FFFD = .ok (.brnz 4 (-3)) := by decide
theorem test_decode_halt : decodeSlot .I 0x5F000000 = .ok (.halt 0) := by decide
theorem test_decode_gateway : decodeSlot .I 0x51000601 = .ok (.mtc 0 0x601) ∧ decodeSlot .I 0x50100600 = .ok (.mfc 4 0x600) := by
  decide
-- M class (R92): worked words of 04, 05 and 16
theorem test_decode_vld : decodeSlot .M 0x18061100 = .ok (.vld 12 2 1 0) := by decide
theorem test_decode_st : decodeSlot .M 0x111C6C00 = .ok (.st 7 6 3 0) := by decide
theorem test_decode_xld : decodeSlot .M 0x14083C00 = .ok (.xld 2 3 3 0) := by decide
theorem test_decode_strel : decodeSlot .M 0x13040C40 = .ok (.strel 1 0 64) := by decide
-- V class (R94): worked words of 10 and 14
theorem test_decode_vadd : decodeSlot .V 0b00010000_00100000_001010000_000011010_000101 = .ok (.vadd 1 0 10 3 133) := by decide
-- K, Y and E classes (R95 to R97)
theorem test_decode_ktop : decodeSlot .K 0x200F01 = .ok (.ktop 0 30 1) := by decide
theorem test_decode_fwait : decodeSlot .Y 0x108002 = .ok (.fwait 4 2) := by decide
theorem test_decode_twait : decodeSlot .Y 0x208480 = .ok (.twait 4 9) := by decide
theorem test_decode_ckpt : decodeSlot .Y 0x480000 = .ok .ckpt := by decide
theorem test_decode_cpy : decodeSlot .E 0x20083100 = .ok (.cpy 2 3 4 0) := by decide
theorem test_decode_cseal : decodeSlot .E 0x24180000 = .ok (.cseal 6 0) := by decide
theorem test_decode_bfill : decodeSlot .E 0x122002C0 = .ok (.bfill 8 0 11) := by decide
theorem test_decode_mmul : decodeSlot .E 0x10083102 = .ok (.mmul 2 3 4 1 0) := by decide
-- undefined opcodes and reserved bits are refused by name (R98, R99)
theorem test_decode_undefined : (match decodeSlot .I 0xFF000000 with | .ok _ => false | .error _ => true) = true := by decide

/-! ### WellFormed: an ill-formed term for each check, which the check refuses (R98 case 4) -/

theorem test_wf_fields : wf (.bfx 1 2 60 4) = false ∧ wf (.bfi 1 2 60 4) = false ∧ wf (.bfx 1 2 60 3) = true ∧
    wf (.bfi 1 2 0 63) = true := by decide
theorem test_wf_codes : wf (.fcmp 1 2 3 7) = false ∧ wf (.fcvt 1 2 0 18) = false ∧ wf (.rdt 1 3) = false ∧
    wf (.br 0 1 4) = false ∧ wf (.start 1 9 0) = false ∧ wf (.trap 1 0x7F) = false ∧ wf (.gatom 1 2 3 3 0) = false ∧
    wf (.gatom 1 2 3 0 10) = false ∧ wf (.fcmp 1 2 3 6) = true ∧ wf (.start 1 8 0) = true ∧ wf (.trap 1 0x80) = true := by decide
theorem test_wf_control_registers : wf (.mfc 1 5) = false ∧ wf (.mfc 1 0x70C) = false ∧ wf (.mtc 1 0) = false ∧
    wf (.mtc 1 0x305) = false ∧ wf (.mtc 1 0x600) = false ∧ wf (.mfc 1 0x601) = true := by decide
theorem test_wf_arith_types : wf (.vadd 3 0 1 2 3) = false ∧ wf (.vsub 4 0 1 2 3) = false ∧ wf (.vmul 3 0 1 2 3) = false ∧
    wf (.vfma 4 0 1 2 3) = false ∧ wf (.vfms 3 0 1 2 3) = false ∧ wf (.vmin 4 0 1 2 3) = false ∧ wf (.vmax 3 0 1 2 3) = false ∧
    wf (.vabs 4 0 1 2) = false ∧ wf (.vneg 3 0 1 2) = false ∧ wf (.vclamp 4 0 1 2 3) = false ∧ wf (.vadd 7 0 1 2 3) = true := by
  decide
theorem test_wf_compare : wf (.vcmp 3 0 1 0 0 2 3) = false ∧ wf (.vcmp 5 0 1 7 0 2 3) = false ∧
    wf (.vcmp 0 0 1 0 1 2 3) = false ∧ wf (.vcmp 5 0 1 6 1 2 3) = true := by decide
theorem test_wf_word_types : wf (.vsel 0 0 1 2 3) = false ∧ wf (.vand 6 0 1 2 3) = false ∧ wf (.vor 0 0 1 2 3) = false ∧
    wf (.vxor 7 0 1 2 3) = false ∧ wf (.vbc 0 0 1 2 3) = false ∧ wf (.vmov 6 0 1 2) = false ∧ wf (.viota 1 0 1) = false ∧
    wf (.vrand 6 0 1 2 3) = false ∧ wf (.vshl 0 0 1 2 3) = false ∧ wf (.vshr 1 0 1 2 3) = false ∧ wf (.vsar 3 0 1 2 3) = false ∧
    wf (.vperm 2 0 1 2 3) = false := by decide
theorem test_wf_conversions : wf (.vcvt 0 0 1 2 1 0 0 0) = false ∧ wf (.vcvt 0 0 1 2 0 1 0 0) = false ∧
    wf (.vcvt 0 0 1 2 0 0 0 1) = false ∧ wf (.vpack 0 0 1 2 1 0 0 0) = false ∧ wf (.vunpk 1 0 1 2 0 0 0 0) = false ∧
    wf (.vpack 1 0 1 2 0 0 0 0) = true ∧ wf (.vunpk 0 0 1 2 1 0 0 0) = true := by decide
theorem test_wf_transcendental : wf (.vrcp 2 0 1 2) = false ∧ wf (.vrsq 5 0 1 2) = false ∧ wf (.vexp2 2 0 1 2) = false ∧
    wf (.vlog2 7 0 1 2) = false ∧ wf (.vtanh 3 0 1 2) = false ∧ wf (.vrcp 1 0 1 2) = true := by decide
theorem test_wf_reductions : wf (.vred 3 0 1 2 0 0) = false ∧ wf (.vred 5 0 1 2 3 0) = false ∧ wf (.vred 0 0 1 2 1 1) = false ∧
    wf (.vscan 4 0 1 2 0 0) = false ∧ wf (.vscan 5 0 1 2 3 0) = false ∧ wf (.baddq 0 0 1 2 3) = false ∧
    wf (.baddq 7 1 1 2 3) = false ∧ wf (.vred 5 0 1 2 2 1) = true := by decide
theorem test_wf_taps : wf (.tap 2 0 1 2) = false ∧ wf (.tapfin 1 0 1 2) = false ∧ wf (.tapfin 0 1 1 2) = false ∧
    wf (.vsteer 2 0 1 2 3) = false := by decide
theorem test_wf_distributions : wf (.qset 2 0 1 2 3) = false ∧ wf (.qadd 1 0 1 2 3) = false ∧ wf (.qmul 1 0 1 2 3) = false ∧
    wf (.qscale 1 0 1 2 3) = false ∧ wf (.qshift 1 0 1 2 3) = false ∧ wf (.qmix 1 0 1 2 3) = false ∧ wf (.qcond 0 0 1 2 0) = false ∧
    wf (.qmom 1 0 1 2 3) = false ∧ wf (.qquant 1 0 1 2 3) = false ∧ wf (.qsamp 1 0 1 2 3) = false ∧ wf (.qtag 2 0 1 2) = false ∧
    wf (.qtag 1 1 1 2) = false := by decide
theorem test_wf_rest : wf (.ksort 1 2 1) = false ∧ wf (.twait 5 1) = false ∧ wf (.lwait 0) = false ∧ wf (.lwait 17) = false ∧
    wf (.ksort 1 0 1) = true ∧ wf (.twait 4 1) = true ∧ wf (.lwait 16) = true := by decide

/-! ### Single steps of one operation, worked by hand -/

/-- The core after the operation at a small state. -/
def after (i : Instr) (c : Core) (f : Focus) : Option Core :=
  match exec i (at0 c f) with
  | .next t => t.core f.core
  | _ => none

/-- Cycles, flags and effects of the results on their way in the primary, and in the helpers. -/
def due (o : Option Core) : Option (List (Nat × Flags × List Eff)) := o.map (fun c => c.p.pend.map (fun e => (e.rem, e.fl, e.effs)))
def dueH (o : Option Core) : Option (List (Nat × Flags × List Eff)) := o.map (fun c => c.hpend.map (fun e => (e.rem, e.fl, e.effs)))

/-- s1 = -1, s2 = 2, s3 = 0x8000_0000_0000_0000, s5 = 1.0 and s6 = 2^24 as FP32 (R198). -/
def cs : Core := setS 1 (-1) (setS 2 2 (setS 3 0x8000000000000000 (setS 5 0x3F800000 (setS 6 0x4B800000 c0))))

-- R241, R242: 2^64 - 1 + 2 = 1; 2 - (2^64 - 1) = 3 modulo 2^64
theorem test_add_wraps : due (after (.add 4 1 2) cs (fp 0)) = some [(1, 0, [.sreg 4 1])] := by decide
theorem test_sub_order : due (after (.sub 4 2 1) cs (fp 0)) = some [(1, 0, [.sreg 4 3])] := by decide
theorem test_addi_sign : due (after (.addi 4 2 0xFFC) cs (fp 0)) = some [(1, 0, [.sreg 4 (-2)])] := by decide
theorem test_addsh : due (after (.addsh 4 1 2 3) cs (fp 0)) = some [(1, 0, [.sreg 4 (-6)])] := by decide
theorem test_mulh_signed : due (after (.mulh 4 1 2) cs (fp 0)) = some [(3, 0, [.sreg 4 (-1)])] := by decide
theorem test_mulhn_natural : due (after (.mulhn 4 1 2) cs (fp 0)) = some [(3, 0, [.sreg 4 1])] := by decide
theorem test_div_corner : due (after (.div 4 3 1) cs (fp 0)) = some [(18, 0, [.sreg 4 0x8000000000000000])] := by decide
theorem test_div_zero : due (after (.div 4 3 0) cs (fp 0)) = some [(18, 0, [.sreg 4 0xFFFFFFFFFFFFFFFF])] := by decide
theorem test_sar_shifts_sign : due (after (.sar 4 3 2) cs (fp 0)) = some [(1, 0, [.sreg 4 0xE000000000000000])] := by decide
theorem test_shl_ignores_high_bits : due (after (.shl 4 2 1) cs (fp 0)) = some [(1, 0, [.sreg 4 0])] := by decide
theorem test_cmp_signed : due (after (.cmp 4 1 2 0) cs (fp 0)) = some [(1, 0, [.sreg 4 (-1)])] := by decide
theorem test_cmp_natural : due (after (.cmp 4 1 2 1) cs (fp 0)) = some [(1, 0, [.sreg 4 1])] := by decide
theorem test_sel_zero : due (after (.sel 4 1 2 0) cs (fp 0)) = some [(1, 0, [.sreg 4 2])] := by decide
theorem test_lui_keeps : due (after (.lui 2 0x23344) cs (fp 0)) = some [(1, 0, [.sreg 2 0xA3344])] := by decide
theorem test_bfi : due (after (.bfi 2 1 8 11) cs (fp 0)) = some [(1, 0, [.sreg 2 0xFFF02])] := by decide
theorem test_clz_ctz : due (after (.clz 4 0) cs (fp 0)) = some [(1, 0, [.sreg 4 64])] ∧
    due (after (.ctz 4 3) cs (fp 0)) = some [(1, 0, [.sreg 4 63])] := by decide
-- in a helper the destination is an x-register (R240)
theorem test_add_helper : dueH (after (.addi 4 0 5) c0 (fh 0)) = some [(1, 0, [.xreg 2 4 5])] := by decide
-- R244: 1.0 + 1.0 = 2.0 exactly; 2^24 + 1.0 = 2^24 to even, rounded
theorem test_fadd_exact : due (after (.fadd 4 5 5) cs (fp 0)) = some [(4, 0, [.sreg 4 0x40000000])] := by decide +kernel
theorem test_fadd_ties_even : (due (after (.fadd 4 6 5) cs (fp 0))).map (·.map (fun e => (e.1, e.2.2))) =
    some [(4, [.sreg 4 0x4B800000])] := by decide +kernel
-- R251: LOOP of a counter at 1 writes 0 and falls through; at 2 it is taken to P + offset after the delay slot
theorem test_loop_last : due (after (.loop 1 (-3)) { c0 with p := { c0.p with lc := [(1, 1)] } } (fp 1)) =
    some [(1, 0, [.lcnt 1 0])] := by decide
theorem test_loop_taken : (after (.loop 1 (-3)) { c0 with p := { c0.p with lc := [(1, 2)] } } (fp 1)).map (·.cyc.taken) =
    some (some 97) := by decide
theorem test_call_links : due (after (.call 16) c0 (fp 1)) = some [(1, 0, [.sreg 63 102])] ∧
    (after (.call 16) c0 (fp 1)).map (·.cyc.taken) = some (some 116) := by decide
-- R243: pointer arithmetic modulo 2^32
theorem test_adda_wraps : due (after (.adda 3 2 (-8)) (setA 2 4 c0) (fp 0)) = some [(1, 0, [.areg 3 0xFFFFFFFC])] := by decide
-- R115, R110: a misaligned LD traps MISALIGN (0x11) with its address; one past the end LOCAL_RANGE (0x10)
theorem test_ld_misaligned : (after (.ld 4 2 3 0) cs (fp 2)).map (fun c => (c.trapRec0.toNat / 2 ^ 56, c.trapRec1)) =
    some (0x11, 2) := by decide
theorem test_ld_range : (after (.ld 4 2 0 0) (setS 2 0x180000 c0) (fp 2)).map (fun c => (c.trapRec0.toNat / 2 ^ 56, c.trapRec1)) =
    some (0x10, 0x180000) := by decide
-- R6: little-endian bytes, withheld by the primary
theorem test_st_bytes : (after (.st 1 2 1 1) (setS 1 0x11223344 cs) (fp 2)).map (fun c => c.newWith.map (·.w)) =
    some [.store 4 [0x44, 0x33]] := by decide
-- R132: FWAIT subtracts its count; unmet it waits
theorem test_fwait_met : due (after (.fwait 4 2) { c0 with f := [(4, 3)] } (fp 7)) = some [(1, 0, [.flagSub 4 2])] := by decide
theorem test_fwait_unmet : (after (.fwait 4 2) { c0 with f := [(4, 1)] } (fp 7)).map (·.run) = some .wait := by decide
-- R258: TRAP takes the cause of its immediate and the value of its register
theorem test_trap : (after (.trap 1 0x81) cs (fp 1)).map (fun c => (c.trapRec0.toNat / 2 ^ 56, c.trapRec1)) = some (0x81, -1) := by
  decide
-- R271: VPERM and R268: VSEL on single lanes; R86: .s32 lane arithmetic wraps
theorem test_vadd_s32 : (vecRes (.vadd 5 0 1 2 3) allLanes (List.replicate 64 0xFFFFFFFF) (List.replicate 64 2)
    (List.replicate 64 0)).map (fun r => r.1.1.headD 0) = some 1 := by decide
theorem test_vshl_full : (vecRes (.vshl 5 0 1 2 3) allLanes (List.replicate 64 1) (List.replicate 64 33)
    (List.replicate 64 0)).map (fun r => r.1.1.headD 0) = some 2 := by decide
-- R303, R305: equal scores rank by index; a cleared list is empty
theorem test_list_clear : (applyList .clear ⟨2, List.replicate 64 (5, 6)⟩).1 = candList0 := by decide
theorem test_rank_tie : ranksAhead (0x3F800000, 1) (0x3F800000, 2) = true ∧ ranksAhead (0x3F800000, 2) (0x3F800000, 1) = false := by
  decide +kernel

/-! ### States and operands that meet the statements' hypotheses (named after the statement they are for) -/

theorem test_wit_IntegerResults : Ready (.add 4 1 2) (at0 cs (fp 0)) cs ∧
    intResult (fp 0) cs (.add 4 1 2) = some (1, 4, wN (2 ^ 64 - 1 + 2)) := ⟨ready_at0 (by decide), by decide⟩
theorem test_wit_FloatResults : Ready (.fadd 4 5 5) (at0 cs (fp 0)) cs ∧
    fpResult (fp 0) cs (.fadd 4 5 5) = some (4, 4, 0x40000000, 0) := ⟨ready_at0 (by decide), by decide +kernel⟩
theorem test_wit_PointersAndSpill : Met (.adda 3 2 (-8)) (fun _ _ => True) (fp 0) c0 ∧
    Met (.spst 1 4095) (fun fo c => fits c (.spill 4095 (rdS fo c 1)) = true) (fp 0) cs :=
  ⟨met (by decide) trivial, met (by decide) (by decide)⟩
theorem test_wit_ControlReads : Met (.mfc 4 0x21) (fun _ _ => True) (fh 0) c0 ∧ Met (.mfc 4 0x600) (fun _ _ => True) (fg 0) c0 ∧
    Met (.rdt 4 2) (fun _ _ => True) (fp 0) c0 ∧ c0.cyc.view = [] :=
  ⟨met (by decide) trivial, met (by decide) trivial, met (by decide) trivial, rfl⟩
theorem test_wit_ControlWrites : Met (.mtc 4 4) (fun _ _ => True) (fp 0) c0 ∧ Met (.mtc 4 0x10) (fun _ _ => True) (fp 0) c0 ∧
    Met (.mtc 4 0x13) (fun _ _ => True) (fp 0) c0 ∧ Met (.mtc 4 0x601) (fun _ _ => True) (fg 0) c0 ∧
    Met (.mtc 4 0x501) (fun fo c => fits c (.mtc 0x501 (rdS fo c 4)) = true) (fp 0) c0 :=
  ⟨met (by decide) trivial, met (by decide) trivial, met (by decide) trivial, met (by decide) trivial, met (by decide) (by decide)⟩
theorem test_wit_TransfersOfControl : Met (.br 0 0 4) (fun _ _ => True) (fp 1) c0 ∧
    Met (.jmp 1) (fun fo c => (rdS fo c 1).toNat < codeSize fo) (fp 1) (setS 1 16383 c0) ∧
    Met (.jmp 1) (fun fo c => codeSize fo ≤ (rdS fo c 1).toNat) (fp 1) (setS 1 16384 c0) ∧
    Met (.call 4) (fun fo _ => ofPrim fo ∨ ofGate fo) (fp 1) c0 ∧ Met (.call 4) (fun fo _ => ofHelper fo 2) (fh 1) c0 ∧
    Met (.loop 1 (-3)) (fun _ _ => True) (fp 1) c0 :=
  ⟨met (by decide) trivial, met (by decide) (by decide), met (by decide) (by decide), met (by decide) (.inl rfl),
   met (by decide) rfl, met (by decide) trivial⟩
theorem test_wit_RepetitionAndHalt : Met (.rep 1 1 2) (fun _ _ => True) (fp 1) c0 ∧
    Met (.halt 0) (fun fo _ => ofPrim fo ∨ ofGate fo) (fp 1) c0 ∧ Met (.halt 0) (fun fo _ => ofHelper fo 2) (fh 1) c0 ∧
    2 < c0.helpers.length :=
  ⟨met (by decide) trivial, met (by decide) (.inl rfl), met (by decide) rfl, by decide⟩
theorem test_wit_StartAndSoftwareTrap :
    Met (.start 1 8 16383) (fun fo c => freeState (c.helper 8) = true ∧ startHeld 8 (c.withheld ++ c.newWith) = false ∧
      fits c (.start 8 16383 (rdS fo c 1)) = true) (fp 1) c0 ∧
    Met (.start 1 2 0) (fun _ c => freeState (c.helper 2) = false ∨ startHeld 2 (c.withheld ++ c.newWith) = true) (fp 1)
      (c0.setHelper 2 { helper0 with st := .live }) ∧
    Met (.trap 1 0x80) (fun fo _ => ofPrim fo) (fp 1) c0 ∧ Ready (.trap 1 0xFF) (at0 c0 (fh 1)) c0 ∧ c0.run ≠ .halted :=
  ⟨met (by decide) (by decide), met (by decide) (by decide), met (by decide) rfl, ready_at0 (by decide), by decide⟩
theorem test_wit_TakeMailbox : Met (.takem 4 31) (fun _ c => mbPresent c 31 = false) (fp 0) c0 ∧
    Met (.takem 4 3) (fun fo c => ofHelper fo 2 ∧ mbPresent c 3 = true) (fh 0) { c0 with mb := [(3, (7, true))] } ∧
    Met (.takem 4 3) (fun fo c => ofPrim fo ∧ mbPresent c 3 = true ∧ fits c (.takem 3) = true) (fp 0)
      { c0 with mb := [(3, (7, true))] } :=
  ⟨met (by decide) (by decide), met (by decide) (by decide), met (by decide) (by decide)⟩
/-- The last doubleword of the scratchpad, and the core with its bank (2) taken in this cycle. -/
def cl : Core := setS 2 0x17FFF8 cs
def clBusy : Core := { cl with cyc := { cl.cyc with turns := [2] } }
theorem test_wit_ScalarLoads :
    Met (.ld 4 2 3 0) (fun fo c => addrTrap fo c (localAddr fo c 2 3 0) 8 8 = none ∧ accFree c (localAddr fo c 2 3 0) 8) (fp 2) cl ∧
    Met (.ldacq 4 2 0) (fun fo c => addrTrap fo c (localAddr fo c 2 3 0) 8 8 = none ∧ accFree c (localAddr fo c 2 3 0) 8) (fh 2)
      (setX 2 0x17FFF8 c0) ∧
    Met (.ld 4 2 3 0) (fun fo c => addrTrap fo c (localAddr fo c 2 3 0) 8 8 = none ∧ ¬accFree c (localAddr fo c 2 3 0) 8)
      (fp 2) clBusy ∧
    Met (.ld 4 2 3 1) (fun fo c => addrTrap fo c (localAddr fo c 2 3 1) 8 8 = some (0x10, 0x180000)) (fp 2) cl ∧
    Met (.ldacq 4 2 1) (fun fo c => addrTrap fo c (localAddr fo c 2 3 1) 8 8 = some (0x11, 12)) (fh 2) (setX 2 4 c0) :=
  ⟨met (by decide) (by decide), met (by decide) (by decide), met (by decide) (by decide), met (by decide) (by decide),
   met (by decide) (by decide)⟩
theorem test_wit_ScalarStores :
    Met (.st 4 2 3 0) (fun fo c => addrTrap fo c (localAddr fo c 2 3 0) 8 8 = none ∧ ofPrim fo ∧
      fits c (.store (localAddr fo c 2 3 0) (leBytes 8 (rdS fo c 4).toNat)) = true) (fp 2) cl ∧
    Met (.st 4 2 0 0) (fun fo c => addrTrap fo c (localAddr fo c 2 0 0) 1 1 = none ∧ ofHelper fo 2 ∧
      accFree c (localAddr fo c 2 0 0) 1) (fh 2) (setX 2 0x17FFFF c0) ∧
    Met (.st 4 2 3 0) (fun fo c => addrTrap fo c (localAddr fo c 2 3 0) 8 8 = none ∧ ofGate fo) (fg 2) (setS 2 0xFFF8 c0) ∧
    Met (.st 4 2 3 0) (fun fo c => addrTrap fo c (localAddr fo c 2 3 0) 8 8 = some (0x10, 0x10000)) (fg 2) (setS 2 0x10000 c0) ∧
    Met (.strel 4 2 0) (fun fo c => addrTrap fo c (localAddr fo c 2 3 0) 8 8 = none ∧ ofPrim fo ∧
      fits c (.store (localAddr fo c 2 3 0) (leBytes 8 (rdS fo c 4).toNat)) = true) (fp 2) cl ∧
    Met (.strel 4 2 0) (fun fo c => addrTrap fo c (localAddr fo c 2 3 0) 8 8 = none ∧ ofHelper fo 2 ∧
      accFree c (localAddr fo c 2 3 0) 8) (fh 2) (setX 2 0 c0) ∧
    Met (.strel 4 2 0) (fun fo c => addrTrap fo c (localAddr fo c 2 3 0) 8 8 = some (0x11, 0x180001)) (fp 2) (setS 2 0x180001 c0) :=
  ⟨met (by decide) (by decide), met (by decide) (by decide), met (by decide) (by decide), met (by decide) (by decide),
   met (by decide) (by decide), met (by decide) (by decide), met (by decide) (by decide)⟩
-- R110: a misaligned address past the end is MISALIGN; the last bytes pass, one further does not
theorem test_wit_LocalAddressChecks : 0x180001 % 8 ≠ 0 ∧ addrTrap (fp 2) c0 0x180001 8 8 = some (0x11, 0x180001) ∧
    addrTrap (fp 2) c0 0x180000 8 8 = some (0x10, 0x180000) ∧ addrTrap (fp 2) c0 0x17FFF8 8 8 = none ∧
    addrTrap (fg 2) c0 0xFFF8 8 8 = none ∧ addrTrap (fg 2) c0 0x10000 8 8 = some (0x10, 0x10000) ∧ c0.fences = 0 := by decide
theorem test_wit_ClusterWindow :
    Met (.xld 4 2 3 0) (fun fo c => windowTrap c (localAddr fo c 2 3 0) 8 = none) (fp 2) (setS 2 0x197FFF8 c0) ∧
    Met (.xst 4 2 3 0) (fun fo c => windowTrap c (localAddr fo c 2 3 0) 8 = none ∧ ofPrim fo ∧
      fits c (.xst (localAddr fo c 2 3 0) (leBytes 8 (rdS fo c 4).toNat)) = true) (fp 2) (setS 2 0x1000000 c0) ∧
    Met (.xst 4 2 3 0) (fun fo c => windowTrap c (localAddr fo c 2 3 0) 8 = none ∧ ofHelper fo 2) (fh 2) (setX 2 0x1000000 c0) ∧
    Met (.xld 4 2 3 0) (fun fo c => windowTrap c (localAddr fo c 2 3 0) 8 = some (0x11, 0x1000004)) (fp 2) (setS 2 0x1000004 c0) :=
  ⟨met (by decide) (by decide), met (by decide) (by decide), met (by decide) (by decide), met (by decide) (by decide)⟩
theorem test_wit_VectorLoadsAndStores :
    Met (.vld 12 2 1 0) (fun fo c => addrTrap fo c (vecAddr fo c 2 0) 256 4 = none ∧ accFree c (vecAddr fo c 2 0) 256) (fp 2)
      (setA 2 0x17FF00 c0) ∧
    Met (.vst 12 2 1 0) (fun fo c => addrTrap fo c (vecAddr fo c 2 0) 256 4 = none ∧ ofPrim fo ∧
      fits c (.store (vecAddr fo c 2 0) (vecBytes (rdGrid c 12))) = true) (fp 2) (setA 2 0x7FF80 c0) ∧
    Met (.vld 12 2 1 0) (fun fo c => addrTrap fo c (vecAddr fo c 2 0) 256 4 = some (0x10, 0x17FF04)) (fp 2) (setA 2 0x17FF04 c0) ∧
    Met (.vst 12 2 1 0) (fun fo c => addrTrap fo c (vecAddr fo c 2 0) 256 4 = some (0x11, 2)) (fp 2) (setA 2 2 c0) :=
  ⟨met (by decide) (by decide), met (by decide) (by decide), met (by decide) (by decide), met (by decide) (by decide)⟩
theorem test_wit_LaneAddressedAccesses :
    Met (.vldx 12 2 3) (fun fo c => lanesTrap fo c (laneAddrs fo c 2 3) = none ∧ c.cyc.turns = []) (fp 2) (setA 2 0x17FFFC c0) ∧
    Met (.vstx 12 2 3) (fun fo c => lanesTrap fo c (laneAddrs fo c 2 3) = none ∧ ofPrim fo ∧ c.cyc.turns = [] ∧
      fits c (.scatter 64 (List.zip (laneAddrs fo c 2 3) (rdGrid c 12))) = true) (fp 2) c0 ∧
    Met (.vldx 12 2 3) (fun fo c => lanesTrap fo c (laneAddrs fo c 2 3) = some (0x10, 0x180000)) (fp 2) (setA 2 0x180000 c0) :=
  ⟨met (by decide) (by decide), met (by decide) (by decide), met (by decide) (by decide)⟩
theorem test_wit_RegisterImages :
    Met (.qld 1 2 1) (fun fo c => addrTrap fo c (rdA fo c 2).toNat 1056 256 = none) (fp 2) (setA 2 0x100 c0) ∧
    Met (.kld 1 2 1) (fun fo c => addrTrap fo c (rdA fo c 2).toNat 520 256 = none) (fp 2) (setA 2 0x17FD00 c0) ∧
    Met (.qst 1 2 1) (fun fo c => ofPrim fo ∧ addrTrap fo c (rdA fo c 2).toNat 1056 256 = none ∧
      fits c (.storeQ (rdA fo c 2).toNat (qImage (spGet qReg0 c.p.q 1) ++ List.replicate 30 0)) = true) (fp 2) c0 ∧
    Met (.kst 1 2 1) (fun fo c => ofPrim fo ∧ addrTrap fo c (rdA fo c 2).toNat 520 256 = none ∧
      fits c (.storeK (rdA fo c 2).toNat (listImage (spGet candList0 c.lists 1))) = true) (fp 2) c0 ∧
    Met (.qld 1 2 1) (fun fo c => addrTrap fo c (rdA fo c 2).toNat 1056 256 = some (0x11, 4)) (fp 2) (setA 2 4 c0) ∧
    candList0.count ≤ 64 ∧ candList0.ents.length = 64 :=
  ⟨met (by decide) (by decide), met (by decide) (by decide), met (by decide) (by decide), met (by decide) (by decide),
   met (by decide) (by decide), by decide, by decide⟩
/-- A ring of four slots of 256 bytes at 0x1000 (R56): one filled, full, and empty. -/
def ring1 : BitVec 128 := BitVec.ofNat 128 (2 ^ 32 + 2 ^ 77 * 16 + 2 ^ 90 * 0 + 2 ^ 96 * 2)
def ring4 : BitVec 128 := BitVec.ofNat 128 (2 ^ 32 * 4 + 2 ^ 77 * 16 + 2 ^ 96 * 2)
def ring0 : BitVec 128 := BitVec.ofNat 128 (2 ^ 77 * 16 + 2 ^ 96 * 2)
theorem test_wit_RingHandles :
    Met (.hpush 12 3) (fun fo c => ofPrim fo ∧ hFilled (rdHandle c 3) < hSlots (rdHandle c 3) ∧ hRv (rdHandle c 3) = false ∧
      fits c (.store (hAddr (rdHandle c 3) (hProd (rdHandle c 3)) 0) (vecBytes (rdGrid c 12))) = true) (fp 2) (setH 3 ring1 c0) ∧
    Met (.hpop 12 3) (fun _ c => hFilled (rdHandle c 3) ≠ 0 ∧ hRv (rdHandle c 3) = false ∧
      accFree c (hAddr (rdHandle c 3) (hCons (rdHandle c 3)) 0) 256) (fp 2) (setH 3 ring1 c0) ∧
    Met (.hpush 12 3) (fun _ c => hSlots (rdHandle c 3) ≤ hFilled (rdHandle c 3)) (fp 2) (setH 3 ring4 c0) ∧
    Met (.hpop 12 3) (fun _ c => hFilled (rdHandle c 3) = 0) (fp 2) (setH 3 ring0 c0) :=
  ⟨met (by decide) (by decide), met (by decide) (by decide), met (by decide) (by decide), met (by decide) (by decide)⟩
theorem test_wit_HandleSlotAddress : (0x19F : BitVec 9).toNat / 2 ^ 7 = 3 := by decide
theorem test_wit_LiftFifo :
    Met (.lift 12) (fun fo c => c.gate = 0 ∧ c.liftFree ≠ 0 ∧ ofPrim fo ∧ fits c (.lift (rdGrid c 12)) = true) (fp 2) c0 ∧
    Met (.lift 12) (fun _ c => c.gate ≠ 0) (fp 2) { c0 with gate := 1 } ∧
    Met (.lift 12) (fun _ c => c.gate = 0 ∧ c.liftFree = 0) (fp 2) { c0 with liftFree := 0 } ∧
    Met (.lpop 12) (fun _ c => c.lift = [] ++ (c.liftSrc, 0, []) :: [] ∧ 0 = c.liftSrc) (fu 2) { u0 with lift := [(0, 0, [])] } ∧
    Met (.lpop 12) (fun _ c => ∀ e ∈ c.lift, ¬(e.1 = c.liftSrc ∧ e.2.1 = 0)) (fu 2) { u0 with lift := [(0, 1, [])] } :=
  ⟨met (by decide) (by decide), met (by decide) (by decide), met (by decide) (by decide), met (by decide) (by decide),
   met (by decide) (by decide)⟩
/-- A base core whose helpers' micro-TLB holds page 0x40000 of context 3, and the same held by its cluster only. -/
def cg : Core := { setX 2 0x40008 c0 with utlbH := [⟨3, 0x40000, 0x10000, 0x100000, 0, true, true, true⟩] }
def sg : State := at0 cg (fh 2)
def sgCluster : State := { at0 (setX 2 0x40008 c0) (fh 2) with
  clusters := [(0, ⟨true, [], [⟨3, 0x40000, 0x10000, 0x100000, 0, true, true, true⟩], 0⟩)] }
def gcore : Core := setS 2 0x40008 (coreAtLaunch 512 false 0 3 0 0 0)
def sgGate : State := { at0 gcore (fg 2) with hubTlb := [⟨3, 0x40000, 0x10000, 0x100000, 0, true, true, true⟩] }
theorem test_wit_GlobalAccesses :
    (Ready (.gld 4 2 3 0) sg cg ∧ globalAddr (fh 2) cg 2 3 0 = 0x40008 ∧
      (sg.xlate 0 (.helper 2) 3 0x40008 .read).1 = .ok ⟨0x100008, 0, 0⟩) ∧
    (Ready (.gst 4 2 3 0) sg cg ∧ (sg.xlate 0 (.helper 2) 3 0x40008 .write).1 = .ok ⟨0x100008, 0, 0⟩) ∧
    (Ready (.gst 4 2 3 0) sgCluster (setX 2 0x40008 c0) ∧
      (sgCluster.xlate 0 (.helper 2) 3 0x40008 .write).1 = .ok ⟨0x100008, 0, 4⟩) ∧
    (Ready (.gst 4 2 3 0) sgGate gcore ∧ ofGate sgGate.focus ∧
      (sgGate.xlate 512 .gateway 3 0x40008 .write).1 = .ok ⟨0x100008, 0, 0⟩) ∧
    (Ready (.gatom 4 2 3 2 9) sg cg ∧ (sg.xlate 0 (.helper 2) 3 0x40008 (.atomic 9)).1 = .ok ⟨0x100008, 0, 0⟩) ∧
    (Ready (.cinv 2 0) sg cg ∧ Ready (.cclean 2 0) sg cg ∧
      (sg.xlate 0 (.helper 2) 3 0x40008 .clean).1 = .ok ⟨0x100008, 0, 0⟩) ∧
    Met (.gld 4 2 3 0) (fun fo c => globalAddr fo c 2 3 0 % 8 ≠ 0) (fh 2) (setX 2 0x40001 c0) :=
  ⟨⟨ready_at0 (by decide), by decide, rfl⟩, ⟨ready_at0 (by decide), rfl⟩, ⟨⟨rfl, by decide⟩, rfl⟩, ⟨⟨rfl, by decide⟩, rfl, rfl⟩,
   ⟨ready_at0 (by decide), rfl⟩, ⟨ready_at0 (by decide), ready_at0 (by decide), rfl⟩, met (by decide) (by decide)⟩
theorem test_wit_VectorOperationsIssue : Ready (.vadd 5 0 1 2 3) (at0 c0 (fp 3)) c0 ∧ classOf (.vadd 5 0 1 2 3) = some .V ∧
    gridOnly (.vadd 5 0 1 2 3) = true ∧ vClear (.vadd 5 0 1 2 3) (fp 3) c0 ∧ Ready (.qadd 0 0 1 2 3) (at0 c0 (fp 4)) c0 ∧
    gridOnly (.qadd 0 0 1 2 3) = true ∧ vClear (.qadd 0 0 1 2 3) (fp 4) c0 :=
  ⟨ready_at0 (by decide), by decide, by decide, by decide, ready_at0 (by decide), by decide, by decide⟩
/-- x as the stream at a2 (operand code 0x102), whose address lies past the end; the V1 unit occupied; no room left. -/
def vPast : Core := setA 2 0x180000 c0
def vBusyCore : Core := { c0 with p := { c0.p with v1Busy := 1 } }
theorem test_wit_VectorOperationsFromStorage :
    (Ready (.vrcp 0 0 1 2) (at0 vBusyCore (fp 4)) vBusyCore ∧ vBusy (fp 4) vBusyCore (.vrcp 0 0 1 2) = true) ∧
    (Ready (.tap 0 0 2 1) (at0 cs (fp 4)) cs ∧ vBusy (fp 4) cs (.tap 0 0 2 1) = false ∧ tapCheck cs (rdS (fp 4) cs 1) = some cTAPWORD) ∧
    (Ready (.vadd 5 0 1 0x110 3) (at0 vPast (fp 3)) vPast ∧ vBusy (fp 3) vPast (.vadd 5 0 1 0x110 3) = false ∧
      firstTrap (fp 3) vPast (vAddrs (fp 3) vPast (.vadd 5 0 1 0x110 3)) = some (0x10, 0x180000)) ∧
    (Ready (.vadd 5 0 1 0x110 3) (at0 c0 (fp 3)) c0 ∧ firstTrap (fp 3) c0 (vAddrs (fp 3) c0 (.vadd 5 0 1 0x110 3)) = none ∧
      c0.storeUse + vNeed c0 (.vadd 5 0 1 0x110 3) (.grid 1) 0 ≤ 256) :=
  ⟨⟨ready_at0 (by decide), by decide⟩, ⟨ready_at0 (by decide), by decide, by decide⟩, ⟨ready_at0 (by decide), by decide, by decide⟩,
   ready_at0 (by decide), by decide, by decide⟩
theorem test_wit_UnitBusyTrap : Ready (.vrcp 0 0 1 2) (at0 vBusyCore (fp 4)) vBusyCore ∧ ofPrim (fp 4) ∧ (fp 4).slot = 4 ∧
    0 < vBusyCore.p.v1Busy := ⟨ready_at0 (by decide), rfl, rfl, by decide⟩
theorem test_wit_lanes : (List.replicate 64 (0 : Lane)).length = 64 := by decide
theorem test_wit_CompareWritesPredicate : (5 : BitVec 3).toNat < 6 := by decide
def cq : Core := { c0 with lists := [(3, ⟨2, List.replicate 64 (5, 6)⟩)],
                           p := { c0.p with mask := ⟨true, 0, 0⟩, gram := { gram0 with valid := true, nchunk := 1, nsym := 4, nstate := 2 } } }
def kBusyCore : Core := { c0 with p := { c0.p with kBusy := 1 } }
theorem test_wit_SortUnitOperations :
    Met (.kmergel 3 1 2 0) laneFree (fp 5) c0 ∧
    Met (.kmerge 3 1 2 0) (fun fo c => laneFree fo c ∧ addrTrap fo c (rdA fo c 2).toNat 256 4 = none) (fp 5) c0 ∧
    Met (.kmask 3) (fun fo c => laneFree fo c ∧ (maskOf fo c).valid = true) (fp 5) cq ∧ Met .gsetFl laneFree (fp 5) c0 ∧
    Met (.gstep 2) (fun fo c => laneFree fo c ∧ 0xFFFFFFFE ≤ (rdA fo c 2).toNat) (fp 5) (setA 2 0xFFFFFFFE c0) ∧
    Met (.gstep 2) (fun fo c => laneFree fo c ∧ (gramOf fo c).valid = true ∧
      (rdA fo c 2).toNat < 512 * ((gramOf fo c).nchunk + 1) ∧ (rdA fo c 2).toNat < 0xFFFFFFFE) (fp 5) (setA 2 1023 cq) ∧
    Met (.gmask 1) (fun fo c => laneFree fo c ∧ (gramOf fo c).valid = true ∧ 1 ≤ (gramOf fo c).nchunk ∧ c.mcache = []) (fp 5) cq ∧
    Met (.gsetLd 2) (fun fo c => laneFree fo c ∧ addrTrap fo c (rdA fo c 2).toNat 64 64 = none) (fp 5) c0 ∧
    Met (.gsetRs 2) (fun fo c => laneFree fo c ∧ addrTrap fo c (rdA fo c 2).toNat 64 64 = none) (fp 5) (setA 2 0x17FFC0 c0) ∧
    Met (.gsetSt 2) (fun fo c => laneFree fo c ∧ ofPrim fo ∧ c.storeUse < 256 ∧ addrTrap fo c (rdA fo c 2).toNat 64 64 = none)
      (fp 5) c0 ∧
    Met (.ksamp 3 1 2 0) (fun fo c => laneFree fo c ∧ ofPrim fo ∧ c.storeUse < 256 ∧ addrTrap fo c (rdA fo c 2).toNat 8 8 = none ∧
      c.ktrap = false) (fp 5) c0 ∧
    Met (.kclr 3) (fun fo c => ofPrim fo ∧ 0 < c.p.kBusy) (fp 5) kBusyCore :=
  ⟨met (by decide) (by decide), met (by decide) (by decide), met (by decide) (by decide), met (by decide) (by decide),
   met (by decide) (by decide), met (by decide) (by decide), met (by decide) (by decide), met (by decide) (by decide),
   met (by decide) (by decide), met (by decide) (by decide), met (by decide) (by decide), met (by decide) (by decide)⟩
theorem test_wit_KSEND : let s := { at0 c0 (fp 5) with trees := [(0, ⟨3, 8, 0, [(0xFF, 2, 0, 0)], []⟩)] }
    Ready (.ksend 3 2) s c0 ∧ ofPrim s.focus ∧ c0.p.kBusy = 0 ∧ s.treeTakes c0 (rdA s.focus c0 2).toNat = true ∧
    (rdA s.focus c0 2).toNat < 2 ^ 16 ∧ fits c0 (.ksend 0 0 (spGet candList0 c0.lists 3)) = true :=
  ⟨⟨rfl, by decide⟩, rfl, by decide, by decide, by decide, by decide⟩
theorem test_wit_ClearList : Met (.kclr 3) laneFree (fp 5) c0 ∧ Met (.ktop 3 30 1) laneFree (fp 5) c0 ∧
    Met (.ksort 3 1 0) laneFree (fp 5) c0 ∧ Met (.ksort 3 0 1) laneFree (fp 5) c0 :=
  ⟨met (by decide) (by decide), met (by decide) (by decide), met (by decide) (by decide), met (by decide) (by decide)⟩
theorem test_wit_EngineCommandsIssue :
    Met (.mmul 2 3 4 1 0) (fun fo c => fits c (.cmd ⟨0x10, 0, rdS fo c 2, rdS fo c 3, rdS fo c 4, 2, fo.bundle⟩) = true) (fp 6) c0 ∧
    Met (.mcode 2) (fun fo c => fits c (.cmd ⟨0x13, 0, rdS fo c 2, 0, 0, 0, fo.bundle⟩) = true) (fp 6) c0 ∧
    Met (.cpy 2 3 4 3) (fun fo c => fits c (.cmd ⟨0x20, 3, rdS fo c 2, rdS fo c 3, rdS fo c 4, 0, fo.bundle⟩) = true) (fp 6) c0 ∧
    Met (.cseal 6 0) (fun fo c => fits c (.cmd ⟨0x24, 0, 0, 0, 0, 0, fo.bundle⟩) = true) (fp 6) c0 ∧
    Met (.sendm 2 3 4) (fun fo c => (rdS fo c 2).toNat < 512 ∧ (rdS fo c 2).toNat % 128 < 120 ∧
      fits c (.sendm (rdS fo c 2).toNat 4 (rdS fo c 3)) = true) (fp 6) (setS 2 503 c0) ∧
    Met (.sendm 2 3 4) (fun fo c => 512 ≤ (rdS fo c 2).toNat ∨ 120 ≤ (rdS fo c 2).toNat % 128) (fp 6) (setS 2 504 c0) :=
  ⟨met (by decide) (by decide), met (by decide) (by decide), met (by decide) (by decide), met (by decide) (by decide),
   met (by decide) (by decide), met (by decide) (by decide)⟩
theorem test_wit_EngineQueries : Met (.eqry 2 3) (fun _ _ => True) (fp 6) c0 ∧ (3 : Nat) < 4 ∧ c0.upper = false ∧
    2 ^ 12 ≤ (wN 4096).toNat ∧ 8 ≤ (wN 32).toNat / 4 % 16 := ⟨met (by decide) trivial, by decide, rfl, by decide, by decide⟩
theorem test_wit_WaitsMet :
    Met (.fwait 4 2) (fun _ c => 2 + flagTaken c 4 ≤ (spGet 0 c.f 4).toNat) (fp 7) { c0 with f := [(4, 2)] } ∧
    Met (.twait 4 9) (fun fo c => (rdS fo c 9).toNat ≤ timeline c 4 ∧ (rdS fo c 9).toNat ≤ sealedAt c 4) (fp 7) c0 ∧
    Met (.hwait 3 1) (fun _ c => 1 ≤ hSlots (rdHandle c 3) ∧ 1 ≤ hFilled (rdHandle c 3)) (fp 7) (setH 3 ring1 c0) ∧
    Met (.hfree 3 3) (fun _ c => hFilled (rdHandle c 3) + 3 ≤ hSlots (rdHandle c 3)) (fp 7) (setH 3 ring1 c0) ∧
    Met (.mwait 3) (fun _ c => mbPresent c 3 = true) (fp 7) { c0 with mb := [(3, (7, true))] } ∧
    Met (.lwait 16) (fun _ c => 16 ≤ c.liftFree) (fp 7) c0 ∧ Met .phase (fun _ c => phaseDone c = true) (fp 7) c0 ∧
    Met .fence (fun fo c => ofPrim fo ∧ primQuiet c = true) (fp 7) c0 ∧
    Met .fence (fun fo c => ofHelper fo 2 ∧ helperQuiet 2 c = true ∧ noStores 2 c = true) (fh 7) c0 :=
  ⟨met (by decide) (by decide), met (by decide) (by decide), met (by decide) (by decide), met (by decide) (by decide),
   met (by decide) (by decide), met (by decide) (by decide), met (by decide) (by decide), met (by decide) (by decide),
   met (by decide) (by decide)⟩
theorem test_wit_WaitsUnmet :
    Met (.fwait 4 2) (fun fo c => ofPrim fo ∧ waitEval fo c (.fwait 4 2) = .unmet) (fp 7) c0 ∧
    Met (.mwait 3) (fun fo c => ofHelper fo 2 ∧ waitEval fo c (.mwait 3) = .unmet) (fh 7) c0 ∧
    Met .phase (fun fo c => ofPrim fo ∧ phaseDone c = false) (fp 7) { c0 with gwOut := 1 } ∧
    Met (.twait 0 9) (fun fo c => ofPrim fo ∧ sealedAt c 0 < (rdS fo c 9).toNat) (fp 7) (setS 9 1 c0) ∧
    Met (.hwait 3 5) (fun _ c => hSlots (rdHandle c 3) < 5) (fp 7) (setH 3 ring1 c0) ∧
    Met (.hfree 3 5) (fun _ c => hSlots (rdHandle c 3) < 5) (fp 7) (setH 3 ring1 c0) :=
  ⟨met (by decide) (by decide), met (by decide) (by decide), met (by decide) (by decide), met (by decide) (by decide),
   met (by decide) (by decide), met (by decide) (by decide)⟩
theorem test_wit_PostsAndMarks :
    Met (.fpost 4 2) (fun fo c => ofPrim fo ∧ fits c (.flag 4 2) = true) (fp 7) c0 ∧
    Met (.fpost 4 2) (fun fo _ => ofHelper fo 2) (fh 7) c0 ∧
    Met (.fpostx 4 2 1) (fun fo c => ofPrim fo ∧ (rdS fo c 2).toNat < 512 ∧ (rdS fo c 2).toNat % 128 < 120 ∧
      fits c (.flagx (rdS fo c 2).toNat 4 1) = true) (fp 7) (setS 2 503 c0) ∧
    Met (.fpostx 4 2 1) (fun fo c => ¬ofPrim fo ∧ (rdS fo c 2).toNat < 512 ∧ (rdS fo c 2).toNat % 128 < 120) (fh 7) c0 ∧
    Met (.fpostx 4 2 1) (fun fo c => 512 ≤ (rdS fo c 2).toNat ∨ 120 ≤ (rdS fo c 2).toNat % 128) (fp 7) (setS 2 120 c0) ∧
    Met (.hadv 3 1 3) (fun _ c => hRv (rdHandle c 3) = false ∧ hFilled (rdHandle c 3) + 3 ≤ hSlots (rdHandle c 3)) (fp 7)
      (setH 3 ring1 c0) ∧
    Met (.hadv 3 1 4) (fun _ c => hSlots (rdHandle c 3) < hFilled (rdHandle c 3) + 4) (fp 7) (setH 3 ring1 c0) ∧
    Met (.hadv 3 0 2) (fun _ c => hFilled (rdHandle c 3) < 2) (fp 7) (setH 3 ring1 c0) ∧
    Met (.bara 31 7) (fun fo c => ofPrim fo ∧ fits c (.bara 255) = true) (fp 7) c0 ∧
    Met (.bara 31 7) (fun fo _ => ¬ofPrim fo) (fh 7) c0 ∧ Met (.chk 2) (fun _ _ => True) (fp 7) { c0 with schk := true } ∧
    Met .ckpt (fun _ _ => True) (fp 7) c0 :=
  ⟨met (by decide) (by decide), met (by decide) rfl, met (by decide) (by decide), met (by decide) (by decide),
   met (by decide) (by decide), met (by decide) (by decide), met (by decide) (by decide), met (by decide) (by decide),
   met (by decide) (by decide), met (by decide) (by decide), met (by decide) trivial, met (by decide) trivial⟩
theorem test_wit_EmptySlotsChangeNothing : Ready .holdM (at0 c0 (fp 2)) c0 ∧ isHold .holdM = true ∧ Ready .nilY (at0 c0 (fh 7)) c0 :=
  ⟨ready_at0 (by decide), by decide, ready_at0 (by decide)⟩
theorem test_wit_IllegalFormsTrap : isSlotOp (.start 1 2 3) = true ∧ (at0 c0 (fh 1)).core 0 = some c0 ∧
    legal (fh 1) c0 (.start 1 2 3) = false ∧ legal (fg 5) (coreAtLaunch 512 false 0 3 0 0 0) (.kclr 3) = false :=
  ⟨by decide, rfl, by decide, by decide⟩
theorem test_wit_EncodeThenDecode : wf (.vadd 5 3 383 0 511) = true ∧ wf (.gatom 63 63 63 2 9) = true ∧
    wf (.rep 63 15 16383) = true := by decide
theorem test_wit_WithheldStoresForwarded : ofPrim (fp 2) ∧ ofHelper (fh 2) 2 := ⟨rfl, rfl⟩
theorem test_wit_ExecutionAlwaysAnswers : isSlotOp .nilI = true ∧ State.reset.core State.reset.focus.core = none ∧
    exec .nilI State.reset = .fault .noCore ∧ State.reset.agenda = [] := ⟨by decide, rfl, rfl, rfl⟩
def sstep : State := { at0 c0 (fp 0) with agenda := [.slot 0 .prim 0], clusters := [(0, ⟨true, [], [], 0⟩)] }
theorem test_wit_StepRunsTheDecodedSlot : sstep.agenda = .slot 0 .prim 0 :: [] ∧ sstep.core 0 = some c0 ∧
    slotDead .prim c0 = false ∧ (sstep.slotInstr 0 .prim 0 c0).toOption = some .nilI ∧
    (sstep.slotHeld .prim (sstep.slotFocus 0 .prim 0 c0) c0 .nilI).isNone = true := ⟨rfl, rfl, by decide, by decide, rfl⟩
theorem test_wit_StepRunsEvents : ({ State.reset with agenda := [.event 3 .stopTick, .nextTick] } : State).agenda =
    .event 3 .stopTick :: [.nextTick] ∧ State.reset.agenda = [] := ⟨rfl, rfl⟩
theorem test_wit_SlotOperationsTouchTheirCore : isSlotOp (.add 4 1 2) = true ∧ reachesOut (.add 4 1 2) = false ∧
    (match exec (.add 4 1 2) (at0 cs (fp 0)) with | .next _ => true | _ => false) = true := ⟨by decide, by decide, rfl⟩
theorem test_wit_ResultsLand : ofPrim (fp 0) ∧ ofHelper (fh 0) 2 ∧ 2 < c0.helpers.length ∧
    ownsRegs ((c0.setHelper 2 { helper0 with st := .live }).helper 2) = true := ⟨rfl, rfl, by decide, by decide⟩
theorem test_wit_MemoryReadsWhatWasWritten : Memory.wf [] = true ∧ Memory.wf (memPut [] (2 ^ 52 - 1) [1, 0, 2]) = true := by decide
theorem test_wit_PrimaryTrapEntry : ofPrim (fp 3) ∧ softCause 0x30 = true ∧ softCause 0x12 = false ∧ c0.retry = false ∧
    ({ c0 with retry := true } : Core).retry = true := ⟨rfl, by decide, by decide, rfl, rfl⟩
theorem test_wit_HelperTrapEntry : ofHelper (fh 3) 2 ∧ 2 < c0.helpers.length ∧ ofGate (fg 3) ∧ c0.run ≠ .halted ∧
    ({ c0 with run := .halted } : Core).run = .halted := ⟨rfl, by decide, rfl, by decide, rfl⟩
def cRestore : Core := { c0 with run := .restore 1 true 0x30 }
def cDue : Core := { c0 with p := { c0.p with pend := [⟨1, .prim, 0, 50, 5, 0, [.trap 0x40 7]⟩] } }
theorem test_wit_ReturnFromTrap : (at0 cRestore (fp 0)).core 0 = some cRestore ∧ cRestore.run = .restore 1 true 0x30 ∧
    (at0 cDue (fp 0)).core 0 = some cDue ∧ cDue.p.pend = [⟨1, .prim, 0, 50, 5, 0, [.trap 0x40 7]⟩] ∧ c0.run = .run ∧
    c0.p.pend = [] ∧ State.reset.core State.reset.focus.core = none := ⟨rfl, rfl, rfl, rfl, rfl, rfl, rfl⟩
theorem test_wit_RollbackSparesHelpers : ({ c0 with listSave := [(3, candList0)] } : Core).listSave = [(3, candList0)] := rfl
theorem test_reset_inv : State.reset.inv := ⟨by decide, by decide⟩
theorem test_wit_StepsKeepTheInvariant : State.reset.inv ∧ (match step State.reset with | .next _ => true | _ => false) = true :=
  ⟨test_reset_inv, rfl⟩
def cMail : Core := { c0 with mb := [(3, (7, true))], inbox := [(3, 9)] }
theorem test_wit_MessagesArrive : (at0 c0 (fp 0)).core 0 = some c0 ∧ (spGet ((0 : Word), false) c0.mb (35 % 32)).2 = false ∧
    35 % 32 ∉ c0.p.marks ∧ (∀ e ∈ c0.inbox, e.1 ≠ 35 % 32) ∧ (∀ e ∈ c0.recvHeld, e.1 ≠ 35 % 32) ∧
    (at0 cMail (fp 0)).core 0 = some cMail ∧ (spGet ((0 : Word), false) cMail.mb 3).2 = true ∧ cMail.inbox.length < 63 ∧
    (at0 c0 (fp 0)).takes 3 0 = true ∧ (at0 c0 (fp 0)).takes 3 1 = false ∧ cMail.inbox = (3, 9) :: [] ∧
    ((c0.setHelper 2 { helper0 with st := .trapped }).helper 2).st = .trapped ∧ (c0.helper 2).st ≠ .trapped ∧
    (at0 c0 (fp 0)).core 1 = none :=
  ⟨rfl, by decide, by decide, by decide, by decide, rfl, by decide, by decide, by decide, by decide, rfl, by decide, by decide, rfl⟩
/-- A bundle with HOLD in slot I0 (R90), in the cluster of core 0; a helper live at it. -/
def cBad : Core := c0.setHelper 2 { helper0 with st := .live, pc := 4 }
def sBad : State := { at0 cBad (fp 0) with clusters := [(0, ⟨true, [(4, BitVec.ofNat 256 (0x01000000 * 2 ^ slotLo 0))], [], 0⟩)] }
def l0 : Launch := ⟨7, 2, 0, 1, 3, [], [], [], [], .running, false, false, [0], [], 0, false, 1, 0, 0, [], 0, 1, 0, 0, 0, 0, 0, 0, 0, 0,
  [], [0], 0, 0, 0, 0, 0, 0, [], [], false, ⟨0, [], []⟩, 0, 0⟩
theorem test_wit_CoreAndGatewayEvents : (match sBad.hNext 0 (cBad.helper 2) with | .bad _ => true | _ => false) = true ∧
    (cBad.helper 2).st = .live ∧ c0.run = .run ∧ ({ c0 with run := .halted } : Core).run = .halted ∧
    ({ at0 c0 (fp 0) with launches := [l0] } : State).launchOf c0.launch = some l0 ∧
    (State.reset.setReg 0x1A88 1).fld 0x1A80 31 0 < (State.reset.setReg 0x1A88 1).fld 0x1A88 31 0 ∧
    State.reset.fld 0x1A88 31 0 ≤ State.reset.fld 0x1A80 31 0 ∧ (at0 gcore (fg 0)).core (512 + 0) = some gcore ∧
    0xFFF8 + 8 ≤ 0x10000 := ⟨rfl, by decide, rfl, rfl, rfl, by decide, by decide, rfl, by decide⟩
def rq (op : ReqOp) : Req := { req0 with id := 5, agent := .helper 2, op := op, pa := 0x1000, len := 8 }
def cReq : Core := c0.setHelper 2 { helper0 with st := .live, reqs := [5] }
def rBack (fill : Bool) : Req := { rq .read with got := some [1, 2], fill := fill }
def fe (agent : Agent) (w : Bool) : FaultE := ⟨1, 0, agent, 3, 0x06, 0x40000, w, []⟩
def sbp (coh10 : Bool) : SbP := ⟨2, 1, 0, coh10, 1, List.replicate 64 7⟩
def sbe (coh10 : Bool) : SbE := ⟨64, [sbp coh10]⟩
def cSb (coh10 : Bool) : Core := { c0 with sb := [sbe coh10], hc := [⟨64, List.replicate 64 0, 0, 0, 0⟩] }
theorem test_wit_GlobalMemoryEvents :
    [rq .read].find? (fun q => q.id = 5) = some (rq .read) ∧ (rq .read).look = false ∧ (rq .read).got = none ∧
    [rq .write].find? (fun q => q.id = 5) = some (rq .write) ∧ regionOf (localOf (rq .write).pa) ≠ .regs ∧
    [rq (.atomic 0 1 2)].find? (fun q => q.id = 5) = some (rq (.atomic 0 1 2)) ∧
    [rBack false].find? (fun q => q.id = 5) = some (rBack false) ∧ (rBack true).fill = true ∧ (rBack true).stale = false ∧
    (rBack true).ret = 0 ∧ cReq.frozen = false ∧ (cReq.helper 2).reqs.contains 5 = true ∧
    [fe .gateway true].find? (fun x => x.written && x.entry = 1) = some (fe .gateway true) ∧ (fe .gateway true).agent = .gateway ∧
    (fe .fill false).written = false ∧ (State.reset.setReg 0x1108 (2 ^ 63 + 6)).reg 0x1108 / 2 ^ 63 % 2 = 1 ∧
    (State.reset.setReg 0x1108 (2 ^ 63 + 6)).fqFree = true ∧ State.reset.reg 0x1108 / 2 ^ 63 % 2 = 0 := by decide
theorem test_wit_storeBufferDrain : (at0 (cSb false) (fp 0)).core 0 = some (cSb false) ∧ (cSb false).sb = sbe false :: [] ∧
    (sbe false).parts = sbp false :: [] ∧
    (at0 (cSb false) (fp 0)).sbHeld 0 (cSb false) 64 (sbp false) = false ∧ (hcFind (cSb false) 64).isSome = true ∧
    (at0 (cSb true) (fp 0)).sbHeld 0 (cSb true) 64 (sbp true) = false := ⟨rfl, rfl, rfl, by decide, by decide, by decide⟩
theorem test_wit_pageWalk : (2 : Nat) ^ 52 ≤ 2 ^ 52 ∧ 0x40008 < 2 ^ 52 := by decide
def sTinv : State := { State.reset with tinv := [wN (2 ^ 63)] }
theorem test_wit_tinv : State.reset.tinv.length < 9 ∧ sTinv.tinv = wN (2 ^ 63) :: [] ∧ sTinv.tinvRun = none ∧
    (sTinv.tinvStart (wN (2 ^ 63))).accessesUnder = false ∧ (List.replicate 9 (0 : Word)).length = 9 ∧
    (({ sTinv with tinvRun := some ([], 0, 0) } : State).framesFlush []).accessesUnder = false := by decide
def cc (op : Nat) (cause : Option Nat) (st : Bool) : CopyCmd := ⟨⟨op, 0, 0, 0, wN 8, 0, 50⟩, cause, 0, [], st, 0, 0, none, 0⟩
def withQ (l : List CopyCmd) (fin : Option CopyCmd) (c : Core) : Core := c.setCq 0 { copyQ0 with cmds := l, fin := fin }
def cRun : Core := withQ [cc 0x20 none true] none c0
def cTimed : Core := { c0 with eng := { c0.eng with tsb := [(900, 0, cc 0x20 none false)] } }
theorem test_wit_copy : ((withQ [] (some (cc 0x20 none true)) c0).cq 0).fin = some (cc 0x20 none true) ∧
    nodeOf c0 (cc 0x20 none true) = none ∧ (cc 0x20 none true).c.z.getLsbD 53 = false ∧ (c0.cq 0).fin = none ∧
    atBoundary cTimed 0 = true ∧ dueTimed cTimed 0 900 = some (900, 0, cc 0x20 none false) ∧
    startable (withQ [cc 0x20 none false] none c0) 0 = true ∧ startable c0 0 = false ∧ stoppable c0 0 = false ∧
    stoppable (withQ [cc 0x20 (some 0x3C) false] none c0) 0 = true := by decide
theorem test_wit_copyBurst : running (burstWrite 0 c0) 0 = none ∧ running (burstWrite 0 cRun) 0 = some (cc 0x20 none true) ∧
    copyTotal (cc 0x20 none true) ≠ 0 ∧ copyTotal ⟨⟨0x20, 0, 0, 0, 0, 0, 50⟩, none, 0, [], true, 0, 0, none, 0⟩ = 0 ∧
    cRun.eng.rd = false ∧ turnOf cRun = some 0 ∧ (cRun.cq 0).burst = none ∧ 0 < c0.eng.qs.length := by decide
def withM (l : List MCmd) (c : Core) : Core := { c with mat := { c.mat with cmds := l } }
def mc (op : Nat) (cause : Option Nat) : MCmd := ⟨0, ⟨op, 0, 0, 0, 0, 0, 50⟩, cause, false, false, 0⟩
def unit (step : Nat) (d : Option (Nat × List Byte)) (z : Word) : MUnit := ⟨0, ⟨0x11, 0, 0, 0, z, 0, 50⟩, step, d, none, [], []⟩
theorem test_wit_matrix : nextOf (withM [mc 0x10 none] c0) 0x10 = some (mc 0x10 none) ∧ tokensOk c0 (mc 0x10 none).c = true ∧
    nextOf (withM [mc 0x11 none] c0) 0x11 = some (mc 0x11 none) ∧ nextOf (withM [mc 0x12 none] c0) 0x12 = some (mc 0x12 none) ∧
    nextOf (withM [mc 0x13 none] c0) 0x13 = some (mc 0x13 none) ∧
    drainDone (unit 0 (some (128, [])) 0) = true ∧ (unit 0 none (wN (2 ^ 17))).c.z.getLsbD 17 = true ∧
    (unit 0 none 0).c.z.getLsbD 17 = false ∧ fillDone (unit 0x800000 none 0) = true ∧
    failing true (withM [mc 0x11 (some 0x3C)] c0) = some (mc 0x11 (some 0x3C)) ∧ failing true c0 = none := by decide
def cSwap (got : Nat) : Core := { c0 with mat := { c0.mat with swap := some (unit 0 none 0), swapLive := true, swapGot := got } }
theorem test_wit_swap : swapDoneB (cSwap 0x1000000) = true ∧ c0.mat.swapLive = false ∧
    ({ at0 c0 (fp 0) with launches := [l0] } : State).nowCore c0.launch c0.mat.partner = (fp 0).core := by decide
/-- Stream 2 enabled with one packet of the type at the head of its ring of 16 at address 0. -/
def sPacket (ty : Nat) (d1 : Nat) : State := { ((State.reset.setReg (strReg 2 8) (2 ^ 63 + 4)).setReg (strReg 2 0x10) 1) with
  focus := { focus0 with core := 2 }, mem := memPut (memPut [] 0 (leBytes 8 (ty * 2 ^ 60))) 8 (leBytes 8 d1) }
theorem test_wit_packets : State.reset.hasPacket State.reset.focus.core = false ∧ (sPacket 0 0).hasPacket 2 = true ∧
    (((sPacket 0 0).takePacket 2).1.getD 0 0).toNat / 2 ^ 60 = 0 ∧ otherBad ((sPacket 2 0).takePacket 2).1 0 = false ∧
    otherBad ((sPacket 1 255).takePacket 2).1 8 = false ∧ otherBad ((sPacket 3 (512 * 256)).takePacket 2).1 18 = false ∧
    (((sPacket 3 (512 * 256)).takePacket 2).1.getD 1 0).toNat / 256 % 1024 = 512 := by decide +kernel
def lx (st : LState) : Launch := { l0 with state := st }
def sl (st : LState) : State := { State.reset with launches := [lx st] }
theorem test_wit_launches : (sl .running).launchOf 7 = some (lx .running) ∧ State.reset.launchOf 7 = none ∧ (lx .running).left = [] ∧
    (lx .running).passes = 0 ∧ (lx .finished).state = .finished ∧ (sl .finished).hubReadOut 3 = false ∧
    (sl .killing).killQuiet 7 = true ∧ (lx .killing).ctx = 3 ∧ ({ l0 with images := [⟨0, c0⟩] } : Launch).images ≠ [] ∧
    ({ l0 with passes := 3, pass := 1 } : Launch).pass + 1 < 3 ∧ partsOver { l0 with passes := 3, pass := 2 } = true := by decide
theorem test_wit_swapping : State.reset.swapOn = false ∧ (State.reset.setReg 0x1500 (2 ^ 63 + 2 ^ 24)).swapOn = true ∧
    (State.reset.setReg 0x1500 (2 ^ 63 + 2 ^ 24)).poolCount < (State.reset.setReg 0x1500 (2 ^ 63 + 2 ^ 24)).lowWm ∧
    (State.reset.leafOf 3 0x40000).1 = none ∧
    [fe .fill true].find? (fun e => e.written && e.entry = 1) = some (fe .fill true) := by decide
theorem test_wit_barriers : 0 < State.reset.fld (barReg 3 4) 31 16 + 1 ∧
    (State.reset.setReg (barReg 3 0) 2).fld (barReg 3 4) 31 16 + 1 < max 1 ((State.reset.setReg (barReg 3 0) 2).fld (barReg 3 0) 15 0) ∧
    State.reset.fld (barReg 3 4) 31 16 + 1 = max 1 (State.reset.fld (barReg 3 0) 15 0) ∧ State.reset.sessIdle 0 = true := by
  decide
def sj (st : Nat) : State := { State.reset with jobs := setAt State.reset.jobs 3 { job0 with state := st, resume := some 1, stop := some 0 },
                                                focus := { focus0 with core := 3 } }
def cFroz : Core := { c0 with frozen := true }
theorem test_wit_DebugEvents : ((sj 0).jobOf 3).state = 0 ∧ ((sj 1).jobOf 3).state = 1 ∧ ((sj 2).jobOf 3).state = 2 ∧
    ((sj 3).jobOf 3).state = 3 ∧ (sj 1).stopsNow.contains 3 = true ∧ (sj 2).stopsNow.contains 3 = false ∧ 3 < (sj 2).jobs.length ∧
    (sj 2).tickOk 3 = false ∧ ((sj 2).setReg (dbg 3 0x20) 4096).tickOk 3 = true ∧ ofJob 3 cFroz = true ∧ cFroz.frozen = true ∧
    c0.frozen = false ∧ ((sj 3).jobOf 3).resume = some 1 ∧ 1 ≤ (sj 3).tick + 1 ∧ isGate c0 = false ∧
    ({ at0 c0 (fp 0) with bps := [(0, [(5, wN (2 ^ 63 + 9))])] } : State).bpMatch 0 c0 = some 0 := by decide
theorem test_wit_HubRegisterEvents : 4 % 8 ≠ 0 ∧ 0x100 % 8 = 0 ∧ State.reset.hubLow 0x118 0 = none ∧
    State.reset.fld 0x1380 2 0 * 2 ^ 30 < State.reset.fld 0x1388 31 3 * 8 + 8 ∧
    (State.reset.setReg 0x1380 1).fld 0x1388 31 3 * 8 + 8 ≤ (State.reset.setReg 0x1380 1).fld 0x1380 2 0 * 2 ^ 30 ∧
    (4095 : Word).toNat < State.reset.tick + 4096 ∧ State.reset.tick + 4096 ≤ (4096 : Word).toNat ∧
    State.reset.timers.any (fun e => e.2.2 = .attestationReport) = false ∧ isHost (State.reset.reg 0x108) = false ∧
    State.reset.bootFail = false ∧ State.reset.hasPacket State.reset.focus.core = false := by decide
def tr (nin : Nat) : Nat × Tree := (0, ⟨3, 8, wN (2 ^ 63), [(0xFF, nin, 0, 0), (0, nin, 0, 1)], [(rootOut, [])]⟩)
theorem test_wit_LinkAndTreeEvents : State.reset.isMaster = true ∧ (State.reset.setReg 0x120 1).isMaster = false ∧
    State.reset.fld (planStat 3) 63 63 = 0 ∧ (State.reset.setReg (planStat 3) (2 ^ 63)).fld (planStat 3) 63 63 = 1 ∧
    State.reset.plans.find? (fun p => p.ctx = 3) = none ∧ State.reset.fld 0x1A08 63 63 = 0 ∧
    (State.reset.setReg 0x1A08 (2 ^ 63)).fld 0x1A08 63 63 = 1 ∧ [tr 2].find? (fun e => e.1 = 0) = some (tr 2) ∧
    1 < (tr 2).2.nodes.length ∧ ((tr 2).2.got.filter (fun g => g.1 = 1)).length + 1 < ((tr 2).2.nodes.getD 1 (0xFF, 0, 0, 0)).2.1 ∧
    ((tr 1).2.nodes.getD 0 (0xFF, 0, 0, 0)).2.1 ≤ ((tr 1).2.got.filter (fun g => g.1 = 0)).length + 1 ∧
    (tr 1).2.got.find? (fun g => g.1 = rootOut) = some (rootOut, []) ∧ (tr 1).2.target.getLsbD 63 = true ∧
    State.reset.fld (dgReg 3 0) 63 63 = 0 ∧ (State.reset.setReg (dgReg 3 0) (2 ^ 63 + 2)).fld (dgReg 3 0) 63 63 = 1 ∧
    1 < (State.reset.setReg (dgReg 3 0) (2 ^ 63 + 2)).fld (dgReg 3 0) 7 0 := by decide
def sGate (g : Nat) : State := State.reset.setGate 5 g
theorem test_wit_ResetsAndPower : State.reset.launches.any leaving = false ∧ (sl .killing).launches.any leaving = true ∧
    95 < 96 ∧ State.reset.powered 95 = false ∧ State.reset.powered 23 = false ∧ (96 ≤ 96 ∨ State.reset.powered 96 = true) ∧ (sGate 0).gateOf 5 = 0 ∧ (sGate 1).gateOf 5 = 1 ∧
    (sGate 2).gateOf 5 = 2 ∧ (sGate 2).timers.any (fun e => e.2.2 = .domainOpened 5) = false ∧
    (∀ e ∈ State.reset.l2, ¬(e.line = 64 ∧ e.cxl = true)) := by decide
/-- The four entries of va 0 of context 3: tables at 0x200000 to 0x203000, a resident page at 0x300000, readable, writable. -/
def walkMem (leaf : Nat) : Memory :=
  memPut (memPut (memPut (memPut [] 0x200000 (leBytes 8 (2 ^ 63 + 0x201000))) 0x201000 (leBytes 8 (2 ^ 63 + 0x202000)))
    0x202000 (leBytes 8 (2 ^ 63 + 0x203000))) 0x203000 (leBytes 8 leaf)
def sWalk (leaf : Nat) : State := { State.reset.setReg 0x1018 (2 ^ 63 + 0x200000) with mem := walkMem leaf }
def leaf0 : Nat := 2 ^ 63 + 2 ^ 62 + 2 ^ 54 + 2 ^ 53 + 0x300000
theorem test_wit_pageWalk_ok : (match ((sWalk leaf0).walkFor (walkAgent 0).1 (walkAgent 0).2 3 0 .read).1 with
    | .ok x => decide (x.pa = 0x300000) | .error _ => false) = true := by decide +kernel
theorem test_wit_swapIn : (((sWalk (leaf0 + 2 ^ 59)).leafOf 3 0).1).map (fun e => (e.1, leafSwap e.2)) = some (0x203000, 2) ∧
    (((sWalk (leaf0 + 2 ^ 58)).leafOf 3 0).1).map (fun e => leafSwap e.2) = some 1 ∧
    (((sWalk leaf0).leafOf 3 0).1).map (fun e => leafSwap e.2) = some 0 := by decide +kernel
def sEnc (run : Bool) : State := { State.reset.setReg 0x3050000 (2 ^ 63) with
  enc := [⟨3, 0, 0, 0, run⟩], hubTlb := [⟨0, 0, 2 ^ 30, 0, 0, true, true, true⟩] }
theorem test_wit_encode : (sEnc false).sessIdle 0 = true ∧ (sEnc true).sessIdle 0 = false ∧ (sEnc false).fld 0x3050000 63 63 = 1 ∧
    ((sEnc true).encFault 0 .read 2 0 0).1 = none ∧ ((sEnc true).encFault 0 .write 2 0 4096).1 = none ∧
    frameBytes ((sEnc true).reg 0x3050000) = 0 := by decide +kernel
def sHub (m : Memory) : State := { State.reset with mem := m, hubTlb := [⟨0, 0, 2 ^ 30, 0, 0, true, true, true⟩] }
/-- A plan of four parties in mode 1, start 9000, table at 0x1000; a tree of one node with two inputs, lists of eight. -/
def planMem : Memory := memPut (memPut (memPut [] 0 (leBytes 8 260)) 8 (leBytes 8 9000)) 16 (leBytes 8 0x1000)
def treeMem : Memory := memPut (memPut (memPut [] 0 (leBytes 8 (1 + 8 * 256))) 8 (leBytes 8 (2 ^ 63))) 16 (leBytes 8 0x2FF)
theorem test_wit_plan : (State.reset.planHead 0 0).1 = none ∧
    (match ((sHub planMem).planHead 0 0).1 with | some d => !planFormat d &&
      (match ((sHub planMem).planTables 0 0 d).1 with | some p => p.mode = 1 && p.n = 4 | none => false) | none => false) = true ∧
    (match ((sHub planMem).planHead 0 0).1 with | some d => (State.reset.planTables 0 0 d).1.isNone | none => false) = true ∧
    (match ((sHub []).planHead 0 0).1 with | some d => planFormat d | none => false) = true := by decide +kernel
def pe : PlanE := ⟨3, ⟨[], 4, 1, [], [], []⟩, 9000, [(0, 8, [none, some 0])], 0, 0, false, [(2047, [])], 0⟩
theorem test_wit_planPhase : ({ State.reset with plans := [pe] } : State).plans.find? (fun p => p.ctx = 3) = some pe ∧
    State.reset.tick + 1 < pe.t0 + phaseAt pe 0 ∧ pe.fly.find? (fun h => h.1 = 2047) = some (2047, []) ∧ 0 < 1024 ∧ 1024 ≤ 2047 ∧ 2047 % 1024 = 1023 := by decide
theorem test_wit_tree : (State.reset.ctxBytes 0 0 16).1 = none ∧
    ((sHub treeMem).ctxBytes 0 0 16).1.map (fun h => (leNat (h.take 8), leNat (h.drop 8))) = some (1 + 8 * 256, 2 ^ 63) ∧
    ((sHub treeMem).ctxBytes 0 16 8).1.map (fun b => dwsOf b 1) = some [0x2FF] ∧ treeTopoBad [0x2FF] = false ∧
    treeFormatBad (1 + 8 * 256) (2 ^ 63) [0x2FF] = false := by decide +kernel

/-! ### Clauses beside those above, each at a boundary value -/

def cTrapped : Core := c0.setHelper 2 { helper0 with st := .trapped }
theorem test_wit_controlViews : ({ c0 with cyc := { c0.cyc with view := [(0x18, 5)] } } : Core).cyc.view.find? (fun e => e.1 = 0x18) =
    some (0x18, 5) ∧ 0x10 ≤ 0x13 ∧ (wN 4).getLsbD 2 = true ∧ 2 < cTrapped.helpers.length ∧ (cTrapped.helper 2).st = .trapped ∧
    ((wN 4).getLsbD 1 = false ∨ (cTrapped.helper 1).st ≠ .trapped) := by decide
/-- Bank 1 fenced, of the core itself and of core 1 of its cluster. -/
def cFence : Core := { c0 with fences := 2, winFence := [0, 2, 0, 0, 0] }
theorem test_wit_fences : addrTrap (fp 2) cFence 0x7FFFC 8 4 = some (0x10, 0x7FFFC) ∧ addrTrap (fp 2) cFence 0x80000 8 8 = some (0x10, 0x80000) ∧
    addrTrap (fp 2) cFence 0x7FFF8 8 8 = none ∧ addrTrap (fp 2) cFence 0x100000 8 8 = none ∧ cFence.fences / 2 ^ 1 % 2 = 1 ∧
    windowTrap cFence 0x1280000 8 = some (0x10, 0x1280000) ∧ windowTrap cFence 0x1200000 8 = none ∧
    windowTrap cFence 0x1A00000 8 = some (0x10, 0x1A00000) ∧ windowTrap cFence 0x2000000 8 = some (0x10, 0x2000000) ∧
    windowTrap cFence 0x1180000 8 = some (0x10, 0x1180000) := by decide
theorem test_wit_scatterForwarded : [(8, (1 : Lane)), (8, 2), (64, 3)] = [(8, (1 : Lane))] ++ (8, 2) :: [(64, 3)] ∧ 8 ≤ 11 ∧ 11 < 8 + 4 ∧
    (∀ e ∈ [(64, (3 : Lane))], ¬(e.1 ≤ 11 ∧ 11 < e.1 + 4)) := by decide
def cAll : Core := { c0 with cyc := { c0.cyc with turns := [0, 1, 2] } }
theorem test_wit_moreAccesses :
    Met (.xst 4 2 3 0) (fun fo c => windowTrap c (localAddr fo c 2 3 0) 8 = some (0x11, 0x1000004)) (fp 2) (setS 2 0x1000004 c0) ∧
    Met (.vld 12 2 1 0) (fun fo c => addrTrap fo c (vecAddr fo c 2 0) 256 4 = none ∧
      ∀ b ∈ accBanks (vecAddr fo c 2 0) 256, b ∈ c.cyc.turns) (fp 2) (setA 2 0x7FF80 cAll) ∧
    Met (.vst 12 2 1 0) (fun fo c => addrTrap fo c (vecAddr fo c 2 0) 256 4 = none ∧ ofHelper fo 2) (fh 2) c0 ∧
    Met (.vst 12 2 1 0) (fun fo c => addrTrap fo c (vecAddr fo c 2 0) 256 4 = none ∧ ofGate fo) (fg 2) gcore ∧
    Met (.vstx 12 2 3) (fun fo c => lanesTrap fo c (laneAddrs fo c 2 3) = none ∧ ofHelper fo 2 ∧ c.cyc.turns = []) (fh 2) c0 ∧
    Met (.vstx 12 2 3) (fun fo c => lanesTrap fo c (laneAddrs fo c 2 3) = some (0x10, 0x180000)) (fp 2) (setA 2 0x180000 c0) ∧
    Met (.kst 1 2 1) (fun fo c => ofHelper fo 2 ∧ addrTrap fo c (rdA fo c 2).toNat 520 256 = none ∧
      (spGet candList0 c.lists 1).ents.length = 64) (fh 2) c0 ∧
    Met (.qst 1 2 1) (fun fo c => addrTrap fo c (rdA fo c 2).toNat 1056 256 = some (0x11, 4)) (fp 2) (setA 2 4 c0) ∧
    Met (.kld 1 2 1) (fun fo c => addrTrap fo c (rdA fo c 2).toNat 520 256 = some (0x10, 0x17FE00)) (fp 2) (setA 2 0x17FE00 c0) ∧
    Met (.kst 1 2 1) (fun fo c => addrTrap fo c (rdA fo c 2).toNat 520 256 = some (0x11, 4) ∧
      (spGet candList0 c.lists 1).ents.length = 64) (fp 2) (setA 2 4 c0) :=
  ⟨met (by decide) (by decide), met (by decide) (by decide), met (by decide) (by decide), met (by decide) (by decide),
   met (by decide) (by decide), met (by decide) (by decide), met (by decide) (by decide), met (by decide) (by decide),
   met (by decide) (by decide), met (by decide) (by decide)⟩
theorem test_wit_firstLane : (∀ x ∈ [0x17FFFC], addrTrap (fp 2) c0 x 4 4 = none) ∧ addrTrap (fp 2) c0 2 4 4 = some (0x11, 2) := by decide
/-- ring1 with its other end in core k; a ring of one slot filled, at the start of bank 1. -/
def ringR (k : Nat) : BitVec 128 := ring1 + BitVec.ofNat 128 (2 ^ 127 + 2 ^ 118 * k)
def ringF : BitVec 128 := ring1 + BitVec.ofNat 128 (2 ^ 77 * (0x800 - 16))
def sibling (c : Core) (d : BitVec 128) : Prop := hFilled (rdHandle c 3) < hSlots (rdHandle c 3) ∧ hRv (rdHandle c 3) = true ∧
  sameCluster c.num (hRcore (rdHandle c 3)) = true ∧ rdHandle c 3 = d
theorem test_wit_RemoteHandles :
    Met (.hpush 12 3) (fun fo c => ofPrim fo ∧ hFilled (rdHandle c 3) < hSlots (rdHandle c 3) ∧ hRv (rdHandle c 3) = true ∧
      sameCluster c.num (hRcore (rdHandle c 3)) = true ∧
      meetsFence (c.winFence.getD (kOf (hRcore (rdHandle c 3))) 0) (hAddr (rdHandle c 3) (hProd (rdHandle c 3)) 0) 256 = false ∧
      fits c (.hpush (hRcore (rdHandle c 3)) (hRh (rdHandle c 3)) (hAddr (rdHandle c 3) (hProd (rdHandle c 3)) 0)
        (vecBytes (rdGrid c 12))) = true) (fp 2) (setH 3 (ringR 1) c0) ∧
    Met (.hpush 12 3) (fun fo c => ofHelper fo 2 ∧ hFilled (rdHandle c 3) < hSlots (rdHandle c 3) ∧ hRv (rdHandle c 3) = true ∧
      sameCluster c.num (hRcore (rdHandle c 3)) = true) (fh 2) (setH 3 (ringR 1) c0) ∧
    Met (.hpush 12 3) (fun _ c => hFilled (rdHandle c 3) < hSlots (rdHandle c 3) ∧ hRv (rdHandle c 3) = true ∧
      sameCluster c.num (hRcore (rdHandle c 3)) = false) (fp 2) (setH 3 (ringR 128) c0) ∧
    Met (.hpush 12 3) (fun _ c => hFilled (rdHandle c 3) < hSlots (rdHandle c 3) ∧ hRv (rdHandle c 3) = false ∧
      meetsFence c.fences (hAddr (rdHandle c 3) (hProd (rdHandle c 3)) 0) 256 = true) (fp 2) (setH 3 ringF cFence) ∧
    Met (.hpop 12 3) (fun _ c => hFilled (rdHandle c 3) ≠ 0 ∧
      meetsFence c.fences (hAddr (rdHandle c 3) (hCons (rdHandle c 3)) 0) 256 = true) (fp 2) (setH 3 ringF cFence) ∧
    Met (.hpop 12 3) (fun fo c => ofPrim fo ∧ hFilled (rdHandle c 3) ≠ 0 ∧ hRv (rdHandle c 3) = true ∧
      meetsFence c.fences (hAddr (rdHandle c 3) (hCons (rdHandle c 3)) 0) 256 = false ∧
      accFree c (hAddr (rdHandle c 3) (hCons (rdHandle c 3)) 0) 256 ∧
      fits c (.hadv (hRcore (rdHandle c 3)) (hRh (rdHandle c 3)) false 1) = true) (fp 2) (setH 3 (ringR 200) c0) ∧
    Met (.hpop 12 3) (fun fo c => ofHelper fo 2 ∧ hFilled (rdHandle c 3) ≠ 0 ∧ hRv (rdHandle c 3) = true) (fh 2) (setH 3 (ringR 1) c0) :=
  ⟨met (by decide) (by decide), met (by decide) (by decide), met (by decide) (by decide), met (by decide) (by decide),
   met (by decide) (by decide), met (by decide) (by decide), met (by decide) (by decide)⟩
/-- A helper's pointer past the architected addresses, and one at a page no leaf maps. -/
def cPast : Core := setX 2 (wN (2 ^ 52)) c0
theorem test_wit_failedTranslations :
    (Ready (.gld 4 2 3 0) (at0 cPast (fh 2)) cPast ∧ Ready (.gst 4 2 3 0) (at0 cPast (fh 2)) cPast ∧
      Ready (.gatom 4 2 3 2 9) (at0 cPast (fh 2)) cPast ∧ Ready (.cinv 2 0) (at0 cPast (fh 2)) cPast ∧
      globalAddr (fh 2) cPast 2 3 0 = 2 ^ 52) ∧
    (at0 cPast (fh 2)).xlate 0 (.helper 2) 3 (2 ^ 52) .read = (.error (0x05, 7), at0 cPast (fh 2)) ∧
    (Ready (.gatom 4 2 3 2 9) sgGate gcore ∧ ofGate sgGate.focus ∧
      (sgGate.xlate 512 .gateway 3 0x40008 (.atomic 9)).1 = .ok ⟨0x100008, 0, 0⟩) :=
  ⟨⟨ready_at0 (by decide), ready_at0 (by decide), ready_at0 (by decide), ready_at0 (by decide), by decide⟩, rfl,
   ⟨rfl, by decide⟩, rfl, rfl⟩
theorem test_wit_moreWaits :
    Met (.twait 0 9) (fun fo c => ofPrim fo ∧ waitEval fo c (.twait 0 9) = .unmet) (fp 7)
      (setS 9 1 { c0 with p := { c0.p with sealed := [1, 0, 0, 0] } }) ∧
    Met (.hwait 3 4) (fun fo c => ofPrim fo ∧ waitEval fo c (.hwait 3 4) = .unmet) (fp 7) (setH 3 ring1 c0) ∧
    Met (.hfree 3 4) (fun fo c => ofHelper fo 2 ∧ waitEval fo c (.hfree 3 4) = .unmet) (fh 7) (setH 3 ring1 c0) ∧
    Met (.lwait 16) (fun fo c => ofPrim fo ∧ waitEval fo c (.lwait 16) = .unmet) (fp 7) { c0 with liftFree := 15 } ∧
    Met .fence (fun fo c => ofPrim fo ∧ waitEval fo c .fence = .unmet) (fp 7)
      { c0 with p := { c0.p with pend := [⟨2, .prim, 0, 50, 0, 0, [.sreg 4 1]⟩] } } ∧
    Met .fence (fun fo c => ofHelper fo 2 ∧ waitEval fo c .fence = .unmet) (fh 7) { c0 with sb := [sbe false] } ∧
    Met .phase (fun fo c => ofHelper fo 2 ∧ phaseDone c = false) (fh 7) { c0 with gwOut := 1 } ∧
    Met .phase (fun fo c => ofHelper fo 2 ∧ phaseDone c = true) (fh 7) c0 :=
  ⟨met (by decide) (by decide), met (by decide) (by decide), met (by decide) (by decide), met (by decide) (by decide),
   met (by decide) (by decide), met (by decide) (by decide), met (by decide) (by decide), met (by decide) (by decide)⟩
def cHit : Core := { cq with mcache := [(((gramOf (fp 5) cq).mask, (gramOf (fp 5) cq).state, gramTop (gramOf (fp 5) cq), 1), 5, 7)] }
theorem test_wit_maskedForms :
    Met (.kmergel 3 1 2 1) (fun fo c => laneFree fo c ∧ (maskOf fo c).valid = true) (fp 5) cq ∧
    Met (.kmergel 3 1 2 1) (fun fo c => laneFree fo c ∧ (maskOf fo c).valid = false) (fp 5) c0 ∧
    Met (.kmerge 3 1 2 1) (fun fo c => laneFree fo c ∧ addrTrap fo c (rdA fo c 2).toNat 256 4 = none ∧
      (maskOf fo c).valid = true) (fp 5) cq ∧
    Met (.kmerge 3 1 2 1) (fun fo c => laneFree fo c ∧ (maskOf fo c).valid = false) (fh 5) c0 ∧
    Met (.gmask 1) (fun fo c => laneFree fo c ∧ (gramOf fo c).valid = true ∧ 1 ≤ (gramOf fo c).nchunk ∧
      c.mcache.find? (fun e => e.1 = ((gramOf fo c).mask, (gramOf fo c).state, gramTop (gramOf fo c), 1)) =
        some (((gramOf fo c).mask, (gramOf fo c).state, gramTop (gramOf fo c), 1), 5, 7)) (fp 5) cHit ∧
    Met (.gsetSt 2) (fun fo c => ofHelper fo 2 ∧ addrTrap fo c (rdA fo c 2).toNat 64 64 = none) (fh 5) c0 ∧
    Met (.ksamp 3 1 2 0) (fun fo c => ofHelper fo 2 ∧ addrTrap fo c (rdA fo c 2).toNat 8 8 = none ∧ c.ktrap = false) (fh 5) c0 :=
  ⟨met (by decide) (by decide), met (by decide) (by decide), met (by decide) (by decide), met (by decide) (by decide),
   met (by decide) ⟨rfl, rfl, by decide, rfl⟩, met (by decide) (by decide), met (by decide) (by decide)⟩
def fl4 : Pend := ⟨1, .prim, 0, 50, 3, 2, [.sreg 4 1]⟩
def cFlags : Core := { c0 with p := { c0.p with pend := [fl4] } }
theorem test_wit_flagsLand : fl4 ∈ cFlags.p.pend ∧ fl4.rem ≤ 1 ∧ fl4.who = .prim ∧ gridOf fl4 = [] ∧ fl4.fl.getLsbD 1 = true ∧
    fl4.effs.any isTap = false ∧ fl4.effs.any isTapFin = false ∧ 1 < 6 ∧ 63 < 64 := by decide
def cCkpt (trapped : Bool) : Core := { cFlags with
  p := { cFlags.p with pend := [] }, withheld := [⟨1, .flag 3 2⟩, ⟨4, .store 8 [1]⟩],
  newWith := [⟨2, .cmd ⟨0x20, 0, 0, 0, 0, 0, 50⟩⟩], cyc := { cFlags.cyc with ckpt := true, trapped := trapped } }
theorem test_wit_WithheldEffects : (cCkpt false).withheld.Pairwise (fun a b => a.ord ≤ b.ord) ∧ (cCkpt false).cyc.ckpt = true ∧
    (cCkpt false).cyc.trapped = false ∧ (cCkpt true).cyc.trapped = true ∧ c0.cyc.ckpt = false ∧ c0.cyc.halt = none ∧
    ⟨4, .store 8 [1]⟩ ∈ (cCkpt false).withheld ++ (cCkpt false).newWith ∧ (∀ e ∈ (cCkpt false).p.pend ++ (cCkpt false).hpend, 1 < e.rem) ∧
    (∀ e ∈ allWithheld (cCkpt false), (match e.w with
      | .tapRec _ _ _ => false
      | _ => true) = true) := by decide
/-- A core whose withhold buffer is full, in stores, commands and messages; handle 3 local, handle 4 remote. -/
def cFull : Core := { setH 4 (ringR 1) (setH 3 ring1 c0) with
  mb := [(3, (7, true))], withheld := List.replicate 256 ⟨0, .spill 0 0⟩ ++
  List.replicate 32 ⟨0, .cmd ⟨0x20, 0, 0, 0, 0, 0, 50⟩⟩ ++ List.replicate 64 ⟨0, .bara 0⟩ }
def NoRoom (i : Instr) (slot : Nat) (P : Focus → Core → Prop) (w : Focus → Core → Wh) : Prop :=
  Met i (fun fo c => ofPrim fo ∧ P fo c ∧ fits c (w fo c) = false) (fp slot) cFull
theorem noRoom {i : Instr} {slot : Nat} {P : Focus → Core → Prop} {w : Focus → Core → Wh} (h : legal (fp slot) cFull i = true)
    (hp : P (fp slot) cFull) (hw : fits cFull (w (fp slot) cFull) = false) : NoRoom i slot P w := met h ⟨rfl, hp, hw⟩
theorem test_wit_noRoomStores :
    NoRoom (.spst 1 4095) 0 (fun _ _ => True) (fun fo c => .spill 4095 (rdS fo c 1)) ∧
    NoRoom (.st 4 2 3 0) 2 (fun fo c => addrTrap fo c (localAddr fo c 2 3 0) 8 8 = none)
      (fun fo c => .store (localAddr fo c 2 3 0) (leBytes 8 (rdS fo c 4).toNat)) ∧
    NoRoom (.strel 4 2 0) 2 (fun fo c => addrTrap fo c (localAddr fo c 2 3 0) 8 8 = none)
      (fun fo c => .store (localAddr fo c 2 3 0) (leBytes 8 (rdS fo c 4).toNat)) ∧
    NoRoom (.vst 12 2 1 0) 2 (fun fo c => addrTrap fo c (vecAddr fo c 2 0) 256 4 = none)
      (fun fo c => .store (vecAddr fo c 2 0) (vecBytes (rdGrid c 12))) ∧
    NoRoom (.vstx 12 2 3) 2 (fun fo c => lanesTrap fo c (laneAddrs fo c 2 3) = none)
      (fun fo c => .scatter 64 (List.zip (laneAddrs fo c 2 3) (rdGrid c 12))) ∧
    NoRoom (.qst 1 2 1) 2 (fun fo c => addrTrap fo c (rdA fo c 2).toNat 1056 256 = none)
      (fun fo c => .storeQ (rdA fo c 2).toNat (qImage (spGet qReg0 c.p.q 1) ++ List.replicate 30 0)) ∧
    NoRoom (.kst 1 2 1) 2 (fun fo c => addrTrap fo c (rdA fo c 2).toNat 520 256 = none ∧ (spGet candList0 c.lists 1).ents.length = 64)
      (fun fo c => .storeK (rdA fo c 2).toNat (listImage (spGet candList0 c.lists 1))) ∧
    NoRoom (.hpush 12 3) 2 (fun _ c => hFilled (rdHandle c 3) < hSlots (rdHandle c 3) ∧ hRv (rdHandle c 3) = false ∧
        meetsFence c.fences (hAddr (rdHandle c 3) (hProd (rdHandle c 3)) 0) 256 = false)
      (fun _ c => .store (hAddr (rdHandle c 3) (hProd (rdHandle c 3)) 0) (vecBytes (rdGrid c 12))) :=
  ⟨noRoom (by decide) trivial (by decide +kernel), noRoom (by decide) (by decide) (by decide +kernel),
   noRoom (by decide) (by decide) (by decide +kernel), noRoom (by decide) (by decide) (by decide +kernel),
   noRoom (by decide) (by decide) (by decide +kernel), noRoom (by decide) (by decide) (by decide +kernel),
   noRoom (by decide) (by decide) (by decide +kernel), noRoom (by decide) (by decide) (by decide +kernel)⟩
theorem test_wit_noRoomMessages :
    Met (.xst 4 2 3 0) (fun fo c => ofPrim fo ∧ windowTrap c (localAddr fo c 2 3 0) 8 = none ∧
      fits c (.xst (localAddr fo c 2 3 0) (leBytes 8 (rdS fo c 4).toNat)) = false) (fp 2) (setS 2 0x1000000 cFull) ∧
    NoRoom (.hadv 4 1 3) 7 (fun _ c => hRv (rdHandle c 4) = true ∧ hFilled (rdHandle c 4) + 3 ≤ hSlots (rdHandle c 4))
      (fun _ c => .hadv (hRcore (rdHandle c 4)) (hRh (rdHandle c 4)) true 3) ∧
    NoRoom (.lift 12) 2 (fun _ c => c.gate = 0 ∧ c.liftFree ≠ 0) (fun _ c => .lift (rdGrid c 12)) ∧
    NoRoom (.start 1 8 16383) 1 (fun _ c => freeState (c.helper 8) = true ∧ startHeld 8 (c.withheld ++ c.newWith) = false)
      (fun fo c => .start 8 16383 (rdS fo c 1)) ∧
    NoRoom (.mtc 4 0x501) 0 (fun _ _ => True) (fun fo c => .mtc 0x501 (rdS fo c 4)) ∧
    NoRoom (.fpost 4 2) 7 (fun _ _ => True) (fun _ _ => .flag 4 2) ∧
    NoRoom (.fpostx 4 2 1) 7 (fun fo c => (rdS fo c 2).toNat < 512 ∧ (rdS fo c 2).toNat % 128 < 120)
      (fun fo c => .flagx (rdS fo c 2).toNat 4 1) ∧
    NoRoom (.bara 31 7) 7 (fun _ _ => True) (fun _ _ => .bara 255) ∧
    NoRoom (.takem 4 3) 0 (fun _ c => mbPresent c 3 = true) (fun _ _ => .takem 3) ∧
    NoRoom (.sendm 2 3 4) 6 (fun fo c => (rdS fo c 2).toNat < 512 ∧ (rdS fo c 2).toNat % 128 < 120)
      (fun fo c => .sendm (rdS fo c 2).toNat 4 (rdS fo c 3)) :=
  ⟨met (by decide) ⟨rfl, by decide, by decide +kernel⟩, noRoom (by decide) (by decide) (by decide +kernel),
   noRoom (by decide) (by decide) (by decide +kernel), noRoom (by decide) (by decide +kernel) (by decide +kernel),
   noRoom (by decide) trivial (by decide +kernel), noRoom (by decide) trivial (by decide +kernel),
   noRoom (by decide) (by decide) (by decide +kernel), noRoom (by decide) trivial (by decide +kernel),
   noRoom (by decide) (by decide) (by decide +kernel), noRoom (by decide) (by decide) (by decide +kernel)⟩
def cmdOf (op q fl : Nat) (fo : Focus) : Wh := .cmd ⟨op, q, 0, 0, 0, fl, fo.bundle⟩
theorem test_wit_noRoomCommands :
    NoRoom (.mmul 2 3 4 1 0) 6 (fun _ _ => True) (fun fo _ => cmdOf 0x10 0 2 fo) ∧ NoRoom (.mdrain 2 3 4 1) 6 (fun _ _ => True) (fun fo _ => cmdOf 0x11 0 1 fo) ∧
    NoRoom (.bfill 2 3 4) 6 (fun _ _ => True) (fun fo _ => cmdOf 0x12 0 0 fo) ∧ NoRoom (.mcode 2) 6 (fun _ _ => True) (fun fo _ => cmdOf 0x13 0 0 fo) ∧
    NoRoom (.swap 2 3 4) 6 (fun _ _ => True) (fun fo _ => cmdOf 0x14 0 0 fo) ∧ NoRoom (.cpy 2 3 4 3) 6 (fun _ _ => True) (fun fo _ => cmdOf 0x20 3 0 fo) ∧
    NoRoom (.cpyt 2 4 3) 6 (fun _ _ => True) (fun fo _ => cmdOf 0x21 3 0 fo) ∧ NoRoom (.cgath 2 4 3) 6 (fun _ _ => True) (fun fo _ => cmdOf 0x22 3 0 fo) ∧
    NoRoom (.cscat 2 4 3) 6 (fun _ _ => True) (fun fo _ => cmdOf 0x23 3 0 fo) ∧ NoRoom (.cseal 6 3) 6 (fun _ _ => True) (fun fo _ => cmdOf 0x24 3 0 fo) ∧
    NoRoom (.ctime 2 3) 6 (fun _ _ => True) (fun fo _ => cmdOf 0x25 3 0 fo) ∧ NoRoom (.cnext 2 3 4 3 1 0) 6 (fun _ _ => True) (fun fo _ => cmdOf 0x26 3 2 fo) := by
  refine ⟨?_, ?_, ?_, ?_, ?_, ?_, ?_, ?_, ?_, ?_, ?_, ?_⟩ <;> exact noRoom (by decide) trivial (by decide +kernel)
theorem test_wit_savedLists : ([(3, candList0), (5, candList0)].map (·.1)).Nodup ∧ (5, candList0) ∈ [(3, candList0), (5, candList0)] := by
  decide
/-- A gateway whose window is context 3's, with its port in use in this cycle or free. -/
def sWin (used : List Nat) : State := { at0 { gcore with cyc := { gcore.cyc with used := used } } (fg 2) with focus := focus0 }
def sWin3 : State := { (sWin [0]) with regs := [(gwReg 0 0, wN (3 * 2 ^ 59))] }
theorem window_in_registers : regionOf (localOf 0x1F0002080000) = .regs := by
  have h : ¬(localOf 0x1F0002080000 < 0x10000000000 + min Config.ddrGiB 2048 * 2 ^ 30) := by simp only [localOf]; omega
  unfold regionOf
  rw [if_neg (by decide), if_neg (fun e => h e.2), if_neg (by decide), if_pos (by decide)]
theorem test_wit_windowWaits : sWin3.windowWaits { rq .read with lctx := 3, pa := 0x1F0002080000 } = true := by
  simp only [State.windowWaits, window_in_registers, Bool.and_eq_true, decide_eq_true_eq]
  decide
theorem test_wit_gatewayPort : (sWin [0]).windowBusy 0 = true ∧ (sWin []).windowBusy 0 = false ∧
    (sWin []).windowWaits (rq .read) = false := by decide
def ccNode (z : Word) : CopyCmd := ⟨⟨0x20, 0, 0, 0, z, 0, 50⟩, none, 0, [], true, 0, 0, none, 0⟩
def cDueT : Core := c0.setCq 0 { copyQ0 with due := some (900, 0, cc 0x20 none false) }
theorem test_wit_graphAndPosts : nodeOf c0 (ccNode (wN (2 ^ 60))) = some ⟨none, []⟩ ∧ (ccNode (wN (2 ^ 60))).c.z.getLsbD 53 = false ∧
    nodeOf c0 (ccNode (wN (2 ^ 60 + 2 ^ 53))) = some ⟨none, []⟩ ∧ (ccNode (wN (2 ^ 60 + 2 ^ 53))).c.z.getLsbD 53 = true ∧
    nodeOf c0 (ccNode (wN (2 ^ 53))) = none ∧ (ccNode (wN (2 ^ 53))).c.z.getLsbD 53 = true ∧
    startable cDueT 0 = true ∧ (cDueT.cq 0).due = some (900, 0, cc 0x20 none false) ∧
    (startView (withQ [cc 0x20 (some 0x3C) false] none c0) 0).1.cmds = [cc 0x20 (some 0x3C) false] := by decide
def sStep (l : List (Nat × Nat × Option Nat)) : State :=
  { State.reset with tick := 9, jobs := setAt State.reset.jobs 3 { job0 with state := 2, core := l }, focus := { focus0 with core := 3 } }
theorem test_wit_coreSteps : ((sStep []).jobOf 3).core = [] ∧ ((sStep [(0, 10, none)]).jobOf 3).core = [(0, 10, none)] ∧
    10 ≤ (sStep []).tick + 1 ∧ ((sStep [(0, 8, some 8)]).jobOf 3).core = [(0, 8, some 8)] ∧ 8 < (sStep []).tick ∧
    (at0 c0 (fp 0)).core 0 = some c0 ∧ c0.lctx = 3 ∧ c0.run ≠ .ended :=
  ⟨by decide, by decide, by decide, by decide, by decide, rfl, rfl, by decide⟩
theorem test_wit_hubChoices : ({ State.reset with gratIn := 2 ^ 20 } : State).locked = true ∧ State.reset.locked = false ∧
    slotChoice State.reset.slots 63 = some (0, 0) ∧ slotChoice (List.replicate 4 (List.replicate 64 (some 0))) 1 = none := by decide
def fx : Flit := .access 3 2 64 8 .read []
theorem test_wit_flits : State.reset.nextFlit 5 = none ∧ ({ State.reset with wire := [(5, fx)] } : State).nextFlit 5 = some (5, fx) ∧
    ((sj 2).jobOf 3).state = 2 ∧ (State.reset.jobOf 3).state < 2 := by decide
theorem test_wit_planBlocks : 1024 ≤ 2047 ∧ 2047 % 1024 = 1023 ∧ (2047 / 1024 - 1) / 16 % 2 = 0 ∧ (18 * 1024 - 1) % 1024 = 1023 ∧
    ((18 * 1024 - 1) / 1024 - 1) / 16 % 2 = 1 ∧ 0 < 1024 := by decide
theorem test_wit_rungs : State.reset.rungUp = 0 ∧ ({ State.reset with rungUp := 4 } : State).rungUp ≠ 0 ∧
    (State.reset.setFld 0x128 7 0 34).fld 0x128 7 0 = 34 ∧ ({ State.reset.setFld 0x128 7 0 34 with budgetWas := 255 } : State).budgetWas < 256 := by
  decide
theorem test_wit_moreBanks :
    Met (.ldacq 4 2 0) (fun fo c => addrTrap fo c (localAddr fo c 2 3 0) 8 8 = none ∧ ¬accFree c (localAddr fo c 2 3 0) 8)
      (fp 2) clBusy ∧
    Met (.hpush 12 3) (fun fo c => ofHelper fo 2 ∧ hFilled (rdHandle c 3) < hSlots (rdHandle c 3) ∧ hRv (rdHandle c 3) = false ∧
      meetsFence c.fences (hAddr (rdHandle c 3) (hProd (rdHandle c 3)) 0) 256 = false) (fh 2) (setH 3 ring1 c0) ∧
    Met (.hpop 12 3) (fun _ c => hFilled (rdHandle c 3) ≠ 0 ∧ hRv (rdHandle c 3) = false ∧
      meetsFence c.fences (hAddr (rdHandle c 3) (hCons (rdHandle c 3)) 0) 256 = false ∧
      ¬accFree c (hAddr (rdHandle c 3) (hCons (rdHandle c 3)) 0) 256) (fp 2) (setH 3 ring1 cAll) ∧
    Met (.lift 12) (fun fo c => ofHelper fo 2 ∧ c.gate = 0 ∧ c.liftFree ≠ 0) (fh 2) { c0 with liftFree := 1 } :=
  ⟨met (by decide) (by decide), met (by decide) (by decide), met (by decide) (by decide), met (by decide) (by decide)⟩
/-- Tree 0 of context 3 with one node; a route word that names it, one with bit 16 set, one of tree 1. -/
def withTree (c : Core) (f : Focus) : State := { at0 c f with trees := [(0, ⟨3, 8, 0, [(0xFF, 2, 0, 0)], []⟩)] }
theorem test_wit_sendsOfLists :
    (Ready (.ksend 3 2) (withTree c0 (fh 5)) c0 ∧ ofHelper (fh 5) 2 ∧ (withTree c0 (fh 5)).treeTakes c0 (rdA (fh 5) c0 2).toNat = true ∧
      (rdA (fh 5) c0 2).toNat < 2 ^ 16) ∧
    (Ready (.ksend 3 2) (withTree (setA 2 0x10000 c0) (fp 5)) (setA 2 0x10000 c0) ∧ laneFree (fp 5) (setA 2 0x10000 c0) ∧
      2 ^ 16 ≤ (rdA (fp 5) (setA 2 0x10000 c0) 2).toNat) ∧
    (Ready (.ksend 3 2) (withTree (setA 2 1 c0) (fp 5)) (setA 2 1 c0) ∧ laneFree (fp 5) (setA 2 1 c0) ∧
      (withTree (setA 2 1 c0) (fp 5)).treeTakes (setA 2 1 c0) (rdA (fp 5) (setA 2 1 c0) 2).toNat = false) ∧
    (Ready (.ksend 3 2) (withTree cFull (fp 5)) cFull ∧ ofPrim (fp 5) ∧ cFull.p.kBusy = 0 ∧
      (withTree cFull (fp 5)).treeTakes cFull (rdA (fp 5) cFull 2).toNat = true ∧ (rdA (fp 5) cFull 2).toNat < 2 ^ 16 ∧
      fits cFull (.ksend 0 0 (spGet candList0 cFull.lists 3)) = false) :=
  ⟨⟨⟨rfl, by decide⟩, rfl, by decide, by decide⟩, ⟨⟨rfl, by decide⟩, by decide, by decide⟩, ⟨⟨rfl, by decide⟩, by decide, by decide⟩,
   ⟨rfl, by decide⟩, rfl, by decide, by decide, by decide, by decide +kernel⟩
theorem test_wit_sampleTraps :
    Met (.ksamp 3 1 2 0) (fun fo c => laneFree fo c ∧ addrTrap fo c (rdA fo c 2).toNat 8 8 = none ∧ c.ktrap = true ∧
      (sampOf 3 1 0 c).empty = true) (fp 5) { c0 with ktrap := true } ∧
    Met (.ktop 3 30 1) (fun fo c => ofPrim fo ∧ 0 < c.p.kBusy) (fp 5) kBusyCore ∧
    Met (.ksamp 3 1 2 0) (fun fo c => ofPrim fo ∧ c.p.kBusy = 0 ∧ addrTrap fo c (rdA fo c 2).toNat 8 8 = none ∧
      c.ktrap = false ∧ 256 ≤ c.storeUse) (fp 5) cFull ∧
    Met (.gsetSt 2) (fun fo c => ofPrim fo ∧ c.p.kBusy = 0 ∧ addrTrap fo c (rdA fo c 2).toNat 64 64 = none ∧ 256 ≤ c.storeUse)
      (fp 5) cFull :=
  ⟨met (by decide) ⟨by decide, by decide, rfl, by decide⟩, met (by decide) (by decide), met (by decide) ⟨rfl, rfl, by decide, rfl, by decide +kernel⟩,
   met (by decide) ⟨rfl, rfl, by decide, by decide +kernel⟩⟩
theorem test_wit_remoteEnds :
    NoRoom (.hpush 12 4) 2 (fun _ c => hFilled (rdHandle c 4) < hSlots (rdHandle c 4) ∧ hRv (rdHandle c 4) = true ∧
        sameCluster c.num (hRcore (rdHandle c 4)) = true ∧ meetsFence (c.winFence.getD (kOf (hRcore (rdHandle c 4))) 0)
          (hAddr (rdHandle c 4) (hProd (rdHandle c 4)) 0) 256 = false)
      (fun _ c => .hpush (hRcore (rdHandle c 4)) (hRh (rdHandle c 4)) (hAddr (rdHandle c 4) (hProd (rdHandle c 4)) 0)
        (vecBytes (rdGrid c 12))) ∧
    NoRoom (.hpop 12 4) 2 (fun _ c => hFilled (rdHandle c 4) ≠ 0 ∧ hRv (rdHandle c 4) = true ∧
        meetsFence c.fences (hAddr (rdHandle c 4) (hCons (rdHandle c 4)) 0) 256 = false)
      (fun _ c => .hadv (hRcore (rdHandle c 4)) (hRh (rdHandle c 4)) false 1) ∧
    Met (.hadv 3 1 3) (fun fo c => ofPrim fo ∧ hRv (rdHandle c 3) = true ∧ hFilled (rdHandle c 3) + 3 ≤ hSlots (rdHandle c 3) ∧
      fits c (.hadv (hRcore (rdHandle c 3)) (hRh (rdHandle c 3)) true 3) = true) (fp 7) (setH 3 (ringR 200) c0) ∧
    Met (.hadv 3 0 1) (fun fo c => ofHelper fo 2 ∧ hRv (rdHandle c 3) = true ∧ 1 ≤ hFilled (rdHandle c 3)) (fh 7)
      (setH 3 (ringR 1) c0) :=
  ⟨noRoom (by decide) (by decide) (by decide +kernel), noRoom (by decide) (by decide) (by decide +kernel),
   met (by decide) (by decide), met (by decide) (by decide)⟩
/-- +0, −0, 1, plus infinity, minus infinity and a NaN as scores (R303). -/
theorem test_wit_ranks : v32 0x00000000 = .fin 0 false ∧ v32 0x80000000 = .fin 0 true ∧ v32 0x3F800000 = .fin 1 false ∧
    v32 0x7FC00000 = .nan ∧ ranksAhead (0x80000000, 1) (0, 2) = true ∧ ranksAhead (0x80000000, 3) (0, 2) = false := by decide +kernel
theorem test_wit_waitsJudged :
    Met (.fwait 4 2) (fun fo c => ofPrim fo ∧ 10 ∈ c.cyc.met ∧ waitEval fo c (.fwait 4 2) = .unmet) (fp 7)
      { c0 with cyc := { c0.cyc with met := [10] } } ∧
    Met .phase (fun fo c => ofPrim fo ∧ 10 ∈ c.cyc.met ∧ phaseDone c = false) (fp 7)
      { c0 with gwOut := 1, cyc := { c0.cyc with met := [10] } } ∧
    waitEval (fu 7) { u0 with lift := [(0, 0, [])] } (.lwait 1) = .met ∧ waitEval (fu 7) u0 (.lwait 1) = .unmet ∧
    waitEval (fp 7) { c0 with liftFree := 0 } (.lwait 1) = .unmet ∧ waitEval (fp 7) c0 (.lwait 0) = .met :=
  ⟨met (by decide) (by decide), met (by decide) (by decide), by decide, by decide, by decide, by decide⟩
/-- Forms at the edges of what decode refuses: a branch that leaves the store by one bundle, register 31 of a helper. -/
theorem test_wit_legalForms : legal (fp 1) c0 (.call (-100)) = true ∧ legal (fp 1) c0 (.call (-101)) = false ∧
    legal (fp 4) c0 (.vrcp 0 0 1 2) = true ∧ legal (fp 3) c0 (.vrcp 0 0 1 2) = false ∧
    legal (fu 2) u0 (.lpop 1) = true ∧ legal (fp 2) c0 (.lpop 1) = false ∧
    legal (fh 0) c0 (.add 31 31 31) = true ∧ legal (fh 0) c0 (.add 32 31 31) = false ∧
    legal (fh 1) c0 (.br 0 0 4) = true ∧ legal (fh 1) c0 (.br 1 0 4) = false ∧
    legal (fg 0) gcore (.halt 0) = true ∧ legal (fg 0) gcore (.halt 1) = false ∧ legal (fg 7) gcore .phase = true ∧
    legal (fg 7) gcore .ckpt = false ∧ legal (fp 0) c0 .holdI = true ∧ legal (fh 0) c0 .holdI = false ∧
    legal (fg 2) gcore .holdM = true ∧ legal (fg 1) gcore .holdI = false := by decide
/-- A load of 8 bytes at 0x1000, of helper 2 or of none any more; a fill for the store buffer. -/
def rFill : Req := { rq .read with got := some (List.replicate 64 0), fill := true, len := 64 }
theorem test_wit_returns : (rBack true).fill = true ∧ (rBack true).mark = 0 ∧ (rBack true).len ≠ 64 ∧
    ({ rBack true with stale := true } : Req).stale = true ∧ ({ rBack false with mark := 1 } : Req).fill = false ∧
    ((c0.setHelper 2 { helper0 with st := .live }).helper 2).reqs.contains 5 = false ∧ rFill.fill = true ∧ rFill.stale = false ∧
    rFill.len = 64 ∧ (State.reset.windowWaits (rq (.atomic 0 1 2))) = false := by decide
/-- A line performed at 4, and four lines in the set of line 64. -/
def cLines : Core := { c0 with hc := [⟨64, List.replicate 64 0, 0, 0, 4⟩] }
theorem test_wit_cachedLines : hcFind c0 64 = none ∧ hcVictim c0 64 = none ∧ (hcFind cLines 64).map (fun e => e.perf) = some 4 ∧
    hcFind cLines 192 = none ∧ hcVictim cLines 192 = none ∧
    ((hcFind cLines 64).any fun e => decide (4 ≤ e.perf) && decide (e.perf < 5)) = true := by decide
def sFillOut (c : Core) (out : Bool) : State :=
  { at0 c (fp 0) with reqs := if out then [{ rFill with core := 0, pa := 4096, agent := .fill }] else [] }
theorem test_wit_storesWait :
    (sFillOut { c0 with sb := [sbe false] } true).sbHeld 0 { c0 with sb := [sbe false] } 64 (sbp false) = false ∧
    fillOut (sFillOut c0 true) 0 64 = true ∧ fillOut (sFillOut c0 false) 0 64 = false ∧ (sFillOut c0 false).atomPends 0 64 = false ∧
    ({ at0 (setX 2 5 (c0.setHelper 2 { helper0 with st := .live, reqs := [0] })) (fp 0) with
      reqs := [{ rq .read with id := 0 }] } : State).sbHeld 0 (c0.setHelper 2 { helper0 with st := .live, reqs := [0] }) 64 (sbp false) =
      true := by decide
theorem test_wit_abandons : (fe .hubAgent true).agent = .hubAgent ∧ (fe (.helper 9) true).agent = .helper 9 ∧
    (fe (.helper 9) true).core < 0x10000 ∧ 9 < c0.helpers.length ∧ (fe .fill true).agent = .fill ∧ (fe (.queue 3) true).agent = .queue 3 ∧
    ({ at0 c0 (fp 0) with launches := [l0] } : State).launchOf c0.launch = some l0 ∧
    [fe (.queue 3) true].find? (fun x => x.written && x.entry = 1) = some (fe (.queue 3) true) := by decide
theorem test_wit_tinvUnderWay : let s : State := { sTinv with tinvRun := some ([(0, 0)], 0, 0) }
    s.tinv = wN (2 ^ 63) :: [] ∧ s.tinvRun = some ([(0, 0)], 0, 0) ∧ (s.framesFlush [(0, 0)]).accessesUnder = false := by decide
/-- A core with one graph node of `p` predecessors to come; block commands: a CPYT of one byte of a source of one byte. -/
def cNodeP (p : Option Nat) : Core := withQ [{ ccNode (wN (2 ^ 60)) with started := false }] none
  { c0 with eng := { c0.eng with nodes := [⟨p, []⟩] } }
def blkBytes : List Byte := leBytes 8 (2 ^ 63) ++ leBytes 8 (2 ^ 63 + 64) ++ leBytes 8 0 ++ leBytes 8 (2 ^ 48 + 2 ^ 32 + 2 ^ 16 + 1) ++
  List.replicate 32 0
def cBlk (b : List Byte) : Core := withQ [⟨⟨0x21, 0, 0, 0, 0, 0, 50⟩, none, 0, [], false, 0, 0, none, 0⟩] none
  { c0 with sp := memPut [] 0 b }
theorem test_wit_blockStarts : startable (cNodeP none) 0 = true ∧ nodeOf (cNodeP none) (ccNode (wN (2 ^ 60))) = some ⟨none, []⟩ ∧
    startable (cNodeP (some 0)) 0 = true ∧ (cNodeP (some 0)).eng.nodes = [⟨some 0, []⟩] ∧ startable (cNodeP (some 1)) 0 = false ∧
    startable (cBlk blkBytes) 0 = true ∧ ((cBlk blkBytes).cq 0).due = none ∧ bankOf 0 ∉ (cBlk blkBytes).cyc.turns ∧
    blockCheck (cBlk blkBytes) 0x21 (readBlk (cBlk blkBytes) 0) = none ∧ startable (cBlk []) 0 = true ∧
    blockCheck (cBlk []) 0x21 (readBlk (cBlk []) 0) = some cENGDESC ∧ bankOf 0 ∈ cAll.cyc.turns := by decide +kernel
/-- An MMUL of K = 2 whose A stream is the ring of handle 0: one vector of it, and one at the end of the scratchpad. -/
def mmH : MCmd := ⟨0, ⟨0x10, 0, wN (2 ^ 63), 0, wN 2, 0, 50⟩, none, false, false, 0⟩
def ringEnd : BitVec 128 := BitVec.ofNat 128 (2 ^ 77 * 0x1800 + 2 ^ 96 * 2)
theorem test_wit_streamsOfHandles : nextOf (withM [mmH] c0) 0x10 = some mmH ∧ tokensOk c0 mmH.c = true ∧
    mmH.c.x.getLsbD 63 = true ∧ streamOut (setH 0 ring1 c0) mmH.c = false ∧ streamOut (setH 0 ringEnd c0) mmH.c = true ∧
    tokensOk { c0 with budget := 0 } mmH.c = false := by decide +kernel
/-- Two cores of a launch with a SWAP waiting, the partner having done `n` of them. -/
def swapper (n : Nat) : Core := { c0 with mat := { c0.mat with swap := some (unit 0 none (wN 64)), swapDone := n, partner := 1 } }
def sSwap2 (n : Nat) : State := { at0 (swapper 0) (fp 0) with
  launches := [{ l0 with home := [0, 1] }], cores := [(0, swapper 0), (1, swapper n)] }
theorem test_wit_swapPartners : (sSwap2 0).core 0 = some (swapper 0) ∧ (swapper 0).mat.swapLive = false ∧
    (sSwap2 0).nowCore (swapper 0).launch 1 ≠ 0 ∧
    (swapper 1).mat.swap = some (unit 0 none (wN 64)) ∧ (swapper 1).mat.swapDone ≠ (swapper 0).mat.swapDone := by decide +kernel
theorem test_wit_killsTogether : (sl .killing).launches.any (fun l => l.ctx = 3 && leaving l) = true ∧
    (sl .running).launches.any (fun l => l.ctx = 3 && leaving l) = false ∧ (sl .killing).killQuiet 7 = true ∧
    max 1 (State.reset.fld (barReg 3 0) 15 0) < State.reset.fld (barReg 3 4) 31 16 + 2 := by decide +kernel
theorem test_wit_refusedSteps : ((sj 2).jobOf 3).state = 2 ∧ (sj 2).core ((wN 0).toNat / 2 ^ 48 % 512) = none ∧
    ({ sj 2 with cores := [(0, c0)] } : State).core 0 = some c0 ∧ c0.lctx ≠ 2 ∧
    ({ c0 with run := .ended } : Core).run = .ended := by decide +kernel
/-- A plan of four parties in mode 0, and an entry of a plan whose schedule is ready at tick 5000. -/
def planMem0 : Memory := memPut (memPut (memPut [] 0 (leBytes 8 4)) 8 (leBytes 8 9000)) 16 (leBytes 8 0x1000)
theorem test_wit_planOfPeers :
    (match ((sHub planMem0).planHead 0 0).1 with | some d => !planFormat d &&
      (match ((sHub planMem0).planTables 0 0 d).1 with | some p => p.mode = 0 && p.n = 4 | none => false) | none => false) = true ∧
    (∀ s : State, s.drawBit.1 = true ∨ s.drawBit.1 = false) := ⟨by decide +kernel, fun s => by cases s.drawBit.1 <;> simp⟩
theorem test_wit_planLate : ((sj 2).jobOf 3).state = 2 ∧ ((sj 0).jobOf 3).state < 2 ∧ (sj 0).tick + 4096 < pe.t0 ∧
    pe.t0 ≤ ({ sj 0 with tick := 4904 } : State).tick + 4096 ∧ ({ pe with ready := 5000 } : PlanE).ready + 4096 > pe.t0 ∧
    pe.ready + 4096 ≤ pe.t0 := by decide
theorem test_wit_blocksOfPeers : (1 : Nat) ≠ 0 ∧ State.reset.flowUp (some 0) 1 1 = true ∧
    (State.reset.flowUp (some 0) 1 0 = true ∨ State.reset.flowUp (some 0) 1 0 = false) ∧
    (17 * 1024 + 5) % 1024 = 5 ∧ ((17 * 1024 + 5) / 1024 - 1) / 16 % 2 = 1 ∧ 1024 ≤ 1024 + 5 ∧ 2 ≤ ((sj 2).jobOf 3).state ∧
    State.reset.tick + 1 < pe.t0 + phaseAt pe 0 := by
  refine ⟨by decide, by decide, ?_, by decide, by decide, by decide, by decide, by decide⟩
  cases State.reset.flowUp (some 0) 1 0 <;> simp
theorem test_wit_rungsLeft : (State.reset.dropRungs).rungUp = 0 ∧
    (({ State.reset with rungUp := 5, timers := [(9, 0, .resetRungComplete 1), (9, 0, .resetRungComplete 5)] } : State).dropRungs).timers =
      [(9, 0, .resetRungComplete 5)] := by decide

end Sys2Proof.Tests
end

section
/- The proofs are elaborated one after the other: a proof on the side that waits for the kernel holds a stack of its own, and
the check's memory, where the tests above stand in the same text, has no room for one more. -/
set_option deprecated.oldSectionVars true

section
/-! PROOFS. Memory (R6, R26) and the machine after reset (O44, O49, O50). -/

namespace Sys2Proof.Proofs

open Sys2Proof Sys2Proof.Machine

/-! ### Memory -/

theorem memBytes_memPut_same (m : Memory) (a : Nat) (l : List Byte) : memBytes (memPut m a l) a l.length = l := by
  refine List.ext_getElem (by simp [memBytes, spGetRun]) fun i h _ => ?_
  have hi : i < l.length := by simpa [memBytes, spGetRun] using h
  have hread := Laws.memRead_memPut m a (a + i) l
  rw [if_pos ⟨by omega, by omega⟩, Nat.add_sub_cancel_left, List.getD_eq_getElem _ _ hi] at hread
  simpa [memBytes, spGetRun, memRead] using hread

theorem memNat_memPutNat_same (m : Memory) (a n v : Nat) : memNat (memPutNat m a n v) a n = v % 2 ^ (8 * n) := by
  have hbytes := memBytes_memPut_same m a (leBytes n v)
  rw [Laws.length_leBytes] at hbytes
  rw [memNat, memPutNat, hbytes, Laws.leNat_leBytes]

/-- Settles O44: the rules of `memPut` and `memWrite` of the laws, and the bytes of a number put and read again. -/
theorem memoryReadsWhatWasWritten : Obligations.MemoryReadsWhatWasWritten :=
  ⟨Laws.memRead_memPut, Laws.memRead_memWrite, fun _ a l h => Laws.wf_memPut a l h,
    fun _ a v h => Laws.wf_memWrite a v h, memNat_memPutNat_same⟩

/-! ### The state after reset -/

theorem reset_core (n : Nat) : State.reset.core n = none := rfl

theorem reset_reg (off : Nat) : State.reset.reg off = (regReset off).toNat := by
  show (0#64 ^^^ regReset off).toNat = _
  rw [BitVec.zero_xor]

theorem reset_memRead (a : Nat) : memRead State.reset.mem a = 0 := rfl

/-- Settles O49: the lists of the part stand empty, and a register reads its reset value where nothing wrote it. -/
theorem resetValues : Obligations.ResetValues :=
  ⟨rfl, rfl, rfl, rfl, rfl, rfl, rfl, rfl, reset_core, rfl, rfl, reset_reg, reset_memRead⟩

/-- Settles O50: no byte is listed after reset, and `reset` makes the sixteen contexts. -/
theorem resetMeetsTheInvariant : Obligations.ResetMeetsTheInvariant := ⟨rfl, rfl⟩

end Sys2Proof.Proofs
end

section
/-! PROOFS. Every operation of the part keeps the invariant of O51: memory in its canonical form, sixteen launch contexts
(R1, R26, R27, R6). -/

namespace Sys2Proof.Machine

/-! ### The invariant and the forms of the model's definitions

Every operation of the part keeps the invariant: `State.inv.f` says so of `State.f`, so that a proof reads as the operation
does, from its receiver on. -/

section
variable {s t : State} {α β : Type}

theorem State.inv.ofIf {p : Prop} [Decidable p] (hs : s.inv) (ht : t.inv) : (if p then s else t).inv := by
  split
  · exact hs
  · exact ht

theorem State.inv.iteSnd {p : Prop} [Decidable p] {x y : α × State} (hx : x.2.inv) (hy : y.2.inv) :
    (if p then x else y).2.inv := by
  split
  · exact hx
  · exact hy

/-- The state of a pair that has been taken apart. -/
theorem State.inv.ofSnd {x : α × State} {a : α} (h : x.2.inv) (e : x = (a, t)) : t.inv := by
  subst e
  exact h

theorem State.inv.foldl {f : State → β → State} {l : List β} (hs : s.inv) (hf : ∀ t b, t.inv → (f t b).inv) :
    (l.foldl f s).inv :=
  List.foldlRecOn l f hs fun t ht b _ => hf t b ht

theorem State.inv.foldlSnd {f : α × State → β → α × State} {l : List β} {x : α × State} (hx : x.2.inv)
    (hf : ∀ y b, y.2.inv → (f y b).2.inv) : (l.foldl f x).2.inv :=
  List.foldlRecOn (motive := fun y => y.2.inv) l f hx fun y hy b _ => hf y b hy

/-- A pair holds the state it was made of. -/
theorem State.inv.pair {a : α} (hs : s.inv) : (a, s).2.inv := hs

theorem State.inv.memPut {a : Nat} {l : List Byte} (hs : s.inv) : ({ s with mem := memPut s.mem a l } : State).inv :=
  ⟨Laws.wf_memPut a l hs.1, hs.2⟩

/-! The parts of the state that are not the memory nor the contexts, where a state is given new ones. -/

theorem State.inv.withWork {c : List (Nat × Core)} {w : List Work} (hs : s.inv) :
    ({ s with cores := c, agenda := w } : State).inv := hs

theorem State.inv.withRetained {l : List Retained} (hs : s.inv) : ({ s with retained := l } : State).inv := hs

theorem State.inv.withFaults {l : List FaultE} (hs : s.inv) : ({ s with faults := l } : State).inv := hs

theorem State.inv.withGraphs {l : List (Nat × List Word)} (hs : s.inv) : ({ s with graphs := l } : State).inv := hs

theorem State.inv.withRecording {l : List (Nat × Nat × Nat × Nat × Nat)} (hs : s.inv) :
    ({ s with recording := l } : State).inv := hs

theorem State.inv.withDispatched {l : List (Nat × Nat × List (Lane × Lane))} (hs : s.inv) :
    ({ s with dispatched := l } : State).inv := hs

theorem State.inv.withExtra {l : Sparse Nat} (hs : s.inv) : ({ s with extra := l } : State).inv := hs

theorem State.inv.withFwBusy {b : Bool} (hs : s.inv) : ({ s with fwBusy := b } : State).inv := hs

theorem State.inv.withKept {r : List Retained} {k : List (Nat × Nat × Nat × Nat × Nat)} (hs : s.inv) :
    ({ s with retained := r, recording := k } : State).inv := hs

theorem State.inv.withFinished {l : List (Nat × Nat)} (hs : s.inv) : ({ s with finished := l } : State).inv := hs

end

section
variable {s t : State}

/-! ### `Sys2Proof.Machine.Home` -/

theorem State.inv.setCore {n : Nat} {c : Core} (hs : s.inv) : (s.setCore n c).inv := hs

theorem State.inv.modCore {n : Nat} {f : Core → Core} (hs : s.inv) : (s.modCore n f).inv := by
  simp only [State.modCore]
  split
  · exact hs.setCore
  · exact hs

theorem State.inv.mapCores {f : Nat → Core → Core} (hs : s.inv) : (s.mapCores f).inv := hs

theorem State.inv.modLaunch {id : Nat} {f : Launch → Launch} (hs : s.inv) : (s.modLaunch id f).inv :=
  hs

theorem State.inv.drawAny (hs : s.inv) : s.drawAny.2.inv := hs

theorem State.inv.drawIn {lo hi : Nat} (hs : s.inv) : (s.drawIn lo hi).2.inv := hs

theorem State.inv.soon {unit : Nat} {l : List Instr} (hs : s.inv) : (s.soon unit l).inv := hs

theorem State.inv.later {t unit : Nat} {i : Instr} (hs : s.inv) : (s.later t unit i).inv := hs

theorem State.inv.send {due src lctx : Nat} {b : Body} (hs : s.inv) : (s.send due src lctx b).inv :=
  hs

theorem State.inv.setReg {off v : Nat} (hs : s.inv) : (s.setReg off v).inv := hs

theorem State.inv.setFld {off hi lo v : Nat} (hs : s.inv) : (s.setFld off hi lo v).inv := hs.setReg

theorem State.inv.countSat {off hi lo n : Nat} (hs : s.inv) : (s.countSat off hi lo n).inv :=
  hs.setFld

theorem State.inv.countMod {off hi lo n : Nat} (hs : s.inv) : (s.countMod off hi lo n).inv :=
  hs.setFld

theorem State.inv.note {die kind cause ctx core detail : Nat} (hs : s.inv) :
    (s.note die kind cause ctx core detail).inv :=
  hs

theorem State.inv.takeNotes (hs : s.inv) : s.takeNotes.inv := .foldl hs fun _ _ h => h

theorem State.inv.l2Event {line ev : Nat} (hs : s.inv) : (s.l2Event line ev).inv := hs

theorem State.inv.writeBack {e : L2Line} (hs : s.inv) : (s.writeBack e).inv := by
  unfold State.writeBack
  split
  · exact State.inv.l2Event hs.memPut
  · exact hs

theorem State.inv.l2Room {line : Nat} (hs : s.inv) : (s.l2Room line).inv := by
  simp only [State.l2Room]
  split
  · exact hs
  · split
    · exact hs
    · exact hs.writeBack

theorem State.inv.fillLine {coh line : Nat} (hs : s.inv) : (s.fillLine coh line).2.inv := by
  simp only [State.fillLine]
  split
  · exact .l2Event hs
  · exact .l2Event hs.l2Room

theorem State.inv.homeLine {coh pa n : Nat} (hs : s.inv) : (s.homeLine coh pa n).2.inv := by
  simp only [State.homeLine]
  split
  · exact hs.fillLine
  · exact hs

theorem State.inv.homeRead {coh pa k n : Nat} (hs : s.inv) : (s.homeRead coh pa k n).2.inv := by
  induction k generalizing s pa n with
  | zero => exact hs
  | succ k ih =>
    simp only [State.homeRead]
    split
    · exact hs.homeLine
    · exact ih hs.homeLine

theorem State.inv.heal {pa : Nat} {data : List (Option Byte)} (hs : s.inv) : (s.heal pa data).inv :=
  hs

theorem State.inv.homePut {coh pa : Nat} {data : List (Option Byte)} (hs : s.inv) : (s.homePut coh pa data).inv := by
  simp only [State.homePut]
  split
  · exact hs.heal.countSat
  · split
    · exact hs.heal.fillLine
    · exact hs.heal.memPut

theorem State.inv.homeWrite {coh pa k : Nat} {data : List (Option Byte)} (hs : s.inv) : (s.homeWrite coh pa k data).inv := by
  induction k generalizing s pa data with
  | zero => exact hs
  | succ k ih =>
    simp only [State.homeWrite]
    split
    · exact hs.homePut
    · exact ih hs.homePut

theorem State.inv.startFills (hs : s.inv) : s.startFills.inv := .foldl hs fun _ _ h => h.fillLine

theorem State.inv.physRead {pa n : Nat} (hs : s.inv) : (s.physRead pa n).2.inv := hs.homeRead

theorem State.inv.physWrite {pa : Nat} {bs : List Byte} (hs : s.inv) : (s.physWrite pa bs).inv :=
  hs.homeWrite

theorem State.inv.cleanLines {drop : Bool} {p : L2Line → Bool} (hs : s.inv) : (s.cleanLines drop p).inv :=
  .foldl hs fun _ _ h => h.writeBack

theorem State.inv.inject {num c : Nat} (hs : s.inv) : (s.inject num c).2.inv := by
  simp only [State.inject]
  split
  · split
    · exact hs.setCore
    · exact hs
  · exact hs

theorem State.inv.missTime {pa : Nat} (hs : s.inv) : (s.missTime pa).2.inv := by
  simp only [State.missTime]
  split
  · exact hs.drawIn
  · exact hs.drawIn
  · exact hs.drawAny

theorem State.inv.decodeLine {ctl line : Nat} (hs : s.inv) : (s.decodeLine ctl line).2.inv := by
  simp only [State.decodeLine]
  split
  · exact hs
  · exact .missTime hs

theorem State.inv.decodeTime {pa : Nat} (hs : s.inv) : (s.decodeTime pa).2.inv := by
  simp only [State.decodeTime]
  split
  · exact hs
  · exact .iteSnd (.decodeLine (.iteSnd hs.decodeLine hs)) (.iteSnd hs.decodeLine hs)

theorem State.inv.hitTime {num coh pa c t : Nat} (hs : s.inv) : (s.hitTime num coh pa c t).2.inv := by
  unfold State.hitTime
  extract_lets la die sl cl a n l h x own
  have hown : own.2.inv := by
    dsimp only [own]
    split <;> exact hs
  refine .iteSnd hown ?_
  split
  · exact .iteSnd (.iteSnd hs hs) (.iteSnd (.iteSnd hs hs) hs)
  · exact hs
  · exact .iteSnd hs hs
  · exact hs

theorem State.inv.timeFrom {num coh pa c t : Nat} (hs : s.inv) : (s.timeFrom num coh pa c t).2.inv := by
  simp only [State.timeFrom]
  split
  · exact hs.hitTime
  · exact hs.hitTime.missTime.decodeTime

theorem State.inv.readTime {num coh pa c : Nat} (hs : s.inv) : (s.readTime num coh pa c).2.inv :=
  hs.inject.timeFrom

theorem State.inv.walkRead {num pa c : Nat} (hs : s.inv) : (s.walkRead num pa c).2.inv :=
  hs.timeFrom

theorem State.inv.performTime {num pa T : Nat} (hs : s.inv) : (s.performTime num pa T).2.inv := by
  simp only [State.performTime]
  split
  · exact hs
  · exact hs.drawIn

theorem State.inv.reqTimes {num coh pa lat : Nat} (hs : s.inv) : (s.reqTimes num coh pa lat).2.inv :=
  hs.readTime.performTime

theorem State.inv.postTime {src dst : Nat} (hs : s.inv) : (s.postTime src dst).2.inv := by
  simp only [State.postTime]
  split
  · exact hs.drawIn
  · split
    · exact hs
    · exact hs.drawIn

theorem State.inv.barTime {src : Nat} (hs : s.inv) : (s.barTime src).2.inv := hs.drawIn

/-! ### `Sys2Proof.Machine.Xlate` -/

theorem State.inv.tlbFill {num : Nat} {ag : Agent} {e : TlbE} (hs : s.inv) : (s.tlbFill num ag e).inv := by
  unfold State.tlbFill
  extract_lets s1
  have h1 : s1.inv := by
    dsimp only [s1]
    split
    iterate 3 exact hs.modCore
    exact hs
  exact .ofIf h1 h1

theorem State.inv.tlbDrop {num : Nat} {ag : Agent} {ctx va : Nat} (hs : s.inv) : (s.tlbDrop num ag ctx va).inv := by
  unfold State.tlbDrop
  extract_lets f s1
  have h1 : s1.inv := by
    dsimp only [s1]
    split
    iterate 3 exact hs.modCore
    exact hs
  exact .ofIf h1 h1

theorem State.inv.walkAdd {wk : Nat} {e : WalkE} (hs : s.inv) : (s.walkAdd wk e).inv := hs

theorem State.inv.descend {ctx va l t : Nat} (hs : s.inv) : (s.descend ctx va l t).2.inv := by
  induction l generalizing s t with
  | zero =>
    rw [State.descend]
    exact .iteSnd hs (.iteSnd hs.physRead (.iteSnd hs.physRead (.iteSnd hs.physRead (.iteSnd hs.physRead hs.physRead))))
  | succ l ih =>
    rw [State.descend]
    exact .iteSnd hs (.iteSnd hs.physRead (.iteSnd hs.physRead (.iteSnd hs.physRead (.iteSnd hs.physRead (ih hs.physRead)))))

theorem State.inv.walk {num : Nat} {ag : Agent} {ctx va : Nat} (hs : s.inv) : (s.walk num ag ctx va).2.inv := by
  simp only [State.walk]
  split <;> exact hs.descend

theorem State.inv.leafOr {at_ m : Nat} (hs : s.inv) : (s.leafOr at_ m).inv := hs.physWrite

theorem State.inv.walkTime {num : Nat} {ag : Agent} {reads : List Nat} {last : Nat} {l2 : List L2Line} (hs : s.inv) :
    (s.walkTime num ag reads last l2).2.inv :=
  .foldlSnd hs fun _ _ h => h.walkRead

theorem State.inv.walkFor {num : Nat} {ag : Agent} {ctx va : Nat} {k : Acces} (hs : s.inv) :
    (s.walkFor num ag ctx va k).2.inv := by
  simp only [State.walkFor]
  split
  · exact hs
  · split
    · exact hs.walk.walkTime
    · split
      · exact hs.walk.walkTime.tlbDrop
      · exact .tlbFill (.foldl (.ofIf hs.walk.walkTime hs.walk.walkTime.leafOr) fun _ _ h => h.walkAdd)

theorem State.inv.xlate {num : Nat} {ag : Agent} {ctx va : Nat} {k : Acces} (hs : s.inv) :
    (s.xlate num ag ctx va k).2.inv := by
  simp only [State.xlate]
  split
  · exact hs
  · split
    · split
      · exact hs.walkFor
      · split
        · exact hs.tlbDrop
        · exact hs
    · split
      · split
        · exact hs.modCore.tlbFill.walkFor
        · split
          · exact hs.modCore.tlbFill.tlbDrop
          · exact hs.modCore.tlbFill
      · exact hs.modCore.walkFor

theorem State.inv.fqWrite {e : FaultE} (hs : s.inv) : (s.fqWrite e).inv := by
  simp only [State.fqWrite]
  split
  · exact .later (.drawIn (.countMod hs.physWrite))
  · exact .countMod hs.physWrite

theorem State.inv.swapHears {ctx cause page : Nat} (hs : s.inv) : (s.swapHears ctx cause page).inv := by
  simp only [State.swapHears]
  split <;> exact hs

theorem State.inv.faultRecord {num : Nat} {ag : Agent} {ctx cause va page : Nat} {write atom : Bool} {level cursor pc : Nat}
    (hs : s.inv) : (s.faultRecord num ag ctx cause va page write atom level cursor pc).inv := by
  simp only [State.faultRecord]
  split
  · exact hs.swapHears.fqWrite
  · exact hs.swapHears

theorem State.inv.faultsHeld {n : Nat} (hs : s.inv) : (s.faultsHeld n).inv := by
  induction n generalizing s with
  | zero => exact hs
  | succ n ih =>
    simp only [State.faultsHeld]
    split
    · split
      · exact ih (.fqWrite hs)
      · exact hs
    · exact hs

theorem State.inv.faultDeferred (hs : s.inv) : s.faultDeferred.inv := hs.faultsHeld

theorem State.inv.helperFault {num h ctx cause level va : Nat} {write atom : Bool} {bundle pos : Nat} (hs : s.inv) :
    (s.helperFault num h ctx cause level va write atom bundle pos).inv :=
  hs.faultRecord.modCore

theorem State.inv.modAgent {code : Nat} {f : Core → Core} (hs : s.inv) : (s.modAgent code f).inv := by
  simp only [State.modAgent]
  split
  · exact hs.modCore
  · exact hs.modLaunch

theorem State.inv.encAgain {enc : Nat} (hs : s.inv) : (s.encAgain enc).inv :=
  .foldl hs fun _ _ h => h.later

theorem State.inv.resumeAgent {e : FaultE} (hs : s.inv) : (s.resumeAgent e).inv := by
  simp only [State.resumeAgent]
  split
  · exact hs.encAgain
  · exact hs.modAgent

theorem State.inv.retryEntry {entry : Nat} (hs : s.inv) : (s.retryEntry entry).inv := by
  simp only [State.retryEntry]
  split
  · exact .resumeAgent hs
  · exact hs

theorem State.inv.invalidate {scope ctx va : Nat} (hs : s.inv) : (s.invalidate scope ctx va).inv :=
  hs

theorem State.inv.tinvPush {w : Word} (hs : s.inv) : (s.tinvPush w).inv := by
  simp only [State.tinvPush]
  split
  · split
    · exact .later (.drawIn (.setFld hs))
    · exact .setFld hs
  · exact hs

theorem State.inv.tinvStart {w : Word} (hs : s.inv) : (s.tinvStart w).inv := hs

/-! ### `Sys2Proof.Machine.Global` -/

theorem State.inv.addReq {r : Req} (hs : s.inv) : (s.addReq r).inv := hs

theorem State.inv.putReq {id : Nat} {f : Req → Req} (hs : s.inv) : (s.putReq id f).inv := hs

theorem State.inv.dropReq {id : Nat} (hs : s.inv) : (s.dropReq id).inv := hs

theorem State.inv.lineWrite {num h lctx coh pa : Nat} {data : List (Option Byte)} {order : Bool} (hs : s.inv) :
    (s.lineWrite num h lctx coh pa data order).inv :=
  hs.reqTimes.modCore.addReq

theorem State.inv.evict {num h lctx : Nat} {e : CLine} (hs : s.inv) : (s.evict num h lctx e).inv := by
  simp only [State.evict]
  split
  · exact hs
  · exact hs.modCore.lineWrite

theorem State.inv.hcUse {num line : Nat} {f : CLine → CLine} (hs : s.inv) : (s.hcUse num line f).inv :=
  hs.modCore

theorem State.inv.staleFills {num line : Nat} (hs : s.inv) : (s.staleFills num line).inv := hs

theorem State.inv.hcLeave {num lctx : Nat} {v : CLine} (hs : s.inv) : (s.hcLeave num lctx v).inv :=
  hs.evict.modCore.staleFills

theorem State.inv.hcInsert {num lctx line perf : Nat} {d : List Byte} (hs : s.inv) :
    (s.hcInsert num lctx line perf d).inv := by
  unfold State.hcInsert
  split
  · exact hs
  · split
    · exact .ofIf hs.hcUse hs
    · extract_lets s1
      have h1 : s1.inv := by
        dsimp only [s1]
        split
        · exact hs.hcLeave
        · exact hs
      exact h1.modCore

theorem State.inv.hcPass {num lctx line perf : Nat} (hs : s.inv) : (s.hcPass num lctx line perf).inv := by
  simp only [State.hcPass]
  split
  · split
    · exact hs.hcLeave
    · exact hs
  · exact hs

theorem State.inv.sbPut {num h pa : Nat} {bs : List Byte} {coh10 : Bool} {no : Nat} (hs : s.inv) :
    (s.sbPut num h pa bs coh10 no).inv :=
  hs.modCore

theorem State.inv.sbDrain {num : Nat} (hs : s.inv) : (s.sbDrain num).inv := by
  simp only [State.sbDrain]
  split
  · exact hs
  · split
    · exact hs
    · split
      · exact hs
      · split
        · exact hs.modCore.lineWrite
        · split
          · exact hs.modCore.hcUse
          · split
            · exact hs
            · exact hs.modCore.reqTimes.addReq

theorem State.inv.flushLine {num h line upto : Nat} {drop order : Bool} (hs : s.inv) :
    (s.flushLine num h line upto drop order).inv := by
  unfold State.flushLine
  split
  · exact hs
  · extract_lets mine was x by_ s1 s2 s3
    have h3 : s3.inv := .ofIf hs.modCore.staleFills hs.modCore.staleFills.lineWrite
    clear_value by_ s3
    split
    · exact h3
    · exact h3.lineWrite

theorem State.inv.opFault {fo : Focus} {cause level va : Nat} {write atom : Bool} (hs : s.inv) :
    (s.opFault fo cause level va write atom).inv := by
  simp only [State.opFault]
  split
  · exact hs.helperFault
  · exact hs.faultRecord.modCore

theorem State.inv.gld {fo : Focus} {d x : BitVec 6} {w : Nat} {i : BitVec 10} {c : Core} (hs : s.inv) :
    (s.gld fo d x w i c).inv := by
  simp only [State.gld]
  split
  · exact hs.modCore
  · split
    · next heq => exact (hs.xlate.ofSnd heq).opFault
    · next heq => exact (hs.xlate.ofSnd heq).modCore.addReq

theorem State.inv.gst {fo : Focus} {d x : BitVec 6} {w : Nat} {i : BitVec 10} {c : Core} (hs : s.inv) :
    (s.gst fo d x w i c).inv := by
  simp only [State.gst]
  split
  · exact hs.modCore
  · split
    · next heq => exact (hs.xlate.ofSnd heq).opFault
    · rename_i heq
      have h1 := hs.xlate.ofSnd heq
      split
      · split
        · exact h1.sbPut
        · exact h1.modCore.addReq
      · split
        · exact h1.lineWrite
        · exact h1.modCore.addReq

theorem State.inv.gatom {fo : Focus} {d x y : BitVec 6} {o : Nat} {fn : Nat} {c : Core} (hs : s.inv) :
    (s.gatom fo d x y o fn c).inv := by
  simp only [State.gatom]
  split
  · exact hs.modCore
  · split
    · next heq => exact (hs.xlate.ofSnd heq).opFault
    · next heq => exact (hs.xlate.ofSnd heq).modCore.addReq

theorem State.inv.cacheLine {fo : Focus} {x : BitVec 6} {i : BitVec 10} {drop : Bool} {c : Core} (hs : s.inv) :
    (s.cacheLine fo x i drop c).inv := by
  simp only [State.cacheLine]
  split
  · exact hs.modCore
  · split
    · next heq => exact (hs.xlate.ofSnd heq).opFault
    · next heq => exact (hs.xlate.ofSnd heq).modCore.addReq

theorem State.inv.reqGo {r : Req} (hs : s.inv) : (s.reqGo r).inv := by
  simp only [State.reqGo]
  split
  · exact hs
  · split
    · exact .putReq (.ofIf hs.reqTimes.staleFills hs.reqTimes)
    · exact .modCore (.ofIf hs.reqTimes.staleFills hs.reqTimes)

theorem State.inv.loadLook {r : Req} (hs : s.inv) : (s.loadLook r).inv := by
  simp only [State.loadLook]
  split
  · split
    · exact hs
    · split
      · exact hs.putReq
      · split
        · exact hs
        · split
          · split
            · exact hs
            · exact hs.hcUse.putReq
          · exact hs.reqGo
  · exact hs.reqGo

theorem State.inv.atomLook {r : Req} (hs : s.inv) : (s.atomLook r).inv := by
  simp only [State.atomLook]
  split
  · split
    · split
      · exact .flushLine (.ofIf (.foldl hs fun _ _ h => h.flushLine) hs)
      · exact hs
    · split
      · exact hs
      · exact hs.reqGo
  · split
    · exact hs
    · exact hs.reqGo

theorem State.inv.cleanLook {r : Req} {drop : Bool} (hs : s.inv) : (s.cleanLook r drop).inv := by
  simp only [State.cleanLook]
  split
  · split
    · exact hs.flushLine.modCore.dropReq
    · exact hs
  · exact hs.modCore.dropReq

theorem State.inv.putLook {r : Req} (hs : s.inv) : (s.putLook r).inv := by
  simp only [State.putLook]
  split
  · split
    · exact hs
    · exact hs.sbPut.modCore.dropReq
  · exact hs.dropReq

theorem State.inv.reqTick {r : Req} (hs : s.inv) : (s.reqTick r).inv := by
  simp only [State.reqTick]
  split
  · exact hs
  · split
    · split
      · exact hs.putReq
      · split
        · exact hs.loadLook
        · exact hs.atomLook
        · exact hs.cleanLook
        · exact hs.putLook
        · exact hs.reqGo
    · split <;> exact hs.putReq

theorem State.inv.reqsTick (hs : s.inv) : s.reqsTick.inv :=
  .soon (.foldl hs fun _ _ h => by
      split
      · exact h.reqTick
      · exact h)

theorem State.inv.hostRead {num lctx : Nat} (hs : s.inv) : (s.hostRead num lctx).inv :=
  hs.reqTimes.addReq

theorem State.inv.flushHost {num : Nat} (hs : s.inv) : (s.flushHost num).inv := by
  simp only [State.flushHost]
  split
  · exact hs
  · split
    · exact hs.setCore.hostRead
    · exact hs

theorem State.inv.phaseFlush {num : Nat} (hs : s.inv) : (s.phaseFlush num).inv := by
  simp only [State.phaseFlush]
  split
  · exact hs
  · split
    · split
      · exact .flushHost (.modCore (.foldl hs fun _ _ h => h.evict))
      · exact .modCore (.foldl hs fun _ _ h => h.evict)
    · exact hs

theorem State.inv.framesFlush {l : List (Nat × Nat)} (hs : s.inv) : (s.framesFlush l).inv :=
  .foldl hs fun _ _ h => .foldl h fun _ _ h' => h'.evict.modCore

theorem State.inv.tinvDone (hs : s.inv) : s.tinvDone.inv := by
  unfold State.tinvDone
  split
  · exact hs
  · extract_lets s0 s1 r
    have h0 : s0.inv := by
      dsimp only [s0]
      split
      · exact hs.tinvStart
      · exact hs.framesFlush
    have h1 : s1.inv := .setFld (.countMod h0)
    have hr : r.2.inv := h1.drawIn
    clear_value s0 r
    refine .ofIf h0.later ?_
    split
    · exact h1
    · exact hr.later

/-! ### `Sys2Proof.Machine.Copy` -/

theorem State.inv.xlateRanges {num : Nat} {ag : Agent} {ctx : Nat} {k : Acces} {l : List (Nat × Nat)} (hs : s.inv) :
    (s.xlateRanges num ag ctx k l).2.inv :=
  .foldlSnd hs fun _ _ h => by
      split
      · exact h
      · split <;> next heq => exact h.xlate.ofSnd heq

theorem State.inv.queueFault {num q : Nat} {c : Core} {k : CopyCmd} {e : Nat × Nat × Nat} {va : Nat} {wr : Bool}
    (hs : s.inv) : (s.queueFault num q c k e va wr).inv :=
  hs.faultRecord.modCore

theorem State.inv.engRead {num : Nat} {ag : Agent} {lctx : Nat} {parts : List (Nat × Nat × Nat)} {lat tag : Nat}
    (hs : s.inv) : (s.engRead num ag lctx parts lat tag).inv :=
  .foldl hs fun _ _ h => h.reqTimes.addReq

theorem State.inv.engWrite {num : Nat} {ag : Agent} {lctx : Nat} {parts : List (Nat × Nat × Nat)} {lat tag : Nat}
    {data : List Byte}
    (hs : s.inv) : (s.engWrite num ag lctx parts lat tag data).inv :=
  .foldl hs fun _ _ h => h.reqTimes.addReq

theorem State.inv.burstSend {num q : Nat} (hs : s.inv) : (s.burstSend num q).inv := by
  simp only [State.burstSend]
  split
  · exact hs
  · split
    · exact hs
    · split
      · exact hs.setCore.engWrite
      · exact hs

theorem State.inv.burstStart {num q : Nat} {c : Core} {k : CopyCmd} (hs : s.inv) : (s.burstStart num q c k).inv := by
  unfold State.burstStart
  extract_lets segs sr dr
  split
  · next heq => exact (hs.xlateRanges.ofSnd heq).queueFault
  · rename_i heq
    have h1 := hs.xlateRanges.ofSnd heq
    split
    · next heq => exact (h1.xlateRanges.ofSnd heq).queueFault
    · rename_i heq
      have h2 := h1.xlateRanges.ofSnd heq
      exact .ofIf h2.modCore.modCore.burstSend h2.modCore.modCore.engRead

theorem State.inv.copyBurst {num q : Nat} (hs : s.inv) : (s.copyBurst num q).inv := by
  unfold State.copyBurst
  split
  · exact hs
  · extract_lets c1 c s1
    have h1 : s1.inv := hs.setCore
    split
    · exact h1
    · refine .ofIf h1.setCore (.ofIf h1 ?_)
      split
      · exact h1.setCore.burstSend
      · exact h1.burstStart

theorem State.inv.burstReturn {num q : Nat} (hs : s.inv) : (s.burstReturn num q).inv := by
  simp only [State.burstReturn]
  split
  · exact hs
  · split
    · split
      · split
        · exact .burstSend (.setCore hs)
        · exact .setCore hs
      · exact hs
    · exact hs

theorem State.inv.copyComplete {num q : Nat} (hs : s.inv) : (s.copyComplete num q).inv := by
  simp only [State.copyComplete]
  split
  · exact hs
  · split
    · exact hs
    · exact hs.setCore

/-! ### `Sys2Proof.Machine.Matrix` -/

theorem State.inv.swapStart {num : Nat} (hs : s.inv) : (s.swapStart num).inv := by
  unfold State.swapStart
  split
  · exact hs
  · extract_lets
    split
    · exact hs.setCore
    · refine .ofIf hs.setCore (.ofIf hs.setCore.setCore ?_)
      split
      · exact hs.setCore
      · split
        · exact hs.setCore
        · exact .ofIf hs.setCore (.ofIf hs.setCore.setCore.setCore hs.setCore.setCore.setCore.soon)

theorem State.inv.swapSend {num : Nat} (hs : s.inv) : (s.swapSend num).inv := by
  simp only [State.swapSend]
  split
  · exact hs
  · split
    · exact hs.setCore
    · split
      · exact hs.setCore
      · exact hs.setCore.postTime.send

theorem State.inv.fillGlobal {num : Nat} (hs : s.inv) : (s.fillGlobal num).inv := by
  simp only [State.fillGlobal]
  split
  · exact hs
  · split
    · exact hs
    · split
      · exact hs
      · split
        · next heq => exact (hs.xlateRanges.ofSnd heq).faultRecord.modCore
        · next heq => exact (hs.xlateRanges.ofSnd heq).modCore.engRead

theorem State.inv.drainOver {num : Nat} (hs : s.inv) : (s.drainOver num).inv := by
  simp only [State.drainOver]
  split
  · exact hs
  · split
    · exact hs.setCore
    · exact hs.setCore.barTime.send

theorem State.inv.fillReturn {num : Nat} (hs : s.inv) : (s.fillReturn num).inv := by
  simp only [State.fillReturn]
  split
  · exact hs
  · split
    · exact hs
    · split
      · exact .setCore hs
      · exact hs

/-! ### `Sys2Proof.Machine.Cycle` -/

theorem State.inv.frozenCore {num : Nat} {c : Core} (hs : s.inv) : (s.frozenCore num c).inv := by
  simp only [State.frozenCore]
  split <;> exact hs

theorem State.inv.beginCore {num : Nat} (hs : s.inv) : (s.beginCore num).inv := by
  unfold State.beginCore
  split
  · exact hs
  · refine .ofIf hs (.ofIf hs.frozenCore ?_)
    dsimp only
    split
    iterate 6 exact .withWork hs
    iterate 2 exact .ofIf (.withWork hs) (.withWork hs)
    exact .withWork hs

theorem State.inv.portsTurn {num : Nat} (hs : s.inv) : (s.portsTurn num).inv := hs.modCore

theorem State.inv.bundleIllegal {num h : Nat} (hs : s.inv) : (s.bundleIllegal num h).inv := by
  simp only [State.bundleIllegal]
  split
  · exact hs
  · split
    · split
      · exact hs.setCore
      · exact hs
    · exact hs

theorem State.inv.pickPhase {num : Nat} (hs : s.inv) : (s.pickPhase num).inv := by
  simp only [State.pickPhase]
  split <;> exact hs

theorem State.inv.matrixPhase {num : Nat} (hs : s.inv) : (s.matrixPhase num).inv := by
  simp only [State.matrixPhase]
  split <;> exact hs

theorem State.inv.matrixGo {num : Nat} (hs : s.inv) : (s.matrixGo num).inv := by
  simp only [State.matrixGo]
  split
  · exact hs.modCore.swapSend.fillGlobal
  · exact hs.modCore.swapSend.fillGlobal.soon

theorem State.inv.copyPhase {num : Nat} (hs : s.inv) : (s.copyPhase num).inv := by
  unfold State.copyPhase
  split
  · exact hs
  · exact .withWork hs

theorem State.inv.slotHeld {who : Ctx} {fo : Focus} {c : Core} {i : Instr} (hs : s.inv)
    (ht : s.slotHeld who fo c i = some t) : t.inv := by
  revert ht
  simp only [State.slotHeld]
  split
  · split
    · exact nofun
    · split
      · rintro ⟨⟩
        exact hs
      · split
        · rintro ⟨⟩
          exact hs.setCore
        · exact nofun
  · exact nofun

theorem State.inv.slotDone {who : Ctx} {fo : Focus} {c : Core} {i : Instr} (hs : s.inv) : (slotDone who fo c i s).inv := by
  simp only [Machine.slotDone]
  split
  · split
    · exact hs
    · exact hs.modCore
  · exact hs

theorem State.inv.slotIllegal {fo : Focus} (hs : s.inv) : (s.slotIllegal fo).inv := hs.modCore

/-! ### `Sys2Proof.Machine.Hub` -/

theorem State.inv.hubXl {ctx va : Nat} {k : Acces} (hs : s.inv) : (s.hubXl ctx va k).2.inv := by
  simp only [State.hubXl]
  split <;> next heq => exact hs.xlate.ofSnd heq

theorem State.inv.ctxRead {ctx va k n : Nat} (hs : s.inv) : (s.ctxRead ctx va k n).2.inv := by
  induction k generalizing s va n with
  | zero => exact hs
  | succ k ih =>
    simp only [State.ctxRead]
    split
    · exact hs
    · split
      · next heq => exact hs.hubXl.ofSnd heq
      · rename_i heq
        have h1 := hs.hubXl.ofSnd heq
        split <;> next heq => exact (ih h1.homeRead).ofSnd heq

theorem State.inv.ctxBytes {ctx va n : Nat} (hs : s.inv) : (s.ctxBytes ctx va n).2.inv := hs.ctxRead

theorem State.inv.ctxWrite {ctx va k : Nat} {d : List Byte} (hs : s.inv) : (s.ctxWrite ctx va k d).inv := by
  induction k generalizing s va d with
  | zero => exact hs
  | succ k ih =>
    simp only [State.ctxWrite]
    split
    · exact hs
    · refine ih ?_
      split
      · next heq => exact hs.hubXl.ofSnd heq
      · next heq => exact (hs.hubXl.ofSnd heq).homeWrite

theorem State.inv.ctxPut {ctx va : Nat} {d : List Byte} (hs : s.inv) : (s.ctxPut ctx va d).inv :=
  hs.ctxWrite

theorem State.inv.postWord {ctx : Nat} {w : Nat} (hs : s.inv) : (s.postWord ctx w).inv := by
  simp only [State.postWord]
  split
  · exact hs.postTime.send
  · exact hs

theorem State.inv.advanceDone {m k : Nat} (hs : s.inv) : (s.advanceDone m k).inv := by
  induction k generalizing s with
  | zero => exact hs
  | succ k ih =>
    simp only [State.advanceDone]
    split
    · exact ih (.setFld hs)
    · exact hs

theorem State.inv.finishSeq {m seq : Nat} (hs : s.inv) : (s.finishSeq m seq).inv := .advanceDone hs

theorem State.inv.record {ctx addr : Nat} {dws : List Word} (hs : s.inv) : (s.record ctx addr dws).inv :=
  hs.ctxPut

theorem State.inv.finishPacket {m seq ctx addr status cause : Nat} (hs : s.inv) :
    (s.finishPacket m seq ctx addr status cause).inv :=
  hs.record.finishSeq

theorem State.inv.refund {l : Launch} (hs : s.inv) : (s.refund l).inv := by
  simp only [State.refund]
  split
  · exact hs.setFld
  · exact hs

theorem State.inv.setNoc (hs : s.inv) : s.setNoc.inv := .foldl hs fun _ _ h => h.setFld

/-- What stands for the actions of a buffer list where there are none. -/
theorem State.inv.iteSt {p : Prop} [Decidable p] {a b : Acted} (ha : a.st.inv) (hb : b.st.inv) :
    (if p then a else b).st.inv := by
  split
  · exact ha
  · exact hb

theorem State.inv.bufRange {ctx va : Nat} {drop : Bool} {k n : Nat} (hs : s.inv) :
    (s.bufRange ctx va drop k n).st.inv := by
  induction k generalizing s va n with
  | zero => exact hs
  | succ k ih =>
    simp only [State.bufRange]
    split
    · exact hs
    · refine ih ?_
      split
      · next heq => exact hs.hubXl.ofSnd heq
      · next heq => exact .iteSt (hs.hubXl.ofSnd heq).cleanLines (hs.hubXl.ofSnd heq)

theorem State.inv.bufActions {ctx : Nat} {after : Bool} {l : List (Nat × Nat × Nat)} (hs : s.inv) :
    (s.bufActions ctx after l).st.inv :=
  List.foldlRecOn (motive := fun a : Acted => a.st.inv) l _ hs fun _ h _ _ => .iteSt h.bufRange h

theorem State.inv.close {l : Launch} {status cause : Nat} (hs : s.inv) : (s.close l status cause).inv := by
  unfold State.close
  extract_lets jobt late s1 s2 s3 s4
  have h1 : s1.inv := hs.refund.record
  have h2 : s2.inv := .ofIf h1.countSat h1
  have h3 : s3.inv := .ofIf h2.countSat h2
  have h4 : s4.inv := .ofIf h3.setFld h3
  exact .setNoc (.finishSeq h4)

theorem State.inv.finish {id status cause : Nat} (hs : s.inv) : (s.finish id status cause).inv := by
  unfold State.finish
  split
  · exact hs
  · extract_lets acts b a k
    have hb : b.st.inv := .iteSt hs.bufActions hs
    have ha : a.st.inv := .iteSt hb.bufActions hb
    split
    · exact ha.modLaunch.hostRead.later
    · exact ha.close

theorem State.inv.endLaunch {id status cause : Nat} (hs : s.inv) : (s.endLaunch id status cause).inv := by
  simp only [State.endLaunch]
  split
  · exact hs
  · exact .later (.modLaunch hs)

theorem State.inv.dropHub {ctx : Nat} (hs : s.inv) : (s.dropHub ctx).inv :=
  .soon (.setFld (.foldl hs fun _ _ h => .ofIf h h.setFld))

theorem State.inv.setJob {n : Nat} {j : Job} (hs : s.inv) : (s.setJob n j).inv :=
  ⟨hs.1, (Laws.length_setAt s.jobs n j).trans hs.2⟩

theorem State.inv.abandonWave {ctx : Nat} (hs : s.inv) : (s.abandonWave ctx).inv := by
  simp only [State.abandonWave]
  split
  · exact hs.setJob.mapCores
  · exact hs

theorem State.inv.killCtx {ctx : Nat} {all : Bool} {but : Option (Nat × Nat)} (hs : s.inv) :
    (s.killCtx ctx all but).inv :=
  .dropHub (.abandonWave (.foldl hs fun _ _ h => .ofIf h.endLaunch (.ofIf h.finish h)))

theorem State.inv.freezeCore {num : Nat} (hs : s.inv) : (s.freezeCore num).inv := hs.modCore

theorem State.inv.joinWave {n f : Nat} {e : Word × Word} (hs : s.inv) : (s.joinWave n f e).inv := by
  unfold State.joinWave
  extract_lets j more fresh stop l s1 s2
  have h1 : s1.inv := hs.setJob
  have h2 : s2.inv := .ofIf h1.setFld.setReg.note.soon h1
  exact .ofIf (.ofIf hs.setJob hs.countSat) (.ofIf h2.countSat h2)

theorem State.inv.trigger {n why : Nat} {core : Option Nat} {unit bundle detail : Nat} (hs : s.inv) :
    (s.trigger n why core unit bundle detail).inv := by
  simp only [State.trigger]
  split
  · split
    · exact hs.joinWave
    · exact hs.joinWave.freezeCore
  · exact hs.joinWave

/-! ### `Sys2Proof.Machine.Plv` -/

theorem State.inv.plvMore {ctx va off n : Nat} {m : Memory} (hs : s.inv) : (s.plvMore ctx va off n m).2.inv := by
  simp only [State.plvMore]
  split <;> next heq => exact hs.ctxBytes.ofSnd heq

theorem State.inv.plvSects {ctx va : Nat} {l : List Sect} {m : Memory} (hs : s.inv) : (s.plvSects ctx va l m).2.inv := by
  induction l generalizing s m with
  | nil => exact hs
  | cons x l ih =>
    simp only [State.plvSects]
    split
    · next heq => exact ih (hs.plvMore.ofSnd heq)
    · next heq => exact hs.plvMore.ofSnd heq

theorem State.inv.plvCheck {ctx va nstage : Nat} (hs : s.inv) : (s.plvCheck ctx va nstage).2.inv := by
  simp only [State.plvCheck]
  split
  · next heq => exact hs.plvMore.ofSnd heq
  · rename_i heq
    have h1 := hs.plvMore.ofSnd heq
    split
    · exact h1
    · split
      · next heq => exact h1.plvMore.ofSnd heq
      · rename_i heq
        have h2 := h1.plvMore.ofSnd heq
        split
        · exact h2
        · split
          · next heq => exact h2.plvSects.ofSnd heq
          · rename_i heq
            have h3 := h2.plvSects.ofSnd heq
            split
            · exact h3
            · split
              · exact h3
              · split
                · exact h3
                · split <;> exact h3

/-! ### `Sys2Proof.Machine.CycleEnd` -/

theorem State.inv.noteCore {num kind cause ctx detail : Nat} (hs : s.inv) :
    (s.noteCore num kind cause ctx detail).inv :=
  hs.note

theorem State.inv.coreTrig {num : Nat} {c : Core} {t : Nat × Nat × Nat × Nat} (hs : s.inv) :
    (s.coreTrig num c t).inv := by
  simp only [State.coreTrig]
  split
  · split
    · exact hs.noteCore.trigger
    · exact hs.noteCore
  · split
    · split
      · exact hs.noteCore.trigger
      · exact hs.noteCore.endLaunch
    · exact hs.trigger

theorem State.inv.noteTrap {num : Nat} {c : Core} (hs : s.inv) : (s.noteTrap num c).inv := by
  simp only [State.noteTrap]
  split
  · split
    · exact hs.noteCore
    · exact hs
  · exact hs

theorem State.inv.finishCore {num : Nat} (hs : s.inv) : (s.finishCore num).inv := by
  unfold State.finishCore
  split
  · exact hs
  · refine .ofIf (.foldl (.setCore hs) fun _ _ h => h.coreTrig) ?_
    extract_lets pol c1 y c s1 s2 cause bundle s3
    have h1 : s1.inv := .foldl hs.setCore fun _ _ h => h.coreTrig
    have h2 : s2.inv := .ofIf h1 h1.noteTrap
    have h3 : s3.inv := by
      dsimp only [s3]
      split
      · exact .ofIf (.ofIf h2.trigger h2.killCtx) h2
      · exact h2
    clear_value s3
    split
    · exact h3
    · exact .ofIf (.soon (.ofIf h3.soon h3)) (.ofIf h3.soon h3)

theorem State.inv.sendOne {num d : Nat} {c : Core} {who : Ctx} {w : Wh} (hs : s.inv) :
    (s.sendOne num d c who w).inv := by
  simp only [State.sendOne]
  split
  · exact .send (.ofIf hs hs.modCore)
  · exact hs.send
  · exact hs.send
  · exact hs.postTime.send
  · exact hs.postTime.send
  · exact hs.postTime.send
  · exact hs.postTime.send
  · exact hs.barTime.send
  · split
    · exact hs.postTime.send
    · exact hs
  · exact hs.modCore
  · exact hs

theorem State.inv.sendFirst {num : Nat} {c : Core} {a : Nat × State} {e : Ctx × Wh} (hs : a.2.inv) :
    (State.sendFirst num c a e).2.inv :=
  hs.sendOne

theorem State.inv.sendRest {num : Nat} {c : Core} {a : Nat × List (Ctx × Wh) × State} {e : Ctx × Wh} (hs : a.2.2.inv) :
    (State.sendRest num c a e).2.2.inv := by
  unfold State.sendRest
  split
  · exact hs
  · exact hs.sendOne

theorem State.inv.sendAll {num : Nat} (hs : s.inv) : (s.sendAll num).inv := by
  unfold State.sendAll
  split
  · exact hs
  · extract_lets of_ p r s1
    have hp : p.2.inv := .foldlSnd hs fun _ _ h => h.sendFirst
    have hr : r.2.2.inv :=
      List.foldlRecOn (motive := fun a : Nat × List (Ctx × Wh) × State => a.2.2.inv) _ _ hp fun _ h _ _ => h.sendRest
    have h1 : s1.inv := .foldl hr fun _ _ h => h.send
    exact h1.modCore

theorem State.inv.servedAll {num : Nat} (hs : s.inv) : (s.servedAll num).inv := by
  simp only [State.servedAll]
  split
  · exact hs
  · exact .foldl hs.setCore fun _ _ h => by
        split
        · exact h.modCore
        · split
          · split
            · exact h.modCore.modCore
            · exact h.modCore.send
          · split <;> exact h.modCore

theorem State.inv.enterBank {no t src : Nat} {who : Ctx} {a len : Nat} {d : Option (List Byte)} {fid : Nat}
    (hs : s.inv) : (s.enterBank no t src who a len d fid).inv :=
  hs.modCore

theorem State.inv.discard {m : Msg} {t cause : Nat} (hs : s.inv) : (s.discard m t cause).inv :=
  hs.note

theorem State.inv.landMsg {m : Msg} (hs : s.inv) : (s.landMsg m).inv := by
  simp only [State.landMsg]
  split
  · split
    · exact hs.enterBank
    · exact .modCore hs
  · split
    · exact hs.enterBank
    · exact hs.modCore
  · split
    · exact hs.soon
    · exact hs.discard
  · split
    · exact hs.soon
    · exact hs.discard
  · exact hs
  · split
    · exact hs.soon
    · exact hs.discard
  · exact hs.modCore
  · exact hs.soon
  · exact hs.enterBank.enterBank.enterBank
  · split
    · exact hs.soon
    · exact hs.note
  · split
    · exact hs.soon
    · exact hs.note
  · exact hs.modCore
  · exact hs.soon

theorem State.inv.msgsTick (hs : s.inv) : s.msgsTick.inv :=
  .foldl (.foldl hs fun _ _ h => h.landMsg) fun _ _ h => h.landMsg

theorem State.inv.routerTick (hs : s.inv) : s.routerTick.inv :=
  .foldl hs fun _ _ h => .ofIf h.countMod (.ofIf h.countMod (.ofIf h.drawIn.countMod h))

theorem State.inv.endCycle (hs : s.inv) : s.endCycle.inv :=
  .foldl (.foldl hs fun _ _ h => h.sendAll) fun _ _ h => h.servedAll

theorem State.inv.settle (hs : s.inv) : s.settle.inv := .msgsTick (.reqsTick (.mapCores hs))

theorem State.inv.setGate {cl g : Nat} (hs : s.inv) : (s.setGate cl g).inv := .setReg hs

theorem State.inv.openDomain {cl : Nat} (hs : s.inv) : (s.openDomain cl).inv := by
  simp only [State.openDomain]
  split
  · exact hs.setGate
  · split
    · exact hs.later
    · exact hs

theorem State.inv.advanceTick (hs : s.inv) : s.advanceTick.inv := by
  simp only [State.advanceTick]
  split
  · exact hs
  · split <;> exact hs

theorem State.inv.awayTick {was : State} {n : Nat} (hs : s.inv) : (State.awayTick was s n).inv := by
  simp only [State.awayTick]
  split
  · exact hs.setJob
  · exact hs

theorem State.inv.nextTick (hs : s.inv) : s.nextTick.inv :=
  .foldl (.foldl (.advanceTick (.takeNotes (.routerTick (.foldl hs fun _ _ h => h.phaseFlush)))) fun _ _ h => h.awayTick)
    fun _ _ h => h.later

theorem State.inv.newCycle (hs : s.inv) : s.newCycle.inv := hs

/-! ### `Sys2Proof.Machine.Sched` -/

theorem State.inv.saveImage {ctx k : Nat} {im : Image} (hs : s.inv) : (s.saveImage ctx k im).inv :=
  hs.physWrite.physWrite.physWrite.physWrite

theorem State.inv.rangeFault {ctx va : Nat} {k : Acces} {i n : Nat} (hs : s.inv) : (s.rangeFault ctx va k i n).2.inv := by
  induction i generalizing s va n with
  | zero => exact hs
  | succ i ih =>
    simp only [State.rangeFault]
    split
    · exact hs
    · split
      · next heq => exact hs.xlate.ofSnd heq
      · next heq => exact ih (hs.xlate.ofSnd heq)

theorem State.inv.imageFault {r : Retained} {k : Acces} (hs : s.inv) : (s.imageFault r k).2.inv :=
  .foldlSnd hs fun _ _ h => by
      split
      · exact h
      · exact h.rangeFault

theorem State.inv.evictImage {r : Retained} (hs : s.inv) : (s.evictImage r).inv :=
  .foldl hs fun _ _ h => h.ctxPut

theorem State.inv.readImage {r : Retained} (hs : s.inv) : (s.readImage r).2.inv :=
  .foldlSnd hs fun _ _ h => h.ctxBytes

theorem State.inv.dispatch {id : Nat} (hs : s.inv) : (s.dispatch id).inv := by
  unfold State.dispatch
  split
  · exact hs
  · extract_lets cls out f1 f2 cost s1 ch u s2 s3 s4
    have h1 : f1.2.inv := .foldlSnd hs fun _ _ h => by
      split
      · exact h
      · exact h.imageFault
    have h2 : f2.2.inv := .foldlSnd h1 fun _ _ h => by
      split
      · exact h.imageFault
      · exact h
    have hs1 : s1.inv := .foldl h2 fun _ _ h => h.evictImage
    have hs2 : s2.inv := hs1
    have hs4 : s4.inv := .foldl hs2.setFld fun _ _ h => h.openDomain
    clear_value f2
    split
    · exact h2.finish
    · exact hs4.setNoc.later

theorem State.inv.infeasible {l : Launch} (hs : s.inv) : (s.infeasible l).inv := by
  simp only [State.infeasible]
  split
  · exact hs.modLaunch.finish
  · exact hs.modLaunch.modLaunch

theorem State.inv.preempt {id : Nat} (hs : s.inv) : (s.preempt id).inv := by
  simp only [State.preempt]
  split
  · exact hs
  · exact .later (.countSat (.mapCores hs))

theorem State.inv.decideRt {l0 : Launch} (hs : s.inv) : (s.decideRt l0).inv := by
  unfold State.decideRt
  split
  · exact hs
  · extract_lets
    exact .ofIf hs (.ofIf (.ofIf hs hs.infeasible) (.ofIf hs.infeasible (.ofIf hs.dispatch
      (.modLaunch (.foldl hs fun _ _ h => h.preempt)))))

theorem State.inv.dispatchAll {l : List Launch} (hs : s.inv) : (s.dispatchAll l).inv :=
  .foldl hs fun _ _ h => by
      split
      · split
        · exact h.dispatch
        · exact h
      · exact h

theorem State.inv.bulkLoop {n : Nat} (hs : s.inv) : (s.bulkLoop n).inv := by
  induction n generalizing s with
  | zero => exact hs
  | succ n ih =>
    unfold State.bulkLoop
    extract_lets all s0 fit tot s1
    have h1 : s1.inv := .foldl hs fun _ _ h => h
    split
    · exact hs
    · exact ih (.dispatch h1)

theorem State.inv.debugLoop {n : Nat} (hs : s.inv) : (s.debugLoop n).inv := by
  induction n generalizing s with
  | zero => exact hs
  | succ n ih =>
    simp only [State.debugLoop]
    split
    · exact ih hs.dispatch
    · exact hs

theorem State.inv.rejectShapes {n : Nat} (hs : s.inv) : (s.rejectShapes n).inv := by
  induction n generalizing s with
  | zero => exact hs
  | succ n ih =>
    simp only [State.rejectShapes]
    split
    · exact ih hs.finish
    · exact hs

theorem State.inv.startReserved (hs : s.inv) : s.startReserved.inv :=
  .foldl hs fun _ _ h => .ofIf h.dispatch h

theorem State.inv.decideOnce (hs : s.inv) : s.decideOnce.inv :=
  .debugLoop (.bulkLoop (.dispatchAll (.foldl hs.rejectShapes fun _ _ h => h.decideRt)))

theorem State.inv.decideN {n : Nat} (hs : s.inv) : (s.decideN n).inv := by
  induction n generalizing s with
  | zero => exact hs
  | succ n ih =>
    simp only [State.decideN]
    split
    · exact ih hs.decideOnce
    · exact hs.decideOnce

theorem State.inv.decideNow (hs : s.inv) : s.decideNow.inv := hs.startReserved.decideN

theorem State.inv.decide (hs : s.inv) : s.decide.inv := hs

theorem State.inv.endTick (hs : s.inv) : s.endTick.inv := by
  simp only [State.endTick]
  split
  · exact .nextTick (.decideNow hs)
  · exact hs.nextTick

theorem State.inv.syncBps {num ctx : Nat} (hs : s.inv) : (s.syncBps num ctx).inv := hs

theorem State.inv.bringUp {num : Nat} {c : Core} (hs : s.inv) : (s.bringUp num c).inv := by
  simp only [State.bringUp]
  split
  · exact .soon (.syncBps hs)
  · exact .syncBps hs

theorem State.inv.loadCode {l : Launch} {st cl : Nat} (hs : s.inv) : (s.loadCode l st cl).inv := hs

theorem State.inv.releaseCluster {l : Launch} {st j : Nat} (hs : s.inv) : (s.releaseCluster l st j).inv := by
  unfold State.releaseCluster
  -- The invariant does not turn on what an image holds, which is long to evaluate: any function stands for its reading.
  obtain ⟨load, hload⟩ : ∃ load, load = State.loadImage := ⟨_, rfl⟩
  rw [← hload]
  extract_lets cl s1 age
  refine .foldl hs.loadCode fun u k h => ?_
  extract_lets num off stagger ow got v t1
  have hgot : got.2.inv := by
    dsimp only [got]
    clear_value ow
    split
    · split
      · exact h
      · exact .pair h.readImage
    · exact h
  have h1 : t1.inv := .withRetained hgot
  refine .ofIf ?_ h1.bringUp
  split
  · split
    · exact .withFaults h.bringUp
    · exact h
  · exact h

theorem State.inv.releaseStage {id : Nat} (hs : s.inv) : (s.releaseStage id).inv := by
  unfold State.releaseStage
  split
  · exact hs
  · refine .ofIf hs (.ofIf (.later (.foldl hs fun _ _ h => h.openDomain)) (.ofIf hs.finish.decide ?_))
    extract_lets b n st now s1 nrel r0 s2
    have hb : b.st.inv := .iteSt hs.bufActions hs
    have h1 : s1.inv := .foldl hb fun _ _ h => h.releaseCluster
    have h2 : s2.inv := h1.modLaunch
    exact .ofIf h2 h2.later

theorem State.inv.endPart {num : Nat} (hs : s.inv) : (s.endPart num).inv := by
  simp only [State.endPart]
  split
  · exact hs
  · split
    · exact hs
    · split
      · exact hs
      · split
        · exact .soon (.modLaunch (.setCore (.ofIf hs hs)))
        · exact .modLaunch (.setCore (.ofIf hs hs))

theorem State.inv.complete {id : Nat} (hs : s.inv) : (s.complete id).inv := by
  simp only [State.complete]
  split
  · exact hs
  · split
    · exact hs.finish.decide
    · split
      · split
        · exact hs.later
        · exact hs.finish.decide
      · exact hs

theorem State.inv.preemptStep {id : Nat} (hs : s.inv) : (s.preemptStep id).inv := by
  simp only [State.preemptStep]
  split
  · exact hs
  · split
    · exact hs
    · split
      · exact .decide (.setNoc hs)
      · split
        · exact .later (.modLaunch (.foldl hs fun _ _ h => h.saveImage))
        · exact hs.later

theorem State.inv.killRecords {ctx : Nat} (hs : s.inv) : (s.killRecords ctx).inv := by
  simp only [State.killRecords]
  split
  · exact hs
  · exact .foldl hs fun _ _ h => h.finishPacket

theorem State.inv.newWindow (hs : s.inv) : s.newWindow.inv := hs.setFld.decide

/-! ### `Sys2Proof.Machine.Streams` -/

theorem State.inv.packetAt {m : Nat} (hs : s.inv) : (s.packetAt m).2.inv := by
  unfold State.packetAt
  exact .pair hs.physRead

theorem State.inv.takeSeq {m : Nat} (hs : s.inv) : (s.takeSeq m).2.inv := hs.setFld

theorem State.inv.placeSlots {m : Nat} (hs : s.inv) : (s.placeSlots m).inv := by
  simp only [State.placeSlots]
  split
  · exact hs.setFld.setFld
  · exact hs

theorem State.inv.strFields {m v : Nat} (hs : s.inv) : (s.strFields m v).inv := hs.setReg

theorem State.inv.enableStream {m v : Nat} (hs : s.inv) : (s.enableStream m v).inv := by
  simp only [State.enableStream]
  split
  · exact hs
  · split
    · exact hs.strFields.placeSlots
    · exact hs.setFld

theorem State.inv.disableStream {m v : Nat} (hs : s.inv) : (s.disableStream m v).inv := by
  simp only [State.disableStream]
  split <;> exact hs

theorem State.inv.majorFrame (hs : s.inv) : s.majorFrame.inv := hs

theorem State.inv.pollStream {m : Nat} (hs : s.inv) : (s.pollStream m).inv := by
  simp only [State.pollStream]
  split
  · split
    · exact hs.packetAt.drawIn.soon
    · exact hs.packetAt.drawIn.later
  · exact hs

theorem State.inv.checkLaunch {cls ctx : Nat} {pkt : List Word} {measured : Bool} (hs : s.inv) :
    (s.checkLaunch cls ctx pkt measured).2.2.inv := by
  simp only [State.checkLaunch]
  split
  · exact hs
  · split
    · exact hs
    · split
      · exact hs
      · split
        · exact hs
        · split
          · exact hs.plvCheck
          · split
            · exact hs.plvCheck
            · split <;> exact hs.plvCheck

theorem State.inv.newLaunch {m seq : Nat} {pkt : List Word} (hs : s.inv) : (s.newLaunch m seq pkt).inv := by
  unfold State.newLaunch
  extract_lets cls ctx rp meas l1 l0 s0 s1 c l u s2
  have h1 : s1.inv := .ofIf (State.inv.setFld hs) hs
  have hc : c.2.2.inv := h1.checkLaunch
  have h2 : s2.inv := hc
  clear_value c s2
  split
  · exact h2.finish
  · exact .ofIf h2.finish h2

theorem State.inv.typeZero {m seq : Nat} {pkt : List Word} (hs : s.inv) : (s.typeZero m seq pkt).inv := by
  simp only [State.typeZero]
  split
  · split
    · exact .finishPacket (.finishSeq hs)
    · exact .finishSeq hs
  · exact hs.newLaunch

theorem State.inv.takePacket {m : Nat} (hs : s.inv) : (s.takePacket m).2.2.inv :=
  hs.packetAt.takeSeq

theorem State.inv.launchPacket {m : Nat} (hs : s.inv) : (s.launchPacket m).inv := by
  simp only [State.launchPacket]
  split
  · exact hs
  · split
    · exact hs.takePacket.typeZero.decide
    · exact hs.takePacket.setFld.finishPacket.decide

theorem State.inv.rejectPacket {m seq : Nat} {pkt : List Word} {cause : Nat} (hs : s.inv) :
    (s.rejectPacket m seq pkt cause).inv :=
  hs.setFld.finishPacket

theorem State.inv.replayPacket {m : Nat} (hs : s.inv) : (s.replayPacket m).inv := by
  unfold State.replayPacket
  refine .ofIf hs ?_
  extract_lets t g ps s1
  have ht : t.2.2.inv := hs.takePacket
  refine .ofIf ht.rejectPacket.decide (.decide (.finishPacket (.foldl ht fun u _ h => ?_)))
  have hq : (u.takeSeq m).2.inv := h.takeSeq
  exact State.inv.typeZero hq

theorem State.inv.recordPacket {m : Nat} (hs : s.inv) : (s.recordPacket m).inv := by
  unfold State.recordPacket
  refine .ofIf hs ?_
  extract_lets t d1 k ra g u s1
  have ht : t.2.2.inv := hs.takePacket
  have h1 : s1.inv := .withGraphs ht
  clear_value s1
  exact .ofIf ht.rejectPacket.decide (.ofIf h1.rejectPacket.decide (.decide (.withRecording h1)))

theorem State.inv.withKills {l : List (Nat × Nat × Nat × Nat)} (hs : s.inv) : ({ s with kills := l } : State).inv := hs

theorem State.inv.killPacket {m : Nat} (hs : s.inv) : (s.killPacket m).inv := by
  unfold State.killPacket
  refine .ofIf hs ?_
  extract_lets t ctx s1
  have ht : t.2.2.inv := hs.takePacket
  have h1 : s1.inv := ht.killCtx
  exact .ofIf ht.rejectPacket.decide (.decide (.killRecords (State.inv.withKills h1)))

theorem State.inv.resetStream {m : Nat} (hs : s.inv) : (s.resetStream m).inv := hs

theorem State.inv.capture {l : Launch} (hs : s.inv) : (s.capture l).inv :=
  .foldlSnd hs fun _ _ h => by
    dsimp only
    split
    · exact h.ctxBytes.ctxPut
    · exact h.ctxBytes

theorem State.inv.putBack {l : Launch} (hs : s.inv) : (s.putBack l).inv := by
  unfold State.putBack
  extract_lets s1
  have h1 : s1.inv := .foldlSnd hs fun _ _ h => .bufRange (by
    split
    · exact h.ctxBytes.ctxPut
    · exact h.ctxBytes)
  exact h1.invalidate

theorem State.inv.programPass {l : Launch} {first : Bool} (hs : s.inv) : (s.programPass l first).inv := by
  simp only [State.programPass]
  split
  · exact .foldl hs.ctxBytes.mapCores fun _ _ h => .foldl h fun _ _ h' => h'.setReg.setReg
  · exact hs.ctxBytes.mapCores

theorem State.inv.passResults {l : Launch} (hs : s.inv) : (s.passResults l).inv :=
  hs.ctxBytes.ctxPut.ctxPut.ctxPut

theorem State.inv.finishKilled {l : Launch} (hs : s.inv) : (s.finishKilled l).inv :=
  .finish (.ofIf hs.passResults hs)

theorem State.inv.killStep {ctx : Nat} (hs : s.inv) : (s.killStep ctx).inv := by
  unfold State.killStep
  extract_lets mine s1 s2 s3
  have h1 : s1.inv := .foldl hs fun _ _ h => .ofIf h.finishKilled h
  have h2 : s2.inv := h1.killRecords
  have h3 : s3.inv := .ofIf h2.later h2
  exact .ofIf h3.decide h3

theorem State.inv.nextPass {l : Launch} {sigs : List (Nat × Word)} {back0 : Nat} (hs : s.inv) :
    (s.nextPass l sigs back0).inv :=
  .later hs.putBack.setJob

theorem State.inv.replayPass {id : Nat} (hs : s.inv) : (s.replayPass id).inv := by
  simp only [State.replayPass]
  split
  · exact hs
  · split
    · exact hs
    · split
      · exact hs.passResults.nextPass
      · exact hs.passResults.complete

theorem State.inv.launchComplete {id : Nat} (hs : s.inv) : (s.launchComplete id).inv := by
  simp only [State.launchComplete]
  split
  · exact hs
  · split
    · exact hs.soon
    · exact hs.complete

theorem State.inv.stageRelease {id : Nat} (hs : s.inv) : (s.stageRelease id).inv := by
  simp only [State.stageRelease]
  split
  · exact hs
  · split
    · split
      · exact .programPass (.releaseStage (.ofIf hs.capture hs))
      · exact .releaseStage (.ofIf hs.capture hs)
    · exact .releaseStage (.ofIf hs.capture hs)

/-! ### `Sys2Proof.Machine.Debug` -/

theorem State.inv.drawBit (hs : s.inv) : s.drawBit.2.inv := hs

theorem State.inv.haltFlit {n : Nat} (hs : s.inv) : (s.haltFlit n).inv := by
  simp only [State.haltFlit]
  split
  · exact .later (.foldl hs fun _ _ h => .ofIf h.drawBit.freezeCore h.drawBit)
  · exact hs

theorem State.inv.freezeAll {n : Nat} (hs : s.inv) : (s.freezeAll n).inv := hs.mapCores

theorem State.inv.moveReleases {n : Nat} {f : Nat → Nat} (hs : s.inv) : (s.moveReleases n f).inv :=
  hs

theorem State.inv.stopTick {n : Nat} (hs : s.inv) : (s.stopTick n).inv := by
  simp only [State.stopTick]
  split
  · exact .moveReleases (.ofIf hs.setJob.freezeAll.countMod hs.setJob.freezeAll.note)
  · exact hs

theorem State.inv.refused {n : Nat} {b : Bool} (hs : s.inv) : (s.refused n b).inv := hs.setFld

theorem State.inv.hostHalt {n : Nat} (hs : s.inv) : (s.hostHalt n).inv := by
  simp only [State.hostHalt]
  split
  · exact hs.trigger
  · exact hs.setJob
  · exact hs

theorem State.inv.askResume {n : Nat} {k : Option Nat} (hs : s.inv) : (s.askResume n k).inv := by
  simp only [State.askResume]
  split
  · exact hs
  · split
    · exact hs.refused
    · exact hs.refused.setJob.later

theorem State.inv.askCoreStep {n core : Nat} (hs : s.inv) : (s.askCoreStep n core).inv := by
  unfold State.askCoreStep
  extract_lets
  exact .ofIf hs (.ofIf hs.refused hs.refused.setJob.later)

theorem State.inv.clearCause {n : Nat} (hs : s.inv) : (s.clearCause n).inv := by
  simp only [State.clearCause]
  split
  · exact hs.setJob.setFld
  · exact hs

theorem State.inv.peerAccess {p ctx coh pa len : Nat} {op : ReqOp} {data : List (Option Byte)} (hs : s.inv) :
    (s.peerAccess p ctx coh pa len op data).inv := by
  simp only [State.peerAccess]
  split
  · exact hs
  · exact hs.reqTimes.addReq

theorem State.inv.portGoes {e : Nat × Flit} (hs : s.inv) : (s.portGoes e).inv := by
  simp only [State.portGoes]
  split
  · exact hs.peerAccess
  · exact hs

theorem State.inv.timePlan {n : Nat} (hs : s.inv) : (s.timePlan n).inv := by
  simp only [State.timePlan]
  split
  · exact hs.later
  · exact hs

theorem State.inv.resumeAt {n : Nat} (hs : s.inv) : (s.resumeAt n).inv := by
  unfold State.resumeAt
  extract_lets j
  clear_value j
  split
  · refine .ofIf hs ?_
    extract_lets st stop s1 s2 back s3 s4 s5
    have h3 : s3.inv := hs.setReg.setJob
    have h4 : s4.inv := .timePlan (.moveReleases (.foldl h3 fun _ _ h => h.portGoes))
    clear_value s4
    have h5 : s5.inv := by
      dsimp only [s5]
      clear s5
      clear_value stop
      split
      · exact h4.later
      · exact h4
    exact .ofIf h5.later h5
  · exact hs

theorem State.inv.jobstepEnd {n : Nat} (hs : s.inv) : (s.jobstepEnd n).inv := by
  simp only [State.jobstepEnd]
  split
  · split
    · exact hs.freezeAll
    · exact hs
  · exact hs

theorem State.inv.corestepAt {n : Nat} (hs : s.inv) : (s.corestepAt n).inv := by
  simp only [State.corestepAt]
  split
  · exact hs
  · split
    · exact hs.setJob
    · split
      · exact .later (.setJob (.foldl (.foldl hs fun _ _ h => h.freezeCore) fun _ _ h => h.modCore))
      · exact .setJob (.foldl (.foldl hs fun _ _ h => h.freezeCore) fun _ _ h => h.modCore)

theorem State.inv.breakpointAt {num : Nat} (hs : s.inv) : (s.breakpointAt num).inv := by
  simp only [State.breakpointAt]
  split
  · exact hs
  · split
    · exact hs
    · split
      · exact hs.trigger.modCore
      · exact hs

theorem State.inv.bpEffect {num : Nat} (hs : s.inv) : (s.bpEffect num).inv := by
  simp only [State.bpEffect]
  split
  · exact hs
  · exact hs.syncBps

theorem State.inv.bpWritten {n : Nat} (hs : s.inv) : (s.bpWritten n).inv :=
  .foldl hs fun _ _ h => h.drawIn.later

theorem State.inv.ringWrite {base size off : Nat} {d : List Byte} (hs : s.inv) : (s.ringWrite base size off d).inv :=
  hs.physWrite.physWrite

theorem State.inv.surveyStack {st : Nat} (hs : s.inv) : (s.surveyStack st).inv := by
  simp only [State.surveyStack]
  split
  · exact hs.ringWrite.countMod
  · exact hs.countSat

theorem State.inv.surveyPulse (hs : s.inv) : s.surveyPulse.inv :=
  .foldl hs fun _ _ h => h.surveyStack

theorem State.inv.shadowTick {t : Nat} (hs : s.inv) : (s.shadowTick t).inv := by
  simp only [State.shadowTick]
  split
  · exact hs.setFld.later
  · exact hs

theorem State.inv.shtrig {v : Nat} (hs : s.inv) : (s.shtrig v).inv := by
  simp only [State.shtrig]
  split
  · exact hs.setReg.shadowTick
  · exact hs

theorem State.inv.shadowTrigger (hs : s.inv) : s.shadowTrigger.inv :=
  .countMod (.setFld (.foldl hs.mapCores fun _ _ h => .foldl h fun _ _ h' => h'.setReg))

theorem State.inv.frNext {d : Nat} (hs : s.inv) : (s.frNext d).inv := hs.countMod

/-! ### `Sys2Proof.Machine.Links` -/

theorem State.inv.farResume {n r : Nat} {k : Option Nat} (hs : s.inv) : (s.farResume n r k).inv := by
  simp only [State.farResume]
  split
  · exact hs.setJob.later
  · exact hs

theorem State.inv.flitLands {p : Nat} {x : Flit} (hs : s.inv) : (s.flitLands p x).inv := by
  simp only [State.flitLands]
  split
  · split
    · exact hs
    · exact hs.portGoes
  · exact hs.joinWave
  · exact hs.farResume
  · exact hs
  · exact hs.shadowTick

theorem State.inv.lateAnswers {p : Nat} (hs : s.inv) : (s.lateAnswers p).inv :=
  .foldl hs fun _ _ h => .ofIf h.drawAny.putReq h

theorem State.inv.flit {p : Nat} {good : Bool} (hs : s.inv) : (s.flit p good).inv := by
  simp only [State.flit]
  split
  · split
    · exact .flitLands hs
    · exact hs
  · split
    · exact .note (.lateAnswers hs)
    · exact hs

theorem State.inv.linkDown {p : Nat} (hs : s.inv) : (s.linkDown p).inv := hs.setFld.countSat.note

theorem State.inv.linkUp {p peer : Nat} (hs : s.inv) : (s.linkUp p peer).inv :=
  hs.setFld.setFld.note

theorem State.inv.discipline {stamp : Nat} (hs : s.inv) : (s.discipline stamp).inv := by
  simp only [State.discipline]
  split <;> exact hs

theorem State.inv.planEnd {n cause nphase : Nat} (hs : s.inv) : (s.planEnd n cause nphase).inv :=
  .setFld (.setFld (.setFld hs))

theorem State.inv.planHead {ctx va : Nat} (hs : s.inv) : (s.planHead ctx va).2.inv := hs.ctxBytes

theorem State.inv.planTable {ctx va : Nat} {want : Nat → Bool} {i k : Nat} (hs : s.inv) :
    (s.planTable ctx va want i k).2.inv := by
  induction k generalizing s i with
  | zero => exact hs
  | succ k ih =>
    unfold State.planTable
    extract_lets r
    have h1 : r.2.inv := by
      dsimp only [r]
      split
      · exact hs.ctxBytes
      · exact hs
    split
    · next heq => exact (ih h1).ofSnd heq
    · next heq _ => exact (ih h1).ofSnd heq

theorem State.inv.planTables {ctx va : Nat} {d : List Nat} (hs : s.inv) : (s.planTables ctx va d).2.inv := by
  unfold State.planTables
  extract_lets n mode me
  split
  · next heq => exact hs.ctxBytes.ofSnd heq
  · rename_i heq
    have h1 := hs.ctxBytes.ofSnd heq
    split
    · next heq => exact h1.planTable.ofSnd heq
    · rename_i heq
      have h2 := h1.planTable.ofSnd heq
      split <;> next heq => exact h2.planTable.ofSnd heq

theorem State.inv.readBlock {ctx : Nat} {me : Option Nat} {p : PlanDesc} {i j k : Nat} (hs : s.inv) :
    (s.readBlock ctx me p i j k).2.inv := by
  simp only [State.readBlock]
  split
  · exact hs
  · split
    · split
      · exact hs
      · exact hs.ctxBytes
    · exact hs

theorem State.inv.writeBlock {ctx : Nat} {me : Option Nat} {p : PlanDesc} {i j k : Nat} {d : List Byte} (hs : s.inv)
    (ht : s.writeBlock ctx me p i j k d = some t) : t.inv := by
  revert ht
  simp only [State.writeBlock]
  split
  · split
    · exact nofun
    · rintro ⟨⟩
      exact hs.ctxPut
  · rintro ⟨⟩
    exact hs

theorem State.inv.modPlan {n : Nat} {f : PlanE → PlanE} (hs : s.inv) : (s.modPlan n f).inv := hs

theorem State.inv.planGo {n : Nat} {e : PlanE} (hs : s.inv) : (s.planGo n e).inv :=
  .timePlan (.modPlan (.ofIf hs hs.ctxPut))

theorem State.inv.planStart {n : Nat} {v : Nat} (hs : s.inv) : (s.planStart n v).inv := by
  simp only [State.planStart]
  split
  · exact hs
  · split
    · exact hs.setFld.planHead.planEnd
    · split
      · exact hs.setFld.planHead.planEnd
      · split
        · next heq => exact (hs.setFld.planHead.planTables.ofSnd heq).planEnd
        · rename_i heq
          have h1 := hs.setFld.planHead.planTables.ofSnd heq
          split
          · exact h1.drawBit.planEnd
          · split
            · exact .later h1.drawBit
            · exact .planGo h1.drawBit

theorem State.inv.planLate {n : Nat} (hs : s.inv) : (s.planLate n).inv := by
  simp only [State.planLate]
  split
  · exact hs
  · split
    · exact hs.later
    · split
      · exact hs.planEnd
      · split
        · exact hs.planGo
        · exact hs.later

theorem State.inv.setBlocks {e : PlanE} {p len : Nat} {pairs : List (Nat × Nat)} {start : Nat} (hs : s.inv) :
    (s.setBlocks e p len pairs start).inv :=
  .foldl hs fun _ _ h => .foldl h fun _ _ h' => h'.later

theorem State.inv.planCheck {n : Nat} (hs : s.inv) : (s.planCheck n).inv := by
  simp only [State.planCheck]
  split
  · split
    · split
      · exact hs.planEnd
      · exact hs.soon
    · exact hs
  · exact hs

theorem State.inv.phaseStart {n x : Nat} {e : PlanE} (hs : s.inv) : (s.phaseStart n x e).inv := by
  simp only [State.phaseStart]
  split
  · exact hs
  · split
    · exact hs.modPlan.planCheck
    · split
      · exact .planCheck (.timePlan (.setBlocks (.modPlan (.ofIf hs.setBlocks hs))))
      · exact .planCheck (.modPlan (.ofIf hs.setBlocks hs))

theorem State.inv.planFaults {n : Nat} (hs : s.inv) : (s.planFaults n).inv := hs.modPlan.planCheck

theorem State.inv.phaseBlock {n x : Nat} {e : PlanE} (hs : s.inv) : (s.phaseBlock n x e).inv := by
  unfold State.phaseBlock
  extract_lets ph i b done j k me
  split
  · split
    · exact hs
    · split
      · next heq => exact (hs.modPlan.writeBlock heq).planCheck
      · exact hs.modPlan.planFaults
  · split
    · next heq => exact (hs.readBlock.ofSnd heq).planFaults
    · next heq => exact (hs.readBlock.ofSnd heq).drawIn.modPlan.later

theorem State.inv.planPhase {n x : Nat} (hs : s.inv) : (s.planPhase n x).inv := by
  simp only [State.planPhase]
  split
  · exact hs
  · split
    · exact hs.phaseStart
    · exact hs.phaseBlock

theorem State.inv.planComplete {n : Nat} (hs : s.inv) : (s.planComplete n).inv := by
  simp only [State.planComplete]
  split
  · exact hs.postWord.planEnd.countMod
  · exact hs

theorem State.inv.treeSet {v : Nat} (hs : s.inv) : (s.treeSet v).inv := by
  simp only [State.treeSet]
  split
  · exact hs
  · exact hs.drawIn.setReg.setFld.later

theorem State.inv.treeValid {t : Nat} {b : Bool} (hs : s.inv) : (s.treeValid t b).inv := by
  simp only [State.treeValid]
  split <;> exact hs.setFld

theorem State.inv.treeChecked (hs : s.inv) : s.treeChecked.inv := by
  unfold State.treeChecked
  refine .ofIf hs ?_
  extract_lets v t ctx va u s0 fail
  have h0 : s0.inv := hs
  have hfail {x : State} {c : Nat} (hx : x.inv) : (fail x c).inv := hx.setFld.treeValid
  clear_value s0
  split
  · next heq => exact hfail (h0.ctxBytes.ofSnd heq)
  · rename_i heq
    have h1 := h0.ctxBytes.ofSnd heq
    dsimp only
    split
    · next heq => exact hfail (h1.ctxBytes.ofSnd heq)
    · rename_i heq
      have h2 := h1.ctxBytes.ofSnd heq
      exact .ofIf (hfail h2) (.ofIf (hfail h2) (.treeValid (.setFld h2)))

theorem State.inv.forwardTime {sa ca sb cb : Nat} (hs : s.inv) : (s.forwardTime sa ca sb cb).2.inv := by
  simp only [State.forwardTime]
  split
  · exact hs
  · exact hs.postTime

theorem State.inv.modTree {t : Nat} {f : Tree → Tree} (hs : s.inv) : (s.modTree t f).inv := hs

theorem State.inv.treeInput {t node : Nat} {d : List (Lane × Lane)} (hs : s.inv) : (s.treeInput t node d).inv := by
  simp only [State.treeInput]
  split
  · exact hs
  · split
    · exact hs
    · split
      · exact hs.modTree
      · split
        · exact hs.modTree.send
        · exact hs.forwardTime.modTree.send

theorem State.inv.treeDeliver {t : Nat} (hs : s.inv) : (s.treeDeliver t).inv := by
  simp only [State.treeDeliver]
  split
  · exact hs
  · split
    · exact hs
    · split
      · exact hs.modTree.barTime.send
      · exact hs.modTree.postTime.send

theorem State.inv.dispatchBuild {g : Nat} (hs : s.inv) : (s.dispatchBuild g).inv := by
  unfold State.dispatchBuild
  extract_lets ctl ctx ne c t m maps lists r out s1 un s2
  have h1 : s1.inv := hs.ctxBytes.ctxPut
  have h2 : s2.inv := h1.countSat.setFld.setFld
  exact .postWord (.withDispatched h2)

theorem State.inv.dispatchList {src g e : Nat} {d : List (Lane × Lane)} (hs : s.inv) :
    (s.dispatchList src g e d).inv := by
  unfold State.dispatchList
  extract_lets ctl again s1 s2
  have h1 : s1.inv := hs
  have h2 : s2.inv := .ofIf h1 h1.countMod
  exact .ofIf hs.note (.ofIf h2.dispatchBuild h2)

theorem State.inv.withGate {g : Nat} (hs : s.inv) : (s.withGate g).inv := by
  simp only [State.withGate]
  split <;> exact hs

theorem State.inv.gateRun {g : Nat} (hs : s.inv) : (s.gateRun g).inv := hs.withGate.modCore

theorem State.inv.gateStop {g : Nat} (hs : s.inv) : (s.gateStop g).inv := hs.modCore

theorem State.inv.gateWindow {g off : Nat} {write : Bool} {v : Word} (hs : s.inv) :
    (s.gateWindow g off write v).inv := by
  simp only [State.gateWindow]
  split
  · split
    · exact hs.later
    · exact hs.withGate.modCore
  · exact hs

theorem State.inv.gwtlInc {g : Nat} (hs : s.inv) : (s.gwtlInc g).inv := hs.setReg

theorem State.inv.bqTake (hs : s.inv) : s.bqTake.2.inv := by
  simp only [State.bqTake]
  split
  · exact hs.setFld
  · exact hs

/-! ### `Sys2Proof.Machine.Port` -/

theorem State.inv.putFields {off mask v : Nat} (hs : s.inv) : (s.putFields off mask v).inv :=
  hs.setReg

theorem State.inv.putIn {off hi lo least most v : Nat} (hs : s.inv) : (s.putIn off hi lo least most v).inv := by
  simp only [State.putIn]
  split
  · exact hs.setFld
  · exact hs

theorem State.inv.resetCtl {v : Nat} (hs : s.inv) : (s.resetCtl v).inv := by
  simp only [State.resetCtl]
  split
  · exact hs
  · split
    · exact hs.setFld.soon
    · exact hs.setFld.soon
    · exact hs.setFld.soon
    · exact hs

theorem State.inv.fqResolve {v : Nat} (hs : s.inv) : (s.fqResolve v).inv := by
  simp only [State.fqResolve]
  split
  · exact hs.soon
  · exact hs.soon
  · exact hs

theorem State.inv.tinvWrite {v : Nat} (hs : s.inv) : (s.tinvWrite v).inv := by
  simp only [State.tinvWrite]
  split
  · exact hs.soon
  · exact hs.soon
  · exact hs.soon
  · exact hs

theorem State.inv.fwCtl {w v : Nat} (hs : s.inv) : (s.fwCtl w v).inv := hs.startFills.setReg.setFld

theorem State.inv.haltCtl {n v : Nat} (hs : s.inv) : (s.haltCtl n v).inv := by
  simp only [State.haltCtl]
  split
  · exact hs.soon
  · exact hs.soon
  · exact hs.soon
  · exact hs.soon
  · exact hs.soon
  · exact hs

theorem State.inv.gwCtl {g v : Nat} (hs : s.inv) : (s.gwCtl g v).inv := by
  simp only [State.gwCtl]
  split
  · exact hs.putFields.soon
  · split
    · exact hs.putFields.soon
    · exact hs.putFields

theorem State.inv.strCtl {m v : Nat} (hs : s.inv) : (s.strCtl m v).inv := by
  simp only [State.strCtl]
  split
  · exact hs.soon
  · split
    · exact hs.soon
    · split
      · exact hs
      · exact hs.strFields

/-- From the value of an optional state to the invariant of what it holds. -/
theorem State.inv.ofSome (hs : s.inv) : ∀ t, some s = some t → t.inv := by
  rintro _ ⟨⟩
  exact hs

theorem State.inv.ofNone : ∀ t : State, none = some t → t.inv := by rintro _ ⟨⟩

theorem State.inv.iteSome {p : Prop} [Decidable p] {x y : Option State} (hx : ∀ t, x = some t → t.inv)
    (hy : ∀ t, y = some t → t.inv) : ∀ t, (if p then x else y) = some t → t.inv := by
  split
  · exact hx
  · exact hy

theorem State.inv.hubLow {off v : Nat} (hs : s.inv) : ∀ t, s.hubLow off v = some t → t.inv := by
  unfold State.hubLow
  extract_lets u
  refine iteSome (ofSome hs.resetCtl) ?_
  refine iteSome (ofSome (.ofIf hs hs.setFld)) ?_
  refine iteSome (ofSome (.ofIf hs.putIn hs.putIn)) ?_
  refine iteSome (ofSome hs.soon) ?_
  refine iteSome (ofSome (.ofIf hs (.ofIf hs.soon (.ofIf hs.soon hs)))) ?_
  refine iteSome (ofSome hs.putFields.putIn.soon) ?_
  refine iteSome (ofSome hs.putFields.soon) ?_
  refine iteSome (ofSome hs.fqResolve) ?_
  refine iteSome (ofSome hs.tinvWrite) ?_
  refine iteSome (ofSome (.ofIf hs hs.putIn)) ?_
  refine iteSome (ofSome hs.soon) ?_
  refine iteSome (ofSome hs.putFields) ?_
  refine iteSome (ofSome (.ofIf hs hs.putFields)) ?_
  refine iteSome (ofSome (.ofIf hs.gwCtl hs)) ?_
  refine iteSome (ofSome hs.soon) ?_
  refine iteSome (ofSome (.ofIf hs.soon hs)) ?_
  exact iteSome (ofSome (.ofIf (.ofIf hs.putFields hs) (.ofIf (.ofIf hs.putFields hs) (.ofIf (.ofIf hs.putFields hs)
    (.ofIf hs.putFields (.ofIf hs.putFields hs)))))) ofNone

theorem State.inv.hubHigh {off v : Nat} (hs : s.inv) : ∀ t, s.hubHigh off v = some t → t.inv := by
  unfold State.hubHigh
  refine iteSome (iteSome (ofSome hs) (iteSome (ofSome hs.strCtl) ofNone)) ?_
  refine iteSome (iteSome (ofSome hs.soon) (iteSome (ofSome hs.setReg) ofNone)) ?_
  refine iteSome (iteSome (ofSome hs.haltCtl) (iteSome (ofSome hs.putIn)
    (iteSome (ofSome hs.putFields.bpWritten) ofNone))) ?_
  refine iteSome (ofSome (.ofIf hs.putFields.putIn hs.putFields.putIn)) ?_
  refine iteSome (ofSome hs.soon) ?_
  refine iteSome (ofSome hs.note) ?_
  refine iteSome (ofSome hs.soon) ?_
  refine iteSome (ofSome hs.putFields.setFld) ?_
  refine iteSome (ofSome (.ofIf hs.setFld hs)) ?_
  refine iteSome (ofSome hs.note) ?_
  exact iteSome (ofSome hs.putFields.soon) ofNone

theorem State.inv.regWrite {off v : Nat} (hs : s.inv) : (s.regWrite off v).inv := by
  unfold State.regWrite
  extract_lets s1
  have h1 : s1.inv := .ofIf hs.startFills hs
  split
  · exact hs
  · split
    · rename_i heq
      split at heq
      · exact h1.hubLow _ heq
      · exact h1.hubHigh _ heq
    · exact h1.putFields

/-! ### `Sys2Proof.Machine.Access` -/

theorem State.inv.mailPort {src core m : Nat} {v : Word} (hs : s.inv) : (s.mailPort src core m v).inv := by
  simp only [State.mailPort]
  split
  · exact hs.soon
  · exact hs.note

theorem State.inv.nextCycleTry {id : Nat} (hs : s.inv) : (s.nextCycleTry id).inv := hs.putReq

theorem State.inv.portArrival {b lctx src : Nat} (hs : s.inv) : (s.portArrival b lctx src).inv := by
  simp only [State.portArrival]
  split
  · exact hs.soon
  · exact hs.note

theorem State.inv.agentRegWrite {core lctx : Nat} {hlp : Bool} {off : Nat} {data : List (Option Byte)} (hs : s.inv) :
    (s.agentRegWrite core lctx hlp off data).inv := by
  simp only [State.agentRegWrite]
  split
  · exact .foldl hs.soon fun _ _ h => h.note
  · split
    · split
      · exact hs.soon
      · exact hs.note
    · split
      · exact .foldl hs fun _ _ h => h.portArrival
      · split
        · exact hs.soon
        · exact hs

theorem State.inv.freeBytes {n : Nat} (hs : s.inv) : (s.freeBytes n).2.inv := hs

theorem State.inv.readRegion {core lctx off n : Nat} (hs : s.inv) : (s.readRegion core lctx off n).2.inv := by
  simp only [State.readRegion]
  split
  · exact hs.note
  · split
    · exact hs
    · exact hs.freeBytes

theorem State.inv.readAt {core lctx coh pa n : Nat} (hs : s.inv) : (s.readAt core lctx coh pa n).2.inv := by
  simp only [State.readAt]
  split
  · split
    · exact hs.readRegion
    · exact hs.freeBytes
  · exact hs.homeRead

theorem State.inv.passWrite {r : Req} (hs : s.inv) : (s.passWrite r).inv := hs

theorem State.inv.homeReadAt {id : Nat} (hs : s.inv) : (s.homeReadAt id).inv := by
  simp only [State.homeReadAt]
  split
  · exact hs
  · split
    · exact hs
    · split
      · exact hs.nextCycleTry
      · exact hs.readAt

theorem State.inv.homeWriteAt {id : Nat} (hs : s.inv) : (s.homeWriteAt id).inv := by
  unfold State.homeWriteAt
  split
  · exact hs
  · split
    · exact hs
    · split
      · exact hs.nextCycleTry
      · extract_lets hlp s0 s1
        have h0 : s0.inv := by
          dsimp only [s0]
          split
          · exact .ofIf hs.agentRegWrite hs
          · exact .homeWrite (.ofIf hs.passWrite hs)
        have h1 : s1.inv := h0.modCore
        split
        · exact h1.putReq.burstReturn
        · exact h1.modCore.dropReq

theorem State.inv.atomicAt {r : Req} {fn : Nat} {old y : Word} (hs : s.inv) : (s.atomicAt r fn old y).2.inv := by
  simp only [State.atomicAt]
  split
  · split
    · exact hs.readAt.agentRegWrite
    · exact hs.readAt
  · split
    · exact hs.readAt
    · exact hs.readAt.homeWrite

theorem State.inv.homeAtomicAt {id : Nat} (hs : s.inv) : (s.homeAtomicAt id).inv := by
  simp only [State.homeAtomicAt]
  split
  · exact hs
  · split
    · split
      · exact hs
      · split
        · exact hs.nextCycleTry
        · exact hs.atomicAt.modCore.putReq
    · exact hs

theorem State.inv.valueBack {r : Req} {v : Word} (hs : s.inv) : (s.valueBack r v).inv := hs.modCore

theorem State.inv.readReturn {id : Nat} (hs : s.inv) : (s.readReturn id).inv := by
  unfold State.readReturn
  split
  · exact hs
  · split
    · exact hs
    · split
      · exact hs
      · split
        · exact hs.burstReturn
        · exact hs.fillReturn
        · exact hs.modCore.dropReq
        · split
          · exact hs.dropReq
          · split
            · exact hs
            · extract_lets asked bs kept s1 s2
              have h1 : s1.inv := .ofIf hs.putReq hs.dropReq
              have h2 : s2.inv := .ofIf h1 (.ofIf h1.hcPass (.ofIf h1.hcInsert.sbDrain h1.hcInsert))
              exact .ofIf h2.valueBack h2

theorem State.inv.snoop {line : Nat} {inv : Bool} (hs : s.inv) : (s.snoop line inv).inv :=
  hs.cleanLines

theorem State.inv.walkFault {num : Nat} {ag : Agent} {ctx va cause level : Nat} {write atom : Bool} (hs : s.inv) :
    (s.walkFault num ag ctx va cause level write atom).inv := by
  simp only [State.walkFault]
  split
  · exact hs.faultRecord
  · split
    · exact hs.helperFault
    · exact hs.faultRecord.setCore
    · exact hs.faultRecord.setCore
    · exact hs.faultRecord.setCore
    · exact hs.faultRecord

theorem State.inv.pageWalk {a ctx va : Nat} {write atom : Bool} (hs : s.inv) :
    (s.pageWalk a ctx va write atom).inv := by
  simp only [State.pageWalk]
  split
  · exact hs.walkFault
  · split
    · next heq => exact hs.walkFor.ofSnd heq
    · next heq => exact (hs.walkFor.ofSnd heq).walkFault

theorem State.inv.abandonEntry {entry : Nat} (hs : s.inv) : (s.abandonEntry entry).inv := by
  simp only [State.abandonEntry]
  split
  · exact hs
  · split
    · exact .modAgent hs
    · split
      · split
        · exact .endLaunch hs
        · exact .finish hs
      · exact hs
    · split
      · split
        · exact .endLaunch hs
        · exact .finish hs
      · exact hs
    · exact .modCore hs
    · exact hs

/-! ### `Sys2Proof.Machine.Firmware` -/

theorem State.inv.verify (hs : s.inv) : s.verify.2.inv := hs

theorem State.inv.boot (hs : s.inv) : s.boot.inv := by
  simp only [State.boot]
  split
  · exact .later (.note hs.drawBit)
  · exact hs.drawBit

/-- What a reset leaves whatever stood before, with a canonical memory put in. -/
theorem State.inv_fresh_mem (s : State) {m : Memory} (hm : Memory.wf m = true) :
    ({ s.fresh with mem := m } : State).inv :=
  ⟨hm, rfl⟩

theorem State.inv.wf_drained (hs : s.inv) : Memory.wf s.drained = true :=
  (State.inv.foldl (l := s.l2) hs fun _ _ h => h.writeBack).1

theorem State.inv.wf_outsideMem (hs : s.inv) : Memory.wf s.outsideMem = true :=
  Laws.wf_memFilter _ hs.1

theorem State.inv.keepRecorder {old : State} (hs : s.inv) : (s.keepRecorder old).inv :=
  .foldl hs fun _ _ h => .foldl h fun _ _ h' => h'.setReg

theorem State.inv.powerUp (hs : s.inv) : s.powerUp.inv :=
  (s.inv_fresh_mem hs.wf_outsideMem).boot

theorem State.inv.rungBegins {rung most : Nat} (hs : s.inv) : (s.rungBegins rung most).inv :=
  hs.note.setFld.drawIn.later

theorem State.inv.rungOne {m : Nat} (hs : s.inv) : (s.rungOne m).inv := hs.resetStream.rungBegins

theorem State.inv.rungTwo (hs : s.inv) : s.rungTwo.inv := .rungBegins hs

theorem State.inv.killEverything (hs : s.inv) : s.killEverything.inv :=
  .withKept (.foldl (.foldl (.withFwBusy hs) fun _ _ h => h.killCtx) fun _ _ h => .withExtra h.setFld)

theorem State.inv.rungThree (hs : s.inv) : s.rungThree.inv := hs.killEverything.rungBegins

theorem State.inv.dropRungs (hs : s.inv) : s.dropRungs.inv := hs

theorem State.inv.rungFour (hs : s.inv) : s.rungFour.inv := hs.dropRungs.killEverything.rungBegins

theorem State.inv.rungFive (hs : s.inv) : s.rungFive.inv :=
  .rungBegins (.keepRecorder (s.inv_fresh_mem hs.wf_outsideMem))

theorem State.inv.rebuildSlots (hs : s.inv) : s.rebuildSlots.inv :=
  .foldl hs fun _ _ h => .ofIf h.placeSlots h

theorem State.inv.settleStreams (hs : s.inv) : s.settleStreams.inv :=
  .withFinished (.foldl hs fun _ _ h => h.setFld)

theorem State.inv.rungOver {rung : Nat} (hs : s.inv) : (s.rungOver rung).inv :=
  hs.setFld.setFld.countMod

theorem State.inv.bootRung {rung : Nat} (hs : s.inv) : (s.bootRung rung).inv := by
  simp only [State.bootRung]
  split
  · exact .rungOver (.boot hs)
  · exact .boot hs

theorem State.inv.rungUpOver (hs : s.inv) : s.rungUpOver.inv := by
  simp only [State.rungUpOver]
  split
  · exact hs
  · exact .rungOver hs

theorem State.inv.rungComplete {rung : Nat} (hs : s.inv) : (s.rungComplete rung).inv := by
  simp only [State.rungComplete]
  split
  · exact .rungOver (.rebuildSlots hs.verify)
  · split
    · exact hs.later
    · exact .rungOver (.settleStreams hs)
  · split
    · exact hs.later
    · exact .bootRung (.setReg (.keepRecorder (s.inv_fresh_mem hs.wf_drained)))
  · exact hs.bootRung
  · exact hs.rungOver

theorem State.inv.attReq {v : Nat} (hs : s.inv) : (s.attReq v).inv := by
  simp only [State.attReq]
  split
  · exact hs
  · exact hs.setReg.setFld.drawIn.later

theorem State.inv.attest (hs : s.inv) : s.attest.inv :=
  .setFld (.ofIf hs.homeRead.homeWrite hs.homeRead)

theorem State.inv.beat (hs : s.inv) : s.beat.inv := by
  simp only [State.beat]
  split
  · exact hs.homeWrite
  · exact hs

theorem State.inv.clusterUp {cl : Nat} (hs : s.inv) : (s.clusterUp cl).inv := by
  simp only [State.clusterUp]
  split
  · exact hs
  · exact .decide (.ofIf (.later (.ofIf (.setFld (.countMod hs)) (.countMod hs)))
      (.rungUpOver (.ofIf (.setFld (.countMod hs)) (.countMod hs))))

theorem State.inv.noteHeat {cause : Nat} (hs : s.inv) : (s.noteHeat cause).inv := hs.drawIn.note

theorem State.inv.throttle (hs : s.inv) : s.throttle.inv := .noteHeat (.setFld hs)

theorem State.inv.throttleEnd (hs : s.inv) : s.throttleEnd.inv := by
  simp only [State.throttleEnd]
  split
  · exact .noteHeat (.setFld hs)
  · exact .noteHeat hs

theorem State.inv.trip (hs : s.inv) : s.trip.inv := by
  unfold State.trip
  extract_lets s1 g s2
  have h1 : s1.inv := .foldl hs fun _ _ h => h.finish
  have h2 : s2.inv := ⟨h1.wf_drained, h1.2⟩
  clear_value s2
  exact .noteHeat (.rungUpOver (.setReg h2))

theorem State.inv.domainCloses {cl : Nat} (hs : s.inv) : (s.domainCloses cl).inv := by
  simp only [State.domainCloses]
  split
  · exact hs.setGate
  · exact hs

theorem State.inv.domainClosed {cl : Nat} (hs : s.inv) : (s.domainClosed cl).inv := by
  simp only [State.domainClosed]
  split
  · exact .modCore hs
  · exact hs

theorem State.inv.domainOpens {cl : Nat} (hs : s.inv) : (s.domainOpens cl).inv := by
  simp only [State.domainOpens]
  split
  · exact hs.setGate
  · exact hs

/-! ### `Sys2Proof.Machine.Swap` -/

theorem State.inv.leafOf {ctx va : Nat} (hs : s.inv) : (s.leafOf ctx va).2.inv := by
  simp only [State.leafOf]
  split
  · exact hs
  · split <;> exact hs.walk

theorem State.inv.swapNext {ctx slot : Nat} (hs : s.inv) : (s.swapNext ctx slot).inv :=
  hs.drawIn.later

theorem State.inv.swapSlotDone {k : Nat} (hs : s.inv) : (s.swapSlotDone k).inv := by
  simp only [State.swapSlotDone]
  split
  · split
    · exact .swapNext hs
    · exact hs
  · exact hs

theorem State.inv.swapPage {at_ v page : Nat} (hs : s.inv) : (s.swapPage at_ v page).inv := by
  unfold State.swapPage
  extract_lets host r s1 s2 s3
  have h1 : s1.inv := hs.physRead.homeWrite
  have h2 : s2.inv := h1.physWrite
  have h3 : s3.inv := h2.physWrite.setFld
  clear_value s3
  exact .countSat h3

theorem State.inv.swapEntry {k i : Nat} (hs : s.inv) : (s.swapEntry k i).inv := by
  unfold State.swapEntry
  extract_lets e ctx va l skip
  have hl : l.2.inv := hs.leafOf
  clear_value l
  have hskip {u : State} (hu : u.inv) : (skip u).inv := .swapNext hu
  clear_value skip
  split
  · exact hskip hl
  · extract_lets s1 frame
    have h1 : s1.inv := hl.physWrite
    refine .ofIf (hskip hl) (.ofIf (.ofIf hl.swapNext h1.tinvPush.swapNext) (.ofIf (.ofIf hl.swapNext
      (.ofIf hl.framesFlush.swapNext ?_)) (hskip hl)))
    split
    · exact hl
    · extract_lets s2
      have h2 : s2.inv := hl.swapPage
      clear_value s2
      exact .ofIf h2.swapSlotDone (.ofIf h2 (hskip h2))

theorem State.inv.swapOutStep {ctx slot : Nat} (hs : s.inv) : (s.swapOutStep ctx slot).inv := by
  simp only [State.swapOutStep]
  split
  · exact hs
  · split
    · split
      · exact .swapNext (.setFld hs)
      · exact hs
    · split
      · exact hs.setFld.swapSlotDone
      · exact hs.setFld.swapEntry

theorem State.inv.swapInStep {entry : Nat} (hs : s.inv) : (s.swapInStep entry).inv := by
  simp only [State.swapInStep]
  split
  · exact hs
  · split
    · exact hs.leafOf.retryEntry
    · split
      · exact hs.leafOf.retryEntry
      · split
        · exact hs.leafOf.later
        · exact .retryEntry (.countSat hs.leafOf.homeRead.physWrite.setFld.physWrite)

theorem State.inv.triggerDone {b : Nat} (hs : s.inv) : (s.triggerDone b).inv := hs.countMod.postWord

theorem State.inv.barTrigger {b : Nat} (hs : s.inv) : (s.barTrigger b).inv := by
  simp only [State.barTrigger]
  split
  · split
    · exact hs.setFld
    · exact .soon (.countMod hs)
  · exact hs.triggerDone

theorem State.inv.barCount {b k n : Nat} (hs : s.inv) : (s.barCount b k n).inv := by
  induction k generalizing s n with
  | zero => exact hs.setFld
  | succ k ih =>
    simp only [State.barCount]
    split
    · exact ih hs.barTrigger
    · exact hs.setFld

theorem State.inv.barArrive {b n : Nat} (hs : s.inv) : (s.barArrive b n).inv := hs.barCount

theorem State.inv.encStart {e : Nat} (hs : s.inv) : (s.encStart e).inv := by
  simp only [State.encStart]
  split
  · split
    · exact hs
    · exact .later (.drawIn (.setFld hs))
  · exact hs

theorem State.inv.encFault {ctx : Nat} {k : Acces} {m va n : Nat} (hs : s.inv) : (s.encFault ctx k m va n).2.inv := by
  induction m generalizing s va n with
  | zero => exact hs
  | succ m ih =>
    simp only [State.encFault]
    split
    · exact hs
    · split
      · next heq => exact hs.xlate.ofSnd heq
      · next heq => exact ih (hs.xlate.ofSnd heq)

theorem State.inv.encDone {e : Nat} (hs : s.inv) : (s.encDone e).inv := by
  unfold State.encDone
  split
  · exact hs
  · extract_lets b ctx again size base frame len used n f1 f2 d o m s1 s2
    have h1 : f1.2.inv := hs.encFault
    have h2 : f2.2.inv := by
      dsimp only [f2]
      split
      · exact h1
      · exact h1.encFault
    refine .ofIf hs.later ?_
    split
    · exact h2.faultRecord
    · have hs1 : s1.inv := h2.ctxPut.ctxPut
      have hs2 : s2.inv := .countMod hs1
      exact .soon (.triggerDone hs2)

theorem State.inv.cacheEcc {num loc : Nat} {c : Core} (hs : s.inv) : (s.cacheEcc num loc c).inv := by
  simp only [State.cacheEcc]
  split
  · exact hs
  · split
    · exact hs.setCore
    · exact hs.killCtx.decide

theorem State.inv.storageError {num row : Nat} {unc : Bool} {loc : Nat} (hs : s.inv) :
    (s.storageError num row unc loc).inv := by
  simp only [State.storageError]
  split
  · split <;> exact hs
  · split
    · exact hs
    · split
      · exact hs.note
      · split
        · exact hs.note.setCore
        · split
          · split
            · exact hs.note.killCtx.decide
            · exact hs.note
          · split
            · exact hs.note.killCtx.decide
            · split
              · split
                · exact hs.note.setCore
                · exact hs.note
              · split
                · exact hs.note.setCore
                · split
                  · exact hs.note.cacheEcc
                  · split
                    · exact hs.note.killCtx.decide
                    · exact hs.note

theorem State.inv.mailArrives {core m : Nat} {v : Word} (hs : s.inv) : (s.mailArrives core m v).inv := by
  simp only [State.mailArrives]
  split
  · exact hs
  · split
    · exact hs.setCore.note
    · exact hs.setCore

theorem State.inv.flagArrives {core f n : Nat} (hs : s.inv) : (s.flagArrives core f n).inv :=
  hs.modCore

theorem State.inv.handleArrives {core h : Nat} {prod : Bool} {n : Nat} (hs : s.inv) :
    (s.handleArrives core h prod n).inv :=
  hs.modCore

theorem State.inv.legNext (hs : s.inv) : s.legNext.inv := hs.setFld

theorem State.inv.legWrite {v : Word} (hs : s.inv) : (s.legWrite v).inv :=
  .legNext (.ofIf hs.physWrite hs)

theorem State.inv.startCycle (hs : s.inv) : s.startCycle.inv := by
  simp only [State.startCycle]
  split <;> exact hs.newCycle

/-! ### `Sys2Proof.Machine.Guard` -/

theorem State.inv.restoreEnds {num : Nat} (hs : s.inv) : (s.restoreEnds num).inv := by
  simp only [State.restoreEnds]
  split
  · exact hs
  · split
    · exact hs.setCore
    · split
      · exact hs.setCore.trigger
      · exact hs.setCore.killCtx
    · exact hs

theorem State.inv.bqTo {gw d : Nat} (hs : s.inv) : (s.bqTo gw d).inv := hs.bqTake.modCore

/-! ### `Sys2Proof.Machine.Turn` -/

theorem State.inv.doWork {w : Work} (hs : s.inv) : (s.doWork w).inv := by
  simp only [State.doWork]
  split
  · exact hs.beginCore
  · exact hs.portsTurn
  · exact hs.matrixPhase
  · exact hs.matrixGo
  · exact hs.copyPhase
  · exact hs.pickPhase
  · exact hs.modCore
  · exact hs.finishCore
  · exact hs.endCycle
  · exact hs.settle
  · exact hs.endTick
  · exact hs
  · exact hs

end

end Sys2Proof.Machine
end

section
/-! PROOFS. What the operations of a slot leave of their core (R4, R111, R109): its scratchpad, its spill memory and its
B-store, which are written at the end of the cycle or later. -/

namespace Sys2Proof.Machine

/-- The parts of a core that stores change: the scratchpad, the spill memory and the B-store. -/
def stores (c : Core) : Sparse Byte × Sparse Word × Sparse Byte := (c.sp, c.spill, c.bstore)

section
variable {fo : Focus} {c : Core} {i : Instr}

/-! ### Results, traps, withheld effects and flights -/

@[simp] theorem stores_setHelper {h : Nat} {x : Helper} : stores (c.setHelper h x) = stores c := rfl

@[simp] theorem stores_rollback : stores (rollback c) = stores c := rfl

@[simp] theorem stores_primTrap {k slot bundle jobt : Nat} {v : Word} :
    stores (primTrap k slot bundle v jobt c) = stores c := rfl

@[simp] theorem stores_helperTrap {h k bundle pos : Nat} : stores (helperTrap h k bundle pos c) = stores c := rfl

@[simp] theorem stores_takeTrap {k : Nat} {v : Word} : stores (takeTrap fo k v c) = stores c := by
  unfold takeTrap
  split <;> rfl

@[simp] theorem stores_retire {lat : Nat} {fl : Flags} {effs : List Eff} : stores (retire fo lat fl effs c) = stores c := by
  unfold retire
  split <;> rfl

@[simp] theorem stores_retireS {lat r : Nat} {fl : Flags} {v : Word} : stores (retireS fo lat fl r v c) = stores c :=
  stores_retire

@[simp] theorem stores_withholdNow {w : Wh} : stores (withholdNow fo w c) = stores c := rfl

@[simp] theorem stores_withhold {w : Wh} : stores (withhold fo w c) = stores c := by
  unfold withhold
  split <;> simp

@[simp] theorem stores_sendOut {w : Wh} : stores (sendOut fo w c) = stores c := rfl

@[simp] theorem stores_emit {w : Wh} : stores (emit fo w c) = stores c := by
  unfold emit
  split <;> simp

@[simp] theorem stores_goTo {t : Nat} : stores (goTo fo t c) = stores c := by
  unfold goTo
  split <;> rfl

@[simp] theorem stores_bump {a k : Nat} : stores (bump fo a k c) = stores c := by
  unfold bump
  split <;> simp

@[simp] theorem stores_gatePort : stores (gatePort c) = stores c := rfl

@[simp] theorem stores_addFlight {fl : Flight} : stores (addFlight fl c) = stores c := by
  unfold addFlight
  split <;> rfl

@[simp] theorem stores_retireF {fl : Flight} {rem : Nat} {flg : Flags} {effs : List Eff} :
    stores (retireF fl rem flg effs c) = stores c := by
  unfold retireF
  split <;> rfl

@[simp] theorem stores_lateTrap {fl : Flight} {rem k v : Nat} : stores (lateTrap fl rem k v c) = stores c := stores_retireF

@[simp] theorem stores_complete {fl : Flight} : stores (complete fl c).2 = stores c := by
  unfold complete
  extract_lets
  split
  iterate 5 exact stores_retireF
  · split
    · rfl
    · exact stores_retireF
    · rfl
  · exact stores_retireF
  · split <;> simp
  · exact stores_retireF
  · split <;> simp
  · split <;> simp
  · split
    · split <;> simp
    · split <;> simp
  · split
    · dsimp only
      split <;> simp
    · simp
  · split
    · simp
    · split <;> simp

@[simp] theorem stores_pump {fl : Flight} : stores (pump fl c).2 = stores c := by
  unfold pump
  extract_lets r wr c1
  split
  · exact stores_complete
  · rfl

@[simp] theorem stores_launch {fl : Flight} : stores (launch fl c) = stores c := by
  have hpump : stores (pump fl c).2 = stores c := stores_pump
  unfold launch
  split <;> next heq => simpa [heq] using hpump

/-! ### The operations, class by class -/

@[simp] theorem stores_opRdt {d f : BitVec 6} : stores (opRdt d f fo c) = stores c := stores_retireS

@[simp] theorem stores_opMfc {d : BitVec 6} {n : BitVec 12} : stores (opMfc d n fo c) = stores c := by
  unfold opMfc
  extract_lets c1
  split <;> simp [c1]

@[simp] theorem stores_opMtc {d : BitVec 6} {n : BitVec 12} : stores (opMtc d n fo c) = stores c := by
  unfold opMtc
  extract_lets v k
  split
  · simp
  · split <;> simp

@[simp] theorem stores_opTakem {d : BitVec 6} {m : BitVec 5} : stores (opTakem d m fo c) = stores c := by
  unfold opTakem
  extract_lets k v c1
  have h1 : stores c1 = stores c := stores_retireS
  split
  · split
    · simp [h1]
    · split
      · exact h1
      · simp
  · simp

@[simp] theorem stores_opBr {k p : BitVec 2} {o : BitVec 18} : stores (opBr k p o fo c) = stores c := by
  unfold opBr
  split <;> simp

@[simp] theorem stores_opBrz {x : BitVec 6} {o : BitVec 18} : stores (opBrz x o fo c) = stores c := by
  unfold opBrz
  split <;> simp

@[simp] theorem stores_opBrnz {x : BitVec 6} {o : BitVec 18} : stores (opBrnz x o fo c) = stores c := by
  unfold opBrnz
  split <;> simp

@[simp] theorem stores_opJmp {x : BitVec 6} : stores (opJmp x fo c) = stores c := by
  unfold opJmp
  extract_lets t
  split <;> simp

@[simp] theorem stores_opCall {o : BitVec 18} : stores (opCall o fo c) = stores c := by
  unfold opCall
  split <;> simp

@[simp] theorem stores_opLoop {l : BitVec 2} {o : BitVec 18} : stores (opLoop l o fo c) = stores c := by
  unfold opLoop
  extract_lets v c1
  have h1 : stores c1 = stores c := by
    dsimp only [c1]
    split <;> simp
  split <;> simp [h1]

@[simp] theorem stores_opRep {r : BitVec 6} {n : BitVec 4} {k : BitVec 14} : stores (opRep r n k fo c) = stores c := rfl

@[simp] theorem stores_opHalt {m : BitVec 4} : stores (opHalt m fo c) = stores c := by
  unfold opHalt
  split
  · simp
  · rfl

@[simp] theorem stores_opStart {d : BitVec 6} {h : BitVec 4} {e : BitVec 14} : stores (opStart d h e fo c) = stores c := by
  unfold opStart
  split <;> simp

@[simp] theorem stores_opTrap {d : BitVec 6} {k : BitVec 8} : stores (opTrap d k fo c) = stores c := by
  unfold opTrap
  extract_lets v c1
  split <;> simp [c1]

@[simp] theorem stores_engCmd {op q fl : Nat} {x y z : Word} : stores (engCmd op q x y z fl fo c) = stores c :=
  stores_withhold

@[simp] theorem stores_matCmd {op fl : Nat} {x y z : Word} : stores (matCmd op x y z fl fo c) = stores c := by
  unfold matCmd
  split
  · exact stores_engCmd
  · simp

@[simp] theorem stores_opCseal {x : BitVec 6} {q : BitVec 2} : stores (opCseal x q fo c) = stores c := by
  unfold opCseal
  extract_lets n w
  split
  · exact stores_retireS
  · simp

@[simp] theorem stores_opCnext {q fl : Nat} {x y z : Word} : stores (opCnext q x y z fl fo c) = stores c := by
  unfold opCnext
  split
  · exact stores_engCmd
  · simp

@[simp] theorem stores_opSendm {x y : BitVec 6} {m : BitVec 5} : stores (opSendm x y m fo c) = stores c := by
  unfold opSendm
  extract_lets t
  split <;> simp

@[simp] theorem stores_opEqry {x y : BitVec 6} : stores (opEqry x y fo c) = stores c := stores_retireS

/-! ### The M class -/

@[simp] theorem stores_opLoad {x : BitVec 6} {w : Nat} {im : BitVec 10} : stores (opLoad i x w im fo c) = stores c := by
  unfold opLoad
  extract_lets a
  split <;> simp

@[simp] theorem stores_storeBy {a : Nat} {l : List Byte} : stores (storeBy fo i a l c) = stores c := by
  unfold storeBy
  split <;> simp

@[simp] theorem stores_opStore {d x : BitVec 6} {w : Nat} {im : BitVec 10} :
    stores (opStore i d x w im fo c) = stores c := by
  unfold opStore
  extract_lets a
  split <;> simp

@[simp] theorem stores_opXld {x : BitVec 6} {w : Nat} {im : BitVec 10} : stores (opXld i x w im fo c) = stores c := by
  unfold opXld
  extract_lets a k
  split <;> simp

@[simp] theorem stores_opXst {d x : BitVec 6} {w : Nat} {im : BitVec 10} : stores (opXst d x w im fo c) = stores c := by
  unfold opXst
  extract_lets a c1
  split
  · simp
  · split <;> simp [c1]

@[simp] theorem stores_opVld {a : BitVec 4} {k : BitVec 3} {d : BitVec 8} : stores (opVld i a k d fo c) = stores c := by
  unfold opVld
  extract_lets ad
  split <;> simp

@[simp] theorem stores_opVst {g d : BitVec 8} {a : BitVec 4} {k : BitVec 3} : stores (opVst i g a k d fo c) = stores c := by
  unfold opVst
  extract_lets ad data c1
  split
  · simp
  · split
    · simp [c1]
    · split <;> simp [c1]
    · simp [c1]

@[simp] theorem stores_opVldx {a : BitVec 4} {im : BitVec 8} : stores (opVldx i a im fo c) = stores c := by
  unfold opVldx
  extract_lets l
  split <;> simp

@[simp] theorem stores_opVstx {g im : BitVec 8} {a : BitVec 4} : stores (opVstx i g a im fo c) = stores c := by
  unfold opVstx
  extract_lets l v ws fl
  split
  · simp
  · split
    · simp
    · split <;> simp
    · simp

@[simp] theorem stores_opQld {a : BitVec 4} {k : BitVec 3} : stores (opQld i a k fo c) = stores c := by
  unfold opQld
  extract_lets ad
  split <;> simp

@[simp] theorem stores_bigStore {a : BitVec 4} {k : BitVec 3} {l : List Byte} {w : Wh} :
    stores (bigStore i fo a k l w c) = stores c := by
  unfold bigStore
  extract_lets ad c1 fl
  split
  · simp
  · split
    · simp [c1]
    · split <;> simp [c1]

@[simp] theorem stores_opQst {r a : BitVec 4} {k : BitVec 3} : stores (opQst i r a k fo c) = stores c := stores_bigStore

@[simp] theorem stores_opKld {a : BitVec 4} {k : BitVec 3} : stores (opKld i a k fo c) = stores c := by
  unfold opKld
  extract_lets ad
  split <;> simp

@[simp] theorem stores_opKst {r k : BitVec 3} {a : BitVec 4} : stores (opKst i r a k fo c) = stores c := stores_bigStore

@[simp] theorem stores_opLift {g : BitVec 8} : stores (opLift g fo c) = stores c := by
  unfold opLift
  extract_lets w
  split
  · simp
  · split
    · simp
    · split
      · simp
      · split <;> simp

@[simp] theorem stores_opLpop {g : BitVec 8} : stores (opLpop g fo c) = stores c := by
  unfold opLpop
  split <;> simp

@[simp] theorem stores_opHpush {g : BitVec 8} {h : BitVec 4} : stores (opHpush i g h fo c) = stores c := by
  unfold opHpush
  extract_lets d data ad w c1
  split
  · simp
  · split
    · split
      · split
        · simp
        · split
          · exact stores_retire
          · split <;> simp
      · simp
    · split
      · simp
      · split
        · simp
        · split <;> simp

@[simp] theorem stores_opHpop {h : BitVec 4} : stores (opHpop i h fo c) = stores c := by
  unfold opHpop
  extract_lets d ad go
  have hgo (c1 : Core) : stores (go c1) = stores c1 := stores_launch.trans stores_retire
  split
  · simp
  · split
    · simp
    · split
      · exact hgo c
      · split
        · exact hgo _
        · split
          · exact hgo _
          · simp

/-! ### The I class -/

@[simp] theorem stores_alu1 {f : Word → Word} {d x : BitVec 6} : stores (alu1 f d x fo c) = stores c := stores_retireS

@[simp] theorem stores_alu2 {f : Word → Word → Word} {lat : Nat} {d x y : BitVec 6} :
    stores (alu2 f lat d x y fo c) = stores c := stores_retireS

@[simp] theorem stores_opSel {d x y z : BitVec 6} : stores (opSel d x y z fo c) = stores c := stores_retireS

@[simp] theorem stores_opMovi {d : BitVec 6} {im : BitVec 18} : stores (opMovi d im fo c) = stores c := stores_retireS

@[simp] theorem stores_opLui {d : BitVec 6} {im : BitVec 18} : stores (opLui d im fo c) = stores c := stores_retireS

@[simp] theorem stores_opBfi {d x p l : BitVec 6} : stores (opBfi d x p l fo c) = stores c := stores_retireS

@[simp] theorem stores_opAdda {d x : BitVec 4} {im : BitVec 12} : stores (opAdda d x im fo c) = stores c := stores_retire

@[simp] theorem stores_opMva {d : BitVec 4} {x : BitVec 6} : stores (opMva d x fo c) = stores c := stores_retire

@[simp] theorem stores_opMvs {d : BitVec 6} {x : BitVec 4} : stores (opMvs d x fo c) = stores c := stores_retireS

@[simp] theorem stores_opSpld {d : BitVec 6} {o : BitVec 12} : stores (opSpld d o fo c) = stores c := stores_retireS

@[simp] theorem stores_opSpst {d : BitVec 6} {o : BitVec 12} : stores (opSpst d o fo c) = stores c := stores_withhold

@[simp] theorem stores_fop2 {f : Nat → Nat → Nat × Flags} {lat : Nat} {d x y : BitVec 6} :
    stores (fop2 f lat d x y fo c) = stores c := stores_retireS

@[simp] theorem stores_opFma {d x y z : BitVec 6} : stores (opFma d x y z fo c) = stores c := stores_retireS

@[simp] theorem stores_opFcmp {d x y : BitVec 6} {k : BitVec 3} : stores (opFcmp d x y k fo c) = stores c := stores_retireS

@[simp] theorem stores_opFcvt {d x : BitVec 6} {r : BitVec 1} {k : BitVec 5} : stores (opFcvt d x r k fo c) = stores c :=
  stores_retireS

/-! ### The K class -/

/-- The lane taken, the operation itself follows. -/
theorem stores_kLane {f : Core → Core} (hf : ∀ d, stores (f d) = stores d) : stores (kLane i fo f c) = stores c := by
  unfold kLane
  split
  · exact hf _
  · split
    · simp
    · exact hf _

@[simp] theorem stores_opKclr {r : BitVec 3} : stores (opKclr r fo c) = stores c := stores_retire

@[simp] theorem stores_opKmerge {g : BitVec 8} {a : BitVec 4} {m : BitVec 1} :
    stores (opKmerge i g a m fo c) = stores c := by
  unfold opKmerge
  extract_lets ad
  split
  · simp
  · split <;> simp

@[simp] theorem stores_opKmergel {r : BitVec 3} {g : BitVec 8} {a : BitVec 4} {m : BitVec 1} :
    stores (opKmergel r g a m fo c) = stores c := by
  unfold opKmergel
  extract_lets base k cand keep
  split <;> simp

@[simp] theorem stores_opKsort {r : BitVec 3} {g : BitVec 8} {m : BitVec 1} : stores (opKsort r g m fo c) = stores c := by
  unfold opKsort
  split <;> simp

@[simp] theorem stores_opKtop {r : BitVec 3} {g : BitVec 8} {m : BitVec 1} : stores (opKtop r g m fo c) = stores c :=
  stores_retire

@[simp] theorem stores_opKsamp {r : BitVec 3} {g : BitVec 8} {a : BitVec 4} {p : BitVec 2} :
    stores (opKsamp i r g a p fo c) = stores c := by
  unfold opKsamp
  extract_lets ad sm data st
  split
  · simp
  · split
    · simp
    · split
      · simp
      · split <;> simp

@[simp] theorem stores_opKmask {r : BitVec 3} : stores (opKmask r fo c) = stores c := by
  unfold opKmask
  extract_lets k
  split <;> simp

@[simp] theorem stores_opKsend {r : BitVec 3} {a : BitVec 4} : stores (opKsend r a fo c) = stores c := by
  unfold opKsend
  extract_lets w
  split <;> simp

@[simp] theorem stores_opGsetRead {a : BitVec 4} : stores (opGsetRead i a fo c) = stores c := by
  unfold opGsetRead
  extract_lets ad
  split <;> simp

@[simp] theorem stores_opGsetSt {a : BitVec 4} : stores (opGsetSt i a fo c) = stores c := by
  unfold opGsetSt
  extract_lets ad data
  split
  · simp
  · split
    · simp
    · split <;> simp

@[simp] theorem stores_opGsetFl : stores (opGsetFl fo c) = stores c := stores_retire

@[simp] theorem stores_opGstep {a : BitVec 4} : stores (opGstep i a fo c) = stores c := by
  unfold opGstep
  extract_lets g t
  split
  · simp
  · split
    · simp
    · split <;> simp

@[simp] theorem stores_opGmask {k : BitVec 3} : stores (opGmask i k fo c) = stores c := by
  unfold opGmask
  extract_lets g key ra fin
  split
  · simp
  · split
    · split <;> simp
    · simp

/-! ### The Y class -/

@[simp] theorem stores_stayWaiting : stores (stayWaiting i fo c) = stores c := by
  unfold stayWaiting
  split <;> split <;> rfl

theorem stores_waitOp {f : Core → Core} (hf : ∀ d, stores (f d) = stores d) : stores (waitOp i fo f c) = stores c := by
  unfold waitOp
  extract_lets done
  have hdone : stores done = stores c := by
    refine (hf _).trans ?_
    split <;> rfl
  split
  · simp
  · split
    · exact hdone
    · simp
  · exact hdone

@[simp] theorem stores_opFwait {f : BitVec 5} {n : BitVec 13} : stores (opFwait f n fo c) = stores c :=
  stores_waitOp fun _ => stores_retire

@[simp] theorem stores_opFpost {f : BitVec 5} {n : BitVec 13} : stores (opFpost f n fo c) = stores c := by
  unfold opFpost
  split <;> simp

@[simp] theorem stores_opFpostx {f : BitVec 5} {r : BitVec 6} {n : BitVec 7} : stores (opFpostx f r n fo c) = stores c := by
  unfold opFpostx
  extract_lets t
  split <;> simp

@[simp] theorem stores_opHadv {h : BitVec 4} {m : BitVec 1} {n : BitVec 12} : stores (opHadv h m n fo c) = stores c := by
  unfold opHadv
  extract_lets d k go
  have hgo (c1 : Core) : stores (go c1) = stores c1 := stores_retire
  split
  · simp
  · split
    · simp
    · split
      · exact hgo c
      · split
        · split
          · exact hgo _
          · simp
        · exact hgo _

@[simp] theorem stores_opCkpt : stores (opCkpt c) = stores c := rfl

@[simp] theorem stores_opChk {r : BitVec 5} : stores (opChk r fo c) = stores c := by
  unfold opChk
  extract_lets v tl
  split <;> simp

@[simp] theorem stores_opBara {b : BitVec 5} {k : BitVec 3} : stores (opBara b k fo c) = stores c := stores_emit

/-! ### The V class -/

@[simp] theorem stores_vOccupy : stores (vOccupy i c) = stores c := by
  unfold vOccupy
  extract_lets v1 p c1
  have h1 : stores c1 = stores c := by
    dsimp only [c1]
    split <;> rfl
  split <;> exact h1

@[simp] theorem stores_opV : stores (opV i fo c) = stores c := by
  unfold opV
  extract_lets w dst bs c1
  have h1 : stores c1 = stores c := by
    dsimp only [c1]
    split <;> simp
  split
  · simp
  · split
    · simp
    · split
      · simp
      · split <;> simp [h1]

end

/-! ### Every operation of a slot, but for the few that reach beyond their core -/

/-- An operation that acts on its core alone: a function of the core, which may read the part and leaves what stores
change. -/
def ActsOnCore (i : Instr) : Prop :=
  ∃ f : State → Focus → Core → Core, (∀ s, exec i s = onCore i (f s) s) ∧ ∀ s fo c, stores (f s fo c) = stores c

theorem ActsOnCore.of {i : Instr} (f : Focus → Core → Core) (he : ∀ s, exec i s = onCore i f s)
    (hf : ∀ fo c, stores (f fo c) = stores c) : ActsOnCore i :=
  ⟨fun _ => f, he, fun _ => hf⟩

/-- The same for an operation of the sort and sample unit: the lane taken, `f` follows. -/
theorem ActsOnCore.lane {i : Instr} (f : Focus → Core → Core) (he : ∀ s, exec i s = onCore i (fun fo => kLane i fo (f fo)) s)
    (hf : ∀ fo d, stores (f fo d) = stores d) : ActsOnCore i :=
  .of _ he fun fo _ => stores_kLane (hf fo)

/-- KSEND, which reads the trees: a function of its core for each state of the part. -/
theorem ksend_actsOnCore (l : BitVec 3) (a : BitVec 4) : ActsOnCore (.ksend l a) := by
  refine ⟨fun s fo => kLane (.ksend l a) fo fun d =>
    if s.treeTakes d (rdA fo d a.toNat).toNat then opKsend l a fo d else takeTrap fo cPOSTTARGET 0 d, fun s => ?_,
    fun s fo c => stores_kLane fun d => ?_⟩
  · show execKsend l a s = _
    unfold execKsend onState onCore
    cases s.core s.focus.core with
    | none => rfl
    | some c => exact congrArg _ (apply_ite (s.setCore s.focus.core) _ _ _).symm
  · split <;> simp

theorem actsOnCore {i : Instr} (hi : isSlotOp i = true) (hr : reachesOut i = false) : ActsOnCore i := by
  cases i with
  | ksend l a => exact ksend_actsOnCore l a
  | kclr c => exact .lane (opKclr c) (fun _ => rfl) fun _ _ => stores_opKclr
  | kmerge c g a m => exact .lane (opKmerge (.kmerge c g a m) g a m) (fun _ => rfl) fun _ _ => stores_opKmerge
  | kmergel c g a m => exact .lane (opKmergel c g a m) (fun _ => rfl) fun _ _ => stores_opKmergel
  | ksort c g s => exact .lane (opKsort c g s) (fun _ => rfl) fun _ _ => stores_opKsort
  | ktop c g i => exact .lane (opKtop c g i) (fun _ => rfl) fun _ _ => stores_opKtop
  | ksamp c g a p => exact .lane (opKsamp (.ksamp c g a p) c g a p) (fun _ => rfl) fun _ _ => stores_opKsamp
  | kmask c => exact .lane (opKmask c) (fun _ => rfl) fun _ _ => stores_opKmask
  | gsetLd a => exact .lane (opGsetRead (.gsetLd a) a) (fun _ => rfl) fun _ _ => stores_opGsetRead
  | gsetSt a => exact .lane (opGsetSt (.gsetSt a) a) (fun _ => rfl) fun _ _ => stores_opGsetSt
  | gsetRs a => exact .lane (opGsetRead (.gsetRs a) a) (fun _ => rfl) fun _ _ => stores_opGsetRead
  | gstep a => exact .lane (opGstep (.gstep a) a) (fun _ => rfl) fun _ _ => stores_opGstep
  | gmask k => exact .lane (opGmask (.gmask k) k) (fun _ => rfl) fun _ _ => stores_opGmask
  | mmul x y z l b =>
    exact .of (fun fo k => matCmd 0x10 (rdS fo k x.toNat) (rdS fo k y.toNat) (rdS fo k z.toNat)
      (2 * l.toNat + b.toNat) fo k)
      (fun _ => rfl) fun _ _ => stores_matCmd
  | mdrain x y z b =>
    exact .of (fun fo k => matCmd 0x11 (rdS fo k x.toNat) (rdS fo k y.toNat) (rdS fo k z.toNat) b.toNat fo k)
      (fun _ => rfl) fun _ _ => stores_matCmd
  | bfill x y z =>
    exact .of (fun fo k => matCmd 0x12 (rdS fo k x.toNat) (rdS fo k y.toNat) (rdS fo k z.toNat) 0 fo k)
      (fun _ => rfl) fun _ _ => stores_matCmd
  | mcode x => exact .of (fun fo k => matCmd 0x13 (rdS fo k x.toNat) 0 0 0 fo k) (fun _ => rfl) fun _ _ => stores_matCmd
  | swap x y z =>
    exact .of (fun fo k => matCmd 0x14 (rdS fo k x.toNat) (rdS fo k y.toNat) (rdS fo k z.toNat) 0 fo k)
      (fun _ => rfl) fun _ _ => stores_matCmd
  | cpy x y z q =>
    exact .of (fun fo k => engCmd 0x20 q.toNat (rdS fo k x.toNat) (rdS fo k y.toNat) (rdS fo k z.toNat) 0 fo k)
      (fun _ => rfl) fun _ _ => stores_engCmd
  | cpyt x z q =>
    exact .of (fun fo k => engCmd 0x21 q.toNat (rdS fo k x.toNat) 0 (rdS fo k z.toNat) 0 fo k)
      (fun _ => rfl) fun _ _ => stores_engCmd
  | cgath x z q =>
    exact .of (fun fo k => engCmd 0x22 q.toNat (rdS fo k x.toNat) 0 (rdS fo k z.toNat) 0 fo k)
      (fun _ => rfl) fun _ _ => stores_engCmd
  | cscat x z q =>
    exact .of (fun fo k => engCmd 0x23 q.toNat (rdS fo k x.toNat) 0 (rdS fo k z.toNat) 0 fo k)
      (fun _ => rfl) fun _ _ => stores_engCmd
  | ctime x q =>
    exact .of (fun fo k => engCmd 0x25 q.toNat (rdS fo k x.toNat) 0 0 0 fo k)
      (fun _ => rfl) fun _ _ => stores_engCmd
  | cnext x y z q l b =>
    exact .of (fun fo k => opCnext q.toNat (rdS fo k x.toNat) (rdS fo k y.toNat) (rdS fo k z.toNat)
      (2 * l.toNat + b.toNat) fo k)
      (fun _ => rfl) fun _ _ => stores_opCnext
  | twait t r =>
    exact .of (fun fo k => waitOp (.twait t r) fo id k)
      (fun _ => rfl) fun _ _ => stores_waitOp fun _ => rfl
  | hwait h n =>
    exact .of (fun fo k => waitOp (.hwait h n) fo id k)
      (fun _ => rfl) fun _ _ => stores_waitOp fun _ => rfl
  | hfree h n =>
    exact .of (fun fo k => waitOp (.hfree h n) fo id k)
      (fun _ => rfl) fun _ _ => stores_waitOp fun _ => rfl
  | mwait m => exact .of (fun fo k => waitOp (.mwait m) fo id k) (fun _ => rfl) fun _ _ => stores_waitOp fun _ => rfl
  | lwait n => exact .of (fun fo k => waitOp (.lwait n) fo id k) (fun _ => rfl) fun _ _ => stores_waitOp fun _ => rfl
  | gsetFl => exact .lane (opGsetFl) (fun _ => rfl) fun _ _ => stores_opGsetFl
  | phase => exact .of (fun fo k => waitOp (.phase) fo id k) (fun _ => rfl) fun _ _ => stores_waitOp fun _ => rfl
  | fence => exact .of (fun fo k => waitOp (.fence) fo id k) (fun _ => rfl) fun _ _ => stores_waitOp fun _ => rfl
  | ckpt => exact .of (fun _ k => opCkpt k) (fun _ => rfl) fun _ _ => stores_opCkpt
  | add | sub | addsh | mul | mulh | mulhn | div | divn | and | or | xor | andn | shl | shr | sar | rol | cmp | min
  | max | minn | maxn =>
    exact .of _ (fun _ => rfl) fun _ _ => stores_alu2
  | addi | andi | ori | xori | shli | shri | sari | cmpi | clz | ctz | popc | bfx =>
    exact .of _ (fun _ => rfl) fun _ _ => stores_alu1
  | sel _ _ _ _ => exact .of _ (fun _ => rfl) fun _ _ => stores_opSel
  | movi _ _ => exact .of _ (fun _ => rfl) fun _ _ => stores_opMovi
  | lui _ _ => exact .of _ (fun _ => rfl) fun _ _ => stores_opLui
  | bfi _ _ _ _ => exact .of _ (fun _ => rfl) fun _ _ => stores_opBfi
  | adda _ _ _ => exact .of _ (fun _ => rfl) fun _ _ => stores_opAdda
  | mva _ _ => exact .of _ (fun _ => rfl) fun _ _ => stores_opMva
  | mvs _ _ => exact .of _ (fun _ => rfl) fun _ _ => stores_opMvs
  | spld _ _ => exact .of _ (fun _ => rfl) fun _ _ => stores_opSpld
  | spst _ _ => exact .of _ (fun _ => rfl) fun _ _ => stores_opSpst
  | fadd | fsub | fmul | fmin | fmax => exact .of _ (fun _ => rfl) fun _ _ => stores_fop2
  | fma _ _ _ _ => exact .of _ (fun _ => rfl) fun _ _ => stores_opFma
  | fcmp _ _ _ _ => exact .of _ (fun _ => rfl) fun _ _ => stores_opFcmp
  | fcvt _ _ _ _ => exact .of _ (fun _ => rfl) fun _ _ => stores_opFcvt
  | rdt _ _ => exact .of _ (fun _ => rfl) fun _ _ => stores_opRdt
  | takem _ _ => exact .of _ (fun _ => rfl) fun _ _ => stores_opTakem
  | br _ _ _ => exact .of _ (fun _ => rfl) fun _ _ => stores_opBr
  | brz _ _ => exact .of _ (fun _ => rfl) fun _ _ => stores_opBrz
  | brnz _ _ => exact .of _ (fun _ => rfl) fun _ _ => stores_opBrnz
  | jmp _ => exact .of _ (fun _ => rfl) fun _ _ => stores_opJmp
  | call _ => exact .of _ (fun _ => rfl) fun _ _ => stores_opCall
  | loop _ _ => exact .of _ (fun _ => rfl) fun _ _ => stores_opLoop
  | rep _ _ _ => exact .of _ (fun _ => rfl) fun _ _ => stores_opRep
  | halt _ => exact .of _ (fun _ => rfl) fun _ _ => stores_opHalt
  | start _ _ _ => exact .of _ (fun _ => rfl) fun _ _ => stores_opStart
  | trap _ _ => exact .of _ (fun _ => rfl) fun _ _ => stores_opTrap
  | ld | ldacq => exact .of _ (fun _ => rfl) fun _ _ => stores_opLoad
  | st | strel => exact .of _ (fun _ => rfl) fun _ _ => stores_opStore
  | xld _ _ _ _ => exact .of _ (fun _ => rfl) fun _ _ => stores_opXld
  | xst _ _ _ _ => exact .of _ (fun _ => rfl) fun _ _ => stores_opXst
  | vld _ _ _ _ => exact .of _ (fun _ => rfl) fun _ _ => stores_opVld
  | vst _ _ _ _ => exact .of _ (fun _ => rfl) fun _ _ => stores_opVst
  | vldx _ _ _ => exact .of _ (fun _ => rfl) fun _ _ => stores_opVldx
  | vstx _ _ _ => exact .of _ (fun _ => rfl) fun _ _ => stores_opVstx
  | qld _ _ _ => exact .of _ (fun _ => rfl) fun _ _ => stores_opQld
  | qst _ _ _ => exact .of _ (fun _ => rfl) fun _ _ => stores_opQst
  | kld _ _ _ => exact .of _ (fun _ => rfl) fun _ _ => stores_opKld
  | kst _ _ _ => exact .of _ (fun _ => rfl) fun _ _ => stores_opKst
  | lift _ => exact .of _ (fun _ => rfl) fun _ _ => stores_opLift
  | lpop _ => exact .of _ (fun _ => rfl) fun _ _ => stores_opLpop
  | hpush _ _ => exact .of _ (fun _ => rfl) fun _ _ => stores_opHpush
  | hpop _ _ => exact .of _ (fun _ => rfl) fun _ _ => stores_opHpop
  | vadd | vsub | vmul | vfma | vfms | vmin | vmax | vabs | vneg | vcmp | vsel | vcvt | vand | vor | vxor | vshl
  | vshr | vsar | vrcp | vrsq | vexp2 | vlog2 | vtanh | vred | vscan | vperm | vbc | viota | vmov | vrand | vclamp
  | vpack | vunpk | baddq | tap | tapfin | vsteer | qset | qadd | qmul | qscale | qshift | qmix | qcond | qmom
  | qquant | qtag | qsamp =>
    exact .of _ (fun _ => rfl) fun _ _ => stores_opV
  | cseal _ _ => exact .of _ (fun _ => rfl) fun _ _ => stores_opCseal
  | sendm _ _ _ => exact .of _ (fun _ => rfl) fun _ _ => stores_opSendm
  | eqry _ _ => exact .of _ (fun _ => rfl) fun _ _ => stores_opEqry
  | fwait _ _ => exact .of _ (fun _ => rfl) fun _ _ => stores_opFwait
  | fpost _ _ => exact .of _ (fun _ => rfl) fun _ _ => stores_opFpost
  | fpostx _ _ _ => exact .of _ (fun _ => rfl) fun _ _ => stores_opFpostx
  | hadv _ _ _ => exact .of _ (fun _ => rfl) fun _ _ => stores_opHadv
  | chk _ => exact .of _ (fun _ => rfl) fun _ _ => stores_opChk
  | bara _ _ => exact .of _ (fun _ => rfl) fun _ _ => stores_opBara
  | nilI | nilM | nilV | nilK | nilE | nilY | holdI | holdM | holdV | holdK | holdE | holdY =>
    exact .of (fun _ k => k) (fun _ => rfl) fun _ _ => rfl
  | mfc | mtc | gld | gst | gatom | cinv | cclean => exact Bool.noConfusion hr
  | _ => exact Bool.noConfusion hi

end Sys2Proof.Machine
end

section
/-! PROOFS. What an instruction and a step answer: they always answer a next state, but for a slot operation at a core that
runs no launch (O39); a slot operation changes its core (O41); every step keeps the invariant (O51). -/

namespace Sys2Proof.Machine

/-! ### Events -/

/-- An event answers a next state, which meets the invariant where the state before does: each is a function of the part. -/
theorem exec_event {i : Instr} (hi : isSlotOp i = false) (s : State) : ∃ t, exec i s = .next t ∧ (s.inv → t.inv) := by
  cases i with
  | disciplineSend => exact ⟨_, rfl, id⟩
  | helperBundleIllegal _ _ => exact ⟨_, rfl, State.inv.bundleIllegal⟩
  | storageError _ _ _ _ => exact ⟨_, rfl, State.inv.storageError⟩
  | hctlFree | histselClr | egraphWrite | clusterWindowStore | copyCommandStart | timedCommandDue | queueStop
  | deferredTrap | inboxpop | mmulStart | mmulComplete | mcodeStart | mcodeComplete | bfillStart | bfillComplete
  | mdrainStart | swapComplete | matrixTimelineStop =>
    exact ⟨_, rfl, State.inv.modCore⟩
  | bqtake _ _ => exact ⟨_, rfl, State.inv.bqTo⟩
  | registerWrite _ _ => exact ⟨_, rfl, State.inv.regWrite⟩
  | homeRead _ => exact ⟨_, rfl, State.inv.homeReadAt⟩
  | homeWrite _ => exact ⟨_, rfl, State.inv.homeWriteAt⟩
  | homeAtomic _ => exact ⟨_, rfl, State.inv.homeAtomicAt⟩
  | globalReadReturn _ => exact ⟨_, rfl, State.inv.readReturn⟩
  | pageWalk _ _ _ _ _ => exact ⟨_, rfl, State.inv.pageWalk⟩
  | retry _ => exact ⟨_, rfl, State.inv.retryEntry⟩
  | abandon _ => exact ⟨_, rfl, State.inv.abandonEntry⟩
  | tinvPage | tinvContext | tinvAll => exact ⟨_, rfl, State.inv.tinvPush⟩
  | fwCtlWrite _ _ => exact ⟨_, rfl, State.inv.fwCtl⟩
  | legdataWrite _ => exact ⟨_, rfl, State.inv.legWrite⟩
  | flagPostArrival _ _ _ _ => exact ⟨_, rfl, State.inv.flagArrives⟩
  | mailboxArrival _ _ _ _ => exact ⟨_, rfl, State.inv.mailArrives⟩
  | mailboxPortWrite _ _ _ _ => exact ⟨_, rfl, State.inv.mailPort⟩
  | handleAdvanceArrival _ _ _ _ _ => exact ⟨_, rfl, State.inv.handleArrives⟩
  | gatewayWindowAccess _ _ _ _ => exact ⟨_, rfl, State.inv.gateWindow⟩
  | copyBurst _ _ => exact ⟨_, rfl, State.inv.copyBurst⟩
  | copyCommandComplete _ _ => exact ⟨_, rfl, State.inv.copyComplete⟩
  | stageRelease _ => exact ⟨_, rfl, State.inv.stageRelease⟩
  | launchComplete _ => exact ⟨_, rfl, State.inv.launchComplete⟩
  | preemptionEnd _ => exact ⟨_, rfl, State.inv.preemptStep⟩
  | killComplete _ => exact ⟨_, rfl, State.inv.killStep⟩
  | replayPass _ => exact ⟨_, rfl, State.inv.replayPass⟩
  | swapOut _ _ => exact ⟨_, rfl, State.inv.swapOutStep⟩
  | swapIn _ => exact ⟨_, rfl, State.inv.swapInStep⟩
  | barrierArrival _ _ => exact ⟨_, rfl, State.inv.barArrive⟩
  | encodeJobStart _ => exact ⟨_, rfl, State.inv.encStart⟩
  | encodeJobComplete _ => exact ⟨_, rfl, State.inv.encDone⟩
  | hostHalt _ _ => exact ⟨_, rfl, State.inv.hostHalt⟩
  | resume | jobstep => exact ⟨_, rfl, State.inv.askResume⟩
  | corestep _ _ => exact ⟨_, rfl, State.inv.askCoreStep⟩
  | clearcause _ _ => exact ⟨_, rfl, State.inv.clearCause⟩
  | shtrig _ => exact ⟨_, rfl, State.inv.shtrig⟩
  | frdata _ => exact ⟨_, rfl, State.inv.frNext⟩
  | linkFlitReceive _ _ => exact ⟨_, rfl, State.inv.flit⟩
  | linkDown _ => exact ⟨_, rfl, State.inv.linkDown⟩
  | linkUp _ _ => exact ⟨_, rfl, State.inv.linkUp⟩
  | graticuleDiscipline _ _ => exact ⟨_, rfl, State.inv.discipline⟩
  | plan _ _ => exact ⟨_, rfl, State.inv.planStart⟩
  | planLate _ => exact ⟨_, rfl, State.inv.planLate⟩
  | planPhase _ _ => exact ⟨_, rfl, State.inv.planPhase⟩
  | planComplete _ => exact ⟨_, rfl, State.inv.planComplete⟩
  | treeset _ => exact ⟨_, rfl, State.inv.treeSet⟩
  | treeNodeInput _ _ _ => exact ⟨_, rfl, State.inv.treeInput⟩
  | treeRootDelivery _ => exact ⟨_, rfl, State.inv.treeDeliver⟩
  | dispatchDelivery _ _ _ => exact ⟨_, rfl, State.inv.dispatchList⟩
  | streamEnable _ _ => exact ⟨_, rfl, State.inv.enableStream⟩
  | streamDisable _ _ => exact ⟨_, rfl, State.inv.disableStream⟩
  | resetRungComplete _ => exact ⟨_, rfl, State.inv.rungComplete⟩
  | clusterPowerUp _ => exact ⟨_, rfl, State.inv.clusterUp⟩
  | attreq _ => exact ⟨_, rfl, State.inv.attReq⟩
  | thermalTrip _ => exact ⟨_, rfl, State.inv.trip⟩
  | updomClose _ => exact ⟨_, rfl, State.inv.domainCloses⟩
  | updomOpen _ => exact ⟨_, rfl, State.inv.openDomain⟩
  | domainClose _ => exact ⟨_, rfl, State.inv.domainClosed⟩
  | domainOpened _ => exact ⟨_, rfl, State.inv.domainOpens⟩
  | cxlCacheSnoop _ _ => exact ⟨_, rfl, State.inv.snoop⟩
  | rollbackRestoreEnd => exact ⟨_, rfl, State.inv.restoreEnds⟩
  | corePartEnd => exact ⟨_, rfl, State.inv.endPart⟩
  | gwtlinc => exact ⟨_, rfl, State.inv.gwtlInc⟩
  | storeBufferDrain => exact ⟨_, rfl, State.inv.sbDrain⟩
  | faultRecordDeferred => exact ⟨_, rfl, State.inv.faultDeferred⟩
  | tinvComplete => exact ⟨_, rfl, State.inv.tinvDone⟩
  | legdataRead => exact ⟨_, rfl, State.inv.legNext⟩
  | mdrainComplete => exact ⟨_, rfl, State.inv.drainOver⟩
  | swapExchangeStart => exact ⟨_, rfl, State.inv.swapStart⟩
  | launchPacket => exact ⟨_, rfl, State.inv.launchPacket⟩
  | replay => exact ⟨_, rfl, State.inv.replayPacket⟩
  | kill => exact ⟨_, rfl, State.inv.killPacket⟩
  | record => exact ⟨_, rfl, State.inv.recordPacket⟩
  | schedulerWindow => exact ⟨_, rfl, State.inv.newWindow⟩
  | breakpoint => exact ⟨_, rfl, State.inv.breakpointAt⟩
  | haltFlit => exact ⟨_, rfl, State.inv.haltFlit⟩
  | stopTick => exact ⟨_, rfl, State.inv.stopTick⟩
  | resumeAtTick => exact ⟨_, rfl, State.inv.resumeAt⟩
  | jobstepEnd => exact ⟨_, rfl, State.inv.jobstepEnd⟩
  | corestepAtTick => exact ⟨_, rfl, State.inv.corestepAt⟩
  | surveyPulse => exact ⟨_, rfl, State.inv.surveyPulse⟩
  | shadowTrigger => exact ⟨_, rfl, State.inv.shadowTrigger⟩
  | treeCheckDone => exact ⟨_, rfl, State.inv.treeChecked⟩
  | gatewayRun => exact ⟨_, rfl, State.inv.gateRun⟩
  | gatewayStop => exact ⟨_, rfl, State.inv.gateStop⟩
  | majorFrame => exact ⟨_, rfl, State.inv.majorFrame⟩
  | streamPoll => exact ⟨_, rfl, State.inv.pollStream⟩
  | heartbeat => exact ⟨_, rfl, State.inv.beat⟩
  | resetStream => exact ⟨_, rfl, State.inv.rungOne⟩
  | firmwareCoreRestart => exact ⟨_, rfl, State.inv.rungTwo⟩
  | commandProcessorReset => exact ⟨_, rfl, State.inv.rungThree⟩
  | functionLevelReset => exact ⟨_, rfl, State.inv.rungFour⟩
  | secondaryBusReset => exact ⟨_, rfl, State.inv.rungFive⟩
  | powerOn => exact ⟨_, rfl, State.inv.powerUp⟩
  | attestationReport => exact ⟨_, rfl, State.inv.attest⟩
  | thermalThrottle => exact ⟨_, rfl, State.inv.throttle⟩
  | thermalThrottleEnd => exact ⟨_, rfl, State.inv.throttleEnd⟩
  | breakpointTakesEffect => exact ⟨_, rfl, State.inv.bpEffect⟩
  | _ => exact Bool.noConfusion hi

/-! ### Operations of slots -/

theorem onCore_answers (i : Instr) (f : Focus → Core → Core) (s : State) :
    (s.core s.focus.core = none ∧ onCore i f s = .fault .noCore) ∨
    ∃ c, s.core s.focus.core = some c ∧
      (onCore i f s = .next (s.withCore (f s.focus c)) ∨
        onCore i f s = .next (s.withCore (takeTrap s.focus cILLEGAL 0 c))) := by
  cases hc : s.core s.focus.core with
  | none => exact .inl ⟨rfl, Laws.onCore_noCore hc⟩
  | some c =>
    refine .inr ⟨c, rfl, ?_⟩
    cases hl : legal s.focus c i with
    | true => exact .inl (Laws.onCore_ready ⟨hc, hl⟩)
    | false => exact .inr (Laws.onCore_illegal hc hl)

theorem onState_answers (i : Instr) (f : Focus → Core → State) (s : State) :
    (s.core s.focus.core = none ∧ onState i f s = .fault .noCore) ∨
    ∃ c, s.core s.focus.core = some c ∧
      (onState i f s = .next (f s.focus c) ∨ onState i f s = .next (s.withCore (takeTrap s.focus cILLEGAL 0 c))) := by
  cases hc : s.core s.focus.core with
  | none => exact .inl ⟨rfl, Laws.onState_noCore hc⟩
  | some c =>
    refine .inr ⟨c, rfl, ?_⟩
    cases hl : legal s.focus c i with
    | true => exact .inl (Laws.onState_ready ⟨hc, hl⟩)
    | false => exact .inr (Laws.onState_illegal hc hl)

/-- An operation that acts on its core alone puts a core with the same stores in its place. -/
theorem exec_local {i : Instr} (hi : isSlotOp i = true) (hr : reachesOut i = false) (s : State) :
    (s.core s.focus.core = none ∧ exec i s = .fault .noCore) ∨
    ∃ c d, s.core s.focus.core = some c ∧ exec i s = .next (s.withCore d) ∧ stores d = stores c := by
  obtain ⟨f, hexec, hstores⟩ := actsOnCore hi hr
  rw [hexec]
  obtain ⟨hc, h⟩ | ⟨c, hc, h | h⟩ := onCore_answers i (f s) s
  · exact .inl ⟨hc, h⟩
  · exact .inr ⟨c, _, hc, h, hstores s s.focus c⟩
  · exact .inr ⟨c, _, hc, h, stores_takeTrap⟩

/-- The operations that reach beyond their core are functions of the part, which keep its invariant. -/
theorem exec_reachesOut {i : Instr} (hr : reachesOut i = true) :
    ∃ f : State → Focus → Core → State, (∀ s, exec i s = onState i (f s) s) ∧ ∀ s fo c, s.inv → (f s fo c).inv := by
  cases i with
  | gld d x w im => exact ⟨fun s fo c => s.gld fo d x w.toNat im c, fun _ => rfl, fun _ _ _ => State.inv.gld⟩
  | gst d x w im => exact ⟨fun s fo c => s.gst fo d x w.toNat im c, fun _ => rfl, fun _ _ _ => State.inv.gst⟩
  | gatom d x y o f =>
    exact ⟨fun s fo c => s.gatom fo d x y o.toNat f.toNat c, fun _ => rfl, fun _ _ _ => State.inv.gatom⟩
  | cinv x im => exact ⟨fun s fo c => s.cacheLine fo x im true c, fun _ => rfl, fun _ _ _ => State.inv.cacheLine⟩
  | cclean x im => exact ⟨fun s fo c => s.cacheLine fo x im false c, fun _ => rfl, fun _ _ _ => State.inv.cacheLine⟩
  | mfc d n =>
    exact ⟨fun s fo c => if n.toNat = 0x600 then s.soon fo.core [.bqtake (fo.core - 512) d.toNat]
      else s.setCore fo.core (opMfc d n fo c), fun _ => rfl, fun _ _ _ hs => .ofIf hs.soon hs.setCore⟩
  | mtc d n =>
    exact ⟨fun s fo c => if n.toNat = 0x601 then s.soon fo.core [.gwtlinc] else s.setCore fo.core (opMtc d n fo c),
      fun _ => rfl, fun _ _ _ hs => .ofIf hs.soon hs.setCore⟩
  | _ => exact Bool.noConfusion hr

/-! ### Every instruction answers, and keeps the invariant -/

theorem exec_slotOp {i : Instr} (hi : isSlotOp i = true) (s : State) :
    (s.core s.focus.core = none ∧ exec i s = .fault .noCore) ∨ ∃ t, exec i s = .next t ∧ (s.inv → t.inv) := by
  cases hr : reachesOut i with
  | false =>
    obtain h | ⟨_, d, _, hnext, _⟩ := exec_local hi hr s
    · exact .inl h
    · exact .inr ⟨_, hnext, State.inv.setCore⟩
  | true =>
    obtain ⟨f, hexec, hinv⟩ := exec_reachesOut hr
    rw [hexec]
    obtain h | ⟨c, _, h | h⟩ := onState_answers i (f s) s
    · exact .inl h
    · exact .inr ⟨_, h, hinv s s.focus c⟩
    · exact .inr ⟨_, h, State.inv.setCore⟩

theorem State.inv.exec {s t : State} {i : Instr} (hs : s.inv) (h : Machine.exec i s = .next t) : t.inv := by
  cases hi : isSlotOp i with
  | false =>
    obtain ⟨u, hu, hinv⟩ := exec_event hi s
    cases h.symm.trans hu
    exact hinv hs
  | true =>
    obtain ⟨_, hfault⟩ | ⟨u, hu, hinv⟩ := exec_slotOp hi s
    · cases h.symm.trans hfault
    · cases h.symm.trans hu
      exact hinv hs

/-! ### The step -/

theorem slotFocus_core (s : State) (num slot : Nat) (who : Ctx) (c : Core) : (s.slotFocus num who slot c).core = num := by
  cases who <;> rfl

theorem fetchSlot_ok {s : State} {num slot : Nat} {who : Ctx} {fo : Focus} {c : Core} {i : Instr}
    (h : s.fetchSlot num who slot = .ok (fo, c, i)) : s.core fo.core = some c := by
  unfold State.fetchSlot at h
  split at h
  · cases h
  · next c' hc =>
    split at h
    · cases h
    · dsimp only at h
      split at h
      · cases h
      · split at h
        · cases h
        · cases h
          exact (congrArg s.core (slotFocus_core s num slot who _)).trans hc

theorem State.inv.fetchSlot {s t : State} {num slot : Nat} {who : Ctx} (hs : s.inv)
    (h : s.fetchSlot num who slot = .error t) : t.inv := by
  unfold State.fetchSlot at h
  split at h
  · cases h
    exact hs
  · split at h
    · cases h
      exact hs
    · dsimp only at h
      split at h
      · cases h
        exact hs.slotIllegal
      · split at h
        · next hheld =>
          cases h
          exact hs.slotHeld hheld
        · cases h

theorem runSlot_answers (s : State) (num slot : Nat) (who : Ctx) :
    ∃ t, s.runSlot num who slot = .next t ∧ (s.inv → t.inv) := by
  unfold State.runSlot
  split
  · next t hfetch => exact ⟨t, rfl, fun hs => hs.fetchSlot hfetch⟩
  · next fo c i hfetch =>
    have hcore : s.core fo.core = some c := fetchSlot_ok hfetch
    have hexec : ∃ t, exec i { s with focus := fo } = .next t ∧ (s.inv → t.inv) := by
      cases hi : isSlotOp i with
      | false => exact exec_event hi { s with focus := fo }
      | true =>
        obtain ⟨hnone, _⟩ | h := exec_slotOp hi { s with focus := fo }
        · cases hcore.symm.trans hnone
        · exact h
    obtain ⟨t, ht, hinv⟩ := hexec
    rw [ht]
    exact ⟨_, rfl, fun hs => (hinv hs).slotDone⟩

/-- A step answers a next state wherever its work is not an event that holds an operation of a slot. -/
theorem step_answers (s : State) (h : ∀ u i rest, s.agenda = .event u i :: rest → isSlotOp i = false) :
    ∃ t, step s = .next t := by
  unfold step
  split
  · exact ⟨_, rfl⟩
  · next num who slot rest _ =>
    obtain ⟨t, ht, _⟩ := runSlot_answers { s with agenda := rest } num slot who
    exact ⟨t, ht⟩
  · next u i rest ha =>
    obtain ⟨t, ht, _⟩ := exec_event (h u i rest ha) { s with agenda := rest, focus := s.eventFocus u }
    exact ⟨t, ht⟩
  · exact ⟨_, rfl⟩

theorem State.inv.step {s t : State} (hs : s.inv) (h : Machine.step s = .next t) : t.inv := by
  unfold Machine.step at h
  split at h
  · cases h
    exact hs.startCycle
  · next num who slot rest _ =>
    obtain ⟨u, hu, hinv⟩ := runSlot_answers { s with agenda := rest } num slot who
    cases h.symm.trans hu
    exact hinv hs
  · next u i rest _ =>
    have h0 : ({ s with agenda := rest, focus := s.eventFocus u } : State).inv := hs
    exact h0.exec h
  · cases h
    exact State.inv.doWork hs

/-! ### What an operation of a slot leaves as it was -/

/-- From `s` to `t` no byte of memory, no hub register and nothing stored in a core has changed. -/
def SparesStores (s t : State) : Prop :=
  (∀ a, memRead t.mem a = memRead s.mem a) ∧ (∀ off, t.reg off = s.reg off) ∧
  ∀ n, (t.core n).map stores = (s.core n).map stores

theorem sparesStores_setCore {s : State} {k : Nat} {c d : Core} (hc : s.core k = some c) (hd : stores d = stores c) :
    SparesStores s (s.setCore k d) := by
  refine ⟨fun _ => rfl, fun _ => rfl, fun n => ?_⟩
  by_cases hn : n = k
  · subst hn
    rw [Laws.core_setCore_same d hc, hc, Option.map_some, Option.map_some, hd]
  · rw [Laws.core_setCore_other s d hn]

theorem sparesStores_soon (s : State) (u : Nat) (l : List Instr) : SparesStores s (s.soon u l) :=
  ⟨fun _ => rfl, fun _ => rfl, fun _ => rfl⟩

theorem sparesStores_onState {s t : State} {i : Instr} {f : Focus → Core → State}
    (hf : ∀ c, s.core s.focus.core = some c → SparesStores s (f s.focus c)) (h : onState i f s = .next t) :
    SparesStores s t := by
  obtain ⟨_, hfault⟩ | ⟨c, hc, hnext | htrap⟩ := onState_answers i f s
  · cases h.symm.trans hfault
  · cases h.symm.trans hnext
    exact hf c hc
  · cases h.symm.trans htrap
    exact sparesStores_setCore hc stores_takeTrap

theorem sparesStores_mfc {s t : State} {d : BitVec 6} {n : BitVec 12} (h : exec (.mfc d n) s = .next t) :
    SparesStores s t := by
  change execMfc d n s = .next t at h
  unfold execMfc at h
  refine sparesStores_onState (fun c hc => ?_) h
  split
  · exact sparesStores_soon s _ _
  · exact sparesStores_setCore hc stores_opMfc

theorem sparesStores_mtc {s t : State} {d : BitVec 6} {n : BitVec 12} (h : exec (.mtc d n) s = .next t) :
    SparesStores s t := by
  change execMtc d n s = .next t at h
  unfold execMtc at h
  refine sparesStores_onState (fun c hc => ?_) h
  split
  · exact sparesStores_soon s _ _
  · exact sparesStores_setCore hc stores_opMtc

theorem exec_local_next {s t : State} {i : Instr} (hi : isSlotOp i = true) (hr : reachesOut i = false)
    (h : exec i s = .next t) : ∃ c d, s.core s.focus.core = some c ∧ t = s.withCore d ∧ stores d = stores c := by
  obtain ⟨_, hfault⟩ | ⟨c, d, hc, hnext, hd⟩ := exec_local hi hr s
  · cases h.symm.trans hfault
  · cases h.symm.trans hnext
    exact ⟨c, d, hc, rfl, hd⟩

end Sys2Proof.Machine

namespace Sys2Proof.Proofs

open Sys2Proof Sys2Proof.Machine

/-- Settles O51: each kind of work a step does keeps the invariant, an instruction whatever it is. -/
theorem stepsKeepTheInvariant : Obligations.StepsKeepTheInvariant :=
  fun _ _ hs h => hs.step h

/-- Settles O39: events are functions of the part, operations of slots of a core that must be there, as it is where a slot
was fetched. -/
theorem executionAlwaysAnswers : Obligations.ExecutionAlwaysAnswers := by
  refine ⟨fun i s => ?_, step_answers⟩
  cases hi : isSlotOp i with
  | false =>
    obtain ⟨t, ht, _⟩ := exec_event hi s
    exact .inl ⟨t, ht⟩
  | true =>
    obtain ⟨hc, hfault⟩ | ⟨t, ht, _⟩ := exec_slotOp hi s
    · exact .inr ⟨rfl, hc, hfault⟩
    · exact .inl ⟨t, ht⟩

/-- Settles O41: the operations act on their core alone, whose stores they leave; MFC and MTC besides put events to work. -/
theorem slotOperationsTouchTheirCore : Obligations.SlotOperationsTouchTheirCore := by
  constructor
  · intro i s t hi hr h
    obtain ⟨_, d, _, ht, _⟩ := exec_local_next hi hr h
    exact ⟨d, ht⟩
  · rintro i s t hi (hr | ⟨d, n, rfl | rfl⟩) h
    · obtain ⟨c, d, hc, rfl, hd⟩ := exec_local_next hi hr h
      exact sparesStores_setCore hc hd
    · exact sparesStores_mfc h
    · exact sparesStores_mtc h

end Sys2Proof.Proofs
end

section
/-! PROOFS. Where results land (R4, R49, R50, R200, R219): registers, the grid, FPSTAT and QSTAT (O42). -/

namespace Sys2Proof.Machine

/-! ### Registers -/

theorem rdS_zero (fo : Focus) (c : Core) : rdS fo c 0 = 0 := rfl

theorem rdP_zero (c : Core) : rdP c 0 = BitVec.allOnes 64 := rfl

theorem rdS_prim {fo : Focus} (hfo : ofPrim fo) (c : Core) (k : Nat) :
    rdS fo c k = if k = 0 then 0 else spGet 0 c.p.s k := by
  rw [rdS, hfo]

theorem rdS_helper {fo : Focus} {h : Nat} (hfo : ofHelper fo h) (c : Core) (k : Nat) :
    rdS fo c k = if k = 0 then 0 else spGet 0 (c.helper h).x k := by
  rw [rdS, hfo]

theorem rdA_prim {fo : Focus} (hfo : ofPrim fo) (c : Core) (k : Nat) : rdA fo c k = spGet 0 c.p.a k := by
  rw [rdA, hfo]

/-! What the effects on registers do, case by case. -/

theorem landEff_sreg (e : Pend) (c : Core) (r : Nat) (v : Word) :
    landEff e c (.sreg r v) = if r = 0 then c else { c with p := { c.p with s := spSet 0 c.p.s r v } } := rfl

theorem landEff_areg (e : Pend) (c : Core) (r : Nat) (v : Lane) :
    landEff e c (.areg r v) = { c with p := { c.p with a := spSet 0 c.p.a r v } } := rfl

theorem landEff_lcnt (e : Pend) (c : Core) (r : Nat) (v : Lane) :
    landEff e c (.lcnt r v) = { c with p := { c.p with lc := spSet 0 c.p.lc r v } } := rfl

theorem landEff_preg (e : Pend) (c : Core) (r : Nat) (v : Word) :
    landEff e c (.preg r v) = if r = 0 then c else { c with p := { c.p with p := spSet 0 c.p.p r v } } := rfl

theorem landEff_xreg (e : Pend) (c : Core) (h r : Nat) (v : Word) :
    landEff e c (.xreg h r v) = if r = 0 || !ownsRegs (c.helper h) then c
      else c.setHelper h { c.helper h with x := spSet 0 (c.helper h).x r v } := rfl

theorem landEff_qnote (e : Pend) (c : Core) (n : QNote) :
    landEff e c (.qnote n) =
      if gridOf e ≠ [] then c else { c with p := { c.p with qstat := qstatNote c.p.qstat n } } := rfl

theorem landEff_kstat (e : Pend) (c : Core) (nan held : Nat) (em bt : Bool) :
    landEff e c (.kstat nan held em bt) = { c with kstatV := kstatNote c.kstatV nan held 0 em bt } := rfl

theorem rdS_landEff_sreg (e : Pend) (c : Core) {fo : Focus} (hfo : ofPrim fo) (r k : Nat) (v : Word) :
    rdS fo (landEff e c (.sreg r v)) k = if k = r ∧ r ≠ 0 then v else rdS fo c k := by
  rw [rdS_prim hfo, rdS_prim hfo, landEff_sreg]
  by_cases hr : r = 0
  · simp [hr]
  · simp only [hr, if_false, Laws.spGet_spSet]
    by_cases hk : k = r <;> simp [hk, hr]

theorem rdA_landEff_areg (e : Pend) (c : Core) {fo : Focus} (hfo : ofPrim fo) (r k : Nat) (v : Lane) :
    rdA fo (landEff e c (.areg r v)) k = if k = r then v else rdA fo c k := by
  rw [rdA_prim hfo, rdA_prim hfo, landEff_areg, Laws.spGet_spSet]

theorem lc_landEff_lcnt (e : Pend) (c : Core) (r k : Nat) (v : Lane) :
    spGet 0 (landEff e c (.lcnt r v)).p.lc k = if k = r then v else spGet 0 c.p.lc k := by
  rw [landEff_lcnt, Laws.spGet_spSet]

theorem rdP_landEff_preg (e : Pend) (c : Core) (r k : Nat) (v : Word) :
    rdP (landEff e c (.preg r v)) k = if k = r ∧ r ≠ 0 then v else rdP c k := by
  rw [rdP, rdP, landEff_preg]
  by_cases hr : r = 0
  · simp [hr]
  · simp only [hr, if_false, Laws.spGet_spSet]
    by_cases hk : k = r <;> simp [hk, hr]

theorem rdS_landEff_xreg (e : Pend) {c : Core} {fo : Focus} {h : Nat} (hfo : ofHelper fo h) (hh : h < c.helpers.length)
    (hown : ownsRegs (c.helper h) = true) (r k : Nat) (v : Word) :
    rdS fo (landEff e c (.xreg h r v)) k = if k = r ∧ r ≠ 0 then v else rdS fo c k := by
  rw [rdS_helper hfo, rdS_helper hfo, landEff_xreg]
  by_cases hr : r = 0
  · simp [hr]
  · simp only [hr, hown, decide_false, Bool.not_true, Bool.or_self, Bool.false_eq_true, if_false,
      Laws.helper_setHelper, hh, and_self, if_true, Laws.spGet_spSet]
    by_cases hk : k = r <;> simp [hk, hr]

theorem helper_landEff_xreg_other (e : Pend) (c : Core) {h k : Nat} (hk : k ≠ h) (r : Nat) (v : Word) :
    (landEff e c (.xreg h r v)).helper k = c.helper k := by
  rw [landEff_xreg]
  split
  · rfl
  · simp [Laws.helper_setHelper, hk]

/-! ### The grid (R11) -/

/-- The 64 elements of a grid register stand at 64 places. -/
theorem gridKey_inj {code i j : Nat} (hi : i < 64) (hj : j < 64) (h : gridKey code i = gridKey code j) : i = j := by
  unfold gridKey gridElem at h
  dsimp only at h
  split at h <;> dsimp only at h <;> omega

theorem rdGrid_getD (c : Core) (code : Nat) {i : Nat} (hi : i < 64) :
    (rdGrid c code).getD i 0 = spGet 0 c.p.grid (gridKey code i) := by
  simp [rdGrid, hi]

/-- One element of a write. -/
def wrElem (code : Nat) (v : Vec) (m : Word) (g : Sparse Lane) (i : Nat) : Sparse Lane :=
  if m.getLsbD i then spSet 0 g (gridKey code i) (lane v i) else g

theorem wrGrid_eq (g : Sparse Lane) (code : Nat) (v : Vec) (m : Word) :
    wrGrid g code v m = (List.range 64).foldl (wrElem code v m) g := rfl

theorem spGet_wrElem (code : Nat) (v : Vec) (m : Word) (g : Sparse Lane) (i k : Nat) :
    spGet 0 (wrElem code v m g i) k =
      if m.getLsbD i = true ∧ k = gridKey code i then lane v i else spGet 0 g k := by
  unfold wrElem
  by_cases hm : m.getLsbD i = true
  · rw [if_pos hm, Laws.spGet_spSet]
    exact if_congr (by simp [hm]) rfl rfl
  · rw [if_neg hm, if_neg fun h => hm h.1]

/-- The elements written so far, of the first `n`. -/
theorem wrGrid_range (g : Sparse Lane) (code : Nat) (v : Vec) (m : Word) {n i : Nat} (hn : n ≤ 64) (hi : i < 64) :
    spGet 0 ((List.range n).foldl (wrElem code v m) g) (gridKey code i) =
      if m.getLsbD i = true ∧ i < n then lane v i else spGet 0 g (gridKey code i) := by
  induction n with
  | zero => rw [if_neg fun h => Nat.not_lt_zero i h.2, List.range_zero, List.foldl_nil]
  | succ n ih =>
    rw [List.range_succ, List.foldl_append, List.foldl_cons, List.foldl_nil, spGet_wrElem, ih (by omega)]
    by_cases hin : i = n
    · subst hin
      by_cases hm : m.getLsbD i = true
      · rw [if_pos ⟨hm, rfl⟩, if_pos ⟨hm, Nat.lt_succ_self i⟩]
      · rw [if_neg fun h => hm h.1, if_neg fun h => hm h.1, if_neg fun h => hm h.1]
    · rw [if_neg fun h => hin (gridKey_inj hi (by omega) h.2)]
      exact if_congr (and_congr_right fun _ => by omega) rfl rfl

theorem wrGrid_same (g : Sparse Lane) (code : Nat) (v : Vec) (m : Word) {i : Nat} (hi : i < 64) :
    spGet 0 (wrGrid g code v m) (gridKey code i) = if m.getLsbD i then lane v i else spGet 0 g (gridKey code i) := by
  rw [wrGrid_eq, wrGrid_range g code v m (Nat.le_refl 64) hi]
  exact if_congr (and_iff_left hi) rfl rfl

theorem wrGrid_other (g : Sparse Lane) (code : Nat) (v : Vec) (m : Word) {k : Nat}
    (hk : ∀ i, i < 64 → m.getLsbD i = true → k ≠ gridKey code i) : spGet 0 (wrGrid g code v m) k = spGet 0 g k := by
  rw [wrGrid_eq]
  refine List.foldlRecOn (motive := fun g' => spGet 0 g' k = spGet 0 g k) _ _ rfl fun g' hg' i hi => ?_
  rw [spGet_wrElem, if_neg fun h => hk i (List.mem_range.mp hi) h.1 h.2, hg']

/-! ### FPSTAT and QSTAT -/

@[simp] theorem setFlags_grid (who : Ctx) (fl : Flags) (c : Core) : (setFlags who fl c).p.grid = c.p.grid := by
  cases who <;> rfl

@[simp] theorem setFlags_qstat (who : Ctx) (fl : Flags) (c : Core) : (setFlags who fl c).p.qstat = c.p.qstat := by
  cases who <;> rfl

/-- A flag of the primary that stands stays, whoever sets others. -/
theorem fpstat_setFlags (who : Ctx) (fl : Flags) {c : Core} {b : Nat} (h : c.p.fpstat.getLsbD b = true) :
    (setFlags who fl c).p.fpstat.getLsbD b = true := by
  cases who with
  | helper k => exact h
  | prim => simp [setFlags, h]
  | gate => simp [setFlags, h]

theorem landGroupGrid_grid (c : Core) (g : Group) :
    (landGroupGrid c g).p.grid = g.writes.foldl (fun m w => wrGrid m w.1 w.2.1 w.2.2) c.p.grid := by
  simp [landGroupGrid]

/-- A group of one vector writes the lanes its predicate selects. -/
theorem rdGrid_landGroupGrid (c : Core) (who : Ctx) (code : Nat) (v : Vec) (m : Word) (left : List Nat) (fl : Flags)
    (ns : List QNote) {i : Nat} (hi : i < 64) :
    (rdGrid (landGroupGrid c ⟨who, [(code, v, m)], left, fl, ns⟩) code).getD i 0 =
      if m.getLsbD i then v.getD i 0 else (rdGrid c code).getD i 0 := by
  rw [rdGrid_getD _ _ hi, rdGrid_getD _ _ hi, landGroupGrid_grid]
  exact wrGrid_same c.p.grid code v m hi

theorem grid_landGroupGrid_other (c : Core) (who : Ctx) (code : Nat) (v : Vec) (m : Word) (left : List Nat) (fl : Flags)
    (ns : List QNote) {k : Nat} (hk : ∀ i, i < 64 → m.getLsbD i = true → k ≠ gridKey code i) :
    spGet 0 (landGroupGrid c ⟨who, [(code, v, m)], left, fl, ns⟩).p.grid k = spGet 0 c.p.grid k := by
  rw [landGroupGrid_grid]
  exact wrGrid_other c.p.grid code v m hk

theorem landGroupGrid_append (c : Core) (who : Ctx) (w : List (Nat × Vec × Word)) (g : Nat × Vec × Word) (left : List Nat)
    (fl : Flags) (ns : List QNote) :
    (landGroupGrid c ⟨who, w ++ [g], left, fl, ns⟩).p.grid =
      wrGrid (landGroupGrid c ⟨who, w, left, fl, ns⟩).p.grid g.1 g.2.1 g.2.2 := by
  rw [landGroupGrid_grid, landGroupGrid_grid, List.foldl_append, List.foldl_cons, List.foldl_nil]

theorem helper_landGroupGrid_helper (c : Core) (h : Nat) (w : List (Nat × Vec × Word)) (left : List Nat) (fl : Flags)
    (ns : List QNote) (k : Nat) :
    (landGroupGrid c ⟨.helper h, w, left, fl, ns⟩).helper k =
      if k = h ∧ h < c.helpers.length then { c.helper h with fpstat := (c.helper h).fpstat ||| fl } else c.helper k :=
  Laws.helper_setHelper c h k _

/-! ### Flags cleared and set in a cycle (R200) -/

/-- What one effect clears. -/
def fpClearEff (who : Ctx) (c : Core) (x : Eff) : Core :=
  match x with
  | .fpClear v => clearFlags who v c
  | .fpClearM v => { c with mat := { c.mat with fpm := c.mat.fpm &&& ~~~ v } }
  | _ => c

theorem fpClears_eq (l : List Pend) (c : Core) :
    fpClears l c = l.foldl (fun k e => e.effs.foldl (fpClearEff e.who) k) c := rfl

/-- The effect is an MTC that clears flag `b`. -/
def clearsFlag (b : Nat) : Eff → Bool
  | .fpClear v => v.getLsbD b
  | _ => false

theorem fpstat_fpClearEff {b : Nat} (hb : b < 6) (c : Core) (x : Eff) :
    (fpClearEff .prim c x).p.fpstat.getLsbD b = (c.p.fpstat.getLsbD b && !clearsFlag b x) := by
  cases x with
  | fpClear v => simp [fpClearEff, clearFlags, clearsFlag, hb]
  | _ => exact (Bool.and_true _).symm

theorem fpstat_foldl_fpClearEff {b : Nat} (hb : b < 6) (effs : List Eff) (c : Core) :
    (effs.foldl (fpClearEff .prim) c).p.fpstat.getLsbD b = (c.p.fpstat.getLsbD b && !effs.any (clearsFlag b)) := by
  induction effs generalizing c with
  | nil => simp
  | cons x effs ih => rw [List.foldl_cons, ih, fpstat_fpClearEff hb, List.any_cons, Bool.not_or, Bool.and_assoc]

theorem fpstat_fpClears {b : Nat} (hb : b < 6) (l : List Pend) (c : Core) (hl : ∀ e ∈ l, e.who = .prim) :
    (fpClears l c).p.fpstat.getLsbD b = (c.p.fpstat.getLsbD b && !l.any fun e => e.effs.any (clearsFlag b)) := by
  rw [fpClears_eq]
  induction l generalizing c with
  | nil => simp
  | cons e l ih =>
    obtain ⟨he, hl⟩ := List.forall_mem_cons.mp hl
    rw [List.foldl_cons, ih _ hl, he, fpstat_foldl_fpClearEff hb, List.any_cons, Bool.not_or, Bool.and_assoc]

theorem fpSets_cons (e : Pend) (l : List Pend) (c : Core) :
    fpSets (e :: l) c = fpSets l (if gridOf e = [] then setFlags e.who e.fl c else c) := by
  unfold fpSets
  by_cases he : gridOf e = [] <;> simp [he]

theorem fpstat_fpSets {b : Nat} (l : List Pend) (c : Core) (hl : ∀ e ∈ l, e.who = .prim) :
    (fpSets l c).p.fpstat.getLsbD b =
      ((l.any fun e => (gridOf e).isEmpty && e.fl.getLsbD b) || c.p.fpstat.getLsbD b) := by
  induction l generalizing c with
  | nil => rfl
  | cons e l ih =>
    obtain ⟨he, hl⟩ := List.forall_mem_cons.mp hl
    rw [fpSets_cons, ih _ hl, List.any_cons]
    by_cases hg : gridOf e = []
    · have hbit : (setFlags .prim e.fl c).p.fpstat.getLsbD b = (c.p.fpstat.getLsbD b || e.fl.getLsbD b) :=
        BitVec.getLsbD_or
      rw [if_pos hg, he, hbit, hg, List.isEmpty_nil, Bool.true_and, Bool.or_comm (c.p.fpstat.getLsbD b), ← Bool.or_assoc,
        Bool.or_comm (List.any l _)]
    · rw [if_neg hg, List.isEmpty_eq_false_iff.mpr hg, Bool.false_and, Bool.false_or]

/-- A flag of the primary that stands stays. -/
theorem fpstat_fpSets_stays (l : List Pend) {c : Core} {b : Nat} (h : c.p.fpstat.getLsbD b = true) :
    (fpSets l c).p.fpstat.getLsbD b = true :=
  List.foldlRecOn (motive := fun k : Core => k.p.fpstat.getLsbD b = true) _ _ h
    fun _ hk (e : Pend) _ => fpstat_setFlags e.who e.fl hk

theorem fpstat_fpSets_of_mem {l : List Pend} {e : Pend} (c : Core) {b : Nat} (he : e ∈ l) (hwho : e.who = .prim)
    (hgrid : gridOf e = []) (hb : e.fl.getLsbD b = true) : (fpSets l c).p.fpstat.getLsbD b = true := by
  induction l generalizing c with
  | nil => cases he
  | cons f l ih =>
    rw [fpSets_cons]
    rcases List.mem_cons.mp he with rfl | he
    · rw [if_pos hgrid]
      refine fpstat_fpSets_stays l ?_
      simp [hwho, setFlags, hb]
    · exact ih _ he

/-! ### A result without a grid destination, through the landings of its cycle (R4, R328, R346) -/

theorem mem_insPend {e f : Pend} {l : List Pend} : e ∈ insPend f l ↔ e = f ∨ e ∈ l := by
  induction l with
  | nil => simp [insPend]
  | cons g l ih =>
    unfold insPend
    split
    · simp
    · simp [ih, or_left_comm]

theorem mem_sortPend {e : Pend} {l : List Pend} : e ∈ sortPend l ↔ e ∈ l := by
  have h (m : List Pend) : e ∈ l.foldl (fun m e => insPend e m) m ↔ e ∈ l ∨ e ∈ m := by
    induction l generalizing m with
    | nil => simp
    | cons f l ih => simp [ih, mem_insPend, or_assoc, or_left_comm]
  simpa [sortPend] using h []

/-- Only results of the tap unit wait for it. -/
theorem tap_of_mem_tapsHeld {c : Core} {l : List Pend} {e : Pend} (he : e ∈ tapsHeld c l) :
    e.effs.any isTap = true ∨ e.effs.any isTapFin = true := by
  revert he
  unfold tapsHeld
  refine List.foldlRecOn (motive := fun held => e ∈ held → e.effs.any isTap = true ∨ e.effs.any isTapFin = true) _ _
    nofun fun held hheld f _ => ?_
  split
  · next hf =>
    intro he
    rcases List.mem_append.mp he with he | he
    · exact hheld he
    · cases List.mem_singleton.mp he
      simp only [Bool.or_eq_true, Bool.and_eq_true] at hf
      tauto
  · exact hheld

/-- A result loses effects at most to later ones for the same distribution register. -/
theorem exists_mem_loseQ {l : List Pend} {e : Pend} (he : e ∈ l) :
    ∃ p : Eff → Bool, { e with effs := e.effs.filter p } ∈ loseQ l := by
  induction l with
  | nil => cases he
  | cons f l ih =>
    unfold loseQ
    rcases List.mem_cons.mp he with rfl | he
    · exact ⟨_, List.mem_cons_self⟩
    · obtain ⟨p, hp⟩ := ih he
      exact ⟨p, List.mem_cons_of_mem _ hp⟩

theorem gridOf_filter {e : Pend} (p : Eff → Bool) (h : gridOf e = []) : gridOf { e with effs := e.effs.filter p } = [] := by
  unfold gridOf at h ⊢
  rw [List.filterMap_eq_nil_iff] at h ⊢
  exact fun x hx => h x (List.mem_of_mem_filter hx)

theorem any_filter_eq_false {k q : Eff → Bool} {l : List Eff} (h : l.any k = false) : (l.filter q).any k = false := by
  rw [List.any_eq_false] at h ⊢
  exact fun x hx => h x (List.mem_of_mem_filter hx)

/-- An effect that is none of the tap unit's passes it. -/
theorem passTap_other (e : Pend) {x : Eff} (ht : isTap x = false) (hf : isTapFin x = false) (effs : List Eff) (fl : Flags)
    (c : Core) : passTap e ((effs, fl), c) x = ((effs ++ [x], fl), c) := by
  cases x with
  | tap => exact Bool.noConfusion ht
  | tapFin => exact Bool.noConfusion hf
  | _ => rfl

theorem foldl_passTap_other (e : Pend) (l : List Eff) (ht : l.any isTap = false) (hf : l.any isTapFin = false)
    (effs : List Eff) (fl : Flags) (c : Core) : l.foldl (passTap e) ((effs, fl), c) = ((effs ++ l, fl), c) := by
  induction l generalizing effs with
  | nil => simp
  | cons x l ih =>
    simp only [List.any_cons, Bool.or_eq_false_iff] at ht hf
    rw [List.foldl_cons, passTap_other e ht.1 hf.1, ih ht.2 hf.2, List.append_assoc, List.singleton_append]

/-- One result through the tap unit. -/
def passOne (r : List Pend × Core) (e : Pend) : List Pend × Core :=
  let f := e.effs.foldl (passTap e) (([], e.fl), r.2)
  (r.1 ++ [{ e with effs := f.1.1, fl := f.1.2 }], f.2)

theorem passTaps_eq (l : List Pend) (c : Core) : passTaps l c = l.foldl passOne ([], c) := rfl

theorem passOne_other {e : Pend} (ht : e.effs.any isTap = false) (hf : e.effs.any isTapFin = false)
    (r : List Pend × Core) : passOne r e = (r.1 ++ [e], r.2) := by
  rw [passOne, foldl_passTap_other e e.effs ht hf]
  rfl

/-- A result with no effect of the tap unit passes it. -/
theorem mem_passTaps {l : List Pend} {e : Pend} (c : Core) (he : e ∈ l) (ht : e.effs.any isTap = false)
    (hf : e.effs.any isTapFin = false) : e ∈ (passTaps l c).1 := by
  have hstays (l : List Pend) (r : List Pend × Core) (hr : e ∈ r.1) : e ∈ (l.foldl passOne r).1 :=
    List.foldlRecOn (motive := fun r : List Pend × Core => e ∈ r.1) l passOne hr fun _ h _ _ => List.mem_append_left _ h
  rw [passTaps_eq]
  generalize ([], c) = r
  induction l generalizing r with
  | nil => cases he
  | cons f l ih =>
    rw [List.foldl_cons]
    rcases List.mem_cons.mp he with rfl | he
    · refine hstays l _ ?_
      rw [passOne_other ht hf]
      exact List.mem_append_right _ (List.mem_singleton_self e)
    · exact ih he _

theorem p_landMem (who : Ctx) (ord a : Nat) (v : Vec) (m : Word) (c : Core) :
    (landMem who ord a v m c).p = c.p := by
  cases who with
  | gate => exact List.foldlRecOn (motive := fun k : Core => k.p = c.p) _ _ rfl fun _ hk _ _ => hk
  | _ => rfl

theorem p_landList (prim : Bool) (l : Nat) (op : ListOp) (c : Core) : (landList prim l op c).p = c.p := by
  unfold landList
  extract_lets
  split <;> rfl

theorem p_mbClear (m : Nat) (c : Core) : (mbClear m c).p = c.p := by
  unfold mbClear
  split <;> rfl

theorem fpstat_withQstat (c : Core) (q : Word) : ({ c with p := { c.p with qstat := q } } : Core).p.fpstat = c.p.fpstat :=
  rfl

/-- Effects that land leave FPSTAT, which is set before. -/
theorem fpstat_landEff (e : Pend) (c : Core) (x : Eff) : (landEff e c x).p.fpstat = c.p.fpstat := by
  cases x with
  | sreg | preg | xreg | lpop | gram | mask | trap | xback =>
    unfold landEff
    dsimp only
    split <;> rfl
  | vec d v m =>
    cases d with
    | mem a => exact congrArg Prim.fpstat (p_landMem ..)
    | _ => rfl
  | list l op => exact congrArg Prim.fpstat (p_landList ..)
  | take m => exact congrArg Prim.fpstat (p_mbClear m c)
  | handle h pr n =>
    unfold landEff
    dsimp only
    split <;> rfl
  | mcFill key row v miss =>
    unfold landEff
    dsimp only
    split
    · rfl
    · split <;> rfl
  | qnote n =>
    rw [landEff_qnote]
    split
    · rfl
    · exact fpstat_withQstat c _
  | kstat nan held em bt => rw [landEff_kstat]
  | _ => rfl

theorem fpstat_foldl_landEff (l : List Pend) (c : Core) :
    (l.foldl (fun k e => e.effs.foldl (landEff e) k) c).p.fpstat = c.p.fpstat :=
  List.foldlRecOn (motive := fun k : Core => k.p.fpstat = c.p.fpstat) _ _ rfl fun _ hk (e : Pend) _ =>
    List.foldlRecOn (motive := fun k : Core => k.p.fpstat = c.p.fpstat) _ _ hk fun _ hk' x _ =>
      (fpstat_landEff e _ x).trans hk'

theorem fpstat_landGroupGrid (g : Group) {c : Core} {b : Nat} (h : c.p.fpstat.getLsbD b = true) :
    (landGroupGrid c g).p.fpstat.getLsbD b = true := fpstat_setFlags g.who g.fl h

theorem fpstat_gridCycle {c : Core} {b : Nat} (h : c.p.fpstat.getLsbD b = true) :
    (gridCycle c).p.fpstat.getLsbD b = true := by
  have hfold (l : List Group) {c : Core} (h : c.p.fpstat.getLsbD b = true) :
      (l.foldl landGroupGrid c).p.fpstat.getLsbD b = true :=
    List.foldlRecOn (motive := fun k : Core => k.p.fpstat.getLsbD b = true) _ _ h fun _ hk g _ => fpstat_landGroupGrid g hk
  exact hfold _ (hfold _ h)

/-- The flags of a result of the primary without a grid destination stand at the end of the cycle in which it lands. -/
theorem fpstat_landAll {c : Core} {e : Pend} {b : Nat} (he : e ∈ c.p.pend) (hrem : e.rem ≤ 1) (hwho : e.who = .prim)
    (hgrid : gridOf e = []) (hb : e.fl.getLsbD b = true) (ht : e.effs.any isTap = false)
    (hf : e.effs.any isTapFin = false) : (landAll true c).p.fpstat.getLsbD b = true := by
  unfold landAll
  extract_lets due held pl0 ps hl p0 c0 pt pl c2 c3 hg pg p3 c4
  have hdue : e ∈ due := mem_sortPend.mpr (List.mem_filter.mpr ⟨he, decide_eq_true hrem⟩)
  have hheld : e ∉ held := fun h => by
    rcases tap_of_mem_tapsHeld h with h | h
    · exact Bool.noConfusion (ht.symm.trans h)
    · exact Bool.noConfusion (hf.symm.trans h)
  have hgoes : e ∈ due.filter fun e => !held.contains e := List.mem_filter.mpr ⟨hdue, by simp [hheld]⟩
  obtain ⟨q, hq⟩ := exists_mem_loseQ hgoes
  have hpl : { e with effs := e.effs.filter q } ∈ pl :=
    mem_passTaps _ hq (any_filter_eq_false ht) (any_filter_eq_false hf)
  have h2 : c2.p.fpstat.getLsbD b = true :=
    fpstat_fpSets_of_mem _ (List.mem_append_right hl hpl) hwho (gridOf_filter q hgrid) hb
  have h3 : c3.p.fpstat = c2.p.fpstat := fpstat_foldl_landEff ..
  have h4 : c4.p.fpstat = c3.p.fpstat := by
    dsimp only [c4]
    split <;> rfl
  exact fpstat_gridCycle (by rw [h4, h3, h2])

end Sys2Proof.Machine

namespace Sys2Proof.Proofs

open Sys2Proof Sys2Proof.Machine

/-- Settles O42, clause by clause: registers, grid, groups, and the flags of a cycle. -/
theorem resultsLand : Obligations.ResultsLand := by
  refine ⟨fun e c fo r k v hfo => rdS_landEff_sreg e c hfo r k v, fun e c fo r k v hfo => rdA_landEff_areg e c hfo r k v,
    lc_landEff_lcnt, rdP_landEff_preg, fun e c fo h r k v hfo hh hown => rdS_landEff_xreg e hfo hh hown r k v,
    fun e c h r k v hk => helper_landEff_xreg_other e c hk r v, fun fo c => ⟨rdS_zero fo c, rdP_zero c⟩, ?_,
    landGroupGrid_append, ?_, ?_, fun c e b he hrem hwho hgrid hb ht hf => fpstat_landAll he hrem hwho hgrid hb ht hf⟩
  · exact fun c who g v m left fl ns => ⟨fun i hi => rdGrid_landGroupGrid c who g.toNat v m left fl ns hi,
      fun k hk => grid_landGroupGrid_other c who g.toNat v m left fl ns hk⟩
  · intro c w left fl ns h hh
    refine ⟨rfl, rfl, rfl, ?_, rfl, fun k hk => ?_⟩
    · rw [helper_landGroupGrid_helper, if_pos ⟨rfl, hh⟩]
    · rw [helper_landGroupGrid_helper, if_neg fun h => hk h.1]
  · intro c l b hb hl
    rw [fpstat_fpSets l _ hl, fpstat_fpClears hb l c hl]
    rfl

end Sys2Proof.Proofs
end

end

section
/- As above, the proofs are elaborated one after the other, for the sake of the check's memory. -/
set_option deprecated.oldSectionVars true

section
/-! PROOFS. The cluster window (R14, R64, R16, R357): the checks of its addresses, and what XLD and XST do at one that
passes them (O15). -/

namespace Sys2Proof.Machine

/-! ### Operations on the focus's core -/

/-- An operation that changes the core of its focus alone does what it makes of that core. -/
theorem doesWhen_of_onCore {i : Instr} {P : Focus → Core → Prop} {f g : Focus → Core → Core}
    (hexec : ∀ s, exec i s = onCore i f s) (hf : ∀ fo c, P fo c → f fo c = g fo c) : DoesWhen i P g :=
  fun s c hready hP => by rw [hexec, Laws.onCore_ready hready, hf _ _ hP]

/-! ### The address checks (R16, R357) -/

theorem bit_iff (v i : Nat) : bit v i = true ↔ v / 2 ^ i % 2 = 1 := decide_eq_true_iff

theorem bit_eq_false_iff (v i : Nat) : bit v i = false ↔ v / 2 ^ i % 2 = 0 := by
  rw [← Bool.not_eq_true, bit_iff, Nat.mod_two_not_eq_one]

theorem meetsFence_iff {f a n : Nat} (hn : 0 < n) : meetsFence f a n = true ↔
    ∃ b, b < 3 ∧ f / 2 ^ b % 2 = 1 ∧ a / 0x80000 ≤ b ∧ b ≤ (a + n - 1) / 0x80000 := by
  simp only [meetsFence, List.any_eq_true, List.mem_range, Bool.and_eq_true, bit_iff, decide_eq_true_eq]
  exact exists_congr fun b => and_congr_right fun _ => and_congr_right fun _ => and_iff_right hn.ne'

/-- An address is one of the window when its bits 31..24 are 1. -/
theorem isWindow_iff {a : Nat} (ha : a < 2 ^ 32) : bits a 31 25 = 0 ∧ bit a 24 = true ↔ a / 2 ^ 24 = 1 := by
  rw [bit_iff, bits]
  omega

theorem windowOf_eq (a : Nat) : windowOf a = (a / 2 ^ 21 % 8, a % 2 ^ 21) := by
  simp [windowOf, bits]

theorem windowTrap_of_misaligned (c : Core) {a n : Nat} (h : a % n ≠ 0) : windowTrap c a n = some (0x11, a) := if_pos h

/-- What an aligned address traps: the window's end, the core it names, the end of that core's storage and its fences. -/
theorem windowTrap_of_aligned (c : Core) {a n : Nat} (ha : a < 2 ^ 32) (h : a % n = 0) :
    windowTrap c a n =
      if a / 2 ^ 24 ≠ 1 ∨ 4 < a / 2 ^ 21 % 8 ∨ 0x180000 < a % 2 ^ 21 + n ∨
        meetsFence (c.winFence.getD (a / 2 ^ 21 % 8) 0) (a % 2 ^ 21) n = true then some (0x10, a) else none := by
  have hw := isWindow_iff ha
  rw [windowTrap, if_neg (not_not_intro h), windowOf_eq]
  refine if_congr ?_ rfl rfl
  simp only [Bool.or_eq_true, decide_eq_true_eq, Bool.not_eq_true', ← Bool.not_eq_true, ne_eq, ← hw]
  tauto

theorem windowTrap_of_outside (c : Core) {a n : Nat} (ha : a < 2 ^ 32) (h : a % n = 0)
    (hout : a / 2 ^ 24 ≠ 1 ∨ 4 < a / 2 ^ 21 % 8 ∨ 0x180000 < a % 2 ^ 21 + n) : windowTrap c a n = some (0x10, a) := by
  rw [windowTrap_of_aligned c ha h, if_pos]
  tauto

theorem windowTrap_of_fenced (c : Core) {a n : Nat} (ha : a < 2 ^ 32) (h : a % n = 0)
    (hf : meetsFence (c.winFence.getD (a / 2 ^ 21 % 8) 0) (a % 2 ^ 21) n = true) : windowTrap c a n = some (0x10, a) := by
  rw [windowTrap_of_aligned c ha h, if_pos (Or.inr (Or.inr (Or.inr hf)))]

theorem windowTrap_of_clear (c : Core) {a n : Nat} (ha : a < 2 ^ 32) (h : a % n = 0) (hw : a / 2 ^ 24 = 1)
    (hk : a / 2 ^ 21 % 8 ≤ 4) (he : a % 2 ^ 21 + n ≤ 0x180000)
    (hf : meetsFence (c.winFence.getD (a / 2 ^ 21 % 8) 0) (a % 2 ^ 21) n = false) : windowTrap c a n = none := by
  rw [windowTrap_of_aligned c ha h, if_neg]
  rintro (hne | hgt | hend | hmeets)
  · exact hne hw
  · omega
  · omega
  · exact Bool.false_ne_true (hf.symm.trans hmeets)

/-! ### XLD and XST (R64, R115) -/

theorem opXld_trap {i : Instr} {x : BitVec 6} {w : Nat} {im : BitVec 10} {fo : Focus} {c : Core} {k v : Nat}
    (h : windowTrap c (localAddr fo c x w im) (2 ^ w) = some (k, v)) :
    opXld i x w im fo c = takeTrap fo k (wN v) c := by
  simp only [opXld, widthOf, h, wN]

theorem opXld_pass {i : Instr} {x : BitVec 6} {w : Nat} {im : BitVec 10} {fo : Focus} {c : Core}
    (h : windowTrap c (localAddr fo c x w im) (2 ^ w) = none) :
    opXld i x w im fo c = addFlight { mkFlight i fo c [] 24 with delay := 24, stage := 9 }
      (sendOut fo (.xld (siblingOf c.num (localAddr fo c x w im / 2 ^ 21 % 8)) (localAddr fo c x w im % 2 ^ 21) (2 ^ w)
        (seekOf fo c)) c) := by
  simp only [opXld, widthOf, h, windowOf_eq]

theorem opXst_trap {d x : BitVec 6} {w : Nat} {im : BitVec 10} {fo : Focus} {c : Core} {k v : Nat}
    (h : windowTrap c (localAddr fo c x w im) (2 ^ w) = some (k, v)) :
    opXst d x w im fo c = takeTrap fo k (wN v) c := by
  simp only [opXst, widthOf, h, wN]

theorem opXst_prim {d x : BitVec 6} {w : Nat} {im : BitVec 10} {fo : Focus} {c : Core}
    (h : windowTrap c (localAddr fo c x w im) (2 ^ w) = none) (hfo : ofPrim fo)
    (hfits : fits c (.xst (localAddr fo c x w im) (leBytes (2 ^ w) (rdS fo c d.toNat).toNat)) = true) :
    opXst d x w im fo c =
      withholdNow fo (.xst (localAddr fo c x w im) (leBytes (2 ^ w) (rdS fo c d.toNat).toNat)) c := by
  have hctx : fo.ctx = .prim := hfo
  simp only [opXst, widthOf, h, emit, hctx, withhold, hfits, if_true]

theorem opXst_helper {d x : BitVec 6} {w : Nat} {im : BitVec 10} {fo : Focus} {c : Core} {h : Nat}
    (hpass : windowTrap c (localAddr fo c x w im) (2 ^ w) = none) (hfo : ofHelper fo h) :
    opXst d x w im fo c =
      (sendOut fo (.xst (localAddr fo c x w im) (leBytes (2 ^ w) (rdS fo c d.toNat).toNat)) c).setHelper h
        { c.helper h with xst := (c.helper h).xst + 1 } := by
  have hctx : fo.ctx = .helper h := hfo
  simp only [opXst, widthOf, hpass, emit, hctx]
  rfl

end Sys2Proof.Machine

namespace Sys2Proof.Proofs

open Sys2Proof Sys2Proof.Machine

/-- Settles O15: the operations by what an address that passes or traps makes of them, the checks by the conditions of an
aligned address. -/
theorem clusterWindow : Obligations.ClusterWindow := by
  refine ⟨fun d x w im => doesWhen_of_onCore (fun _ => rfl) fun fo c h => opXld_pass h,
    fun d x w im => doesWhen_of_onCore (fun _ => rfl) fun fo c ⟨hpass, hfo, hfits⟩ => opXst_prim hpass hfo hfits,
    fun d x w im h => doesWhen_of_onCore (fun _ => rfl) fun fo c ⟨hpass, hfo⟩ => opXst_helper hpass hfo,
    fun d x w im k v => doesWhen_of_onCore (fun _ => rfl) fun fo c h => opXld_trap h,
    fun d x w im k v => doesWhen_of_onCore (fun _ => rfl) fun fo c h => opXst_trap h, ?_⟩
  intro c a n hn ha
  have hfence := meetsFence_iff (f := c.winFence.getD (a / 2 ^ 21 % 8) 0) (a := a % 2 ^ 21) hn
  refine ⟨windowTrap_of_misaligned c, windowTrap_of_outside c ha, fun b hal hb hf hlo hhi => ?_,
    fun hal hw hk he hclear => ?_⟩
  · exact windowTrap_of_fenced c ha hal (hfence.2 ⟨b, hb, hf, hlo, hhi⟩)
  · refine windowTrap_of_clear c ha hal hw hk he (Bool.eq_false_iff.2 fun hmeets => ?_)
    obtain ⟨b, hb, hf, hlo, hhi⟩ := hfence.1 hmeets
    have := hclear b hb hlo hhi
    omega

end Sys2Proof.Proofs
end

section
/-! PROOFS. What accesses at the homes and the times of accesses leave (R168 to R174): all of the part but memory and L2, the
hub registers, and the numbers drawn and given out. -/

namespace Sys2Proof.Machine

/-- The state without what accesses at the homes and their times change. -/
def State.beyondHomes (s : State) : State :=
  { s with poison := [], regs := [], l2 := [], mem := [], l2evs := [], seq := 0, draws := 0, decode := [] }

theorem State.cores_of_beyondHomes {s t : State} (h : t.beyondHomes = s.beyondHomes) : t.cores = s.cores :=
  (congrArg State.cores h :)

theorem State.tick_of_beyondHomes {s t : State} (h : t.beyondHomes = s.beyondHomes) : t.tick = s.tick :=
  (congrArg State.tick h :)

theorem State.faults_of_beyondHomes {s t : State} (h : t.beyondHomes = s.beyondHomes) : t.faults = s.faults :=
  (congrArg State.faults h :)

theorem State.survPulses_of_beyondHomes {s t : State} (h : t.beyondHomes = s.beyondHomes) : t.survPulses = s.survPulses :=
  (congrArg State.survPulses h :)

section
variable (s : State)

/-! ### Accesses at the homes -/

theorem State.beyondHomes_writeBack (e : L2Line) : (s.writeBack e).beyondHomes = s.beyondHomes := by
  unfold State.writeBack
  split <;> rfl

theorem State.beyondHomes_l2Room (line : Nat) : (s.l2Room line).beyondHomes = s.beyondHomes := by
  unfold State.l2Room
  extract_lets
  split
  · rfl
  · split
    · rfl
    · exact s.beyondHomes_writeBack _

theorem State.beyondHomes_fillLine (coh line : Nat) : (s.fillLine coh line).2.beyondHomes = s.beyondHomes := by
  unfold State.fillLine
  extract_lets
  split
  · rfl
  · exact s.beyondHomes_l2Room line

theorem State.beyondHomes_homePut (coh pa : Nat) (data : List (Option Byte)) :
    (s.homePut coh pa data).beyondHomes = s.beyondHomes := by
  unfold State.homePut
  extract_lets t
  split
  · rfl
  · split
    · exact t.beyondHomes_fillLine coh (pa / 64)
    · rfl

theorem State.beyondHomes_homeWrite (coh pa k : Nat) (data : List (Option Byte)) :
    (s.homeWrite coh pa k data).beyondHomes = s.beyondHomes := by
  induction k generalizing s pa data with
  | zero => rfl
  | succ k ih =>
    unfold State.homeWrite
    extract_lets m t
    have ht : t.beyondHomes = s.beyondHomes := s.beyondHomes_homePut coh pa (data.take m)
    split
    · exact ht
    · exact (ih t (pa + m) (data.drop m)).trans ht

theorem State.beyondHomes_physWrite (pa : Nat) (bs : List Byte) : (s.physWrite pa bs).beyondHomes = s.beyondHomes :=
  s.beyondHomes_homeWrite 0 pa _ _

/-! ### Times (R170, R171) -/

theorem State.beyondHomes_missTime (pa : Nat) : (s.missTime pa).2.beyondHomes = s.beyondHomes := by
  unfold State.missTime
  split <;> rfl

theorem State.beyondHomes_decodeLine (ctl line : Nat) : (s.decodeLine ctl line).2.beyondHomes = s.beyondHomes := by
  unfold State.decodeLine
  split
  · rfl
  · exact State.beyondHomes_missTime _ _

theorem State.beyondHomes_decodeTime (pa : Nat) : (s.decodeTime pa).2.beyondHomes = s.beyondHomes := by
  unfold State.decodeTime
  split
  · rfl
  · extract_lets _ _ _ _ _ a b
    have ha : a.2.beyondHomes = s.beyondHomes := by
      dsimp only [a]
      split
      · exact s.beyondHomes_decodeLine _ _
      · rfl
    have hb : b.2.beyondHomes = a.2.beyondHomes := by
      dsimp only [b]
      split
      · exact a.2.beyondHomes_decodeLine _ _
      · rfl
    exact hb.trans ha

theorem State.beyondHomes_hitTime (num coh pa c t : Nat) : (s.hitTime num coh pa c t).2.beyondHomes = s.beyondHomes := by
  unfold State.hitTime
  extract_lets la die sl cl a n l h x own
  have hown : own.2.beyondHomes = s.beyondHomes := by
    dsimp only [own]
    split <;> rfl
  split
  · exact hown
  · split
    · split
      · split <;> rfl
      · split
        · split <;> rfl
        · rfl
    · rfl
    · split <;> rfl
    · rfl

theorem State.beyondHomes_timeFrom (num coh pa c t : Nat) : (s.timeFrom num coh pa c t).2.beyondHomes = s.beyondHomes := by
  unfold State.timeFrom
  extract_lets base m d
  have hbase : base.2.beyondHomes = s.beyondHomes := s.beyondHomes_hitTime num coh pa c t
  split
  · exact hbase
  · exact (m.2.beyondHomes_decodeTime pa).trans ((base.2.beyondHomes_missTime pa).trans hbase)

theorem State.beyondHomes_performTime (num pa T : Nat) : (s.performTime num pa T).2.beyondHomes = s.beyondHomes := by
  unfold State.performTime
  extract_lets
  split <;> rfl

/-- A request takes at most an injection cycle of its core. -/
theorem State.core_inject {num : Nat} {k : Core} (h : s.core num = some k) (c : Nat) :
    ∃ l, (s.inject num c).2.core num = some { k with injs := l } := by
  unfold State.inject
  simp only [h]
  split
  · exact ⟨_, Laws.core_setCore_same _ h⟩
  · exact ⟨k.injs, h⟩

theorem State.core_reqTimes {num : Nat} {k : Core} (h : s.core num = some k) (coh pa lat : Nat) :
    ∃ l, (s.reqTimes num coh pa lat).2.core num = some { k with injs := l } := by
  obtain ⟨l, hl⟩ := s.core_inject h (s.tick + lat)
  refine ⟨l, hl ▸ congrArg (lookCore · num) (State.cores_of_beyondHomes ?_)⟩
  exact (State.beyondHomes_performTime _ num pa _).trans (State.beyondHomes_timeFrom _ num coh pa _ _)

end

end Sys2Proof.Machine
end

section
/-! PROOFS. Writes of hub registers and the services behind them (O58). -/

namespace Sys2Proof.Machine

/-! ### Fields of doublewords -/

theorem bit_eq_testBit (v i : Nat) : bit v i = v.testBit i := (Nat.testBit_eq_decide_div_mod_eq).symm

theorem bits_top {v lo : Nat} (hlo : lo ≤ 63) (hv : v < 2 ^ 64) : bits v 63 lo = v / 2 ^ lo := by
  refine Nat.mod_eq_of_lt (Nat.div_lt_of_lt_mul ?_)
  rwa [← pow_add, Nat.add_sub_cancel' (by omega)]

/-- The top bit of a register set. -/
theorem State.fld_setFld_top (s : State) (off v : Nat) : (s.setFld off 63 63 v).fld off 63 63 = v % 2 := by
  refine Laws.fld_setFld s off 63 63 v le_rfl ?_
  have := Laws.reg_lt s off
  simp only [setBits, bits]
  omega

/-! ### The register block and format windows (R7, R21, R203) -/

section
variable (s : State)

theorem State.regWrite_offBoundary {off : Nat} (h : off % 8 ≠ 0) (v : Nat) : s.regWrite off v = s := if_pos h

theorem State.regWrite_plain {off v : Nat} (h : off % 8 = 0) (hlow : off < 0x2000) (hnone : s.hubLow off v = none) :
    s.regWrite off v = s.putFields off (rwMask off) v := by
  have hwin : ¬(0x4000 ≤ off ∧ off < 0x5000) := by omega
  simp only [State.regWrite, if_neg hwin, if_neg (not_not_intro h), if_pos hlow, hnone]

theorem State.fwCtl_disabled (w : Nat) {v : Nat} (hv : v < 2 ^ 64) (h : bit v 63 = false) :
    s.fwCtl w v = (s.startFills.setReg (fwReg w 0) (v / 2 ^ 58 * 2 ^ 58 + v / 2 ^ 12 % 2 ^ 40 * 2 ^ 12)).setFld
      (fwReg w 5) 63 63 0 := by
  simp only [State.fwCtl, h, Bool.false_and, bits_top (lo := 58) (by omega) hv]
  rfl

/-! ### Legend, survey and shadow counters (R342, R427, R431) -/

theorem State.legWrite_beyond {v : Word} (h : s.fld 0x1380 2 0 * 2 ^ 30 < s.fld 0x1388 31 3 * 8 + 8) :
    s.legWrite v = s.legNext := by
  rw [State.legWrite, if_neg (Nat.not_le_of_lt h)]

theorem State.legWrite_within {v : Word} (h : s.fld 0x1388 31 3 * 8 + 8 ≤ s.fld 0x1380 2 0 * 2 ^ 30) :
    s.legWrite v =
      (s.physWrite (s.chip * 2 ^ 45 + s.carveLo + s.fld 0x1388 31 3 * 8) (leBytes 8 v.toNat)).legNext := by
  rw [State.legWrite, if_pos h]

theorem State.beyondHomes_ringWrite (base size off : Nat) (d : List Byte) :
    (s.ringWrite base size off d).beyondHomes = s.beyondHomes :=
  (State.beyondHomes_physWrite _ _ _).trans (s.beyondHomes_physWrite _ _)

theorem State.beyondHomes_countMod (off hi lo n : Nat) : (s.countMod off hi lo n).beyondHomes = s.beyondHomes := rfl

theorem State.beyondHomes_surveyStack (st : Nat) : (s.surveyStack st).beyondHomes = s.beyondHomes := by
  unfold State.surveyStack
  extract_lets
  split
  · exact (State.beyondHomes_countMod _ _ _ _ _).trans (s.beyondHomes_ringWrite _ _ _ _)
  · rfl

/-- A survey pulse is counted; for the rest it writes into its rings. -/
theorem State.beyondHomes_surveyPulse :
    s.surveyPulse.beyondHomes = ({ s with survPulses := s.survPulses + 1 } : State).beyondHomes :=
  List.foldlRecOn (motive := fun t : State => t.beyondHomes = ({ s with survPulses := s.survPulses + 1 } : State).beyondHomes)
    _ _ rfl fun t ht st _ => (t.beyondHomes_surveyStack st).trans ht

theorem State.surveyPulse_counts :
    s.surveyPulse.survPulses = s.survPulses + 1 ∧ s.surveyPulse.cores = s.cores ∧ s.surveyPulse.tick = s.tick :=
  have h := s.beyondHomes_surveyPulse
  ⟨(State.survPulses_of_beyondHomes h :), (State.cores_of_beyondHomes h :), (State.tick_of_beyondHomes h :)⟩

theorem State.shtrig_close {v : Nat} (h : v < s.tick + 4096) : s.shtrig v = s := if_neg (Nat.not_le_of_lt h)

theorem State.shtrig_locked {v : Nat} (h : s.tick + 4096 ≤ v) (hl : s.locked = true) :
    s.shtrig v = ((s.setReg 0x8100 v).setFld 0x8108 63 63 1).later v 0 .shadowTrigger := (if_pos h).trans (if_pos hl)

theorem State.shtrig_unlocked {v : Nat} (h : s.tick + 4096 ≤ v) (hl : s.locked = false) :
    s.shtrig v = s.setReg 0x8100 v := (if_pos h).trans (if_neg (ne_true_of_eq_false hl))

theorem lookCore_map (f : Nat → Core → Core) (l : List (Nat × Core)) (n : Nat) :
    lookCore (l.map fun e => (e.1, f e.1 e.2)) n = (lookCore l n).map (f n) := by
  induction l with
  | nil => rfl
  | cons e l ih =>
    by_cases h : e.1 = n
    · simp [lookCore, h]
    · simp [lookCore, h, ih]

theorem State.core_mapCores (f : Nat → Core → Core) (n : Nat) : (s.mapCores f).core n = (s.core n).map (f n) :=
  lookCore_map f s.cores n

theorem State.cores_foldl {α : Type} {f : State → α → State} (hf : ∀ t a, (f t a).cores = t.cores) (l : List α) :
    (l.foldl f s).cores = s.cores :=
  List.foldlRecOn (motive := fun t : State => t.cores = s.cores) l f rfl fun t ht a _ => (hf t a).trans ht

theorem State.cores_shadowTrigger : s.shadowTrigger.cores = (s.mapCores fun _ c => { c with shcnt := c.cnt }).cores := by
  unfold State.shadowTrigger
  extract_lets s1 s2 left
  have h2 : s2.cores = s1.cores := by
    refine State.cores_foldl s1 (fun t cl => ?_) (List.range 96)
    exact t.cores_foldl (fun u i => Laws.setReg_cores u _ _) (List.range 16)
  rw [Laws.countMod_cores, Laws.setFld_cores, h2]

/-- Every counter of every core stands in its shadow and stays as it is. -/
theorem State.core_shadowTrigger (n : Nat) :
    s.shadowTrigger.core n = (s.core n).map fun c => { c with shcnt := c.cnt } := by
  rw [State.core, s.cores_shadowTrigger]
  exact s.core_mapCores _ n

/-! ### Attestation and heartbeat (R440, R443) -/

theorem State.attReq_busy {v : Nat} (h : s.timers.any (fun e => e.2.2 = .attestationReport) = true) :
    s.attReq v = s := if_pos h

theorem State.attReq_starts {v : Nat} (h : s.timers.any (fun e => e.2.2 = .attestationReport) = false) :
    (s.attReq v).fld 0x188 63 63 = 0 ∧ (s.attReq v).reg 0x180 = v / 2 ^ 12 % 2 ^ 40 * 2 ^ 12 := by
  have hregs : (s.attReq v).regs = ((s.setReg 0x180 (bits v 51 12 * 4096)).setFld 0x188 63 63 0).regs := by
    rw [State.attReq, if_neg (ne_true_of_eq_false h)]
    rfl
  have hreg (off : Nat) : (s.attReq v).reg off = ((s.setReg 0x180 (bits v 51 12 * 4096)).setFld 0x188 63 63 0).reg off := by
    rw [State.reg, hregs]
    rfl
  constructor
  · rw [State.fld, hreg]
    exact State.fld_setFld_top _ 0x188 0
  · rw [hreg, Laws.reg_setFld_other _ _ _ _ _ _ (by decide), Laws.reg_setReg, if_pos rfl, bits]
    omega

theorem State.beat_toHost (h : isHost (s.reg 0x108) = true) :
    s.beat = s.homeWrite 2 (s.reg 0x108) 2 ((leBytes 8 s.frames).map some) := if_pos h

theorem State.beat_elsewhere (h : isHost (s.reg 0x108) = false) : s.beat = s := if_neg (ne_true_of_eq_false h)

/-! ### Streams (R438, R439) -/

theorem State.pollStream_idle {m : Nat} (h : s.hasPacket m = false ∨ s.bootFail = true) : s.pollStream m = s := by
  refine if_neg ?_
  obtain h | h := h <;> simp [h]

theorem State.pollStream_packet {m : Nat} (h : s.hasPacket m = true) (hb : s.bootFail = false) :
    s.pollStream m =
      let d := (s.packetAt m).2.drawIn 0 469
      let ev := packetEvent (((s.packetAt m).1.getD 0 0).toNat / 2 ^ 60)
      if d.1 = 0 then d.2.soon m [ev] else d.2.later (s.tick + d.1) m ev := by
  simp only [State.pollStream, h, hb, Bool.not_false, Bool.and_self, if_true,
    bits_top (lo := 60) (by omega) (BitVec.isLt _)]

theorem State.enableStream_bootFail {m v : Nat} (h : s.bootFail = true) : s.enableStream m v = s := if_pos h

theorem State.enableStream_fits {m v : Nat} (hb : s.bootFail = false)
    (h : slotChoice (s.strFields m v).slots ((s.strFields m v).fld (strReg m 8) 46 41) ≠ none) :
    s.enableStream m v = (s.strFields m v).placeSlots m :=
  (if_neg (ne_true_of_eq_false hb)).trans (if_pos (Option.isSome_iff_ne_none.2 h))

theorem State.enableStream_refused {m v : Nat} (hb : s.bootFail = false)
    (h : slotChoice (s.strFields m v).slots ((s.strFields m v).fld (strReg m 8) 46 41) = none) :
    s.enableStream m v = s.setFld (strReg m 0x28) 15 8 0x0E :=
  (if_neg (ne_true_of_eq_false hb)).trans (if_neg (by rw [h]; exact Bool.false_ne_true))

theorem State.disableStream_bootFail {m v : Nat} (h : s.bootFail = true) : s.disableStream m v = s := if_pos h

theorem State.disableStream_eq {m v : Nat} (h : s.bootFail = false) :
    s.disableStream m v = { s.strFields m v with
      freeing := (s.strFields m v).freeing ++ (s.strFields m v).heldSlots m } := if_neg (ne_true_of_eq_false h)

end

end Sys2Proof.Machine

namespace Sys2Proof.Proofs

open Sys2Proof Sys2Proof.Machine

/-- An event answers the state that its operation of the part gives. -/
theorem next_congr {s t : State} (h : s = t) : (Host.Outcome.next s : Out) = .next t := congrArg _ h

/-- Settles O58, clause by clause: each event by what its operation of the part makes of the state. -/
theorem hubRegisterEvents : Obligations.HubRegisterEvents := by
  refine ⟨?offBoundary, ?plain, ?window, fun _ => rfl, ?legendBeyond, ?legendWithin, fun _ _ => rfl, ?survey, ?shadowClose,
    ?shadowAhead, ?shadow, ?attestBusy, ?attestStarts, ?attested, ?beatElsewhere, ?beatToHost, ?frame, ?streamIdle,
    ?streamPacket, ?recovery, ?streamSlots⟩
  case offBoundary => exact fun s off v h => next_congr (s.regWrite_offBoundary h _)
  case plain => exact fun s off v h hlow hnone => next_congr (s.regWrite_plain h hlow hnone)
  case window => exact fun s w v h => next_congr (s.fwCtl_disabled w v.isLt ((bit_eq_testBit _ _).trans h))
  case legendBeyond => exact fun s v h => next_congr (s.legWrite_beyond h)
  case legendWithin => exact fun s v h => next_congr (s.legWrite_within h)
  case survey => exact fun s => ⟨_, rfl, s.surveyPulse_counts⟩
  case shadowClose => exact fun s v h => next_congr (s.shtrig_close h)
  case shadowAhead =>
    exact fun s v h => ⟨fun hl => next_congr (s.shtrig_locked h hl), fun hl => next_congr (s.shtrig_unlocked h hl)⟩
  case shadow =>
    refine fun s => ⟨_, rfl, fun n => ?_⟩
    rw [s.core_shadowTrigger, Option.map_map]
    rfl
  case attestBusy => exact fun s v h => next_congr (s.attReq_busy h)
  case attestStarts => exact fun s v h => ⟨_, rfl, s.attReq_starts h⟩
  case attested => exact fun s => ⟨_, rfl, State.fld_setFld_top _ 0x188 1⟩
  case beatElsewhere => exact fun s h => next_congr (s.beat_elsewhere h)
  case beatToHost => exact fun s h => next_congr (s.beat_toHost h)
  case frame => exact fun _ => ⟨_, rfl, rfl, rfl, rfl, rfl⟩
  case streamIdle => exact fun s h => next_congr (s.pollStream_idle h)
  case streamPacket =>
    intro s h hb
    have hpoll := s.pollStream_packet h hb
    exact ⟨fun h0 => next_congr (hpoll.trans (if_pos h0)), fun h0 => next_congr (hpoll.trans (if_neg h0))⟩
  case recovery => exact fun s m v h => ⟨next_congr (s.enableStream_bootFail h), next_congr (s.disableStream_bootFail h)⟩
  case streamSlots =>
    intro s m v hb
    exact ⟨fun hfit => next_congr (s.enableStream_fits hb hfit), fun hfit => next_congr (s.enableStream_refused hb hfit),
      next_congr (s.disableStream_eq hb)⟩

end Sys2Proof.Proofs
end

section
/-! PROOFS. Global memory from request to home and back (O54): accesses at their homes, their returns, the store buffer, page
walks and their faults, invalidations (R32 to R43, R69, R122, R168 to R182). -/

namespace Sys2Proof.Machine

/-! ### Accesses at their homes (R168, R173, R123) -/

section
variable {s : State} {r : Req} {id : Nat}

theorem State.homeReadAt_performs (hr : s.reqs.find? (fun q => q.id = id) = some r) (hlook : r.look = false)
    (hgot : r.got = none) (hop : r.op = .read) (hw : s.windowWaits r = false) :
    s.homeReadAt id =
      let x := s.readAt r.core r.lctx (reqCoh r) (reqSpan r).1 (reqSpan r).2
      let bs := if byPath r && s.cached (reqCoh r) r.pa then underWrites (s.ownWrites r) (reqSpan r).1 x.1 else x.1
      ({ x.2.putReq id (fun q => { q with got := some bs, perf := x.2.seq + 1 }) with seq := x.2.seq + 1 } : State) := by
  simp [State.homeReadAt, hr, hlook, hgot, hop, hw]

theorem State.homeReadAt_waits (hr : s.reqs.find? (fun q => q.id = id) = some r) (hlook : r.look = false)
    (hgot : r.got = none) (hop : r.op = .read) (hw : s.windowWaits r = true) :
    s.homeReadAt id = s.putReq id (fun q => { q with home := 1 }) := by
  simp [State.homeReadAt, hr, hlook, hgot, hop, hw, State.nextCycleTry]

/-- Only an access of the register region waits for a gateway's port. -/
theorem State.windowWaits_memory (h : regionOf (localOf r.pa) ≠ .regs) : s.windowWaits r = false := by
  simp [State.windowWaits, h]

theorem State.homeWriteAt_helper {h : Nat} (hr : s.reqs.find? (fun q => q.id = id) = some r) (hlook : r.look = false)
    (hgot : r.got = none) (hop : r.op = .write) (hag : r.agent = .helper h) (hreg : regionOf (localOf r.pa) ≠ .regs) :
    s.homeWriteAt id = ((((s.passWrite r).homeWrite (reqCoh r) r.pa (r.data.length / 64 + 2) r.data).modCore r.core
      (hostWritten s r)).modCore r.core (fun c => reqOver r { c with gwOut := c.gwOut - 1 })).dropReq id := by
  have hpath : byPath r = true := by rw [byPath, hag]
  simp only [State.homeWriteAt, hr, hlook, hgot, hop, State.windowWaits_memory hreg, hag, hpath]
  cases hk : regionOf (localOf r.pa) with
  | regs => exact absurd hk hreg
  | hbm | ddr | host | none => rfl

theorem State.homeAtomicAt_performs {f : Nat} {x y : Word} (hr : s.reqs.find? (fun q => q.id = id) = some r)
    (hlook : r.look = false) (hgot : r.got = none) (hop : r.op = .atomic f x y) (hw : s.windowWaits r = false) :
    s.homeAtomicAt id =
      let a := s.atomicAt r f x y
      (a.2.modCore r.core (fun c => hostWritten s r { c with gwOut := c.gwOut - 1 })).putReq id (fun q =>
        { q with got := some (leBytes 8 a.1.toNat) }) := by
  simp [State.homeAtomicAt, hr, hlook, hgot, hop, hw]

/-- Without the request nothing is performed and nothing returns. -/
theorem State.noRequest (hr : s.reqs.find? (fun q => q.id = id) = none) :
    s.homeReadAt id = s ∧ s.homeWriteAt id = s ∧ s.homeAtomicAt id = s ∧ s.readReturn id = s := by
  simp only [State.homeReadAt, State.homeWriteAt, State.homeAtomicAt, State.readReturn, hr, and_self]

end

/-! ### Returns (R122, R171, R175) -/

section
variable {s : State} {r : Req} {id h : Nat} {c : Core} {bs : List Byte}

/-- What a helper's request comes to once its data is at the core. -/
def State.helperReturn (s : State) (r : Req) (id : Nat) (bs : List Byte) (asked : Bool) : State :=
  let mine := if r.fill then (bs.drop (r.pa % 64)).take r.len else bs
  let kept := asked && loadComes r
  let s1 := if kept then s.putReq id (valueReady mine 2) else s.dropReq id
  let s2 := if !r.fill then s1
    else if r.stale then s1.hcPass r.core r.lctx (r.pa / 64) r.perf
    else if storeFill r then (s1.hcInsert r.core r.lctx (r.pa / 64) r.perf bs).sbDrain r.core
    else s1.hcInsert r.core r.lctx (r.pa / 64) r.perf bs
  if asked && !kept then s2.valueBack r (BitVec.ofNat 64 (leNat mine)) else s2

theorem State.readReturn_helper (hr : s.reqs.find? (fun q => q.id = id) = some r) (hgot : r.got = some bs) (hret : r.ret = 0)
    (hag : r.agent = .helper h) (hc : s.core r.core = some c) (hfr : c.frozen = false) :
    s.readReturn id = s.helperReturn r id bs ((c.helper h).reqs.contains id) := by
  simp only [State.readReturn, hr, hgot, hret, hag, hc, hfr]
  rfl

theorem loadComes_helper (hag : r.agent = .helper h) : loadComes r = (decide (r.op = .read) && decide (r.mark = 0)) := by
  simp [loadComes, hag]

/-- The state in which a load's value is to return in two cycles. -/
def State.returning (s : State) (r : Req) (id : Nat) (bs : List Byte) : State :=
  s.putReq id (valueReady (if r.fill then (bs.drop (r.pa % 64)).take r.len else bs) 2)

section
variable (hag : r.agent = .helper h) (hop : r.op = .read) (hmark : r.mark = 0)
include hag hop hmark

theorem State.helperReturn_bypass (hfill : r.fill = false) : s.helperReturn r id bs true = s.returning r id bs := by
  simp [State.helperReturn, State.returning, loadComes_helper hag, hop, hmark, hfill]

theorem State.helperReturn_stale (hfill : r.fill = true) (hstale : r.stale = true) :
    s.helperReturn r id bs true = (s.returning r id bs).hcPass r.core r.lctx (r.pa / 64) r.perf := by
  simp [State.helperReturn, State.returning, loadComes_helper hag, hop, hmark, hfill, hstale]

theorem State.helperReturn_cached (hfill : r.fill = true) (hstale : r.stale = false) (hlen : r.len ≠ 64) :
    s.helperReturn r id bs true = (s.returning r id bs).hcInsert r.core r.lctx (r.pa / 64) r.perf bs := by
  simp [State.helperReturn, State.returning, loadComes_helper hag, storeFill, hop, hmark, hfill, hstale, hlen]

end

theorem State.helperReturn_value (hag : r.agent = .helper h) (hop : r.op ≠ .read ∨ r.mark ≠ 0) (hfill : r.fill = false) :
    s.helperReturn r id bs true = (s.dropReq id).valueBack r (wN (leNat bs)) := by
  have hcomes : loadComes r = false := by
    rw [loadComes_helper hag]
    obtain h | h := hop <;> simp [h]
  simp [State.helperReturn, hcomes, hfill, wN]

theorem State.helperReturn_storeFill (hfill : r.fill = true) (hstale : r.stale = false) (hlen : r.len = 64) :
    s.helperReturn r id bs false = ((s.dropReq id).hcInsert r.core r.lctx (r.pa / 64) r.perf bs).sbDrain r.core := by
  simp [State.helperReturn, storeFill, hfill, hstale, hlen]

end

/-! ### The helper cache (R68, R182) -/

section
variable {s : State} {c : Core} {n line : Nat}

theorem State.hcInsert_room (hc : s.core n = some c) (hfind : hcFind c line = none) (hvic : hcVictim c line = none)
    (x perf : Nat) (d : List Byte) :
    s.hcInsert n x line perf d =
      { s.setCore n { c with hc := c.hc ++ [⟨line, d, 0, s.seq, perf⟩] } with seq := s.seq + 1 } := by
  simp only [State.hcInsert, hc, hfind, hvic, Laws.modCore_some _ hc]

theorem State.hcInsert_older {e : CLine} (hc : s.core n = some c) (hfind : hcFind c line = some e) {perf : Nat}
    (hp : perf ≤ e.perf) (x : Nat) (d : List Byte) : s.hcInsert n x line perf d = s := by
  simp only [State.hcInsert, hc, hfind, if_neg (Nat.not_lt_of_le hp)]

theorem State.hcInsert_newer {e : CLine} (hc : s.core n = some c) (hfind : hcFind c line = some e) {perf : Nat}
    (hp : e.perf < perf) (x : Nat) (d : List Byte) :
    s.hcInsert n x line perf d = s.hcUse n line (fun k => { k with data := mergeLine d k.data k.dirty, perf := perf }) := by
  simp only [State.hcInsert, hc, hfind, if_pos hp]

theorem State.hcPass_older {e : CLine} (hc : s.core n = some c) (hfind : hcFind c line = some e) {perf : Nat}
    (hp : perf ≤ e.perf) (x : Nat) : s.hcPass n x line perf = s := by
  simp only [State.hcPass, hc, Option.bind_some, hfind, if_neg (Nat.not_lt_of_le hp)]

end

/-! ### Page walks and faults (R32 to R38) -/

section
variable {s : State}

theorem State.pageWalk_beyond {va : Nat} (h : 2 ^ 52 ≤ va) (a ctx : Nat) (w k : Bool) :
    s.pageWalk a ctx va w k = s.walkFault (walkAgent a).1 (walkAgent a).2 ctx va 0x05 7 w k := if_pos h

theorem State.pageWalk_read {s1 : State} {a ctx va : Nat} {x : Xl} (h : va < 2 ^ 52)
    (hw : s.walkFor (walkAgent a).1 (walkAgent a).2 ctx va .read = (.ok x, s1)) : s.pageWalk a ctx va false false = s1 := by
  have hva : ¬2 ^ 52 ≤ va := Nat.not_le_of_lt h
  simp only [State.pageWalk, if_neg hva, Bool.false_eq_true, if_false, hw]

section
variable {e : FaultE} {n : Nat}

theorem State.retryEntry_written (h : s.faults.find? (fun x => x.written && x.entry = n) = some e) :
    s.retryEntry n = ({ s with faults := s.faults.erase e } : State).resumeAgent e := by
  simp only [State.retryEntry, h]

theorem State.retryEntry_none (h : s.faults.find? (fun x => x.written && x.entry = n) = none) : s.retryEntry n = s := by
  simp only [State.retryEntry, h]

theorem State.abandonEntry_none (h : s.faults.find? (fun x => x.written && x.entry = n) = none) : s.abandonEntry n = s := by
  simp only [State.abandonEntry, h]

theorem State.abandonEntry_gateway (h : s.faults.find? (fun x => x.written && x.entry = n) = some e)
    (hag : e.agent = .gateway) : s.abandonEntry n =
      ({ s with faults := s.faults.erase e } : State).modCore e.core (fun c => { c with trapRec0 := 0 }) := by
  simp only [State.abandonEntry, h, hag]

theorem State.abandonEntry_hubAgent (h : s.faults.find? (fun x => x.written && x.entry = n) = some e)
    (hag : e.agent = .hubAgent) : s.abandonEntry n =
      { s with faults := s.faults.erase e, enc := s.enc.filter (fun j => !(j.running && j.sess / 8 = e.core - 512)) } := by
  simp only [State.abandonEntry, h, hag]

theorem State.modAgent_bound {code : Nat} {c : Core} (hcode : code < 0x10000) (hc : s.core code = some c) (f : Core → Core) :
    s.modAgent code f = s.setCore code (f c) := by
  rw [State.modAgent, if_pos hcode, Laws.modCore_some _ hc]

theorem State.abandonEntry_helper {k : Nat} {c : Core} (h : s.faults.find? (fun x => x.written && x.entry = n) = some e)
    (hag : e.agent = .helper k) (hcode : e.core < 0x10000) (hc : s.core e.core = some c) :
    s.abandonEntry n = ({ s with faults := s.faults.erase e } : State).setCore e.core (helperLeaves k c) := by
  have hc1 : ({ s with faults := s.faults.erase e } : State).core e.core = some c := hc
  simp only [State.abandonEntry, h, hag, State.modAgent_bound hcode hc1]

/-- A helper that leaves is free for all but its status; no other helper changes. -/
theorem helper_helperLeaves {k : Nat} {c : Core} (hk : k < c.helpers.length) :
    ((helperLeaves k c).helper k).st = .abandoned ∧ ((helperLeaves k c).helper k).cause = (c.helper k).cause ∧
      ∀ j, j ≠ k → (helperLeaves k c).helper j = c.helper j := by
  refine ⟨?_, ?_, fun j hj => ?_⟩
  · rw [helperLeaves, Laws.helper_setHelper, if_pos ⟨rfl, hk⟩]
  · rw [helperLeaves, Laws.helper_setHelper, if_pos ⟨rfl, hk⟩]
  · rw [helperLeaves, Laws.helper_setHelper, if_neg fun h => hj h.1]

theorem State.abandonEntry_engine {c : Core} {l : Launch} (h : s.faults.find? (fun x => x.written && x.entry = n) = some e)
    (hag : e.agent = .fill ∨ ∃ q, e.agent = .queue q) (hcode : e.core < 0x10000) (hc : s.core e.core = some c)
    (hl : s.launchOf c.launch = some l) :
    s.abandonEntry n = ({ s with faults := s.faults.erase e } : State).endLaunch l.id 4 0 := by
  have hlaunch : ({ s with faults := s.faults.erase e } : State).launchOf
      (({ s with faults := s.faults.erase e } : State).faultLaunch e.core) = some l := by
    have hcode' : ¬0x10000 ≤ e.core := Nat.not_le_of_lt hcode
    have hc1 : ({ s with faults := s.faults.erase e } : State).core e.core = some c := hc
    simp only [State.faultLaunch, if_neg hcode', hc1]
    exact hl
  obtain hag | ⟨q, hag⟩ := hag <;> simp only [State.abandonEntry, h, hag, hlaunch, if_pos hcode]

end

/-! #### Faults held while the queue is off or full (R36) -/

/-- The fault waits for room in the queue. -/
def FaultE.held (e : FaultE) : Bool := !e.written

theorem find?_held_eq_none {l : List FaultE} : l.find? FaultE.held = none ↔ ∀ e ∈ l, e.written = true := by
  simp [FaultE.held]

theorem State.faultsHeld_succ (s : State) (n : Nat) :
    s.faultsHeld (n + 1) =
      if bit (s.reg 0x1108) 63 && s.fqFree then
        match s.faults.find? FaultE.held with
        | some e => (({ s with faults := s.faults.erase e } : State).fqWrite e).faultsHeld n
        | none => s
      else s := rfl

theorem State.faultsHeld_off (h : bit (s.reg 0x1108) 63 = false) (n : Nat) : s.faultsHeld n = s := by
  cases n with
  | zero => rfl
  | succ n => rw [State.faultsHeld_succ, h, Bool.false_and, if_neg Bool.false_ne_true]

theorem State.faultsHeld_written (h : ∀ e ∈ s.faults, e.written = true) (n : Nat) : s.faultsHeld n = s := by
  cases n with
  | zero => rfl
  | succ n =>
    rw [State.faultsHeld_succ, find?_held_eq_none.2 h]
    exact ite_self s

/-- A record written into the ring is one fault more that stands written. -/
theorem State.faults_fqWrite (e : FaultE) : ∃ f : FaultE, (s.fqWrite e).faults = s.faults ++ [f] ∧ f.written = true := by
  refine ⟨{ e with entry := s.fld 0x1110 31 0, written := true }, ?_, rfl⟩
  unfold State.fqWrite
  extract_lets head at_ s1 s2 d
  have h1 : s1.faults = s.faults := State.faults_of_beyondHomes (s.beyondHomes_physWrite _ _)
  have h2 : s2.faults = s.faults ++ [{ e with entry := head, written := true }] := by
    rw [← h1]
    rfl
  split
  · exact h2
  · exact h2

/-- With a turn for each fault held, faults are recorded until the queue is off or full or none is held. -/
theorem State.faultsHeld_exhausts (n : Nat) (hn : s.faults.countP FaultE.held ≤ n) :
    bit ((s.faultsHeld n).reg 0x1108) 63 = false ∨ (s.faultsHeld n).fqFree = false ∨
      ∀ e ∈ (s.faultsHeld n).faults, e.written = true := by
  induction n generalizing s with
  | zero =>
    refine Or.inr (Or.inr fun e he => ?_)
    have hnot := List.countP_eq_zero.1 (Nat.le_zero.1 hn) e he
    simpa [FaultE.held] using hnot
  | succ n ih =>
    rw [State.faultsHeld_succ]
    by_cases hq : (bit (s.reg 0x1108) 63 && s.fqFree) = true
    · rw [if_pos hq]
      cases hf : s.faults.find? FaultE.held with
      | none => exact Or.inr (Or.inr (find?_held_eq_none.1 hf))
      | some e =>
        refine ih ?_
        obtain ⟨f, hfaults, hwr⟩ := State.faults_fqWrite (s := { s with faults := s.faults.erase e }) e
        have hcount := (List.perm_cons_erase (List.mem_of_find?_eq_some hf)).countP_eq FaultE.held
        rw [List.countP_cons_of_pos (List.find?_some hf)] at hcount
        have hf0 : [f].countP FaultE.held = 0 := by simp [FaultE.held, hwr]
        rw [hfaults, List.countP_append, hf0]
        exact Nat.le_of_succ_le_succ (hcount.symm.trans_le hn)
    · rw [if_neg hq]
      simp only [Bool.and_eq_true, not_and_or, Bool.not_eq_true] at hq
      exact hq.imp id Or.inl

theorem State.faultDeferred_one {e : FaultE} (hf : s.faults = [e]) (hw : e.written = false)
    (hon : bit (s.reg 0x1108) 63 = true) (hfree : s.fqFree = true) :
    s.faultDeferred = ({ s with faults := [] } : State).fqWrite e := by
  have hfind : s.faults.find? FaultE.held = some e := by simp [hf, FaultE.held, hw]
  have herase : s.faults.erase e = [] := by simp [hf]
  rw [State.faultDeferred, hf, List.length_singleton, State.faultsHeld_succ, hon, hfree, hfind]
  change ({ s with faults := s.faults.erase e } : State).fqWrite e = _
  rw [herase]

end

/-! ### The store buffer (R69, R175) -/

theorem putCore_putCore (l : List (Nat × Core)) (n : Nat) (c d : Core) : putCore (putCore l n c) n d = putCore l n d := by
  induction l with
  | nil => rfl
  | cons e l ih =>
    by_cases h : e.1 = n
    · simp [putCore, h]
    · simp [putCore, h, ih]

theorem State.setCore_setCore (s : State) (n : Nat) (c d : Core) : (s.setCore n c).setCore n d = s.setCore n d := by
  simp only [State.setCore, putCore_putCore]

section
variable {s : State} {n : Nat} {c : Core} {e : SbE} {p : SbP} {ps : List SbP} {l : List SbE}

theorem State.sbDrain_empty (hc : s.core n = some c) (hsb : c.sb = []) : s.sbDrain n = s := by
  simp only [State.sbDrain, hc, hsb]

/-- No store of the entry held, and all of one kind of page: all of them may drain. -/
theorem State.sbFree_all {b : Bool} (hall : ∀ q ∈ e.parts, s.sbHeld n c e.line q = false ∧ q.coh10 = b) :
    s.sbFree n c e = e.parts := by
  have hheld : e.parts.takeWhile (fun q => !s.sbHeld n c e.line q) = e.parts :=
    List.takeWhile_eq_self_iff.2 fun q hq => by simp [(hall q hq).1]
  have hhead : e.parts.takeWhile (fun q => some q.coh10 = e.parts.head?.map (·.coh10)) = e.parts := by
    cases hp : e.parts with
    | nil => rfl
    | cons p ps =>
      rw [hp] at hall
      exact List.takeWhile_eq_self_iff.2 fun q hq => by simp [(hall q hq).2, (hall p List.mem_cons_self).2]
  simp only [State.sbFree, hheld, decide_true, Bool.true_or, if_true, hhead]

theorem State.sbFree_frontHeld (hp : e.parts = p :: ps) (hheld : s.sbHeld n c e.line p = true) : s.sbFree n c e = [] := by
  simp [State.sbFree, hp, hheld]

theorem State.sbDrain_held (hc : s.core n = some c) (hsb : c.sb = e :: l) (hfree : s.sbFree n c e = []) :
    s.sbDrain n = s := by
  simp only [State.sbDrain, hc, hsb, hfree]

theorem sbLess_all (hsb : c.sb = e :: l) : sbLess e.parts.length c = { c with sb := l } := by
  simp only [sbLess, hsb, le_refl, if_true]

theorem State.modCore_sbLess (hc : s.core n = some c) (hsb : c.sb = e :: l) (hp : e.parts = p :: ps) :
    s.modCore n (sbLess (ps.length + 1)) = s.setCore n { c with sb := l } := by
  rw [Laws.modCore_some _ hc, ← sbLess_all hsb, hp, List.length_cons]

theorem State.sbDrain_bypass (hc : s.core n = some c) (hsb : c.sb = e :: l) (hp : e.parts = p :: ps)
    (hfree : s.sbFree n c e = e.parts) (hcoh : p.coh10 = true) :
    s.sbDrain n = (s.setCore n { c with sb := l }).lineWrite n p.h c.lctx 2 (64 * e.line) (sbBytes e.parts) false := by
  rw [hp] at hfree ⊢
  simp only [State.sbDrain, hc, hsb, hfree, hcoh, if_true, State.modCore_sbLess hc hsb hp]

theorem State.sbDrain_line {x : CLine} (hc : s.core n = some c) (hsb : c.sb = e :: l) (hne : e.parts ≠ [])
    (hfree : s.sbFree n c e = e.parts) (hcoh : ∀ q ∈ e.parts, q.coh10 = false) (hfind : hcFind c e.line = some x) :
    s.sbDrain n = { s.setCore n { c with sb := l, hc := c.hc.map (fun x => if x.line = e.line then
      { x with data := (sbSum e.parts (x.data, x.dirty)).1, dirty := (sbSum e.parts (x.data, x.dirty)).2, lru := s.seq }
      else x) } with seq := s.seq + 1 } := by
  obtain ⟨p, ps, hp⟩ := List.exists_cons_of_ne_nil hne
  have hp0 : p.coh10 = false := hcoh p (hp ▸ List.mem_cons_self)
  rw [hp] at hfree ⊢
  simp only [State.sbDrain, hc, hsb, hfree, hp0, hfind, Bool.false_eq_true, if_false, State.modCore_sbLess hc hsb hp,
    State.hcUse, Laws.modCore_some _ (Laws.core_setCore_same _ hc), State.setCore_setCore]
  rfl

theorem State.sbDrain_waits (hc : s.core n = some c) (hsb : c.sb = e :: l) (hp : e.parts = p :: ps)
    (hfree : s.sbFree n c e = e.parts) (hcoh : p.coh10 = false) (hfind : hcFind c e.line = none)
    (hout : fillOut s n e.line = true) : s.sbDrain n = s := by
  rw [hp] at hfree
  simp only [State.sbDrain, hc, hsb, hfree, hcoh, hfind, hout, Bool.false_eq_true, if_false, Bool.true_or, if_true]

/-- A line asked for: the miss is counted, the stores and the cache stay. -/
theorem State.core_sbDrain_asks (hc : s.core n = some c) (hsb : c.sb = e :: l) (hp : e.parts = p :: ps)
    (hfree : s.sbFree n c e = e.parts) (hcoh : p.coh10 = false) (hfind : hcFind c e.line = none)
    (hout : fillOut s n e.line = false) (hatom : s.atomPends n e.line = false) :
    ∃ d, (s.sbDrain n).core n = some d ∧ d.sb = c.sb ∧ d.hc = c.hc ∧ d.evs = c.evs ++ [(0x0E, p.h)] := by
  have hcore : (s.modCore n fun k => { k with evs := k.evs ++ [(0x0E, p.h)] }).core n =
      some { c with evs := c.evs ++ [(0x0E, p.h)] } := by
    rw [Laws.modCore_some _ hc]
    exact Laws.core_setCore_same _ hc
  obtain ⟨i, hi⟩ := State.core_reqTimes _ hcore 0 (64 * e.line) 0
  have hcores : (s.sbDrain n).cores =
      ((s.modCore n fun k => { k with evs := k.evs ++ [(0x0E, p.h)] }).reqTimes n 0 (64 * e.line) 0).2.cores := by
    rw [hp] at hfree
    simp only [State.sbDrain, hc, hsb, hfree, hcoh, hfind, hout, hatom, Bool.or_self, Bool.false_eq_true, if_false]
    rfl
  refine ⟨{ c with evs := c.evs ++ [(0x0E, p.h)], injs := i }, ?_, rfl, rfl, rfl⟩
  rw [State.core, hcores]
  exact hi

theorem sbSum_append (l : List SbP) (p : SbP) (x : List Byte × BitVec 64) :
    sbSum (l ++ [p]) x = (mergeLine (sbSum l x).1 p.data p.mask, (sbSum l x).2 ||| p.mask) := by
  simp only [sbSum, List.foldl_append, List.foldl_cons, List.foldl_nil]

end

/-! ### Invalidations (R40, R41) -/

section
variable {s : State} {w : Word} {l : List Word}

theorem State.tinv_tinvPush (h : s.tinv.length < 9) (w : Word) : (s.tinvPush w).tinv = s.tinv ++ [w] := by
  unfold State.tinvPush
  rw [if_pos h]
  extract_lets s1 r
  split <;> rfl

theorem State.tinvPush_full (h : 9 ≤ s.tinv.length) (w : Word) : s.tinvPush w = s := if_neg (Nat.not_lt_of_le h)

theorem State.tinvDone_none (h : s.tinv = []) : s.tinvDone = s := by
  simp only [State.tinvDone, h]

/-- The invalidation in front as it stands once it has been started or its lines have been flushed. -/
def State.tinvFront (s : State) (w : Word) : State :=
  match s.tinvRun with
  | none => s.tinvStart w
  | some x => s.framesFlush x.1

theorem State.tinvFront_starts (h : s.tinvRun = none) (w : Word) : s.tinvFront w = s.tinvStart w := by
  rw [State.tinvFront, h]

theorem State.tinvFront_runs {x : List (Nat × Nat) × Nat × Nat} (h : s.tinvRun = some x) (w : Word) :
    s.tinvFront w = s.framesFlush x.1 := by
  rw [State.tinvFront, h]

theorem State.tinvDone_over (hs : s.tinv = w :: l) (h : (s.tinvFront w).accessesUnder = false) :
    ∃ t, s.tinvDone = t ∧ t.tinv = l ∧ t.tinvRun = none := by
  unfold State.tinvDone
  split
  case h_1 hnil => exact absurd (hs.symm.trans hnil) (List.cons_ne_nil w l)
  case h_2 w' l' hcons =>
    obtain ⟨rfl, rfl⟩ := List.cons.inj (hs.symm.trans hcons)
    extract_lets s0 s1 r
    have h0 : s0.accessesUnder = false := h
    rw [if_neg (ne_true_of_eq_false h0)]
    cases l with
    | nil => exact ⟨_, rfl, rfl, rfl⟩
    | cons v l => exact ⟨_, rfl, rfl, rfl⟩

end

end Sys2Proof.Machine

namespace Sys2Proof.Proofs

open Sys2Proof Sys2Proof.Machine

/-- Settles O54, clause by clause: each event by what its operation of the part makes of the state. -/
theorem globalMemoryEvents : Obligations.GlobalMemoryEvents := by
  refine ⟨?read, ?write, ?atomic, ?noRequest, ?asked, ?storeFill, ?insertNew, ?insertHeld, ?walkBeyond, ?walkRead, ?retry,
    ?noEntry, ?abandon, ?nothingHeld, ?oneHeld, ?allHeld, ?noStores, ?drainLine, ?drainOther,
    fun l p x => ⟨rfl, sbSum_append l p x⟩, ?tinvRoom, ?tinvFull, ?tinvStarted, ?tinvFlushed,
    fun s h => next_congr (State.tinvDone_none h)⟩
  case read =>
    exact fun s r id hr hlook hgot hop => ⟨fun hw => next_congr (State.homeReadAt_performs hr hlook hgot hop hw),
      fun hw => next_congr (State.homeReadAt_waits hr hlook hgot hop hw)⟩
  case write =>
    exact fun s r id h hr hlook hgot hop hag hreg => next_congr (State.homeWriteAt_helper hr hlook hgot hop hag hreg)
  case atomic => exact fun s r id f x y hr hlook hgot hop hw => next_congr (State.homeAtomicAt_performs hr hlook hgot hop hw)
  case noRequest =>
    intro s id hr
    obtain ⟨hread, hwrite, hatom, hret⟩ := State.noRequest hr
    exact ⟨next_congr hread, next_congr hwrite, next_congr hatom, next_congr hret⟩
  case asked =>
    intro s r c id h bs hr hgot hret hag hc hfr hasked
    have hreturn := State.readReturn_helper hr hgot hret hag hc hfr
    rw [hasked] at hreturn
    exact ⟨fun hop hmark hfill => next_congr (hreturn.trans (State.helperReturn_bypass hag hop hmark hfill)),
      fun hop hmark hfill hstale => next_congr (hreturn.trans (State.helperReturn_stale hag hop hmark hfill hstale)),
      fun hop hmark hfill hstale hlen =>
        next_congr (hreturn.trans (State.helperReturn_cached hag hop hmark hfill hstale hlen)),
      fun hop hfill => next_congr (hreturn.trans (State.helperReturn_value hag hop hfill))⟩
  case storeFill =>
    intro s r c id h bs hr hgot hret hag hc hfr hasked hfill hstale hlen
    have hreturn := State.readReturn_helper hr hgot hret hag hc hfr
    rw [hasked] at hreturn
    exact next_congr (hreturn.trans (State.helperReturn_storeFill hfill hstale hlen))
  case insertNew => exact fun s c n x line perf d hc hfind hvic => State.hcInsert_room hc hfind hvic x perf d
  case insertHeld =>
    exact fun s c n x line perf d e hc hfind =>
      ⟨fun hp => ⟨State.hcInsert_older hc hfind hp x d, State.hcPass_older hc hfind hp x⟩,
        fun hp => State.hcInsert_newer hc hfind hp x d⟩
  case walkBeyond => exact fun s a ctx va w k h => next_congr (State.pageWalk_beyond h a ctx w k)
  case walkRead => exact fun s s1 a ctx va x h hw => next_congr (State.pageWalk_read h hw)
  case retry => exact fun s e n h => next_congr (State.retryEntry_written h)
  case noEntry => exact fun s n h => ⟨next_congr (State.retryEntry_none h), next_congr (State.abandonEntry_none h)⟩
  case abandon =>
    intro s e n h
    refine ⟨fun hag => next_congr (State.abandonEntry_gateway h hag), fun hag => next_congr (State.abandonEntry_hubAgent h hag),
      fun k c hag hcode hc hk => ?_, fun c l hag hcode hc hl => next_congr (State.abandonEntry_engine h hag hcode hc hl)⟩
    obtain ⟨hst, hcause, hother⟩ := helper_helperLeaves hk
    exact ⟨_, next_congr (State.abandonEntry_helper h hag hcode hc), hst, hcause, hother, rfl, rfl⟩
  case nothingHeld =>
    rintro s (hoff | hall)
    · exact next_congr (State.faultsHeld_off ((bit_eq_false_iff _ _).2 hoff) _)
    · exact next_congr (State.faultsHeld_written hall _)
  case oneHeld =>
    exact fun s e hf hw hon hfree => next_congr (State.faultDeferred_one hf hw ((bit_iff _ _).2 hon) hfree)
  case allHeld =>
    exact fun s => ⟨_, rfl, (State.faultsHeld_exhausts _ List.countP_le_length).imp_left (bit_eq_false_iff _ _).1⟩
  case noStores => exact fun s c hc hsb => next_congr (State.sbDrain_empty hc hsb)
  case drainLine =>
    intro s c e l x hc hsb hne hall hfind
    exact next_congr (State.sbDrain_line hc hsb hne (State.sbFree_all hall) (fun q hq => (hall q hq).2) hfind)
  case drainOther =>
    intro s c e p ps l hc hsb hp
    have hmem : p ∈ e.parts := hp ▸ List.mem_cons_self
    refine ⟨fun hall => next_congr (State.sbDrain_bypass hc hsb hp (State.sbFree_all hall) (hall p hmem).2),
      fun hheld => next_congr (State.sbDrain_held hc hsb (State.sbFree_frontHeld hp hheld)), fun hall hfind =>
        ⟨fun hout => next_congr (State.sbDrain_waits hc hsb hp (State.sbFree_all hall) (hall p hmem).2 hfind hout),
          fun hout hatom => ?_⟩⟩
    obtain ⟨d, hd⟩ := State.core_sbDrain_asks hc hsb hp (State.sbFree_all hall) (hall p hmem).2 hfind hout hatom
    exact ⟨_, d, rfl, hd⟩
  case tinvRoom =>
    exact fun s ctx va h =>
      ⟨⟨_, rfl, State.tinv_tinvPush h _⟩, ⟨_, rfl, State.tinv_tinvPush h _⟩, ⟨_, rfl, State.tinv_tinvPush h _⟩⟩
  case tinvFull =>
    exact fun s ctx va h => ⟨next_congr (State.tinvPush_full h _), next_congr (State.tinvPush_full h _),
      next_congr (State.tinvPush_full h _)⟩
  case tinvStarted =>
    intro s w l hs hrun hover
    obtain ⟨t, ht, htinv⟩ := State.tinvDone_over hs (State.tinvFront_starts hrun w ▸ hover)
    exact ⟨t, next_congr ht, htinv⟩
  case tinvFlushed =>
    intro s w l x hs hrun hover
    obtain ⟨t, ht, htinv⟩ := State.tinvDone_over hs (State.tinvFront_runs hrun w ▸ hover)
    exact ⟨t, next_congr ht, htinv⟩

end Sys2Proof.Proofs
end

end

section
/-! PROOFS. The slot of a ring handle that an operand names (R56, R57, R85; O20). -/

namespace Sys2Proof.Machine

/-- The field of handle `hN+o` (R85): its address is that of the slot at CONS plus o read, at PROD plus o written. -/
theorem fAddr_handle (fo : Focus) (c : Core) {f : BitVec 9} (hf : f.toNat / 2 ^ 7 = 3) (wr : Bool) :
    fAddr fo c f wr = some (hAddr (rdHandle c (f.toNat / 2 ^ 3 % 16))
      (if wr then hProd (rdHandle c (f.toNat / 2 ^ 3 % 16)) else hCons (rdHandle c (f.toNat / 2 ^ 3 % 16)))
      (f.toNat % 8)) := by
  have hgrid : ¬f.toNat < 256 := by omega
  have hstream : ¬f.toNat < 384 := by omega
  have hoff : bits f.toNat 2 0 = f.toNat % 8 := by simp [bits]
  simp only [fAddr, if_neg hgrid, if_neg hstream, hoff]
  rfl

theorem hAddr_eq (d : BitVec 128) (p o : Nat) :
    hAddr d p o = hBase d + (p + o) % 2 ^ hLog d * (hSlot d * 256) := by
  rw [hAddr, hSlots, Nat.mul_assoc]

/-- A slot ends where the next begins, the last at the end of the ring. -/
theorem hAddr_slot_le (d : BitVec 128) (p o : Nat) :
    hAddr d p o + hSlot d * 256 ≤ hBase d + 2 ^ hLog d * (hSlot d * 256) := by
  have hslot : (p + o) % 2 ^ hLog d + 1 ≤ 2 ^ hLog d := Nat.mod_lt _ (by positivity)
  rw [hAddr_eq, Nat.add_assoc, ← Nat.succ_mul]
  exact Nat.add_le_add_left (Nat.mul_le_mul_right _ hslot) _

end Sys2Proof.Machine

namespace Sys2Proof.Proofs

open Sys2Proof Sys2Proof.Machine

/-- Settles O20: the slot index is below the number of slots, so the slot lies in the ring. -/
theorem handleSlotAddress : Obligations.HandleSlotAddress :=
  fun fo c _ hf => ⟨fAddr_handle fo c hf false, fAddr_handle fo c hf true,
    fun d p o => ⟨hAddr_eq d p o, hAddr_eq d p o ▸ Nat.le_add_right _ _, hAddr_slot_le d p o⟩⟩

end Sys2Proof.Proofs
end

section
/-! PROOFS. What arrives at a core: flag posts, mail, and writes to its named state from outside it (R53, R55, R64, R128, R159,
R225, R231 to R235, R298; O52). -/

namespace Sys2Proof.Machine

/-! ### Flags (R53) -/

theorem flagInc_counts {c : Core} {f n : Nat} (h : (spGet 0 c.f f).toNat + n ≤ 0xFFFF) :
    flagInc c f n = { c with f := spSet 0 c.f f (BitVec.ofNat 16 ((spGet 0 c.f f).toNat + n)) } := if_pos h

theorem flagInc_saturates {c : Core} {f n : Nat} (h : 0xFFFF < (spGet 0 c.f f).toNat + n) :
    flagInc c f n = { c with f := spSet 0 c.f f 0xFFFF, fovf := true, fidx := if c.fovf then c.fidx else f } :=
  if_neg (Nat.not_le_of_lt h)

/-- A flag counts up to the largest value that it holds. -/
theorem spGet_flagInc (c : Core) (f n g : Nat) : spGet 0 (flagInc c f n).f g =
    if g = f then BitVec.ofNat 16 (min ((spGet 0 c.f f).toNat + n) 0xFFFF) else spGet 0 c.f g := by
  obtain h | h := le_or_gt ((spGet 0 c.f f).toNat + n) 0xFFFF
  · rw [flagInc_counts h, Nat.min_eq_left h]
    exact Laws.spGet_spSet ..
  · rw [flagInc_saturates h, Nat.min_eq_right h.le]
    exact Laws.spGet_spSet ..

/-- A flag increment changes the flags and their overflow note alone. -/
theorem flagInc_else (c : Core) (f n : Nat) :
    { flagInc c f n with f := c.f, fovf := c.fovf, fidx := c.fidx } = c := by
  obtain h | h := le_or_gt ((spGet 0 c.f f).toNat + n) 0xFFFF
  · rw [flagInc_counts h]
  · rw [flagInc_saturates h]

/-! ### Mail (R231, R234, R235) -/

/-- No message of a list is for mailbox `m`. -/
theorem any_mailbox_eq_false {m : Nat} {l : List (Nat × Word)} (h : ∀ e ∈ l, e.1 ≠ m) :
    l.any (fun x => x.1 = m) = false :=
  List.any_eq_false.2 fun e he hm => h e he (of_decide_eq_true hm)

/-- Mail for an absent mailbox, none waiting for it, makes it present. -/
theorem placeMail_absent {m : Nat} {v : Word} {c : Core} (habsent : (spGet ((0 : Word), false) c.mb m).2 = false)
    (hmark : m ∉ c.p.marks) (hinbox : ∀ e ∈ c.inbox, e.1 ≠ m) (hheld : ∀ e ∈ c.recvHeld, e.1 ≠ m) :
    placeMail m v c = { c with mb := spSet (0, false) c.mb m (v, true) } := by
  have hplace : (!(spGet ((0 : Word), false) c.mb m).2 && !c.p.marks.contains m &&
      !c.inbox.any (fun x => x.1 = m)) = true := by
    rw [habsent, any_mailbox_eq_false hinbox]
    simpa using hmark
  rw [placeMail, any_mailbox_eq_false hheld]
  exact if_pos hplace

/-- Mail for a present mailbox enters an inbox that it does not fill. -/
theorem placeMail_present {m : Nat} {v : Word} {c : Core} (hpresent : (spGet ((0 : Word), false) c.mb m).2 = true)
    (hroom : c.inbox.length < 63) (hheld : ∀ e ∈ c.recvHeld, e.1 ≠ m) :
    placeMail m v c = { c with inbox := c.inbox ++ [(m, v)] } := by
  have hfull : (c.inbox ++ [(m, v)]).length ≠ 64 := by
    rw [List.length_append, List.length_singleton]
    omega
  rw [placeMail, any_mailbox_eq_false hheld, if_neg Bool.false_ne_true, placeIn, hpresent]
  exact (if_neg Bool.false_ne_true).trans ((if_pos (by omega)).trans (if_neg hfull))

theorem inboxRemove_oldest {m : Nat} {v : Word} {l : List (Nat × Word)} {c : Core} (h : c.inbox = (m, v) :: l) :
    inboxRemove c.inbox.head? c = { c with inbox := l, tagV := true, tagMb := m } := by
  simp only [inboxRemove, h, List.head?_cons, List.erase_cons_head]

theorem inboxRemove_empty {c : Core} (h : c.inbox = []) : inboxRemove c.inbox.head? c = { c with tagV := false } := by
  simp only [h, List.head?_nil, inboxRemove]

section
variable {s : State} {n : Nat} {c : Core}

/-- Mail that does not wait outside the inbox is placed, and nothing is noted (R233). -/
theorem State.mailArrives_placed {m : Nat} {v : Word} (hc : s.core n = some c)
    (hheld : (placeMail m v c).recvHeld = c.recvHeld) : s.mailArrives n m v = s.setCore n (placeMail m v c) := by
  simp [State.mailArrives, hc, hheld]

theorem State.mailArrives_noCore (hc : s.core n = none) (m : Nat) (v : Word) : s.mailArrives n m v = s := by
  rw [State.mailArrives, hc]

theorem State.ctxOf_bound (hc : s.core n = some c) : s.ctxOf n = c.lctx := by
  rw [State.ctxOf, hc]

theorem State.mailPort_takes {m t : Nat} {v : Word} (hc : s.core n = some c) (hm : m < 32) (ht : s.takes c.lctx t = true) :
    s.mailPort n t m v = s.soon t [.mailboxArrival n t m v] := by
  simp [State.mailPort, State.ctxOf_bound hc, hc, hm, ht]

theorem State.mailPort_discards {m t : Nat} {v : Word} (hc : s.core n = some c)
    (h : 32 ≤ m ∨ s.takes c.lctx t = false) : s.mailPort n t m v = s.note (dieOf t) 0x0A 3 c.lctx t n := by
  rw [State.mailPort, State.ctxOf_bound hc]
  refine if_neg fun hall => ?_
  simp only [Bool.and_eq_true, decide_eq_true_eq] at hall
  obtain ⟨⟨hm, -⟩, ht⟩ := hall
  exact h.elim (Nat.not_le_of_lt hm) (ne_false_of_eq_true ht)

end

/-! ### Histograms and the graph table (R159, R298) -/

theorem spGet_spClear {α : Type} (d : α) (lo hi : Nat) (m : Sparse α) (k : Nat) :
    spGet d (spClear lo hi m) k = if lo ≤ k ∧ k < hi then d else spGet d m k := by
  refine (Laws.spGet_filter d (fun i => i < lo || hi ≤ i) m k).trans ?_
  by_cases hk : lo ≤ k ∧ k < hi
  · rw [if_pos hk, if_neg (by simpa using hk)]
  · rw [if_neg hk, if_pos (by simp only [Bool.or_eq_true, decide_eq_true_eq]; omega)]

/-- A field that ends at bit 31 lies in the low half of its doubleword. -/
theorem bits_31 (v lo : Nat) (hlo : lo ≤ 32) : bits v 31 lo = v % 2 ^ 32 / 2 ^ lo := by
  rw [bits, show 2 ^ 32 = 2 ^ lo * 2 ^ (31 + 1 - lo) by rw [← pow_add, Nat.add_sub_cancel' hlo], Nat.mod_mul_right_div_self]

end Sys2Proof.Machine

namespace Sys2Proof.Proofs

open Sys2Proof Sys2Proof.Machine

/-- Settles O52, clause by clause: each arrival by what its operation makes of the core it is for. -/
theorem messagesArrive : Obligations.MessagesArrive := by
  refine ⟨?post, ?mailAbsent, ?mailPresent, ?port, fun _ _ _ _ _ _ _ hc => next_congr (Laws.modCore_some _ hc), ?window,
    ?inboxOldest, ?inboxEmpty, ?free, ?freeOther, ?clear, ?graph, ?noCore⟩
  case post =>
    intro src n f k s c hc
    have helse := flagInc_else c (f % 32) k
    refine ⟨_, next_congr (Laws.modCore_some _ hc), ?_, fun g hg => ?_, fun h => by rw [flagInc_saturates h],
      (congrArg Core.p helse :), (congrArg Core.sp helse :), (congrArg Core.mb helse :)⟩
    · rw [spGet_flagInc, if_pos rfl, BitVec.toNat_ofNat]
      omega
    · rw [spGet_flagInc, if_neg hg]
  case mailAbsent =>
    intro src n m v s c hc habsent hmark hinbox hheld
    have hplace := placeMail_absent (v := v) habsent hmark hinbox hheld
    exact next_congr (hplace ▸ State.mailArrives_placed hc (congrArg Core.recvHeld hplace :))
  case mailPresent =>
    intro src n m v s c hc hpresent hroom hheld
    have hplace := placeMail_present (v := v) hpresent hroom hheld
    exact next_congr (hplace ▸ State.mailArrives_placed hc (congrArg Core.recvHeld hplace :))
  case port =>
    exact fun src n m v s c hc => ⟨fun hm ht => next_congr (State.mailPort_takes hc hm ht),
      fun h => next_congr (State.mailPort_discards hc h)⟩
  case window =>
    exact fun src n a data s c hc =>
      ⟨_, next_congr (Laws.modCore_some _ hc), fun b => Laws.memRead_memPut c.sp a b data, rfl⟩
  case inboxOldest => exact fun s c m v l hc h => next_congr (inboxRemove_oldest h ▸ Laws.modCore_some _ hc)
  case inboxEmpty => exact fun s c hc h => next_congr (inboxRemove_empty h ▸ Laws.modCore_some _ hc)
  case free =>
    intro s c n h hc ht
    have hfree : freeHelper h c = c.setHelper h { c.helper h with st := .released } := if_pos ht
    exact next_congr (hfree ▸ Laws.modCore_some _ hc)
  case freeOther =>
    intro s c n h hc ht
    have hkept : freeHelper h c = c := if_neg ht
    exact next_congr ((Laws.modCore_some _ hc).trans (hkept.symm ▸ Laws.setCore_self hc))
  case clear =>
    exact fun s c n t hc => ⟨_, next_congr (Laws.modCore_some _ hc), fun b => spGet_spClear _ _ _ _ _, rfl⟩
  case graph =>
    exact fun s c n v hc => ⟨_, next_congr (Laws.modCore_some _ hc),
      congrArg (fun x => wN (x * 64)) (bits_31 v.toNat 6 (by decide)), rfl, rfl, rfl⟩
  case noCore =>
    intro s src n k f h t v b l hc
    have hnone := fun g => next_congr (Laws.modCore_none g hc)
    exact ⟨hnone _, next_congr (State.mailArrives_noCore hc _ _), hnone _, hnone _, hnone _, hnone _, hnone _⟩

end Sys2Proof.Proofs
end

section
/-! PROOFS. Events of a core's helpers, its protected storage and its part's end, and the events of gateways (R73, R98, R100,
R226, R227, R379, R415, R416; O53). -/

namespace Sys2Proof.Machine

section
variable {s : State} {c : Core}

/-! ### Helpers and protected storage (R73, R98, R100) -/

theorem State.bundleIllegal_live {n h p : Nat} (hc : s.core n = some c) (hbad : s.hNext n (c.helper h) = .bad p)
    (hlive : (c.helper h).st = .live) :
    s.bundleIllegal n h = s.setCore n (helperTrap h 0x12 (c.helper h).pc p c) := by
  simp only [State.bundleIllegal, hc, hbad, if_pos hlive]
  rfl

/-- A running core is at work: it has neither ended nor never begun. -/
theorem run_live {n : Nat} (hrun : c.run = .run) (hn : n < 512) :
    (!(decide (c.run ≠ .ended) && decide (c.run ≠ .idle) && decide (n < 512))) = false := by
  simp [hrun, hn]

theorem State.storageError_grid {n : Nat} (hc : s.core n = some c) (hrun : c.run = .run) (hn : n < 512) (k : Nat) :
    s.storageError n 0 true k =
      (s.note (dieOf n) 5 1 c.lctx n 0).setCore n (nextTrap 0x30 (s.eccSlot n 0 c) c) := by
  simp only [State.storageError, hc, run_live hrun hn]
  rfl

theorem State.storageError_corrected {n row : Nat} (hc : s.core n = some c) (hrun : c.run = .run) (hn : n < 512)
    (hrow : row = 1 ∨ row = 2) (k : Nat) :
    s.storageError n row false k = (s.note (dieOf n) 5 0 c.lctx n row).setCore n (countCe c) := by
  simp only [State.storageError, hc, run_live hrun hn]
  obtain rfl | rfl := hrow <;> rfl

/-! ### The end of a part (R226, R227) -/

/-- The core as its part's end leaves it. -/
def partEnded (c : Core) : Core := { c with run := .ended, mb := [], inbox := [], recvHeld := [] }

theorem State.cores_endPart {n : Nat} {l : Launch} (hc : s.core n = some c) (hl : s.launchOf c.launch = some l)
    (hrun : c.run = .halted) : (s.endPart n).cores = (s.setCore n (partEnded c)).cores := by
  simp only [State.endPart, hc, hl]
  rw [if_neg (not_not_intro hrun), apply_ite State.cores, Laws.soon_cores, ite_self]
  exact congrArg (putCore · n (partEnded c)) ((apply_ite State.cores _ _ _).trans (ite_self _))

theorem State.endPart_notHalted {n : Nat} (hc : s.core n = some c) (hrun : c.run ≠ .halted) : s.endPart n = s := by
  simp only [State.endPart, hc, if_pos hrun]
  split <;> rfl

/-! ### The batch queue (R416) -/

theorem State.bqTake_next (h : s.fld 0x1A80 31 0 < s.fld 0x1A88 31 0) :
    s.bqTake = (BitVec.ofNat 64 (s.fld 0x1A80 31 0), s.setFld 0x1A80 31 0 (s.fld 0x1A80 31 0 + 1)) := if_pos h

theorem State.bqTake_end (h : s.fld 0x1A88 31 0 ≤ s.fld 0x1A80 31 0) : s.bqTake = (BitVec.allOnes 64, s) :=
  if_neg (Nat.not_lt_of_le h)

/-! ### Gateways (R415, R416) -/

section
variable {g : Nat}

theorem State.withGate_bound (hc : s.core (512 + g) = some c) : s.withGate g = s := by
  rw [State.withGate, hc]

theorem State.gateWindow_stores {off : Nat} (hc : s.core (512 + g) = some c) (hoff : off + 8 ≤ 0x10000)
    (hfree : s.windowBusy g = false) (v : Word) : s.gateWindow g off true v =
      s.setCore (512 + g) { c with sp := memPut c.sp off (leBytes 8 v.toNat) } := by
  rw [State.gateWindow, if_pos (by simpa using hoff), if_neg (ne_true_of_eq_false hfree), State.withGate_bound hc,
    Laws.modCore_some _ hc]

theorem State.gateWindow_waits {off : Nat} (hoff : off + 8 ≤ 0x10000) (hbusy : s.windowBusy g = true) (v : Word) :
    s.gateWindow g off true v = s.later (s.tick + 1) 0 (.gatewayWindowAccess g off true v) := by
  rw [State.gateWindow, if_pos (by simpa using hoff), if_pos hbusy]

/-- A run begins at ENTRY, in the memory and registers that earlier runs have left. -/
theorem State.gateRun_bound (hc : s.core (512 + g) = some c) : ∃ d, s.gateRun g = s.setCore (512 + g) d ∧ d.run = .run ∧
    d.p.pc = bits (s.reg (gwReg g 0)) 10 0 ∧ d.sp = c.sp ∧ d.p.s = c.p.s ∧ d.trapRec0 = 0 := by
  simp only [State.gateRun, State.withGate_bound hc, Laws.modCore_some _ hc]
  exact ⟨_, rfl, rfl, rfl, rfl, rfl, rfl⟩

end

end

end Sys2Proof.Machine

namespace Sys2Proof.Proofs

open Sys2Proof Sys2Proof.Machine

/-- Settles O53, clause by clause: each event by what its operation of the part makes of the state. -/
theorem coreAndGatewayEvents : Obligations.CoreAndGatewayEvents := by
  refine ⟨fun s c n h p hc hbad hlive => next_congr (State.bundleIllegal_live hc hbad hlive),
    fun s c n k hc hrun hn => next_congr (State.storageError_grid hc hrun hn k),
    fun s c n k row hc hrun hn hrow => next_congr (State.storageError_corrected hc hrun hn hrow k), ?partEnd,
    fun s c hc hrun => next_congr (State.endPart_notHalted hc hrun), ?nextIndex, ?lastIndex, fun _ => rfl, ?window, ?gateRun,
    fun s c hc => ⟨_, next_congr (Laws.modCore_some _ hc), rfl, rfl, rfl, rfl⟩⟩
  case partEnd =>
    intro s c l hc hl hrun
    have hcores := State.cores_endPart hc hl hrun
    have hcore := fun k => congrArg (lookCore · k) hcores
    exact ⟨_, partEnded c, rfl, (hcore _).trans (Laws.core_setCore_same _ hc), rfl, rfl, rfl, rfl,
      fun k hk => (hcore k).trans (Laws.core_setCore_other s _ hk)⟩
  case nextIndex =>
    intro s g d h
    refine next_congr ?_
    rw [State.bqTo, State.bqTake_next h]
    rfl
  case lastIndex =>
    intro s g d h
    refine next_congr ?_
    rw [State.bqTo, State.bqTake_end h]
  case window =>
    exact fun s c g off v hc hoff => ⟨fun hfree => next_congr (State.gateWindow_stores hc hoff hfree v),
      fun hbusy => next_congr (State.gateWindow_waits hoff hbusy v), rfl⟩
  case gateRun =>
    intro s c hc
    obtain ⟨d, hrun, hst, hpc, hsp, hregs, hrec⟩ := State.gateRun_bound hc
    refine ⟨d, next_congr hrun, hst, hpc.trans ?_, hsp, hregs, hrec⟩
    rw [bits, pow_zero, Nat.div_one]

end Sys2Proof.Proofs
end

section
/-! PROOFS. The words of slot operations: what the encoder writes decodes to the operation it was written for (R81 to R98;
O1, O2). -/

namespace Sys2Proof.Laws.RoundTrip

/-- Every constructor, in the order of the instruction set, by its own law: the word of an operation gives back its opcode
and each of its fields; an event has no class. -/
theorem statement_of_instr (i : Instr) : Statement i :=
  i.casesOn (motive := Statement)
    add sub addi addsh mul mulh mulhn div divn and or xor andn andi ori xori shl shr sar rol shli shri sari cmp cmpi min
    max minn maxn sel movi lui clz ctz popc bfx bfi adda mva mvs spld spst fadd fsub fmul fma fmin fmax fcmp fcvt mfc
    mtc rdt takem br brz brnz jmp call loop rep halt start trap ld st ldacq strel xld xst vld vst vldx vstx gld gst
    gatom cinv cclean qld qst kld kst lift lpop hpush hpop vadd vsub vmul vfma vfms vmin vmax vabs vneg vcmp vsel vcvt
    vand vor vxor vshl vshr vsar vrcp vrsq vexp2 vlog2 vtanh vred vscan vperm vbc viota vmov vrand vclamp vpack vunpk
    baddq tap tapfin vsteer qset qadd qmul qscale qshift qmix qcond qmom qquant qtag qsamp kclr kmerge kmergel ksort
    ktop ksamp kmask ksend gsetLd gsetSt gsetRs gstep gmask mmul mdrain bfill mcode swap cpy cpyt cgath cscat cseal
    ctime cnext sendm eqry fwait fpost fpostx twait hwait hfree hadv mwait lwait chk bara helperBundleIllegal
    storageError hctlFree histselClr egraphWrite bqtake registerWrite homeRead homeWrite homeAtomic globalReadReturn
    pageWalk retry abandon tinvPage tinvContext fwCtlWrite legdataWrite flagPostArrival mailboxArrival mailboxPortWrite
    handleAdvanceArrival clusterWindowStore gatewayWindowAccess copyCommandStart copyBurst copyCommandComplete
    timedCommandDue queueStop stageRelease launchComplete preemptionEnd killComplete replayPass swapOut swapIn
    barrierArrival encodeJobStart encodeJobComplete hostHalt resume jobstep corestep clearcause shtrig frdata
    linkFlitReceive linkDown linkUp graticuleDiscipline plan planLate planPhase planComplete treeset treeNodeInput
    treeRootDelivery dispatchDelivery streamEnable streamDisable resetRungComplete clusterPowerUp attreq thermalTrip
    updomClose updomOpen domainClose domainOpened cxlCacheSnoop nilI nilM nilV nilK nilE nilY holdI holdM holdV holdK
    holdE holdY gsetFl phase fence ckpt deferredTrap rollbackRestoreEnd corePartEnd inboxpop gwtlinc storeBufferDrain
    faultRecordDeferred tinvAll tinvComplete legdataRead mmulStart mmulComplete mcodeStart mcodeComplete bfillStart
    bfillComplete mdrainStart mdrainComplete swapExchangeStart swapComplete matrixTimelineStop launchPacket replay kill
    record schedulerWindow breakpoint haltFlit stopTick resumeAtTick jobstepEnd corestepAtTick surveyPulse shadowTrigger
    disciplineSend treeCheckDone gatewayRun gatewayStop majorFrame streamPoll heartbeat resetStream firmwareCoreRestart
    commandProcessorReset functionLevelReset secondaryBusReset powerOn attestationReport thermalThrottle
    thermalThrottleEnd breakpointTakesEffect

end Sys2Proof.Laws.RoundTrip

namespace Sys2Proof.Proofs

/-- Settles O1: each constructor's round trip is a law of the encoding. -/
theorem encodeThenDecode : Obligations.EncodeThenDecode := Laws.RoundTrip.statement_of_instr

/-- Settles O2: the decoder evaluates each word. -/
theorem wordsDecodeAsWritten : Obligations.WordsDecodeAsWritten :=
  ⟨rfl, rfl, rfl, rfl, rfl, rfl, rfl, rfl, rfl, rfl, rfl, rfl, rfl, rfl, rfl, rfl, rfl, rfl, rfl, rfl, rfl, rfl, rfl, rfl⟩

end Sys2Proof.Proofs
end

section
/-! PROOFS. Which forms decode refuses (R98, R414; O38): the rule for gateways at a slot number past the bundle's. -/

namespace Sys2Proof.Proofs

open Sys2Proof Sys2Proof.Machine

/-- Refutes O38, by its rule for gateways at a slot number that no bundle has. `slotCls` gives every number from 7 on the
class Y, and the rule asks no more of a FENCE than its class; the model accepts it in slot 7 alone, and refuses it in
slot 8. -/
theorem not_illegalFormsTrap : ¬ Obligations.IllegalFormsTrap := by
  rintro ⟨⟨-, -, hforms⟩, -⟩
  obtain ⟨-, -, hgate⟩ := hforms
  have hlegal : legal ⟨512, .gate, 8, 0, 1, 0, 0⟩ (coreAtLaunch 512 false 0 0 0 0 0) .fence = true :=
    (hgate _ _ .fence rfl rfl rfl).2 ⟨⟨rfl, rfl, rfl, rfl, trivial⟩, rfl, trivial⟩
  have hrefused : legal ⟨512, .gate, 8, 0, 1, 0, 0⟩ (coreAtLaunch 512 false 0 0 0 0 0) .fence = false := rfl
  exact Bool.false_ne_true (hrefused.symm.trans hlegal)

end Sys2Proof.Proofs
end

section
/-! PROOFS. Traps of helpers and of gateways (R17, R100, R222, R226, R379; O46). -/

namespace Sys2Proof.Machine

theorem takeTrap_helper {fo : Focus} {h : Nat} (hfo : ofHelper fo h) (k : Nat) (v : Word) (c : Core) :
    takeTrap fo k v c = helperTrap h k fo.bundle (slotPos fo.slot) c := by
  rw [takeTrap, hfo]

/-- A trap of a helper stops that helper, and leaves every other as it was. -/
theorem helperTrap_helper {h : Nat} {c : Core} (hh : h < c.helpers.length) (k bundle pos j : Nat) :
    (helperTrap h k bundle pos c).helper j = if j = h then { c.helper h with
      st := if c.run = .halted then .released else .trapped, cause := k, pc := bundle, pos := pos, next := none }
      else c.helper j := by
  refine (Laws.helper_setHelper c h j _).trans ?_
  simp only [hh, and_true]

end Sys2Proof.Machine

namespace Sys2Proof.Proofs

open Sys2Proof Sys2Proof.Machine

/-- Settles O46: the trapping helper by what its trap writes, the others and the primary by what it leaves. -/
theorem helperTrapEntry : Obligations.HelperTrapEntry := by
  constructor
  · intro fo c h k v hfo hh
    have hhelper := helperTrap_helper hh k fo.bundle (slotPos fo.slot)
    have hself := (hhelper h).trans (if_pos rfl)
    simp only [takeTrap_helper hfo, hself, true_and]
    exact ⟨fun j hj => (hhelper j).trans (if_neg hj), rfl, rfl, rfl, rfl⟩
  · intro fo c k v hfo
    simp only [takeTrap, hfo]
    trivial

end Sys2Proof.Proofs
end

section
/-! PROOFS. What a step runs: the first piece of work of the cycle (R4, R62, R92; O40). -/

namespace Sys2Proof.Machine

section
variable {s : State} {rest : List Work} {num slot : Nat} {who : Ctx}

theorem step_startsCycle (h : s.agenda = []) : step s = .next s.startCycle := by
  rw [step, h]

theorem step_runsSlot (h : s.agenda = .slot num who slot :: rest) :
    step s = ({ s with agenda := rest } : State).runSlot num who slot := by
  rw [step, h]

theorem step_execsEvent {u : Nat} {i : Instr} (h : s.agenda = .event u i :: rest) :
    step s = exec i { s with agenda := rest, focus := s.eventFocus u } := by
  rw [step, h]

theorem step_doesWork {w : Work} (h : s.agenda = w :: rest) (hslot : ∀ n k j, w ≠ .slot n k j)
    (hevent : ∀ u i, w ≠ .event u i) : step s = .next (({ s with agenda := rest } : State).doWork w) := by
  rw [step, h]
  cases w with
  | slot n k j => exact absurd rfl (hslot n k j)
  | event u i => exact absurd rfl (hevent u i)
  | _ => rfl

/-- A slot fetches its operation where its context is not dead, the word decodes and nothing holds it back. -/
theorem fetchSlot_fetches {c : Core} {i : Instr} (hc : s.core num = some c) (hlive : slotDead who c = false)
    (hi : s.slotInstr num who slot c = .ok i) (hheld : s.slotHeld who (s.slotFocus num who slot c) c i = none) :
    s.fetchSlot num who slot = .ok (s.slotFocus num who slot c, c, i) := by
  simp [State.fetchSlot, hc, hlive, hi, hheld]

end

end Sys2Proof.Machine

namespace Sys2Proof.Proofs

open Sys2Proof Sys2Proof.Machine

/-- Settles O40: a step by the work that comes first, a slot's by what it fetches. -/
theorem stepRunsTheDecodedSlot : Obligations.StepRunsTheDecodedSlot := by
  refine ⟨⟨?fetched, ?nothing⟩, fun _ _ _ _ => step_execsEvent, fun _ _ _ => step_doesWork, fun _ => step_startsCycle⟩
  case fetched =>
    intro s num slot who rest c i ha s0 hc hlive hi hheld
    have hrun := step_runsSlot ha
    rw [State.runSlot, fetchSlot_fetches hc hlive hi hheld] at hrun
    exact hrun
  case nothing =>
    intro s t num slot who rest ha hfetch
    rw [step_runsSlot ha, State.runSlot, hfetch]

end Sys2Proof.Proofs
end


section
/-! PROOFS. Accesses to the own scratchpad (R16, R61, R62, R109, R110, R115): the checks of their addresses, the cycle in which
one seeks its banks, and the scalar loads and stores (O11, O12, O13). -/

namespace Sys2Proof.Machine

/-! ### Address checks (R16, R110, R357) -/

theorem addrTrap_eq_none_iff {fo : Focus} {c : Core} {a n al : Nat} :
    addrTrap fo c a n al = none ↔ a % al = 0 ∧ inRange fo c a n = true := by
  unfold addrTrap
  by_cases hal : a % al = 0 <;> cases hin : inRange fo c a n <;> simp [hal]

theorem addrTrap_of_misaligned {fo : Focus} {c : Core} {a n al : Nat} (h : a % al ≠ 0) :
    addrTrap fo c a n al = some (cMISALIGN, a) := if_pos h

theorem addrTrap_of_outside {fo : Focus} {c : Core} {a n al : Nat} (h : a % al = 0) (hin : inRange fo c a n = false) :
    addrTrap fo c a n al = some (cLOCALRANGE, a) := by
  simp [addrTrap, h, hin]

theorem spSize_eq (fo : Focus) : spSize fo = if fo.ctx = .gate then 0x10000 else 0x180000 := by
  cases h : fo.ctx <;> simp [spSize, h]

theorem inRange_iff {fo : Focus} {c : Core} {a n : Nat} :
    inRange fo c a n = true ↔ a + n ≤ spSize fo ∧ meetsFence c.fences a n = false := by
  simp [inRange]

/-! ### Addresses (R115, R118) -/

theorem sext_toNat {n : Nat} (x : BitVec n) : sext n x.toNat = x.toInt := by
  rw [sext, BitVec.toInt_eq_toNat_cond, Nat.mod_eq_of_lt x.isLt]

theorem localAddr_eq (fo : Focus) (c : Core) (x : BitVec 6) (w : Nat) (im : BitVec 10) :
    localAddr fo c x w im = (((rdS fo c x.toNat).toNat + im.toInt * 2 ^ w) % 2 ^ 32).toNat := by
  rw [localAddr, sext_toNat, wrapN, lo32, widthOf]
  push_cast
  rw [Int.emod_add_emod]

theorem localAddr_lt (fo : Focus) (c : Core) (x : BitVec 6) (w : Nat) (im : BitVec 10) : localAddr fo c x w im < 2 ^ 32 := by
  rw [localAddr, wrapN]
  omega

/-! ### Withheld effects (R111, R384) -/

theorem withhold_fits {fo : Focus} {w : Wh} {c : Core} (h : fits c w = true) : withhold fo w c = withholdNow fo w c :=
  if_pos h

theorem withhold_full {fo : Focus} {w : Wh} {c : Core} (h : fits c w = false) :
    withhold fo w c = takeTrap fo cWITHHOLD 0 c := by
  simp [withhold, h]

/-! ### Program order -/

@[simp] theorem ordOf_retire (fo go : Focus) (c : Core) (lat : Nat) (fl : Flags) (effs : List Eff) :
    ordOf fo (retire go lat fl effs c) = ordOf fo c := by
  unfold retire
  split <;> rfl

/-- The result of an operation's flight is the operation's result. -/
theorem retireF_eq_retire {fl : Flight} {d : Core} (h : ordOf fl.foc d = fl.ord) (rem : Nat) (flg : Flags)
    (effs : List Eff) : retireF fl rem flg effs d = retire fl.foc rem flg effs d := by
  rw [retire, h]
  rfl

/-! ### An access in its issue cycle (R61, R62) -/

theorem accBanks_of_oneBank {a n : Nat} (h : bankOf a = bankOf (a + n - 1)) : accBanks a n = [bankOf a] := by
  simp [accBanks, partsOf, h]

/-- Naturally aligned bytes lie in one bank, whose size is a multiple of theirs. -/
theorem bankOf_aligned {a n : Nat} (hn : n ∣ 0x80000) (ha : a % n = 0) : bankOf a = bankOf (a + n - 1) := by
  obtain ⟨m, hm⟩ := hn
  obtain ⟨q, rfl⟩ := Nat.dvd_of_mod_eq_zero ha
  have hpos : 0 < n := Nat.pos_of_ne_zero fun h => by simp [h] at hm
  have hlast : (n * q + n - 1) / n = q := by
    rw [Nat.add_sub_assoc hpos, Nat.mul_add_div hpos, Nat.div_eq_of_lt (by omega), Nat.add_zero]
  rw [bankOf, bankOf, hm, ← Nat.div_div_eq_div_mul, ← Nat.div_div_eq_div_mul, hlast, Nat.mul_div_cancel_left _ hpos]

theorem accFree_of_oneBank {c : Core} {a n : Nat} (h : bankOf a = bankOf (a + n - 1)) :
    accFree c a n ↔ bankOf a ∉ c.cyc.turns := by
  simp [accFree, accBanks_of_oneBank h]

theorem partsOf_ne_nil (a n : Nat) : partsOf a n ≠ [] := by
  unfold partsOf
  split <;> simp

/-- An access all of whose banks are taken stays as it is, and so does the cycle. -/
theorem stepAcc_taken (fo : Focus) {c : Core} {a n : Nat} (h : ∀ b ∈ accBanks a n, b ∈ c.cyc.turns) :
    stepAcc fo c (mkAcc 0 a n) = (mkAcc 0 a n, c.cyc) := by
  have htaken : ∀ p ∈ partsOf a n, c.cyc.turns.contains (bankOf p.addr) = true := fun p hp =>
    List.contains_iff_mem.mpr (h _ (List.mem_map_of_mem hp))
  have hnone : (partsOf a n).filter (fun p => !c.cyc.turns.contains (bankOf p.addr)) = [] :=
    List.filter_eq_nil_iff.mpr fun p hp => by rw [htaken p hp]; decide
  have hall : (partsOf a n).filter (fun p => c.cyc.turns.contains (bankOf p.addr)) = partsOf a n :=
    List.filter_eq_self.mpr htaken
  simp only [stepAcc, mkAcc, hnone, hall]
  simp [partsOf_ne_nil]

/-- A read whose banks are all taken goes on seeking them. -/
theorem launch_taken {fl : Flight} {c : Core} {a n : Nat} (haccs : fl.accs = [mkAcc 0 a n]) (hw : writes fl = false)
    (h : ∀ b ∈ accBanks a n, b ∈ c.cyc.turns) : launch fl c = addFlight fl c := by
  have hbusy : (mkAcc 0 a n).doneB = false := rfl
  have hpump : pump fl c = (some fl, c) := by
    unfold pump
    simp [haccs, stepAccs, stepAcc_taken fl.foc h, hw, hbusy]
    rw [← haccs]
  rw [launch, hpump]

/-- A read whose banks are free has its bytes in this cycle. -/
theorem launch_free {fl : Flight} {c : Core} {a n : Nat} (haccs : fl.accs = [mkAcc 0 a n]) (hw : writes fl = false)
    (hn : 0 < n) (hfree : accFree c a n) {effs : List Byte → List Eff}
    (hdone : ∀ (accs : List Acc) (d : Core), complete { fl with accs := accs } d =
      (none, retireF fl fl.lat 0 (effs (Flight.bytes { fl with accs := accs })) d)) :
    launch fl c = retireF fl fl.lat 0 (effs (spBytes fl.foc c a n)) (accTake c a n) := by
  obtain ⟨acc, hpump, hbytes, -⟩ := Laws.pump_free fl c a n haccs hw hn hfree
  rw [launch, hpump, hdone [acc]]
  exact congrArg (fun l => retireF fl fl.lat 0 (effs l) (accTake c a n)) hbytes

/-- A helper's store whose bank is free writes its bytes through the port. -/
theorem launch_store {fl : Flight} {c : Core} {a n : Nat} (haccs : fl.accs = [mkAcc 0 a n]) (hlen : fl.data.length = n)
    (hw : writes fl = true) (hvals : fl.vals = [wN a]) (ha : a < 2 ^ 64) (hn : 0 < n)
    (hbank : bankOf a = bankOf (a + n - 1)) (hfree : accFree c a n)
    (hdone : ∀ (accs : List Acc) (d : Core), complete { fl with accs := accs } d = (none, retireF fl 1 0 fl.fin d)) :
    launch fl c = retireF fl 1 0 fl.fin (accWrite (accTake c a n) [(a, fl.data)]) := by
  obtain ⟨acc, hstep, hacc, -, -⟩ := Laws.stepAcc_free fl.foc c a n hn hfree
  have hempty : acc.steps = [] := List.isEmpty_iff.mp hacc
  have hbase : (wN a).toNat = a := Nat.mod_eq_of_lt ha
  have hwrites : newWrites fl [mkAcc 0 a n] [acc] = [(a, fl.data)] := by
    simp [newWrites, hvals, hbase, hempty, mkAcc, partsOf, hbank, ← hlen]
  have hpump : pump fl c = (none, retireF fl 1 0 fl.fin (accWrite (accTake c a n) [(a, fl.data)])) := by
    unfold pump
    simp [haccs, stepAccs, hstep, hacc, hw, hwrites, hdone, accWrite, accTake]
  rw [launch, hpump]

/-! ### LD and LDACQ (R115, R116) -/

/-- A width of the encoding divides the size of a bank. -/
theorem width_dvd_bank (w : BitVec 2) : 2 ^ w.toNat ∣ 0x80000 := pow_dvd_pow 2 (Nat.le_trans (Nat.le_of_lt_succ w.isLt) (by decide : 3 ≤ 19))

section
variable {fo : Focus} {c : Core} {i : Instr} {d x : BitVec 6} {w : Nat} {im : BitVec 10}

theorem opLoad_trap {k v : Nat} (h : addrTrap fo c (localAddr fo c x w im) (2 ^ w) (2 ^ w) = some (k, v)) :
    opLoad i x w im fo c = takeTrap fo k (wN v) c := by
  simp only [opLoad, widthOf, h, wN]

theorem opLoad_pass (h : addrTrap fo c (localAddr fo c x w im) (2 ^ w) (2 ^ w) = none) :
    opLoad i x w im fo c = launch (mkFlight i fo c [mkAcc 0 (localAddr fo c x w im) (2 ^ w)] 4) c := by
  simp only [opLoad, widthOf, h]

/-- A load of the context: LD and LDACQ, which complete alike. -/
abbrev IsLoad (i : Instr) (d : BitVec 6) : Prop := (∃ x w im, i = .ld d x w im) ∨ ∃ x im, i = .ldacq d x im

theorem writes_load (hi : IsLoad i d) (accs : List Acc) (lat : Nat) : writes (mkFlight i fo c accs lat) = false := by
  cases hctx : fo.ctx <;> rcases hi with ⟨_, _, _, rfl⟩ | ⟨_, _, rfl⟩ <;> simp [writes, mkFlight, hctx]

theorem complete_load {fl : Flight} (hi : IsLoad fl.ins d) (c : Core) :
    complete fl c = (none, retireF fl fl.lat 0 [effS fl.foc d.toNat (wN (leNat fl.bytes))] c) := by
  rcases hi with ⟨_, _, _, hi⟩ | ⟨_, _, hi⟩ <;> simp only [complete, hi] <;> rfl

theorem opLoad_free (hi : IsLoad i d) (h : addrTrap fo c (localAddr fo c x w im) (2 ^ w) (2 ^ w) = none)
    (hfree : accFree c (localAddr fo c x w im) (2 ^ w)) :
    opLoad i x w im fo c = retireS fo 4 0 d.toNat (wN (leNat (spBytes fo c (localAddr fo c x w im) (2 ^ w))))
      (accTake c (localAddr fo c x w im) (2 ^ w)) := by
  rw [opLoad_pass h, retireS]
  exact (launch_free (effs := fun l => [effS fo d.toNat (wN (leNat l))]) rfl (writes_load hi ..) (by positivity) hfree
    fun accs e => complete_load hi e).trans (retireF_eq_retire rfl ..)

theorem opLoad_taken (hi : IsLoad i d) (hw : 2 ^ w ∣ 0x80000)
    (h : addrTrap fo c (localAddr fo c x w im) (2 ^ w) (2 ^ w) = none)
    (hbusy : ¬accFree c (localAddr fo c x w im) (2 ^ w)) :
    opLoad i x w im fo c = addFlight (mkFlight i fo c [mkAcc 0 (localAddr fo c x w im) (2 ^ w)] 4) c := by
  have hbank := bankOf_aligned hw (addrTrap_eq_none_iff.mp h).1
  rw [accFree_of_oneBank hbank, not_not] at hbusy
  rw [opLoad_pass h]
  exact launch_taken rfl (writes_load hi ..) (by simpa [accBanks_of_oneBank hbank] using hbusy)

/-! ### ST and STREL (R115, R116) -/

theorem opStore_trap {k v : Nat} (h : addrTrap fo c (localAddr fo c x w im) (2 ^ w) (2 ^ w) = some (k, v)) :
    opStore i d x w im fo c = takeTrap fo k (wN v) c := by
  simp only [opStore, widthOf, h, wN]

theorem opStore_pass (h : addrTrap fo c (localAddr fo c x w im) (2 ^ w) (2 ^ w) = none) :
    opStore i d x w im fo c = storeBy fo i (localAddr fo c x w im) (leBytes (2 ^ w) (rdS fo c d.toNat).toNat) c := by
  simp only [opStore, widthOf, h]

theorem opStore_prim (h : addrTrap fo c (localAddr fo c x w im) (2 ^ w) (2 ^ w) = none) (hfo : ofPrim fo) :
    opStore i d x w im fo c =
      withhold fo (.store (localAddr fo c x w im) (leBytes (2 ^ w) (rdS fo c d.toNat).toNat)) c := by
  have hctx : fo.ctx = .prim := hfo
  simp only [opStore_pass h, storeBy, hctx]

theorem opStore_gate (h : addrTrap fo c (localAddr fo c x w im) (2 ^ w) (2 ^ w) = none) (hfo : ofGate fo) :
    opStore i d x w im fo c =
      retire fo 1 0 [.store (localAddr fo c x w im) (leBytes (2 ^ w) (rdS fo c d.toNat).toNat)] (gatePort c) := by
  have hctx : fo.ctx = .gate := hfo
  simp only [opStore_pass h, storeBy, hctx]

/-- A scalar store: ST and STREL, which go to the port alike. -/
abbrev IsStore (i : Instr) : Prop := (∃ d x w im, i = .st d x w im) ∨ ∃ d x im, i = .strel d x im

theorem opStore_helper {k : Nat} (hi : IsStore i) (hw : 2 ^ w ∣ 0x80000)
    (h : addrTrap fo c (localAddr fo c x w im) (2 ^ w) (2 ^ w) = none) (hfo : ofHelper fo k)
    (hfree : accFree c (localAddr fo c x w im) (2 ^ w)) :
    opStore i d x w im fo c = retire fo 1 0 [] (accWrite (accTake c (localAddr fo c x w im) (2 ^ w))
      [(localAddr fo c x w im, leBytes (2 ^ w) (rdS fo c d.toNat).toNat)]) := by
  have hctx : fo.ctx = .helper k := hfo
  have hbank := bankOf_aligned hw (addrTrap_eq_none_iff.mp h).1
  have hlen : (leBytes (2 ^ w) (rdS fo c d.toNat).toNat).length = 2 ^ w := Laws.length_leBytes ..
  have ha : localAddr fo c x w im < 2 ^ 64 := (localAddr_lt fo c x w im).trans (by decide)
  simp only [opStore_pass h, storeBy, hctx, hlen]
  refine (launch_store rfl hlen ?_ rfl ha (by positivity) hbank hfree fun accs e => ?_).trans (retireF_eq_retire rfl ..)
  · rcases hi with ⟨_, _, _, _, rfl⟩ | ⟨_, _, _, rfl⟩ <;> simp [writes, mkFlight, hctx]
  · rcases hi with ⟨_, _, _, _, rfl⟩ | ⟨_, _, _, rfl⟩ <;> simp [complete, writes, mkFlight, hctx] <;> rfl

end

end Sys2Proof.Machine

namespace Sys2Proof.Proofs

open Sys2Proof Sys2Proof.Machine

/-- Settles O13: alignment first, then the end of the storage, then the fences of the banks touched. -/
theorem localAddressChecks : Obligations.LocalAddressChecks := by
  intro fo c a n al hn
  have hfence := meetsFence_iff (f := c.fences) (a := a) hn
  rw [← spSize_eq]
  refine ⟨addrTrap_of_misaligned, fun hal hend => addrTrap_of_outside hal ?_, fun hal hend => ⟨fun b hb hf hlo hhi => ?_, fun hclear => ?_⟩⟩
  · rw [← Bool.not_eq_true, inRange_iff]
    omega
  · rw [addrTrap_of_outside hal, cLOCALRANGE]
    rw [← Bool.not_eq_true, inRange_iff, hfence.2 ⟨b, hb, hf, hlo, hhi⟩]
    simp
  · refine addrTrap_eq_none_iff.2 ⟨hal, inRange_iff.2 ⟨hend, Bool.eq_false_iff.2 fun hmeets => ?_⟩⟩
    obtain ⟨b, hb, hf, hlo, hhi⟩ := hfence.1 hmeets
    have := hclear b hb hlo hhi
    omega

/-- Settles O11: both loads by what an address that traps, one whose bank is free and one whose bank is taken make of them. -/
theorem scalarLoads : Obligations.ScalarLoads := by
  have hld (d x : BitVec 6) (w : BitVec 2) (im : BitVec 10) : IsLoad (.ld d x w im) d := .inl ⟨_, _, _, rfl⟩
  have hldacq (d x : BitVec 6) (im : BitVec 10) : IsLoad (.ldacq d x im) d := .inr ⟨_, _, rfl⟩
  exact ⟨fun d x w im => doesWhen_of_onCore (fun _ => rfl) fun fo c ⟨h, hfree⟩ => opLoad_free (hld d x w im) h hfree,
    fun d x im => doesWhen_of_onCore (fun _ => rfl) fun fo c ⟨h, hfree⟩ => opLoad_free (w := 3) (hldacq d x im) h hfree,
    fun d x w im => doesWhen_of_onCore (fun _ => rfl) fun fo c ⟨h, hbusy⟩ =>
      opLoad_taken (hld d x w im) (width_dvd_bank w) h hbusy,
    fun d x im => doesWhen_of_onCore (fun _ => rfl) fun fo c ⟨h, hbusy⟩ =>
      opLoad_taken (w := 3) (hldacq d x im) (by decide) h hbusy,
    fun d x w im k v => doesWhen_of_onCore (fun _ => rfl) fun fo c h => opLoad_trap h,
    fun d x im k v => doesWhen_of_onCore (fun _ => rfl) fun fo c h => opLoad_trap (w := 3) h, localAddr_eq⟩

/-- Settles O12: both stores by where the context's bytes go, and by what an address that traps makes of them. -/
theorem scalarStores : Obligations.ScalarStores := by
  have hst (d x : BitVec 6) (w : BitVec 2) (im : BitVec 10) : IsStore (.st d x w im) := .inl ⟨_, _, _, _, rfl⟩
  have hstrel (d x : BitVec 6) (im : BitVec 10) : IsStore (.strel d x im) := .inr ⟨_, _, _, rfl⟩
  exact ⟨fun d x w im => doesWhen_of_onCore (fun _ => rfl) fun fo c ⟨h, hfo, hfits⟩ =>
      (opStore_prim h hfo).trans (withhold_fits hfits),
    fun d x w im k => doesWhen_of_onCore (fun _ => rfl) fun fo c ⟨h, hfo, hfree⟩ =>
      opStore_helper (hst d x w im) (width_dvd_bank w) h hfo hfree,
    fun d x w im => doesWhen_of_onCore (fun _ => rfl) fun fo c ⟨h, hfo⟩ => opStore_gate h hfo,
    fun d x im => doesWhen_of_onCore (fun _ => rfl) fun fo c ⟨h, hfo, hfits⟩ =>
      (opStore_prim (w := 3) h hfo).trans (withhold_fits hfits),
    fun d x im k => doesWhen_of_onCore (fun _ => rfl) fun fo c ⟨h, hfo, hfree⟩ =>
      opStore_helper (w := 3) (hstrel d x im) (by decide) h hfo hfree,
    fun d x w im k v => doesWhen_of_onCore (fun _ => rfl) fun fo c h => opStore_trap h,
    fun d x im k v => doesWhen_of_onCore (fun _ => rfl) fun fo c h => opStore_trap (w := 3) h⟩

end Sys2Proof.Proofs
end

section
/-! PROOFS. What is withheld, as the primary, the helpers and the engines read it (R65, R112; O14). -/

namespace Sys2Proof.Machine

/-! ### Bytes of the scratchpad (R112) -/

theorem fwdByte_append (a : Nat) (l : List WhE) (e : WhE) :
    fwdByte a (l ++ [e]) = (whByte a e.w).or (fwdByte a l) := by
  rw [fwdByte, List.foldl_append]
  cases h : whByte a e.w <;> simp [h, fwdByte]

theorem spByte_prim {fo : Focus} (hfo : ofPrim fo) (c : Core) (a : Nat) :
    spByte fo c a = (fwdByte a c.withheld).getD (memRead c.sp a) := by
  have hctx : fo.ctx = .prim := hfo
  simp only [spByte, hctx]
  cases fwdByte a c.withheld <;> rfl

theorem spByte_of_not_prim {fo : Focus} (hfo : ¬ofPrim fo) (c : Core) (a : Nat) : spByte fo c a = memRead c.sp a := by
  unfold spByte
  split
  · next h => exact absurd h hfo
  · rfl

/-- The primary reads the youngest store where it has a byte, and elsewhere what it read before. -/
theorem spByte_withheld_append {fo : Focus} (hfo : ofPrim fo) (c : Core) (e : WhE) (a : Nat) :
    spByte fo { c with withheld := c.withheld ++ [e] } a = (whByte a e.w).getD (spByte fo c a) := by
  rw [spByte_prim hfo, spByte_prim hfo, fwdByte_append, Option.getD_or]

/-- The byte of a store of bytes or of an image. -/
theorem whByte_bytes {w : Wh} {a : Nat} {l : List Byte} (hw : w = .store a l ∨ w = .storeQ a l ∨ w = .storeK a l) (b : Nat) :
    whByte b w = if a ≤ b then l[b - a]? else none := by
  rcases hw with rfl | rfl | rfl <;> rfl

theorem spByte_storeBytes {fo : Focus} (hfo : ofPrim fo) (c : Core) {w : Wh} {a : Nat} {l : List Byte}
    (hw : w = .store a l ∨ w = .storeQ a l ∨ w = .storeK a l) (o b : Nat) :
    spByte fo { c with withheld := c.withheld ++ [⟨o, w⟩] } b =
      if a ≤ b ∧ b < a + l.length then l.getD (b - a) 0 else spByte fo c b := by
  rw [spByte_withheld_append hfo, whByte_bytes hw]
  by_cases hlo : a ≤ b
  · by_cases hhi : b < a + l.length
    · have hin : b - a < l.length := by omega
      simp [hlo, hhi, hin]
    · have hout : l.length ≤ b - a := by omega
      simp [hlo, hhi, hout]
  · simp [hlo]

/-- The byte a scattered word gives an address, where it covers it, else what earlier words gave it. -/
def wordByte (b : Nat) (r : Option Byte) (w : Nat × Lane) : Option Byte :=
  if w.1 ≤ b ∧ b < w.1 + 4 then some (BitVec.ofNat 8 (w.2.toNat / 2 ^ (8 * (b - w.1)))) else r

theorem whByte_scatter (b k : Nat) (ws : List (Nat × Lane)) : whByte b (.scatter k ws) = ws.foldl (wordByte b) none := rfl

theorem foldl_wordByte_miss {b : Nat} {ws : List (Nat × Lane)} (h : ∀ e ∈ ws, ¬(e.1 ≤ b ∧ b < e.1 + 4)) (r : Option Byte) :
    ws.foldl (wordByte b) r = r :=
  List.foldlRecOn (motive := fun x => x = r) ws (wordByte b) rfl fun _ hx e he => (if_neg (h e he)).trans hx

theorem spByte_scatter_hit {fo : Focus} (hfo : ofPrim fo) (c : Core) {l m : List (Nat × Lane)} {a b : Nat} {v : Lane}
    (hlo : a ≤ b) (hhi : b < a + 4) (hm : ∀ e ∈ m, ¬(e.1 ≤ b ∧ b < e.1 + 4)) (o k : Nat) :
    spByte fo { c with withheld := c.withheld ++ [⟨o, .scatter k (l ++ (a, v) :: m)⟩] } b =
      BitVec.ofNat 8 (v.toNat / 2 ^ (8 * (b - a))) := by
  rw [spByte_withheld_append hfo, whByte_scatter, List.foldl_append, List.foldl_cons, foldl_wordByte_miss hm, wordByte,
    if_pos ⟨hlo, hhi⟩, Option.getD_some]

theorem spByte_scatter_miss {fo : Focus} (hfo : ofPrim fo) (c : Core) {ws : List (Nat × Lane)} {b : Nat}
    (h : ∀ e ∈ ws, ¬(e.1 ≤ b ∧ b < e.1 + 4)) (o k : Nat) :
    spByte fo { c with withheld := c.withheld ++ [⟨o, .scatter k ws⟩] } b = spByte fo c b := by
  rw [spByte_withheld_append hfo, whByte_scatter, foldl_wordByte_miss h, Option.getD_none]

/-! ### Reads of the engines (R62): they see the scratchpad alone -/

section
variable (c : Core) (l : List WhE)

theorem bankTurn_withheld (done bs : List Nat) :
    bankTurn done bs { c with withheld := l } = ((bankTurn done bs c).1, { (bankTurn done bs c).2 with withheld := l }) := rfl

theorem burstRead_withheld (q : Nat) : burstRead q { c with withheld := l } = { burstRead q c with withheld := l } := by
  have hrun : running { c with withheld := l } q = running c q := rfl
  have hq : ({ c with withheld := l } : Core).cq q = c.cq q := rfl
  unfold burstRead
  simp only [hrun, hq, bankTurn_withheld]
  split
  · split <;> rfl
  · rfl

theorem turnRead_withheld (got : List (Nat × List Byte)) (rb : List Nat) (a n : Nat) :
    turnRead got rb a n { c with withheld := l } =
      ((turnRead got rb a n c).1, (turnRead got rb a n c).2.1, (turnRead got rb a n c).2.2.1,
        { (turnRead got rb a n c).2.2.2 with withheld := l }) := rfl

theorem arrayRead_withheld : arrayRead { c with withheld := l } = ((arrayRead c).1, { (arrayRead c).2 with withheld := l }) := by
  unfold arrayRead
  dsimp only
  split
  · rfl
  · split
    · rfl
    · rw [turnRead_withheld]
      obtain ⟨d, got, rb, c1⟩ := turnRead _ _ _ _ c
      cases d <;> rfl

theorem swapRead_withheld : swapRead { c with withheld := l } = ((swapRead c).1, { (swapRead c).2 with withheld := l }) := by
  unfold swapRead
  dsimp only
  split
  · rfl
  · split <;> rfl

/-! ### Spill memory (R65) -/

theorem rdSpill_spill (o k j : Nat) (v : Word) :
    rdSpill { c with withheld := c.withheld ++ [⟨o, .spill k v⟩] } j = if j = k then v else rdSpill c j := by
  rw [rdSpill, List.foldl_append]
  exact if_congr eq_comm rfl rfl

end

end Sys2Proof.Machine

namespace Sys2Proof.Proofs

open Sys2Proof Sys2Proof.Machine

/-- Settles O14: the youngest store's bytes before the older ones; helpers and engines read the scratchpad itself. -/
theorem withheldStoresForwarded : Obligations.WithheldStoresForwarded := by
  refine ⟨fun fo c o a b l w hfo hw => spByte_storeBytes hfo c hw o b, fun fo c o k b ws hfo => ⟨?_, ?_⟩,
    fun fo c b l hfo => spByte_of_not_prim hfo _ b, fun c l q a n got rb => ?_, fun c o k j v => rdSpill_spill c o k j v⟩
  · rintro l m a v rfl hlo hhi hm
    exact spByte_scatter_hit hfo c hlo hhi hm o k
  · exact fun h => spByte_scatter_miss hfo c h o k
  · exact ⟨burstRead_withheld c l q, arrayRead_withheld c l, swapRead_withheld c l, turnRead_withheld c l got rb a n⟩

end Sys2Proof.Proofs
end

section
/-! PROOFS. Vector loads and stores, lane-addressed accesses (R61, R85, R113, R118, R119; O16, O17). -/

namespace Sys2Proof.Machine

/-! ### What a result on its way and a post-increment leave -/

section
variable {fo : Focus} {c : Core}

@[simp] theorem cyc_retire (lat : Nat) (fl : Flags) (effs : List Eff) : (retire fo lat fl effs c).cyc = c.cyc := by
  unfold retire
  split <;> rfl

@[simp] theorem withheld_retire (lat : Nat) (fl : Flags) (effs : List Eff) :
    (retire fo lat fl effs c).withheld = c.withheld := by
  unfold retire
  split <;> rfl

@[simp] theorem sp_retire (lat : Nat) (fl : Flags) (effs : List Eff) : (retire fo lat fl effs c).sp = c.sp := by
  unfold retire
  split <;> rfl

theorem spBytes_congr {d : Core} (hw : d.withheld = c.withheld) (hsp : d.sp = c.sp) (a n : Nat) :
    spBytes fo d a n = spBytes fo c a n := by
  have hbyte (b : Nat) : spByte fo d b = spByte fo c b := by rw [spByte, spByte, hw, hsp]
  simp only [spBytes, hbyte]

@[simp] theorem spBytes_retire (lat : Nat) (fl : Flags) (effs : List Eff) (a n : Nat) :
    spBytes fo (retire fo lat fl effs c) a n = spBytes fo c a n :=
  spBytes_congr (withheld_retire ..) (sp_retire ..) a n

theorem accFree_congr {d : Core} (h : d.cyc = c.cyc) (a n : Nat) : accFree d a n ↔ accFree c a n := by
  rw [accFree, h]

/-- The core with the post-increment of its pointer on its way (R85). -/
theorem bump_eq (a : Nat) (k : BitVec 3) :
    bump fo a k.toNat c = if k = 0 then c else retire fo 1 0 [effA fo a (bumped fo c a k.toNat)] c := by
  by_cases hk : k = 0
  · simp [bump, hk]
  · have hk' : k.toNat ≠ 0 := fun h => hk (BitVec.eq_of_toNat_eq h)
    simp only [bump, bumpEff, if_neg hk, if_neg hk']

@[simp] theorem cyc_bump (a k : Nat) : (bump fo a k c).cyc = c.cyc := by
  unfold bump
  split <;> simp

@[simp] theorem spBytes_bump (a k b n : Nat) : spBytes fo (bump fo a k c) b n = spBytes fo c b n := by
  unfold bump
  split <;> simp

@[simp] theorem ordOf_bump (a k : Nat) : ordOf fo (bump fo a k c) = ordOf fo c := by
  unfold bump
  split <;> simp

/-! ### VLD and VST (R118) -/

/-- A read of a vector into the grid: VLD and HPOP, which complete alike. -/
abbrev IsVecRead (i : Instr) (g : BitVec 8) : Prop := (∃ a k o, i = .vld g a k o) ∨ ∃ h, i = .hpop g h

theorem writes_vecRead {i : Instr} {g : BitVec 8} (hi : IsVecRead i g) (accs : List Acc) (lat : Nat) :
    writes (mkFlight i fo c accs lat) = false := by
  cases hctx : fo.ctx <;> rcases hi with ⟨_, _, _, rfl⟩ | ⟨_, rfl⟩ <;> simp [writes, mkFlight, hctx]

theorem complete_vecRead {fl : Flight} {g : BitVec 8} (hi : IsVecRead fl.ins g) (c : Core) :
    complete fl c = (none, retireF fl fl.lat 0 [.vec (.grid g.toNat) (bytesVec fl.bytes 64) (BitVec.allOnes 64)] c) := by
  rcases hi with ⟨_, _, _, hi⟩ | ⟨_, hi⟩ <;> simp only [complete, hi] <;> rfl

/-- A vector read whose banks are free, in a core that is of the same order as the one it was issued at. -/
theorem launch_vecRead {i : Instr} {g : BitVec 8} (hi : IsVecRead i g) {d : Core} (hord : ordOf fo d = ordOf fo c) {a : Nat}
    (hfree : accFree d a 256) (lat : Nat) :
    launch (mkFlight i fo c [mkAcc 0 a 256] lat) d =
      retire fo lat 0 [.vec (.grid g.toNat) (bytesVec (spBytes fo d a 256) 64) (BitVec.allOnes 64)] (accTake d a 256) :=
  (launch_free (effs := fun l => [.vec (.grid g.toNat) (bytesVec l 64) (BitVec.allOnes 64)]) rfl (writes_vecRead hi ..)
    (by decide) hfree fun accs e => complete_vecRead hi e).trans (retireF_eq_retire hord ..)

theorem vecAddr_eq (a : BitVec 4) (o : BitVec 8) :
    vecAddr fo c a o = (((rdA fo c a.toNat).toNat + 32 * o.toInt) % 2 ^ 32).toNat := by
  rw [vecAddr, sext_toNat, wrapN]
  push_cast
  rfl

section
variable {i : Instr} {g o : BitVec 8} {a : BitVec 4} {k : BitVec 3}

theorem opVld_trap {t v : Nat} (h : addrTrap fo c (vecAddr fo c a o) 256 4 = some (t, v)) :
    opVld i a k o fo c = takeTrap fo t (wN v) c := by
  simp only [opVld, h, wN]

theorem opVld_pass (h : addrTrap fo c (vecAddr fo c a o) 256 4 = none) :
    opVld i a k o fo c = launch (mkFlight i fo c [mkAcc 0 (vecAddr fo c a o) 256] 5) (bump fo a.toNat k.toNat c) := by
  simp only [opVld, h]

theorem opVld_free (h : addrTrap fo c (vecAddr fo c a o) 256 4 = none) (hfree : accFree c (vecAddr fo c a o) 256) :
    opVld (.vld g a k o) a k o fo c =
      retire fo 5 0 [.vec (.grid g.toNat) (bytesVec (spBytes fo c (vecAddr fo c a o) 256) 64) (BitVec.allOnes 64)]
        (accTake (bump fo a.toNat k.toNat c) (vecAddr fo c a o) 256) := by
  rw [opVld_pass h]
  have hfree' := (accFree_congr (cyc_bump (fo := fo) a.toNat k.toNat) _ _).2 hfree
  rw [launch_vecRead (.inl ⟨_, _, _, rfl⟩) (ordOf_bump ..) hfree', spBytes_bump]

theorem opVld_taken (h : addrTrap fo c (vecAddr fo c a o) 256 4 = none)
    (hbusy : ∀ b ∈ accBanks (vecAddr fo c a o) 256, b ∈ c.cyc.turns) :
    opVld (.vld g a k o) a k o fo c =
      addFlight (mkFlight (.vld g a k o) fo c [mkAcc 0 (vecAddr fo c a o) 256] 5) (bump fo a.toNat k.toNat c) := by
  rw [opVld_pass h]
  exact launch_taken rfl (writes_vecRead (.inl ⟨_, _, _, rfl⟩) ..) (by simpa using hbusy)

theorem opVst_trap {t v : Nat} (h : addrTrap fo c (vecAddr fo c a o) 256 4 = some (t, v)) :
    opVst i g a k o fo c = takeTrap fo t (wN v) c := by
  simp only [opVst, h, wN]

theorem opVst_prim_fits (h : addrTrap fo c (vecAddr fo c a o) 256 4 = none) (hfo : ofPrim fo)
    (hfits : fits c (.store (vecAddr fo c a o) (vecBytes (rdGrid c g.toNat))) = true) :
    opVst i g a k o fo c =
      withholdNow fo (.store (vecAddr fo c a o) (vecBytes (rdGrid c g.toNat))) (bump fo a.toNat k.toNat c) := by
  have hctx : fo.ctx = .prim := hfo
  simp only [opVst, h, hctx, hfits, if_true]

theorem opVst_prim_full (h : addrTrap fo c (vecAddr fo c a o) 256 4 = none) (hfo : ofPrim fo)
    (hfull : fits c (.store (vecAddr fo c a o) (vecBytes (rdGrid c g.toNat))) = false) :
    opVst i g a k o fo c = takeTrap fo cWITHHOLD 0 c := by
  have hctx : fo.ctx = .prim := hfo
  simp only [opVst, h, hctx, hfull]
  rfl

theorem opVst_helper {n : Nat} (h : addrTrap fo c (vecAddr fo c a o) 256 4 = none) (hfo : ofHelper fo n) :
    opVst i g a k o fo c = addFlight { mkFlight i fo c [mkAcc 0 (vecAddr fo c a o) 256] 1 with
      vals := [wN (vecAddr fo c a o)], data := vecBytes (rdGrid c g.toNat), delay := fo.beats }
      (bump fo a.toNat k.toNat c) := by
  have hctx : fo.ctx = .helper n := hfo
  simp only [opVst, h, hctx, wN]

theorem opVst_gate (h : addrTrap fo c (vecAddr fo c a o) 256 4 = none) (hfo : ofGate fo) :
    opVst i g a k o fo c = retire fo 1 0 [.store (vecAddr fo c a o) (vecBytes (rdGrid c g.toNat))]
      (gatePort (bump fo a.toNat k.toNat c)) := by
  have hctx : fo.ctx = .gate := hfo
  simp only [opVst, h, hctx]

end

/-! ### VLDX and VSTX (R113, R119) -/

theorem firstTrap_eq_none_iff {l : List (Nat × Nat × Nat)} :
    firstTrap fo c l = none ↔ ∀ e ∈ l, addrTrap fo c e.1 e.2.1 e.2.2 = none := by
  induction l with
  | nil => simp [firstTrap]
  | cons e l ih =>
    rw [firstTrap, List.forall_mem_cons, ← ih]
    cases addrTrap fo c e.1 e.2.1 e.2.2 <;> simp

theorem firstTrap_append {l m : List (Nat × Nat × Nat)} (h : firstTrap fo c l = none) :
    firstTrap fo c (l ++ m) = firstTrap fo c m := by
  induction l with
  | nil => rfl
  | cons e l ih =>
    obtain ⟨he, hl⟩ := List.forall_mem_cons.1 (firstTrap_eq_none_iff.1 h)
    rw [List.cons_append, firstTrap, he]
    exact ih (firstTrap_eq_none_iff.2 hl)

theorem lanesTrap_eq_none_iff (l : List Nat) : lanesTrap fo c l = none ↔ ∀ x ∈ l, addrTrap fo c x 4 4 = none := by
  simp [lanesTrap, firstTrap_eq_none_iff]

/-- The first lane in order that fails gives the trap. -/
theorem lanesTrap_first {l m : List Nat} {a : Nat} {t : Nat × Nat} (hl : ∀ x ∈ l, addrTrap fo c x 4 4 = none)
    (ha : addrTrap fo c a 4 4 = some t) : lanesTrap fo c (l ++ a :: m) = some t := by
  rw [lanesTrap, List.map_append, firstTrap_append ((lanesTrap_eq_none_iff l).2 hl), List.map_cons, firstTrap, ha]

theorem laneAddrs_getD (a : BitVec 4) (i : BitVec 8) {j : Nat} (hj : j < 64) :
    (laneAddrs fo c a i).getD j 0 = ((rdA fo c a.toNat).toNat + 4 * ((rdGrid c i.toNat).getD j 0).toNat) % 2 ^ 32 := by
  simp [laneAddrs, lane, hj]

/-- With every bank free the first eight lanes transfer, and every bank is held. -/
theorem stepAcc_lanes (l : List Nat) (h : c.cyc.turns = []) :
    (stepAcc fo c (laneAcc l)).2 = { c.cyc with turns := [0, 1, 2], used := c.cyc.used ++ [0, 1, 2] } ∧
    (stepAcc fo c (laneAcc l)).1.doneB = false := by
  have hrange : List.range 8 = [0, 1, 2, 3, 4, 5, 6, 7] := rfl
  simp [stepAcc, laneAcc, hrange, h, Acc.doneB]

theorem launch_lanes {fl : Flight} {l : List Nat} (haccs : fl.accs = [laneAcc l]) (hw : writes fl = false)
    (h : c.cyc.turns = []) :
    launch fl c = addFlight { fl with accs := [(stepAcc fl.foc c (laneAcc l)).1] }
      { c with cyc := { c.cyc with turns := [0, 1, 2], used := c.cyc.used ++ [0, 1, 2] } } := by
  obtain ⟨hcyc, hgoes⟩ := stepAcc_lanes (fo := fl.foc) l h
  have hpump : pump fl c = (some { fl with accs := [(stepAcc fl.foc c (laneAcc l)).1] },
      { c with cyc := { c.cyc with turns := [0, 1, 2], used := c.cyc.used ++ [0, 1, 2] } }) := by
    unfold pump
    simp only [haccs, stepAccs]
    generalize stepAcc fl.foc c (laneAcc l) = r at hcyc hgoes
    obtain ⟨acc, cyc⟩ := r
    obtain rfl : cyc = _ := hcyc
    simp [hgoes, hw]
  rw [launch, hpump]

section
variable {g i : BitVec 8} {a : BitVec 4}

theorem opVldx_trap {ins : Instr} {k v : Nat} (h : lanesTrap fo c (laneAddrs fo c a i) = some (k, v)) :
    opVldx ins a i fo c = takeTrap fo k (wN v) c := by
  simp only [opVldx, h, wN]

theorem opVstx_trap {ins : Instr} {k v : Nat} (h : lanesTrap fo c (laneAddrs fo c a i) = some (k, v)) :
    opVstx ins g a i fo c = takeTrap fo k (wN v) c := by
  simp only [opVstx, h, wN]

/-- The flight of VLDX or VSTX after its first port cycle. -/
def laneFlight (ins : Instr) (fo : Focus) (c : Core) (a : BitVec 4) (i : BitVec 8) (lat : Nat) : Flight :=
  { mkFlight ins fo c [] lat with accs := [(stepAcc fo c (laneAcc (laneAddrs fo c a i))).1] }

/-- The core with every bank held. -/
def allBanksTaken (c : Core) : Core :=
  { c with cyc := { c.cyc with turns := [0, 1, 2], used := c.cyc.used ++ [0, 1, 2] } }

theorem opVldx_pass (h : lanesTrap fo c (laneAddrs fo c a i) = none) (hturns : c.cyc.turns = []) :
    opVldx (.vldx g a i) a i fo c =
      addFlight (laneFlight (.vldx g a i) fo c a i (6 + (fo.beats - 1))) (allBanksTaken c) := by
  simp only [opVldx, h]
  refine launch_lanes rfl ?_ hturns
  cases hctx : fo.ctx <;> simp [writes, mkFlight, hctx]

theorem opVstx_prim_fits (h : lanesTrap fo c (laneAddrs fo c a i) = none) (hfo : ofPrim fo) (hturns : c.cyc.turns = [])
    (hfits : fits c (.scatter 64 (List.zip (laneAddrs fo c a i) (rdGrid c g.toNat))) = true) :
    opVstx (.vstx g a i) g a i fo c =
      addFlight { laneFlight (.vstx g a i) fo c a i 1 with
          vx := rdGrid c g.toNat, vy := (laneAddrs fo c a i).map (BitVec.ofNat 32) }
        (withholdNow fo (.scatter 64 (List.zip (laneAddrs fo c a i) (rdGrid c g.toNat))) (allBanksTaken c)) := by
  have hctx : fo.ctx = .prim := hfo
  simp only [opVstx, h, hctx, hfits, if_true]
  exact launch_lanes rfl (by simp [writes, mkFlight, hctx]) hturns

theorem opVstx_prim_full {ins : Instr} (h : lanesTrap fo c (laneAddrs fo c a i) = none) (hfo : ofPrim fo)
    (hfull : fits c (.scatter 64 (List.zip (laneAddrs fo c a i) (rdGrid c g.toNat))) = false) :
    opVstx ins g a i fo c = takeTrap fo cWITHHOLD 0 c := by
  have hctx : fo.ctx = .prim := hfo
  simp only [opVstx, h, hctx, hfull]
  rfl

theorem opVstx_helper {n : Nat} (h : lanesTrap fo c (laneAddrs fo c a i) = none) (hfo : ofHelper fo n)
    (hturns : c.cyc.turns = []) :
    opVstx (.vstx g a i) g a i fo c =
      addFlight { laneFlight (.vstx g a i) fo c a i 1 with
          vx := rdGrid c g.toNat, vy := (laneAddrs fo c a i).map (BitVec.ofNat 32) } (allBanksTaken c) := by
  have hctx : fo.ctx = .helper n := hfo
  simp only [opVstx, h, hctx]
  exact launch_lanes rfl (by simp [writes, mkFlight, hctx]) hturns

end

end

end Sys2Proof.Machine

namespace Sys2Proof.Proofs

open Sys2Proof Sys2Proof.Machine

/-- Settles O16: VLD by its banks, VST by its context, with the pointer's post-increment on its way. -/
theorem vectorLoadsAndStores : Obligations.VectorLoadsAndStores := by
  refine ⟨fun g a k o => doesWhen_of_onCore (fun _ => rfl) fun fo c ⟨h, hfree⟩ => ?_,
    fun g a k o => doesWhen_of_onCore (fun _ => rfl) fun fo c ⟨h, hfo, hfits⟩ => ?_,
    fun g a k o => doesWhen_of_onCore (fun _ => rfl) fun fo c ⟨h, hbusy⟩ => ?_,
    fun g a k o n => doesWhen_of_onCore (fun _ => rfl) fun fo c ⟨h, hfo⟩ => ?_,
    fun g a k o => doesWhen_of_onCore (fun _ => rfl) fun fo c ⟨h, hfo⟩ => ?_,
    fun g a k o t v => doesWhen_of_onCore (fun _ => rfl) fun fo c h => opVld_trap h,
    fun g a k o t v => doesWhen_of_onCore (fun _ => rfl) fun fo c h => opVst_trap h,
    fun fo c a o => vecAddr_eq a o⟩
  · rw [← bump_eq]
    exact opVld_free h hfree
  · rw [← bump_eq, opVst_prim_fits h hfo hfits, withholdNow, ordOf_bump]
  · rw [← bump_eq]
    exact opVld_taken h hbusy
  · rw [← bump_eq]
    exact opVst_helper h hfo
  · rw [← bump_eq]
    exact opVst_gate h hfo

/-- Settles O17: the first failing lane, or the first of eight port cycles with every bank held. -/
theorem laneAddressedAccesses : Obligations.LaneAddressedAccesses :=
  ⟨fun _ _ _ => doesWhen_of_onCore (fun _ => rfl) fun _ _ ⟨h, hturns⟩ => opVldx_pass h hturns,
    fun _ _ _ => doesWhen_of_onCore (fun _ => rfl) fun _ _ ⟨h, hfo, hturns, hfits⟩ => opVstx_prim_fits h hfo hturns hfits,
    fun _ _ _ _ => doesWhen_of_onCore (fun _ => rfl) fun _ _ ⟨h, hfo, hturns⟩ => opVstx_helper h hfo hturns,
    fun _ _ _ _ _ => ⟨doesWhen_of_onCore (fun _ => rfl) fun _ _ h => opVldx_trap h,
      doesWhen_of_onCore (fun _ => rfl) fun _ _ h => opVstx_trap h⟩,
    fun _ _ a i _ hj => laneAddrs_getD a i hj, fun _ _ _ _ _ _ hl ha => lanesTrap_first hl ha,
    fun _ _ l => lanesTrap_eq_none_iff l⟩

end Sys2Proof.Proofs
end

section
/-! PROOFS. Register images and their moves (R58, R59, R113, R120, R121; O18). -/

namespace Sys2Proof.Machine

/-! ### Images -/

/-- Pieces of one length, one after the other: the piece at its place. -/
theorem take_drop_flatMap_range {α : Type} {f : Nat → List α} {k : Nat} (hf : ∀ i, (f i).length = k) {n p : Nat} (hp : p < n) :
    (((List.range n).flatMap f).drop (k * p)).take k = f p := by
  have hlen (m : Nat) : ((List.range m).flatMap f).length = k * m := by
    simp [List.length_flatMap, hf, Nat.mul_comm]
  have hsplit : List.range n = List.range p ++ p :: (List.range (n - (p + 1))).map (p + 1 + ·) := by
    rw [← List.singleton_append, ← List.append_assoc, ← List.range_succ, ← List.range_add, Nat.add_sub_cancel' hp]
  rw [hsplit, List.flatMap_append, List.flatMap_cons, List.drop_left' (hlen p), List.take_left' (hf p)]

theorem length_qImage (q : QReg) : (qImage q).length = 1026 := by
  simp [qImage, List.length_flatMap]

/-- The eight bytes of a list image for one position (R121): index and score, zero from the count on. -/
def entryImage (l : CandList) (p : Nat) : List Byte :=
  let e := if p < l.count then l.ents.getD p (0, 0) else (0, 0)
  leBytes 4 e.2.toNat ++ leBytes 4 e.1.toNat

theorem length_entryImage (l : CandList) (p : Nat) : (entryImage l p).length = 8 := by
  simp [entryImage]

theorem listImage_eq (l : CandList) : listImage l = leBytes 8 l.count ++ (List.range 64).flatMap (entryImage l) := rfl

theorem length_listImage (l : CandList) : (listImage l).length = 520 := by
  simp [listImage_eq, List.length_flatMap, length_entryImage]

theorem entry_of_listImage (l : CandList) {p : Nat} (hp : p < 64) :
    ((listImage l).drop (8 * p + 8)).take 8 = entryImage l p := by
  rw [listImage_eq, Nat.add_comm, ← List.drop_drop, List.drop_left' (Laws.length_leBytes ..),
    take_drop_flatMap_range (length_entryImage l) hp]

theorem lane_of_leBytes (v : Lane) : BitVec.ofNat 32 (leNat (leBytes 4 v.toNat)) = v := by
  rw [Laws.leNat_leBytes, Nat.mod_eq_of_lt v.isLt, BitVec.ofNat_toNat, BitVec.setWidth_eq]

theorem index_of_listImage {l : CandList} {p : Nat} (hp : p < 64) (hlive : p < l.count) :
    BitVec.ofNat 32 (leNat (((listImage l).drop (8 * p + 8)).take 4)) = (l.ents.getD p (0, 0)).2 := by
  have h4 : ((listImage l).drop (8 * p + 8)).take 4 = (entryImage l p).take 4 := by
    rw [← entry_of_listImage l hp, List.take_take]
    rfl
  rw [h4, entryImage, if_pos hlive, List.take_left' (Laws.length_leBytes ..), lane_of_leBytes]

theorem score_of_listImage {l : CandList} {p : Nat} (hp : p < 64) (hlive : p < l.count) :
    BitVec.ofNat 32 (leNat (((listImage l).drop (8 * p + 12)).take 4)) = (l.ents.getD p (0, 0)).1 := by
  have h4 : ((listImage l).drop (8 * p + 12)).take 4 = ((entryImage l p).drop 4).take 4 := by
    rw [← entry_of_listImage l hp, List.drop_take, List.drop_drop, List.take_take]
    rfl
  rw [h4, entryImage, if_pos hlive, List.drop_left' (Laws.length_leBytes ..), List.take_of_length_le (by simp),
    lane_of_leBytes]

/-- The 64 entries a list's image reads as, the ones the list does not count included. -/
def readEntries (l : CandList) : List (Lane × Lane) :=
  (List.range 64).map fun p =>
    (BitVec.ofNat 32 (leNat (((listImage l).drop (8 * p + 12)).take 4)),
      BitVec.ofNat 32 (leNat (((listImage l).drop (8 * p + 8)).take 4)))

theorem take_readEntries {l : CandList} (hc : l.count ≤ 64) (hl : l.ents.length = 64) :
    (readEntries l).take l.count = l.live := by
  refine List.ext_getElem (by simp [readEntries, CandList.live, hl]) fun p hp _ => ?_
  have hlive : p < l.count := by simp at hp; omega
  have hp64 : p < 64 := by omega
  have hents : l.ents.getD p (0, 0) = l.ents[p] := List.getD_eq_getElem _ _ (hl ▸ hp64)
  simp only [readEntries, CandList.live, List.getElem_take, List.getElem_map, List.getElem_range,
    score_of_listImage hp64 hlive, index_of_listImage hp64 hlive, hents]

/-- The image of a list gives the list back, as far as it counts. -/
theorem listOfImage_listImage {l : CandList} (hc : l.count ≤ 64) (hl : l.ents.length = 64) :
    ∃ m, listOfImage (listImage l) = some m ∧ m.count = l.count ∧ m.live = l.live := by
  have hcount : leNat ((listImage l).take 8) = l.count := by
    rw [listImage_eq, List.take_left' (Laws.length_leBytes ..), Laws.leNat_leBytes]
    omega
  refine ⟨⟨l.count, readEntries l⟩, ?_, rfl, take_readEntries hc hl⟩
  rw [listOfImage, hcount]
  exact if_pos hc

/-! ### Moves -/

section
variable {fo : Focus} {c : Core} {ins : Instr} {r a : BitVec 4} {l : BitVec 3} {k : BitVec 3}

theorem opQld_pass (h : addrTrap fo c (rdA fo c a.toNat).toNat 1056 256 = none) :
    opQld ins a k fo c =
      launch (mkFlight ins fo c [chunkAcc (rdA fo c a.toNat).toNat 1056] 5) (bump fo a.toNat k.toNat c) := by
  simp only [opQld, ptrAddr, h]

theorem opQld_trap {t v : Nat} (h : addrTrap fo c (rdA fo c a.toNat).toNat 1056 256 = some (t, v)) :
    opQld ins a k fo c = takeTrap fo t (wN v) c := by
  simp only [opQld, ptrAddr, h, wN]

theorem opKld_pass (h : addrTrap fo c (rdA fo c a.toNat).toNat 520 256 = none) :
    opKld ins a k fo c =
      launch { mkFlight ins fo c [chunkAcc (rdA fo c a.toNat).toNat 520] 5 with fin := unbump fo c a.toNat k.toNat }
        (bump fo a.toNat k.toNat c) := by
  simp only [opKld, ptrAddr, h]

theorem opKld_trap {t v : Nat} (h : addrTrap fo c (rdA fo c a.toNat).toNat 520 256 = some (t, v)) :
    opKld ins a k fo c = takeTrap fo t (wN v) c := by
  simp only [opKld, ptrAddr, h, wN]

/-- What a helper's pointer held, kept where its code moves it (R138, R458). -/
theorem unbump_eq : unbump fo c a.toNat k.toNat = (match fo.ctx with
    | .helper h => if k = 0 then [] else [.xback h a.toNat (spGet 0 (c.helper h).x a.toNat)
        ((bumped fo c a.toNat k.toNat).setWidth 64)]
    | _ => []) := by
  have hk : k.toNat = 0 ↔ k = 0 := by
    exact BitVec.toNat_inj (y := 0#3)
  cases hctx : fo.ctx <;> simp [unbump, hctx, hk]

/-- The flight of QST or KST: the image's port cycles, with the image. -/
def imageFlight (ins : Instr) (fo : Focus) (c : Core) (a : BitVec 4) (data : List Byte) : Flight :=
  { mkFlight ins fo c [chunkAcc (rdA fo c a.toNat).toNat data.length] 1 with
    vals := [wN (rdA fo c a.toNat).toNat], data := data }

theorem bigStore_trap {data : List Byte} {w : Wh} {t v : Nat}
    (h : addrTrap fo c (rdA fo c a.toNat).toNat data.length 256 = some (t, v)) :
    bigStore ins fo a k data w c = takeTrap fo t (wN v) c := by
  simp only [bigStore, ptrAddr, h, wN]

theorem bigStore_prim_fits {data : List Byte} {w : Wh}
    (h : addrTrap fo c (rdA fo c a.toNat).toNat data.length 256 = none) (hfo : ofPrim fo) (hfits : fits c w = true) :
    bigStore ins fo a k data w c =
      launch (imageFlight ins fo c a data) (withholdNow fo w (bump fo a.toNat k.toNat c)) := by
  have hctx : fo.ctx = .prim := hfo
  simp only [bigStore, ptrAddr, h, hctx, hfits, if_true]
  rfl

theorem bigStore_prim_full {data : List Byte} {w : Wh}
    (h : addrTrap fo c (rdA fo c a.toNat).toNat data.length 256 = none) (hfo : ofPrim fo) (hfull : fits c w = false) :
    bigStore ins fo a k data w c = takeTrap fo cWITHHOLD 0 c := by
  have hctx : fo.ctx = .prim := hfo
  simp only [bigStore, ptrAddr, h, hctx, hfull]
  rfl

theorem bigStore_helper {data : List Byte} {w : Wh} {n : Nat}
    (h : addrTrap fo c (rdA fo c a.toNat).toNat data.length 256 = none) (hfo : ofHelper fo n) :
    bigStore ins fo a k data w c = launch (imageFlight ins fo c a data) (bump fo a.toNat k.toNat c) := by
  have hctx : fo.ctx = .helper n := hfo
  simp only [bigStore, ptrAddr, h, hctx]
  rfl

/-- The image QST stores: the register's, and zeros up to its 1,056 bytes. -/
def storedQ (c : Core) (r : BitVec 4) : List Byte := qImage (spGet qReg0 c.p.q r.toNat) ++ List.replicate 30 0

theorem length_storedQ : (storedQ c r).length = 1056 := by
  simp [storedQ, length_qImage]

theorem opKst_eq : opKst ins l a k fo c = bigStore ins fo a k (listImage (spGet candList0 c.lists l.toNat))
    (.storeK (rdA fo c a.toNat).toNat (listImage (spGet candList0 c.lists l.toNat))) c := rfl

end

end Sys2Proof.Machine

namespace Sys2Proof.Proofs

open Sys2Proof Sys2Proof.Machine

/-- Settles O18: the moves by what their address makes of them, with the lengths of the images; a list's image by its entries. -/
theorem registerImages : Obligations.RegisterImages := by
  refine ⟨fun r a k => doesWhen_of_onCore (fun _ => rfl) fun fo c h => opQld_pass h,
    fun r a k => doesWhen_of_onCore (fun _ => rfl) fun fo c h => ?kld,
    fun r a k => doesWhen_of_onCore (fun _ => rfl) fun fo c ⟨hfo, h, hfits⟩ => ?qst,
    fun r a k => doesWhen_of_onCore (fun _ => rfl) fun fo c ⟨hfo, h, hfits⟩ => ?kst,
    fun r a k n => doesWhen_of_onCore (fun _ => rfl) fun fo c ⟨hfo, h, _⟩ => ?kstHelper,
    fun r a k t v => ⟨doesWhen_of_onCore (fun _ => rfl) fun fo c h => opQld_trap h,
      doesWhen_of_onCore (fun _ => rfl) fun fo c h => bigStore_trap (length_storedQ ▸ h)⟩,
    fun r a k t v => ⟨doesWhen_of_onCore (fun _ => rfl) fun fo c h => opKld_trap h,
      doesWhen_of_onCore (fun _ => rfl) fun fo c ⟨h, _⟩ => bigStore_trap ((length_listImage _).symm ▸ h)⟩,
    fun l hc hl => ⟨length_listImage l, listOfImage_listImage hc hl⟩⟩
  case kld => rw [opKld_pass h, unbump_eq] <;> rfl
  case qst =>
    have hstore := bigStore_prim_fits (ins := .qst r a k) (k := k) (length_storedQ (c := c) (r := r) ▸ h) hfo hfits
    rw [imageFlight, length_storedQ] at hstore
    exact hstore
  case kst =>
    rw [opKst_eq, bigStore_prim_fits ((length_listImage _).symm ▸ h) hfo hfits, imageFlight, length_listImage]
  case kstHelper =>
    rw [opKst_eq, bigStore_helper ((length_listImage _).symm ▸ h) hfo, imageFlight, length_listImage]

end Sys2Proof.Proofs
end

section
/-! PROOFS. Ring handles and the lift FIFO (R56, R57, R126, R128, R129; O19, O21). -/

namespace Sys2Proof.Machine

section
variable {fo : Focus} {c : Core} {ins : Instr} {g : BitVec 8} {h : BitVec 4}

/-! ### HPUSH (R126) -/

/-- The slot HPUSH writes. -/
abbrev pushAddr (c : Core) (h : BitVec 4) : Nat := hAddr (rdHandle c h.toNat) (hProd (rdHandle c h.toNat)) 0

/-- The slot HPOP reads. -/
abbrev popAddr (c : Core) (h : BitVec 4) : Nat := hAddr (rdHandle c h.toNat) (hCons (rdHandle c h.toNat)) 0

/-- The store of HPUSH into its own core's ring, and the message it sends to another core's. -/
abbrev pushStore (c : Core) (g : BitVec 8) (h : BitVec 4) : Wh := .store (pushAddr c h) (vecBytes (rdGrid c g.toNat))
abbrev pushMsg (c : Core) (g : BitVec 8) (h : BitVec 4) : Wh :=
  .hpush (hRcore (rdHandle c h.toNat)) (hRh (rdHandle c h.toNat)) (pushAddr c h) (vecBytes (rdGrid c g.toNat))

/-- HPUSH may write its own core's ring: not full, the slot clear of fences. -/
structure PushesHere (c : Core) (h : BitVec 4) : Prop where
  room : hFilled (rdHandle c h.toNat) < hSlots (rdHandle c h.toNat)
  own : hRv (rdHandle c h.toNat) = false
  clear : meetsFence c.fences (pushAddr c h) 256 = false

/-- HPUSH may send to a ring of another core of its cluster. -/
structure PushesThere (c : Core) (h : BitVec 4) : Prop where
  room : hFilled (rdHandle c h.toNat) < hSlots (rdHandle c h.toNat)
  remote : hRv (rdHandle c h.toNat) = true
  near : sameCluster c.num (hRcore (rdHandle c h.toNat)) = true
  clear : meetsFence (c.winFence.getD (kOf (hRcore (rdHandle c h.toNat))) 0) (pushAddr c h) 256 = false

theorem opHpush_over (hover : hSlots (rdHandle c h.toNat) ≤ hFilled (rdHandle c h.toNat)) :
    opHpush ins g h fo c = takeTrap fo cHANDLEOVER 0 c := if_pos hover

theorem opHpush_far (hroom : hFilled (rdHandle c h.toNat) < hSlots (rdHandle c h.toNat))
    (hrv : hRv (rdHandle c h.toNat) = true) (hfar : sameCluster c.num (hRcore (rdHandle c h.toNat)) = false) :
    opHpush ins g h fo c = takeTrap fo cHANDLEREMOTE 0 c := by
  simp [opHpush, Nat.not_le.2 hroom, hrv, hfar]

theorem opHpush_fenced (hroom : hFilled (rdHandle c h.toNat) < hSlots (rdHandle c h.toNat))
    (hmeets : meetsFence (if hRv (rdHandle c h.toNat) then c.winFence.getD (kOf (hRcore (rdHandle c h.toNat))) 0
      else c.fences) (pushAddr c h) 256 = true)
    (hnear : hRv (rdHandle c h.toNat) = true → sameCluster c.num (hRcore (rdHandle c h.toNat)) = true) :
    opHpush ins g h fo c = takeTrap fo cLOCALRANGE (wN (pushAddr c h)) c := by
  have hfull := Nat.not_le.2 hroom
  cases hrv : hRv (rdHandle c h.toNat) with
  | true =>
    rw [hrv, if_pos rfl] at hmeets
    simp only [opHpush, hfull, hrv, hnear hrv, hmeets, if_true, if_false, wN]
  | false =>
    rw [hrv, if_neg Bool.false_ne_true] at hmeets
    simp only [opHpush, hfull, hrv, hmeets, if_true, if_false, wN, Bool.false_eq_true]

theorem opHpush_prim_here_fits (hfo : ofPrim fo) (hp : PushesHere c h) (hfits : fits c (pushStore c g h) = true) :
    opHpush ins g h fo c = retire fo 1 0 [.handle h.toNat true 1] (withholdNow fo (pushStore c g h) c) := by
  obtain ⟨hroom, hrv, hclear⟩ := hp
  have hctx : fo.ctx = .prim := hfo
  simp only [opHpush, Nat.not_le.2 hroom, hrv, hclear, hctx, hfits, if_true, if_false, Bool.false_eq_true]

theorem opHpush_prim_here_full (hfo : ofPrim fo) (hp : PushesHere c h) (hfull : fits c (pushStore c g h) = false) :
    opHpush ins g h fo c = takeTrap fo cWITHHOLD 0 c := by
  obtain ⟨hroom, hrv, hclear⟩ := hp
  have hctx : fo.ctx = .prim := hfo
  simp only [opHpush, Nat.not_le.2 hroom, hrv, hclear, hctx, hfull, if_false, Bool.false_eq_true]

theorem opHpush_helper_here {k : Nat} (hfo : ofHelper fo k) (hp : PushesHere c h) :
    opHpush ins g h fo c = retire fo 1 0 [.handle h.toNat true 1] (launch { mkFlight ins fo c [mkAcc 0 (pushAddr c h) 256] 1 with
      vals := [wN (pushAddr c h)], data := vecBytes (rdGrid c g.toNat) } c) := by
  obtain ⟨hroom, hrv, hclear⟩ := hp
  have hctx : fo.ctx = .helper k := hfo
  simp only [opHpush, Nat.not_le.2 hroom, hrv, hclear, hctx, if_false, Bool.false_eq_true, wN]

theorem opHpush_prim_there_fits (hfo : ofPrim fo) (hp : PushesThere c h) (hfits : fits c (pushMsg c g h) = true) :
    opHpush ins g h fo c = retire fo 1 0 [.handle h.toNat true 1] (withholdNow fo (pushMsg c g h) c) := by
  obtain ⟨hroom, hrv, hnear, hclear⟩ := hp
  have hctx : fo.ctx = .prim := hfo
  simp only [opHpush, Nat.not_le.2 hroom, hrv, hnear, hclear, hctx, hfits, if_true, if_false, Bool.false_eq_true]

theorem opHpush_prim_there_full (hfo : ofPrim fo) (hp : PushesThere c h) (hfull : fits c (pushMsg c g h) = false) :
    opHpush ins g h fo c = takeTrap fo cWITHHOLD 0 c := by
  obtain ⟨hroom, hrv, hnear, hclear⟩ := hp
  have hctx : fo.ctx = .prim := hfo
  simp only [opHpush, Nat.not_le.2 hroom, hrv, hnear, hclear, hctx, hfull, if_true, if_false, Bool.false_eq_true]

theorem opHpush_helper_there {k : Nat} (hfo : ofHelper fo k) (hp : PushesThere c h) :
    opHpush ins g h fo c = retire fo 1 0 [.handle h.toNat true 1]
      ((sendOut fo (pushMsg c g h) c).setHelper k { c.helper k with xst := (c.helper k).xst + 1 }) := by
  obtain ⟨hroom, hrv, hnear, hclear⟩ := hp
  have hctx : fo.ctx = .helper k := hfo
  simp only [opHpush, Nat.not_le.2 hroom, hrv, hnear, hclear, hctx, if_true, if_false, Bool.false_eq_true]
  rfl

/-! ### HPOP (R126) -/

/-- A slot begins at a multiple of 256 bytes and so lies in one bank as far as it is read. -/
theorem bankOf_slot (d : BitVec 128) (p o : Nat) : bankOf (hAddr d p o) = bankOf (hAddr d p o + 256 - 1) := by
  refine bankOf_aligned (by decide) ?_
  rw [hAddr_eq, hBase, ← Nat.mul_assoc, ← Nat.add_mul, Nat.mul_mod_left]

/-- The read of HPOP with its own advance on its way, in a core that has sent or withheld what it must. -/
def popRead (ins : Instr) (fo : Focus) (c : Core) (h : BitVec 4) (c1 : Core) : Core :=
  launch (mkFlight ins fo c [mkAcc 0 (popAddr c h) 256] 5) (retire fo 1 0 [.handle h.toNat false 1] c1)

/-- The message of HPOP to a remote end (R126, R128). -/
abbrev popMsg (c : Core) (h : BitVec 4) : Wh :=
  .hadv (hRcore (rdHandle c h.toNat)) (hRh (rdHandle c h.toNat)) false 1

theorem opHpop_under (hempty : hFilled (rdHandle c h.toNat) = 0) :
    opHpop ins h fo c = takeTrap fo cHANDLEUNDER 0 c := if_pos hempty

theorem opHpop_fenced (hsome : hFilled (rdHandle c h.toNat) ≠ 0) (hmeets : meetsFence c.fences (popAddr c h) 256 = true) :
    opHpop ins h fo c = takeTrap fo cLOCALRANGE (wN (popAddr c h)) c := by
  simp only [opHpop, hsome, hmeets, if_true, if_false, wN]

theorem opHpop_own (hsome : hFilled (rdHandle c h.toNat) ≠ 0) (hrv : hRv (rdHandle c h.toNat) = false)
    (hclear : meetsFence c.fences (popAddr c h) 256 = false) : opHpop ins h fo c = popRead ins fo c h c := by
  simp only [opHpop, hsome, hclear, remoteAdv, hrv, if_false, Bool.false_eq_true]
  rfl

theorem opHpop_prim_fits (hfo : ofPrim fo) (hsome : hFilled (rdHandle c h.toNat) ≠ 0)
    (hrv : hRv (rdHandle c h.toNat) = true) (hclear : meetsFence c.fences (popAddr c h) 256 = false)
    (hfits : fits c (popMsg c h) = true) : opHpop ins h fo c = popRead ins fo c h (withholdNow fo (popMsg c h) c) := by
  have hctx : fo.ctx = .prim := hfo
  simp only [opHpop, hsome, hclear, remoteAdv, hrv, hctx, hfits, if_true, if_false, Bool.false_eq_true]
  rfl

theorem opHpop_prim_full (hfo : ofPrim fo) (hsome : hFilled (rdHandle c h.toNat) ≠ 0)
    (hrv : hRv (rdHandle c h.toNat) = true) (hclear : meetsFence c.fences (popAddr c h) 256 = false)
    (hfull : fits c (popMsg c h) = false) : opHpop ins h fo c = takeTrap fo cWITHHOLD 0 c := by
  have hctx : fo.ctx = .prim := hfo
  simp only [opHpop, hsome, hclear, remoteAdv, hrv, hctx, hfull, if_true, if_false, Bool.false_eq_true]

theorem opHpop_helper {k : Nat} (hfo : ofHelper fo k) (hsome : hFilled (rdHandle c h.toNat) ≠ 0)
    (hrv : hRv (rdHandle c h.toNat) = true) (hclear : meetsFence c.fences (popAddr c h) 256 = false) :
    opHpop ins h fo c = popRead ins fo c h (sendOut fo (popMsg c h) c) := by
  have hctx : fo.ctx = .helper k := hfo
  simp only [opHpop, hsome, hclear, remoteAdv, hrv, hctx, if_true, if_false, Bool.false_eq_true]
  rfl

theorem popRead_free {d : Core} (hord : ordOf fo d = ordOf fo c) (hw : d.withheld = c.withheld) (hsp : d.sp = c.sp)
    (hfree : accFree d (popAddr c h) 256) :
    popRead (.hpop g h) fo c h d =
      retire fo 5 0 [.vec (.grid g.toNat) (bytesVec (spBytes fo c (popAddr c h) 256) 64) (BitVec.allOnes 64)]
        (accTake (retire fo 1 0 [.handle h.toNat false 1] d) (popAddr c h) 256) := by
  rw [popRead, launch_vecRead (.inr ⟨h, rfl⟩) ((ordOf_retire ..).trans hord) ((accFree_congr (cyc_retire ..) _ _).2 hfree),
    spBytes_retire, spBytes_congr hw hsp]

theorem popRead_taken (hbusy : ¬accFree c (popAddr c h) 256) :
    popRead (.hpop g h) fo c h c = addFlight (mkFlight (.hpop g h) fo c [mkAcc 0 (popAddr c h) 256] 5)
      (retire fo 1 0 [.handle h.toNat false 1] c) := by
  rw [accFree_of_oneBank (bankOf_slot ..), not_not] at hbusy
  exact launch_taken rfl (writes_vecRead (.inr ⟨h, rfl⟩) ..) (by simpa [accBanks_of_oneBank (bankOf_slot ..)] using hbusy)

/-! ### Counts of a handle (R56, R128) -/

theorem wrapN_add (a n : Nat) : wrapN 32 ((a : Int) + (n : Int)) = (a + n) % 2 ^ 32 := by
  rw [wrapN]
  omega

/-- An advance adds to its own count and leaves the other. -/
theorem handleAdd_counts (d : BitVec 128) (n : Nat) :
    (hProd (handleAdd d true n) = (hProd d + n) % 2 ^ 32 ∧ hCons (handleAdd d true n) = hCons d) ∧
    hCons (handleAdd d false n) = (hCons d + n) % 2 ^ 32 ∧ hProd (handleAdd d false n) = hProd d := by
  have hd : d.toNat < 2 ^ 128 := d.isLt
  simp only [hProd, hCons, handleAdd, if_true, if_false, Bool.false_eq_true, wrapN_add, BitVec.toNat_ofNat, setBits, bits]
  omega

/-! ### LIFT and LPOP (R129) -/

theorem opLift_gated (hgate : c.gate ≠ 0) : opLift g fo c = takeTrap fo cLIFTGATED 0 c := if_pos hgate

theorem opLift_none (hgate : c.gate = 0) (hfree : c.liftFree = 0) : opLift g fo c = takeTrap fo cLIFTFULL 0 c := by
  simp [opLift, hgate, hfree]

theorem opLift_prim_fits (hfo : ofPrim fo) (hgate : c.gate = 0) (hfree : c.liftFree ≠ 0)
    (hfits : fits c (.lift (rdGrid c g.toNat)) = true) :
    opLift g fo c = retire fo 1 0 [.liftFall] (withholdNow fo (.lift (rdGrid c g.toNat)) c) := by
  have hctx : fo.ctx = .prim := hfo
  simp [opLift, hgate, hfree, hctx, hfits]

theorem opLift_prim_full (hfo : ofPrim fo) (hgate : c.gate = 0) (hfree : c.liftFree ≠ 0)
    (hfull : fits c (.lift (rdGrid c g.toNat)) = false) : opLift g fo c = takeTrap fo cWITHHOLD 0 c := by
  have hctx : fo.ctx = .prim := hfo
  simp [opLift, hgate, hfree, hctx, hfull]

theorem opLift_helper {k : Nat} (hfo : ofHelper fo k) (hgate : c.gate = 0) (hfree : c.liftFree ≠ 0) :
    opLift g fo c = retire fo 1 0 [.liftFall] (sendOut fo (.lift (rdGrid c g.toNat)) c) := by
  have hctx : fo.ctx = .helper k := hfo
  simp [opLift, hgate, hfree, hctx]

theorem liftHead_eq_none {k : Nat} (hl : ∀ e ∈ c.lift, ¬(e.1 = k ∧ e.2.1 = 0)) : liftHead c k = none := by
  simpa [liftHead] using hl

/-- The oldest entry that may be popped, behind entries that may not. -/
theorem liftHead_eq_some {k : Nat} {v : Vec} {l m : List (Nat × Nat × Vec)} (hlift : c.lift = l ++ (k, 0, v) :: m)
    (hl : ∀ e ∈ l, ¬(e.1 = k ∧ e.2.1 = 0)) : liftHead c k = some v := by
  have hnone : l.find? (fun e => e.1 = k && e.2.1 = 0) = none := by simpa using hl
  simp [liftHead, hlift, List.find?_append, hnone]

theorem opLpop_some {v : Vec} (hhead : liftHead c c.liftSrc = some v) :
    opLpop g fo c = retire fo 5 0 [.vec (.grid g.toNat) v (BitVec.allOnes 64)] (retire fo 1 0 [.lpop c.liftSrc] c) := by
  simp only [opLpop, hhead]
  rfl

theorem opLpop_none (hhead : liftHead c c.liftSrc = none) : opLpop g fo c = takeTrap fo cLIFTEMPTY 0 c := by
  simp only [opLpop, hhead]

end

end Sys2Proof.Machine

namespace Sys2Proof.Proofs

open Sys2Proof Sys2Proof.Machine

/-- Settles O19: HPUSH and HPOP by their ring, their remote end and their context; an advance by the fields of the handle. -/
theorem ringHandles : Obligations.RingHandles := by
  refine ⟨fun g h => doesWhen_of_onCore (fun _ => rfl) fun _ _ ⟨hfo, hroom, hrv, hclear, hfits⟩ =>
      opHpush_prim_here_fits hfo ⟨hroom, hrv, hclear⟩ hfits,
    fun g h k => doesWhen_of_onCore (fun _ => rfl) fun _ _ ⟨hfo, hroom, hrv, hclear⟩ =>
      opHpush_helper_here hfo ⟨hroom, hrv, hclear⟩,
    fun g h => doesWhen_of_onCore (fun _ => rfl) fun _ _ ⟨hsome, hrv, hclear, hbusy⟩ =>
      (opHpop_own hsome hrv hclear).trans (popRead_taken hbusy),
    fun g h => doesWhen_of_onCore (fun _ => rfl) fun _ _ ⟨hsome, hrv, hclear, hfree⟩ =>
      (opHpop_own hsome hrv hclear).trans (popRead_free rfl rfl rfl hfree),
    fun g h => doesWhen_of_onCore (fun _ => rfl) fun _ _ ⟨hover, _⟩ => opHpush_over hover,
    fun g h => doesWhen_of_onCore (fun _ => rfl) fun _ _ ⟨hroom, hrv, hfar⟩ => opHpush_far hroom hrv hfar,
    fun g h => doesWhen_of_onCore (fun _ => rfl) fun _ _ ⟨hroom, hmeets, hnear⟩ => opHpush_fenced hroom hmeets hnear,
    fun g h => doesWhen_of_onCore (fun _ => rfl) fun _ _ ⟨hsome, hmeets⟩ => opHpop_fenced hsome hmeets,
    fun g h => ⟨doesWhen_of_onCore (fun _ => rfl) fun _ _ ⟨hfo, ⟨hroom, hrv, hnear, hclear⟩, hfits⟩ =>
        opHpush_prim_there_fits hfo ⟨hroom, hrv, hnear, hclear⟩ hfits,
      fun k => doesWhen_of_onCore (fun _ => rfl) fun _ _ ⟨hfo, hroom, hrv, hnear, hclear⟩ =>
        opHpush_helper_there hfo ⟨hroom, hrv, hnear, hclear⟩⟩,
    fun g h => ⟨doesWhen_of_onCore (fun _ => rfl) fun _ _ ⟨hfo, ⟨hsome, hrv, hclear, hfree⟩, hfits⟩ =>
        (opHpop_prim_fits hfo hsome hrv hclear hfits).trans (popRead_free rfl rfl rfl hfree),
      fun k => doesWhen_of_onCore (fun _ => rfl) fun _ _ ⟨hfo, hsome, hrv, hclear, hfree⟩ =>
        (opHpop_helper hfo hsome hrv hclear).trans (popRead_free rfl rfl rfl hfree)⟩,
    fun g h => doesWhen_of_onCore (fun _ => rfl) fun _ _ hempty => opHpop_under hempty, fun d n => ?_⟩
  obtain ⟨⟨hprod, hkeepCons⟩, hcons, hkeepProd⟩ := handleAdd_counts d n
  exact ⟨hprod, hkeepCons, hcons, hkeepProd⟩

/-- Settles O21: LIFT by its gate, its free places and its context, LPOP by the oldest entry that may be popped. -/
theorem liftFifo : Obligations.LiftFifo :=
  ⟨fun _ => doesWhen_of_onCore (fun _ => rfl) fun _ _ ⟨hgate, hfree, hfo, hfits⟩ => opLift_prim_fits hfo hgate hfree hfits,
    fun _ _ => doesWhen_of_onCore (fun _ => rfl) fun _ _ ⟨hfo, hgate, hfree⟩ => opLift_helper hfo hgate hfree,
    fun _ => doesWhen_of_onCore (fun _ => rfl) fun _ _ hgate => opLift_gated hgate,
    fun _ => doesWhen_of_onCore (fun _ => rfl) fun _ _ ⟨hgate, hfree⟩ => opLift_none hgate hfree,
    fun _ _ _ _ _ => doesWhen_of_onCore (fun _ => rfl) fun _ _ ⟨hlift, hn, hl⟩ =>
      hn ▸ opLpop_some (liftHead_eq_some hlift hl),
    fun _ => doesWhen_of_onCore (fun _ => rfl) fun _ _ hl => opLpop_none (liftHead_eq_none hl)⟩

end Sys2Proof.Proofs
end

section
/-! PROOFS. Waits that are met, posts and marks (R127, R129, R132 to R137, R164, R373, R377, R381; O35, O37). -/

namespace Sys2Proof.Machine

section
variable {fo : Focus} {c : Core} {i : Instr}

/-! ### Waits (R132) -/

theorem waitIf_of {b : Bool} (hb : b = true) : waitIf b = .met := if_pos hb

theorem waitOp_met {f : Core → Core} (hmet : waitEval fo c i = .met) :
    waitOp i fo f c = f (if i = .phase then { c with phaseWb := true } else c) := by
  simp only [waitOp, hmet]

theorem waitOp_met_of_ne {f : Core → Core} (hphase : i ≠ .phase) (hmet : waitEval fo c i = .met) :
    waitOp i fo f c = f c := by
  rw [waitOp_met hmet, if_neg hphase]

/-- A wait that is met, PHASE and FWAIT apart, leaves the state as it is. -/
theorem exec_wait_met {s : State} (hexec : exec i s = onCore i (fun fo c => waitOp i fo id c) s) (hready : Ready i s c)
    (hphase : i ≠ .phase) (hmet : waitEval s.focus c i = .met) : exec i s = .next s := by
  rw [hexec, Laws.onCore_ready hready, waitOp_met_of_ne hphase hmet]
  exact congrArg _ (Laws.setCore_self hready.1)

theorem waitEval_twait_eq {t : BitVec 5} {r : BitVec 6} : waitEval fo c (.twait t r) = (match fo.ctx with
    | .helper _ => waitIf ((rdS fo c r.toNat).toNat ≤ timeline c t.toNat)
    | _ => if sealedAt c t.toNat < (rdS fo c r.toNat).toNat then .trap cTWAITAHEAD
      else waitIf ((rdS fo c r.toNat).toNat ≤ timeline c t.toNat)) := rfl

theorem waitEval_fence_eq : waitEval fo c .fence = (match fo.ctx with
    | .helper h => waitIf (helperQuiet h c && noStores h c)
    | _ => waitIf (primQuiet c)) := rfl

theorem waitEval_fwait_eq {f : BitVec 5} {n : BitVec 13} : waitEval fo c (.fwait f n) =
    waitIf (n.toNat + flagTaken c f.toNat ≤ (spGet 0 c.f f.toNat).toNat) := rfl

theorem waitEval_phase_eq : waitEval fo c .phase = waitIf (phaseDone c) := rfl

theorem waitEval_hwait_eq {h : BitVec 4} {n : BitVec 13} : waitEval fo c (.hwait h n) =
    if hSlots (rdHandle c h.toNat) < n.toNat then .trap cHANDLERANGE
    else waitIf (n.toNat ≤ hFilled (rdHandle c h.toNat)) := rfl

theorem waitEval_hfree_eq {h : BitVec 4} {n : BitVec 13} : waitEval fo c (.hfree h n) =
    if hSlots (rdHandle c h.toNat) < n.toNat then .trap cHANDLERANGE
    else waitIf (hFilled (rdHandle c h.toNat) + n.toNat ≤ hSlots (rdHandle c h.toNat)) := rfl

theorem waitEval_twait {t : BitVec 5} {r : BitVec 6} (hreached : (rdS fo c r.toNat).toNat ≤ timeline c t.toNat)
    (hsealed : (∃ h, ofHelper fo h) ∨ (rdS fo c r.toNat).toNat ≤ sealedAt c t.toNat) :
    waitEval fo c (.twait t r) = .met := by
  have hmet := waitIf_of (decide_eq_true hreached)
  rw [waitEval_twait_eq]
  rcases hsealed with ⟨h, hfo⟩ | hle
  · simp only [(hfo : fo.ctx = .helper h), hmet]
  · split
    · exact hmet
    · rw [if_neg (Nat.not_lt.2 hle), hmet]

theorem waitEval_fence (hquiet : ((ofPrim fo ∨ ofGate fo) ∧ primQuiet c = true) ∨
    (∃ h, ofHelper fo h ∧ helperQuiet h c = true ∧ noStores h c = true)) : waitEval fo c .fence = .met := by
  rw [waitEval_fence_eq]
  rcases hquiet with ⟨hfo | hfo, hq⟩ | ⟨h, hfo, hq, hs⟩
  · simp only [(hfo : fo.ctx = .prim), waitIf_of hq]
  · simp only [(hfo : fo.ctx = .gate), waitIf_of hq]
  · simp only [(hfo : fo.ctx = .helper h), waitIf_of (Bool.and_eq_true_iff.2 ⟨hq, hs⟩)]

theorem opFwait_met {f : BitVec 5} {n : BitVec 13} (hle : n.toNat + flagTaken c f.toNat ≤ (spGet 0 c.f f.toNat).toNat) :
    opFwait f n fo c = retire fo 1 0 [.flagSub f.toNat n.toNat] c := by
  have hmet : waitEval fo c (.fwait f n) = .met := waitEval_fwait_eq.trans (waitIf_of (decide_eq_true hle))
  have hphase : Instr.fwait f n ≠ .phase := nofun
  rw [opFwait, waitOp_met_of_ne hphase hmet]

theorem waitOp_phase_met (hdone : phaseDone c = true) : waitOp .phase fo id c = { c with phaseWb := true } := by
  have hmet : waitEval fo c .phase = .met := waitEval_phase_eq.trans (waitIf_of hdone)
  have hop := waitOp_met (f := id) hmet
  rw [if_pos rfl] at hop
  exact hop

/-! ### Posts (R133, R134, R377) -/

theorem emit_prim {w : Wh} (hfo : ofPrim fo) : emit fo w c = withhold fo w c := by
  simp only [emit, (hfo : fo.ctx = .prim)]

theorem emit_of_not_prim {w : Wh} (hfo : ¬ofPrim fo) : emit fo w c = sendOut fo w c := by
  unfold emit
  split
  · next h => exact absurd h hfo
  · rfl

theorem coreForm_iff {v : Word} : coreForm v = true ↔ v.toNat < 512 ∧ v.toNat % 128 < 120 := by
  simp [coreForm]

variable {f : BitVec 5} {r : BitVec 6}

theorem opFpostx_form {n : BitVec 7} (h : (rdS fo c r.toNat).toNat < 512 ∧ (rdS fo c r.toNat).toNat % 128 < 120) :
    opFpostx f r n fo c = emit fo (.flagx (rdS fo c r.toNat).toNat f.toNat n.toNat) c := if_pos (coreForm_iff.2 h)

theorem opFpostx_trap {n : BitVec 7} (h : 512 ≤ (rdS fo c r.toNat).toNat ∨ 120 ≤ (rdS fo c r.toNat).toNat % 128) :
    opFpostx f r n fo c = takeTrap fo cPOSTTARGET 0 c := if_neg (by rw [coreForm_iff]; omega)

theorem opFpost_prim {n : BitVec 13} (hfo : ofPrim fo) : opFpost f n fo c = withhold fo (.flag f.toNat n.toNat) c := by
  simp only [opFpost, (hfo : fo.ctx = .prim)]

theorem opFpost_helper {n : BitVec 13} {k : Nat} (hfo : ofHelper fo k) :
    opFpost f n fo c = retire fo 1 0 [.flagAdd f.toNat n.toNat] c := by
  simp only [opFpost, (hfo : fo.ctx = .helper k)]

/-! ### HADV (R127, R128) -/

section
variable {h : BitVec 4} {b : BitVec 1} {n : BitVec 12}

/-- An advance of `n` by the producer (`b = 1`) or the consumer keeps within the ring. -/
abbrev AdvancesWithin (c : Core) (h : BitVec 4) (b : BitVec 1) (n : BitVec 12) : Prop :=
  if b = 1 then hFilled (rdHandle c h.toNat) + n.toNat ≤ hSlots (rdHandle c h.toNat)
  else n.toNat ≤ hFilled (rdHandle c h.toNat)

/-- What HADV posts to a remote end. -/
abbrev advPost (c : Core) (h : BitVec 4) (b : BitVec 1) (n : BitVec 12) : Wh :=
  .hadv (hRcore (rdHandle c h.toNat)) (hRh (rdHandle c h.toNat)) (decide (b = 1)) n.toNat

theorem opHadv_over (hpast : hSlots (rdHandle c h.toNat) < hFilled (rdHandle c h.toNat) + n.toNat) :
    opHadv h 1 n fo c = takeTrap fo cHANDLEOVER 0 c := by
  simp [opHadv, hpast]

theorem opHadv_under (hpast : hFilled (rdHandle c h.toNat) < n.toNat) :
    opHadv h 0 n fo c = takeTrap fo cHANDLEUNDER 0 c := by
  simp [opHadv, hpast]

theorem advance_not_past (hin : AdvancesWithin c h b n) :
    (decide (b = 1) && decide (hSlots (rdHandle c h.toNat) < hFilled (rdHandle c h.toNat) + n.toNat)) = false ∧
    (decide (b = 0) && decide (hFilled (rdHandle c h.toNat) < n.toNat)) = false := by
  by_cases hb : b = 1
  · subst hb
    exact ⟨by simpa [AdvancesWithin] using hin, rfl⟩
  · have hle : n.toNat ≤ hFilled (rdHandle c h.toNat) := (if_neg hb : AdvancesWithin c h b n = _) ▸ hin
    exact ⟨by rw [decide_eq_false hb, Bool.false_and], by rw [decide_eq_false (Nat.not_lt.2 hle), Bool.and_false]⟩

theorem opHadv_own (hrv : hRv (rdHandle c h.toNat) = false) (hin : AdvancesWithin c h b n) :
    opHadv h b n fo c = retire fo 1 0 [.handle h.toNat (decide (b = 1)) n.toNat] c := by
  obtain ⟨hover, hunder⟩ := advance_not_past hin
  simp only [opHadv, hover, hunder, remoteAdv, hrv, Bool.false_eq_true, if_false]

theorem opHadv_prim_fits (hfo : ofPrim fo) (hrv : hRv (rdHandle c h.toNat) = true) (hin : AdvancesWithin c h b n)
    (hfits : fits c (advPost c h b n) = true) :
    opHadv h b n fo c =
      retire fo 1 0 [.handle h.toNat (decide (b = 1)) n.toNat] (withholdNow fo (advPost c h b n) c) := by
  have hctx : fo.ctx = .prim := hfo
  obtain ⟨hover, hunder⟩ := advance_not_past hin
  simp only [opHadv, hover, hunder, remoteAdv, hrv, hctx, hfits, if_true, Bool.false_eq_true, if_false]

theorem opHadv_prim_full (hfo : ofPrim fo) (hrv : hRv (rdHandle c h.toNat) = true) (hin : AdvancesWithin c h b n)
    (hfull : fits c (advPost c h b n) = false) : opHadv h b n fo c = takeTrap fo cWITHHOLD 0 c := by
  have hctx : fo.ctx = .prim := hfo
  obtain ⟨hover, hunder⟩ := advance_not_past hin
  simp only [opHadv, hover, hunder, remoteAdv, hrv, hctx, hfull, if_true, Bool.false_eq_true, if_false]

theorem opHadv_helper {k : Nat} (hfo : ofHelper fo k) (hrv : hRv (rdHandle c h.toNat) = true)
    (hin : AdvancesWithin c h b n) :
    opHadv h b n fo c =
      retire fo 1 0 [.handle h.toNat (decide (b = 1)) n.toNat] (sendOut fo (advPost c h b n) c) := by
  have hctx : fo.ctx = .helper k := hfo
  obtain ⟨hover, hunder⟩ := advance_not_past hin
  simp only [opHadv, hover, hunder, remoteAdv, hrv, hctx, if_true, Bool.false_eq_true, if_false]

end

/-! ### CHK (R373) -/

/-- CHK passes when the timeline in the upper three bits of its register has reached the value below them. -/
theorem opChk_eq {r : BitVec 5} : opChk r fo c =
    if (rdS fo c r.toNat).toNat / 2 ^ 61 < 5 ∧
        (rdS fo c r.toNat).toNat % 2 ^ 61 ≤ timeline c ((rdS fo c r.toNat).toNat / 2 ^ 61) then c
    else takeTrap fo cSCHEDMISS 0 c := by
  have hlt := (rdS fo c r.toNat).isLt
  have htop : bits (rdS fo c r.toNat).toNat 63 61 = (rdS fo c r.toNat).toNat / 2 ^ 61 := by
    unfold bits
    omega
  have hlow : bits (rdS fo c r.toNat).toNat 60 0 = (rdS fo c r.toNat).toNat % 2 ^ 61 := by
    unfold bits
    omega
  simp only [opChk, htop, hlow, Bool.and_eq_true, decide_eq_true_eq]

end

end Sys2Proof.Machine

namespace Sys2Proof.Proofs

open Sys2Proof Sys2Proof.Machine

/-- Settles O35: each wait by its condition, all through what a wait that is met does. -/
theorem waitsMet : Obligations.WaitsMet := by
  refine ⟨fun f n => doesWhen_of_onCore (fun _ => rfl) fun fo c h => ?fwait, fun i s c hready hmet => ?others,
    doesWhen_of_onCore (f := fun fo c => waitOp .phase fo id c) (fun _ => rfl) fun fo c h => ?phase⟩
  case fwait => exact opFwait_met h
  case phase => exact waitOp_phase_met h
  case others =>
    cases i with
    | twait t r => exact exec_wait_met rfl hready nofun (waitEval_twait hmet.1 hmet.2)
    | hwait h n =>
      refine exec_wait_met rfl hready nofun ?_
      rw [waitEval_hwait_eq, if_neg (Nat.not_lt.2 hmet.1), waitIf_of (decide_eq_true hmet.2)]
    | hfree h n =>
      have hle : n.toNat ≤ hSlots (rdHandle c h.toNat) := (Nat.le_add_left ..).trans hmet
      refine exec_wait_met rfl hready nofun ?_
      rw [waitEval_hfree_eq, if_neg (Nat.not_lt.2 hle), waitIf_of (decide_eq_true hmet)]
    | mwait m => exact exec_wait_met rfl hready nofun (waitIf_of hmet)
    | lwait n => exact exec_wait_met rfl hready nofun (waitIf_of (decide_eq_true hmet))
    | fence => exact exec_wait_met rfl hready nofun (waitEval_fence hmet)
    | _ => exact hmet.elim

/-- Settles O37: the posts by their context, HADV by its ring and its remote end, CHK by its timeline. -/
theorem postsAndMarks : Obligations.PostsAndMarks := by
  refine ⟨fun f n => doesWhen_of_onCore (fun _ => rfl) fun fo c ⟨hfo, hfits⟩ =>
      (opFpost_prim hfo).trans (withhold_fits hfits),
    fun f n k => doesWhen_of_onCore (fun _ => rfl) fun fo c hfo => opFpost_helper hfo,
    fun f r n => doesWhen_of_onCore (fun _ => rfl) fun fo c ⟨hfo, hlt, hmod, hfits⟩ =>
      (opFpostx_form ⟨hlt, hmod⟩).trans ((emit_prim hfo).trans (withhold_fits hfits)),
    fun f r n => doesWhen_of_onCore (fun _ => rfl) fun fo c ⟨hfo, hform⟩ =>
      (opFpostx_form hform).trans (emit_of_not_prim hfo),
    fun f r n => doesWhen_of_onCore (fun _ => rfl) fun fo c h => opFpostx_trap h,
    fun h b n => doesWhen_of_onCore (fun _ => rfl) fun fo c ⟨hrv, hin⟩ => opHadv_own hrv hin,
    fun h b n => ⟨doesWhen_of_onCore (fun _ => rfl) fun fo c ⟨hfo, ⟨hrv, hin⟩, hfits⟩ =>
        opHadv_prim_fits hfo hrv hin hfits,
      fun k => doesWhen_of_onCore (fun _ => rfl) fun fo c ⟨hfo, hrv, hin⟩ => opHadv_helper hfo hrv hin⟩,
    fun h n => doesWhen_of_onCore (fun _ => rfl) fun fo c hpast => opHadv_over hpast,
    fun h n => doesWhen_of_onCore (fun _ => rfl) fun fo c hpast => opHadv_under hpast,
    fun b k => doesWhen_of_onCore (fun _ => rfl) fun fo c ⟨hfo, hfits⟩ =>
      (emit_prim hfo).trans (withhold_fits hfits),
    fun b k => doesWhen_of_onCore (fun _ => rfl) fun fo c hfo => emit_of_not_prim hfo,
    fun r s c hready => ?chk, doesWhen_of_onCore (fun _ => rfl) fun fo c _ => rfl⟩
  case chk =>
    have hexec : exec (.chk r) s = .next (s.withCore (opChk r s.focus c)) := Laws.onCore_ready hready
    refine ⟨fun htl hreached => ?_, fun hmiss => ?_⟩
    · rw [hexec, opChk_eq, if_pos ⟨htl, hreached⟩]
      exact congrArg _ (Laws.setCore_self hready.1)
    · rw [hexec, opChk_eq, if_neg fun hpass => by omega]

end Sys2Proof.Proofs
end

section
/-! PROOFS. Global stores of a gateway whose translation takes a walk (R30, R32, R122, R414; O22). -/

namespace Sys2Proof.Machine

/-! ### A walk takes cycles (R30) -/

/-- A leaf lies at level 0 or 1: R24 refuses one above. -/
theorem level_of_leaf {l v : Nat} (hleaf : bit v 62 = true) (hformat : ¬badFormat l v = true) : l ≤ 1 := by
  by_contra habove
  have h2 : 2 ≤ l := by omega
  simp [badFormat, hleaf, h2] at hformat

theorem level_descend {ctx va : Nat} {l t : Nat} {s : State} {a v n : Nat}
    (h : (s.descend ctx va l t).1.res = .ok (a, v, n)) : n ≤ 1 := by
  induction l generalizing s t with
  | zero =>
    rw [State.descend] at h
    dsimp only at h
    split_ifs at h
    have hlevel : 0 = n := congrArg (fun r => r.2.2) (Except.ok.inj h)
    omega
  | succ k ih =>
    rw [State.descend] at h
    dsimp only at h
    split_ifs at h with htable hpoison hpresent hformat hleaf
    · have hlevel : k + 1 = n := congrArg (fun r => r.2.2) (Except.ok.inj h)
      exact hlevel ▸ level_of_leaf hleaf hformat
    · exact ih h

theorem level_walk {s : State} {num ctx va : Nat} {ag : Agent} {a v n : Nat}
    (h : (s.walk num ag ctx va).1.res = .ok (a, v, n)) : n ≤ 1 := by
  unfold State.walk at h
  split at h
  · exact level_descend h
  · exact level_descend h

/-- Reads of entries only add to the time of a walk. -/
theorem le_foldl_fst {α σ : Type} {f : Nat × σ → α → Nat × σ} (hf : ∀ x a, x.1 ≤ (f x a).1) (l : List α) (x : Nat × σ) :
    x.1 ≤ (l.foldl f x).1 := by
  induction l generalizing x with
  | nil => exact le_rfl
  | cons a l ih => exact (hf x a).trans (ih _)

theorem walkTime_ge {s : State} {num last : Nat} {ag : Agent} {reads : List Nat} {l2 : List L2Line} :
    2 * (4 - last) ≤ (s.walkTime num ag reads last l2).1 :=
  (Nat.le_add_left ..).trans (le_foldl_fst (fun _ _ => Nat.le_add_right ..) reads (_, { s with l2 := l2 }))

theorem lat_walkFor {s : State} {num ctx va : Nat} {ag : Agent} {k : Acces} {t : Xl}
    (h : (s.walkFor num ag ctx va k).1 = .ok t) : t.lat ≠ 0 := by
  by_cases hroot : bit (s.reg (0x1000 + 8 * ctx)) 63 = true
  · simp only [State.walkFor, hroot, Bool.not_true, Bool.false_eq_true, if_false] at h
    split at h
    · cases h
    · next a v n hres =>
      split at h
      · cases h
      · have hlevel := level_walk hres
        have htime := walkTime_ge (s := (s.walk num ag ctx va).2) (num := num) (ag := ag)
          (reads := (s.walk num ag ctx va).1.reads) (last := n) (l2 := s.l2)
        obtain rfl := Except.ok.inj h
        exact Nat.ne_of_gt (lt_of_lt_of_le (by omega) htime)
  · simp only [State.walkFor, hroot] at h
    cases h

/-! ### The requests of a gateway's GST -/

theorem exec_gst_ready {s : State} {c : Core} {d x : BitVec 6} {w : BitVec 2} {im : BitVec 10}
    (hready : Ready (.gst d x w im) s c) : exec (.gst d x w im) s = .next (s.gst s.focus d x w.toNat im c) :=
  Laws.onState_ready (f := fun fo k => s.gst fo d x w.toNat im k) hready

theorem getLast?_addReq (s : State) (r : Req) : (s.addReq r).reqs.getLast? = some { r with id := s.seq } := by
  simp [State.addReq]

/-- A write at its home waits for no translation: it looks for an earlier atomic only where it has no time of its own. -/
theorem look_lineWrite {s : State} {num h lctx coh pa : Nat} {data : List (Option Byte)} {order : Bool} :
    ∃ r, (s.lineWrite num h lctx coh pa data order).reqs.getLast? = some r ∧ (r.look = true → r.home = 0) :=
  ⟨_, getLast?_addReq .., fun hlook => if_pos hlook⟩

/-- A gateway's GST whose translation takes cycles sends no write before it has it. -/
theorem gst_gate_walked {s s1 : State} {fo : Focus} {c : Core} {d x : BitVec 6} {w : Nat} {im : BitVec 10} {t : Xl}
    (hfo : ofGate fo) (hal : globalAddr fo c x w im % widthOf w = 0)
    (hx : s.xlate fo.core (agentOf fo) c.lctx (globalAddr fo c x w im) .write = (.ok t, s1)) (hlat : t.lat ≠ 0) :
    ∃ r, (s.gst fo d x w im c).reqs.getLast? = some r ∧ r.look = true ∧ r.home = t.lat := by
  have hctx : fo.ctx = .gate := hfo
  simp only [State.gst, hal, hx, hctx, hlat, ne_eq, not_true_eq_false, if_false]
  exact ⟨_, getLast?_addReq .., rfl, rfl⟩

/-! ### A gateway before a walk -/

/-- A gateway core in a launch of context 3, its registers zero. -/
def walkGate : Core := coreAtLaunch 512 false 0 3 0 0 0

/-- Tables at 0x200000 to 0x203000 that give page 0 of context 3 the resident frame 0x300000, readable and writable. -/
def walkTables : Memory :=
  memPut (memPut (memPut (memPut [] 0x200000 (leBytes 8 (2 ^ 63 + 0x201000))) 0x201000 (leBytes 8 (2 ^ 63 + 0x202000)))
    0x202000 (leBytes 8 (2 ^ 63 + 0x203000))) 0x203000 (leBytes 8 (2 ^ 63 + 2 ^ 62 + 2 ^ 54 + 2 ^ 53 + 0x300000))

/-- The machine after reset with those tables, the gateway at a scalar memory slot and nothing in its TLB. -/
def walkState : State :=
  { State.reset.setReg 0x1018 (2 ^ 63 + 0x200000) with
    mem := walkTables, cores := [(512, walkGate)], focus := ⟨512, .gate, 2, 100, 1, 900, 901⟩ }

theorem walkState_ready : Ready (.gst 4 2 3 0) walkState walkGate := ⟨rfl, by decide⟩

/-- The access misses the hub TLB and walks. -/
theorem xlate_walkState : walkState.xlate 512 .gateway 3 0 .write =
    (walkState.modCore 512 fun c => { c with evs := c.evs ++ [(0x10, 15)] }).walkFor 512 .gateway 3 0 .write := rfl

theorem xlate_walkState_ok :
    (walkState.xlate 512 .gateway 3 0 .write).1.isOk = true := by decide +kernel

end Sys2Proof.Machine

namespace Sys2Proof.Proofs

open Sys2Proof Sys2Proof.Machine

/-- Refutes O22: of a gateway whose GST misses the hub TLB the store waits for the walk, a request that looks for its
translation; the statement has it leave as a write to its home at once. -/
theorem not_globalAccesses : ¬ Obligations.GlobalAccesses := by
  rintro ⟨-, hgst, -⟩
  cases hx : walkState.xlate 512 .gateway 3 0 .write with
  | mk res s1 =>
    have hok := xlate_walkState_ok
    rw [hx] at hok
    cases res with
    | error e => cases hok
    | ok t =>
      have hlat : t.lat ≠ 0 := lat_walkFor (by rw [← xlate_walkState, hx])
      obtain ⟨-, -, hgate⟩ := hgst 4 2 3 0 walkState s1 walkGate t walkState_ready rfl hx
      have hsame := Host.Outcome.next.inj ((exec_gst_ready walkState_ready).symm.trans (hgate rfl))
      obtain ⟨r, hr, hlook, hhome⟩ := gst_gate_walked (s := walkState) (fo := walkState.focus) (c := walkGate)
        (d := 4) (x := 2) (w := (3 : BitVec 2).toNat) (im := 0) rfl rfl hx hlat
      obtain ⟨r', hr', himmediate⟩ := look_lineWrite (s := s1) (num := walkState.focus.core) (h := 0)
        (lctx := walkGate.lctx) (coh := t.coh) (pa := t.pa) (order := false)
        (data := (leBytes (2 ^ (3 : BitVec 2).toNat) (rdS walkState.focus walkGate (4 : BitVec 6).toNat).toNat).map some)
      rw [hsame, hr'] at hr
      obtain rfl := Option.some.inj hr
      exact hlat (hhome.symm.trans (himmediate hlook))

end Sys2Proof.Proofs
end

section
/-! PROOFS. What is withheld and its release (R111, R381, R384; O43, first part). -/

namespace Sys2Proof.Machine

/-- A fold whose every step keeps a part of what it works on keeps it. -/
theorem foldl_keeps {α β γ : Type} {f : α → β → α} {g : α → γ} (hf : ∀ a x, g (f a x) = g a) (l : List β) (a : α) :
    g (l.foldl f a) = g a :=
  List.foldlRecOn (motive := fun b => g b = g a) _ _ rfl fun b hb x _ => (hf b x).trans hb

/-! ### Program order (R111) -/

theorem perm_addWith (e : WhE) (l : List WhE) : (addWith e l).Perm (e :: l) := by
  induction l with
  | nil => exact .refl _
  | cons f l ih =>
    unfold addWith
    split
    · exact .refl _
    · exact (ih.cons f).trans (.swap ..)

theorem mem_addWith {e f : WhE} {l : List WhE} : f ∈ addWith e l ↔ f = e ∨ f ∈ l :=
  (perm_addWith e l).mem_iff.trans List.mem_cons

/-- What is withheld stands in program order. -/
abbrev InOrder (l : List WhE) : Prop := l.Pairwise fun a b => a.ord ≤ b.ord

theorem inOrder_addWith {e : WhE} {l : List WhE} (hl : InOrder l) : InOrder (addWith e l) := by
  induction l with
  | nil => exact List.pairwise_singleton ..
  | cons f l ih =>
    obtain ⟨hf, hl⟩ := List.pairwise_cons.1 hl
    unfold addWith
    split
    · next hlt =>
      refine List.pairwise_cons.2 ⟨fun g hg => ?_, List.pairwise_cons.2 ⟨hf, hl⟩⟩
      rcases List.mem_cons.1 hg with rfl | hg
      · exact hlt.le
      · exact hlt.le.trans (hf g hg)
    · next hge =>
      refine List.pairwise_cons.2 ⟨fun g hg => ?_, ih hl⟩
      rcases mem_addWith.1 hg with rfl | hg
      · exact Nat.not_lt.1 hge
      · exact hf g hg

theorem perm_foldl_addWith (l m : List WhE) : (m.foldl (fun l e => addWith e l) l).Perm (l ++ m) := by
  induction m generalizing l with
  | nil => simp
  | cons e m ih => exact (ih _).trans (((perm_addWith e l).append_right m).trans List.perm_middle.symm)

theorem perm_allWithheld (c : Core) : (allWithheld c).Perm (c.withheld ++ c.newWith) := perm_foldl_addWith ..

theorem inOrder_allWithheld {c : Core} (h : InOrder c.withheld) : InOrder (allWithheld c) :=
  List.foldlRecOn _ _ h fun _ hl _ _ => inOrder_addWith hl

/-! ### What a released effect leaves of its core (R111) -/

/-- The parts of a core that no released effect changes: the captured state, the cycle, what is withheld, the scratchpad and
the primary's results on their way. -/
def settled (c : Core) : Prim × Nat × Cyc × (List WhE × List WhE) × Sparse Byte × List Pend :=
  (c.shadow, c.region, c.cyc, (c.withheld, c.newWith), c.sp, c.p.pend)

/-- The same with the other results on their way, to which only flag posts add. -/
def onWay (c : Core) : (Prim × Nat × Cyc × (List WhE × List WhE) × Sparse Byte × List Pend) × List Pend :=
  (settled c, c.hpend)

section
variable {c : Core}

theorem onWay_mbClear (m : Nat) : onWay (mbClear m c) = onWay c := by
  unfold mbClear
  split <;> rfl

theorem onWay_freeHelper (h : Nat) : onWay (freeHelper h c) = onWay c := by
  unfold freeHelper
  split <;> rfl

theorem onWay_freeHelpers (w : Nat) (l : List Nat) :
    onWay (l.foldl (fun k h => if bit w h then freeHelper h k else k) c) = onWay c := by
  refine foldl_keeps (fun k h => ?_) l c
  split
  · exact onWay_freeHelper h
  · rfl

theorem onWay_ite {p : Prop} [Decidable p] {a b : Core} (ha : onWay a = onWay c) (hb : onWay b = onWay c) :
    onWay (if p then a else b) = onWay c := by
  split
  · exact ha
  · exact hb

theorem onWay_applyMtc (n : Nat) (v : Word) : onWay (applyMtc n v c) = onWay c := by
  unfold applyMtc
  extract_lets w a
  repeat' with_reducible refine onWay_ite ?_ ?_
  any_goals (unfold onWay settled; rfl)
  exact onWay_freeHelpers w (List.range 10)

theorem onWay_copyAccept (k : Cmd) : onWay (copyAccept k c) = onWay c := by
  unfold copyAccept
  extract_lets
  split <;> rfl

theorem onWay_setMasks (l : List WhE) : onWay (setMasks l c) = onWay c := by
  refine foldl_keeps (fun k e => ?_) l c
  split <;> rfl

end

/-! ### What a released effect gives (R111) -/

/-- The message an effect sends when it is released. -/
def sentBy : Wh → Option (Ctx × Wh)
  | .xst a d => some (.prim, .xst a d)
  | .hpush k h a d => some (.prim, .hpush k h a d)
  | .flagx k f n => some (.prim, .flagx k f n)
  | .hadv k h p n => some (.prim, .hadv k h p n)
  | .sendm k m v => some (.prim, .sendm k m v)
  | .bara b => some (.prim, .bara b)
  | .ksend t n l => some (.prim, .ksend t n l)
  | .lift v => some (.prim, .lift v)
  | .xld k a l f => some (.prim, .xld k a l f)
  | .fault m v => some (.prim, .fault m v)
  | _ => none

/-- The stores of the scratchpad an effect makes when it is released, a tap record's apart. -/
def storedBy : Wh → List (Nat × List Byte)
  | .store a d => [(a, d)]
  | .storeQ a d => [(a, d)]
  | .storeK a d => [(a, d)]
  | .scatter _ ws => ws.map (fun w => (w.1, leBytes 4 w.2.toNat))
  | _ => []

/-- An effect is no tap record. -/
def noRecord : Wh → Bool
  | .tapRec _ _ _ => false
  | _ => true

/-- A core with the stores and the messages released so far. -/
abbrev Rel := Core × List (Nat × List Byte) × List (Ctx × Wh)

theorem settled_releaseOne (r : Rel) (e : WhE) : settled (releaseOne r e).1 = settled r.1 := by
  obtain ⟨o, w⟩ := e
  cases w with
  | takem m => exact congrArg Prod.fst (onWay_mbClear m)
  | mtc n v => exact congrArg Prod.fst (onWay_applyMtc n v)
  | cmd k =>
    simp only [releaseOne]
    split
    · rfl
    · exact congrArg Prod.fst (onWay_copyAccept k)
  | _ => rfl

/-- A released flag post counts at the end of the cycle; nothing else of a release is on its way. -/
theorem hpend_releaseOne (r : Rel) (e : WhE) : (releaseOne r e).1.hpend = r.1.hpend ++ (match e.w with
    | .flag f n => [⟨1, .gate, e.ord, 0, 7, 0, [.flagAdd f n]⟩]
    | _ => []) := by
  obtain ⟨o, w⟩ := e
  cases w with
  | flag f n => rfl
  | takem m => exact (congrArg Prod.snd (onWay_mbClear m)).trans (List.append_nil _).symm
  | mtc n v => exact (congrArg Prod.snd (onWay_applyMtc n v)).trans (List.append_nil _).symm
  | cmd k =>
    simp only [releaseOne, List.append_nil]
    split
    · rfl
    · exact congrArg Prod.snd (onWay_copyAccept k)
  | _ => exact (List.append_nil _).symm

theorem sent_releaseOne (r : Rel) (e : WhE) : (releaseOne r e).2.2 = r.2.2 ++ (sentBy e.w).toList := by
  obtain ⟨o, w⟩ := e
  cases w <;> simp [releaseOne, sentBy]

theorem stored_releaseOne (r : Rel) {e : WhE} (he : noRecord e.w = true) :
    (releaseOne r e).2.1 = r.2.1 ++ storedBy e.w := by
  obtain ⟨o, w⟩ := e
  cases w with
  | tapRec => exact Bool.noConfusion he
  | _ => simp [releaseOne, storedBy]

theorem sent_foldl_releaseOne (l : List WhE) (r : Rel) :
    (l.foldl releaseOne r).2.2 = r.2.2 ++ l.filterMap fun e => sentBy e.w := by
  induction l generalizing r with
  | nil => simp
  | cons e l ih =>
    rw [List.foldl_cons, ih, sent_releaseOne]
    cases h : sentBy e.w <;> simp [h]

theorem stored_foldl_releaseOne {l : List WhE} (hl : ∀ e ∈ l, noRecord e.w = true) (r : Rel) :
    (l.foldl releaseOne r).2.1 = r.2.1 ++ l.flatMap fun e => storedBy e.w := by
  induction l generalizing r with
  | nil => simp
  | cons e l ih =>
    obtain ⟨he, hl⟩ := List.forall_mem_cons.1 hl
    rw [List.foldl_cons, ih hl, stored_releaseOne r he, List.flatMap_cons, List.append_assoc]

/-! ### The release of everything withheld (R111) -/

/-- The core after its released effects, before their messages stand at the injection port. -/
def releasedCore (c : Core) : Core :=
  setMasks (allWithheld c) ((allWithheld c).foldl releaseOne ({ c with withheld := [], newWith := [] }, [], [])).1

theorem releaseAll_fst (c : Core) : (releaseAll c).1 = { releasedCore c with cyc := { (releasedCore c).cyc with
    out := ((allWithheld c).foldl releaseOne ({ c with withheld := [], newWith := [] }, [], [])).2.2
      ++ (releasedCore c).cyc.out } } := rfl

theorem settled_releasedCore (c : Core) :
    settled (releasedCore c) = (c.shadow, c.region, c.cyc, ([], []), c.sp, c.p.pend) :=
  (congrArg Prod.fst (onWay_setMasks _)).trans (foldl_keeps (g := fun r : Rel => settled r.1) settled_releaseOne ..)

theorem withheld_releaseAll (c : Core) : (releaseAll c).1.withheld = [] :=
  congrArg (fun s => s.2.2.2.1.1) (settled_releasedCore c)

theorem newWith_releaseAll (c : Core) : (releaseAll c).1.newWith = [] :=
  congrArg (fun s => s.2.2.2.1.2) (settled_releasedCore c)

theorem out_releaseAll (c : Core) :
    (releaseAll c).1.cyc.out = ((allWithheld c).filterMap fun e => sentBy e.w) ++ c.cyc.out := by
  have hcyc : (releasedCore c).cyc = c.cyc := congrArg (fun s => s.2.2.1) (settled_releasedCore c)
  rw [releaseAll_fst, hcyc, sent_foldl_releaseOne]
  rfl

theorem stores_releaseAll {c : Core} (h : ∀ e ∈ allWithheld c, noRecord e.w = true) :
    (releaseAll c).2 = (allWithheld c).flatMap fun e => storedBy e.w := stored_foldl_releaseOne h _

/-- A released START has its helper live at its entry, its argument in x1, every other register zero. -/
theorem helper_releaseOne_start {c : Core} {st : List (Nat × List Byte)} {out : List (Ctx × Wh)} {o h en : Nat} {a : Word}
    (hh : h < c.helpers.length) :
    ((releaseOne (c, st, out) ⟨o, .start h en a⟩).1.helper h).st = .live ∧
    ((releaseOne (c, st, out) ⟨o, .start h en a⟩).1.helper h).pc = en ∧
    (∀ r, spGet 0 ((releaseOne (c, st, out) ⟨o, .start h en a⟩).1.helper h).x r = if r = 1 then a else 0) ∧
    ∀ j, j ≠ h → (releaseOne (c, st, out) ⟨o, .start h en a⟩).1.helper j = c.helper j := by
  have hself (x : Helper) : (c.setHelper h x).helper h = x := by
    rw [Laws.helper_setHelper, if_pos ⟨rfl, hh⟩]
  simp only [releaseOne, hself]
  exact ⟨trivial, trivial, fun r => by rw [Laws.spGet_spSet]; rfl,
    fun j hj => by rw [Laws.helper_setHelper, if_neg fun h => hj h.1]⟩

end Sys2Proof.Machine
end

section
/-! PROOFS. Operations of the primary for whose effect the withhold buffer has no room (R384; O43, second part). -/

namespace Sys2Proof.Machine

/-- An operation of the primary that traps where the effect does not fit. -/
theorem fullTraps_of_onCore {i : Instr} {P : Focus → Core → Prop} {w : Focus → Core → Wh} {f : Focus → Core → Core}
    (hexec : ∀ s, exec i s = onCore i f s)
    (hf : ∀ fo c, ofPrim fo → P fo c → fits c (w fo c) = false → f fo c = takeTrap fo cWITHHOLD 0 c) : FullTraps i P w :=
  doesWhen_of_onCore hexec fun fo c ⟨hfo, hP, hfull⟩ => hf fo c hfo hP hfull

/-- An operation of the primary that only withholds its effect. -/
theorem fullTraps_of_withhold {i : Instr} {P : Focus → Core → Prop} {w : Focus → Core → Wh} {f : Focus → Core → Core}
    (hexec : ∀ s, exec i s = onCore i f s) (hf : ∀ fo c, ofPrim fo → P fo c → f fo c = withhold fo (w fo c) c) :
    FullTraps i P w :=
  fullTraps_of_onCore hexec fun fo c hfo hP hfull => (hf fo c hfo hP).trans (withhold_full hfull)

section
variable {fo : Focus} {c : Core}

theorem opXst_prim_full {d x : BitVec 6} {w : Nat} {im : BitVec 10}
    (h : windowTrap c (localAddr fo c x w im) (2 ^ w) = none) (hfo : ofPrim fo)
    (hfull : fits c (.xst (localAddr fo c x w im) (leBytes (2 ^ w) (rdS fo c d.toNat).toNat)) = false) :
    opXst d x w im fo c = takeTrap fo cWITHHOLD 0 c := by
  have hctx : fo.ctx = .prim := hfo
  simp only [opXst, widthOf, h, emit_prim hfo, hctx, withhold_full hfull]

theorem opTakem_prim_full {d : BitVec 6} {m : BitVec 5} (hp : mbPresent c m.toNat = true) (hfo : ofPrim fo)
    (hfull : fits c (.takem m.toNat) = false) : opTakem d m fo c = takeTrap fo cWITHHOLD 0 c := by
  have hctx : fo.ctx = .prim := hfo
  simp only [opTakem, hp, hctx, hfull, if_true, if_false, Bool.false_eq_true]

theorem opStart_prim {d : BitVec 6} {h : BitVec 4} {en : BitVec 14} (hfree : freeState (c.helper h.toNat) = true)
    (hheld : startHeld h.toNat (c.withheld ++ c.newWith) = false) :
    opStart d h en fo c = withhold fo (.start h.toNat en.toNat (rdS fo c d.toNat)) c :=
  if_pos (by rw [hfree, hheld]; rfl)

theorem opSendm_form {x y : BitVec 6} {m : BitVec 5}
    (h : (rdS fo c x.toNat).toNat < 512 ∧ (rdS fo c x.toNat).toNat % 128 < 120) :
    opSendm x y m fo c = withhold fo (.sendm (rdS fo c x.toNat).toNat m.toNat (rdS fo c y.toNat)) c :=
  if_pos (coreForm_iff.2 h)

theorem opMtc_withheld {d : BitVec 6} {u : BitVec 12} (hfp : u.toNat ≠ 4) (hlc : ¬(0x10 ≤ u.toNat ∧ u.toNat ≤ 0x13)) :
    opMtc d u fo c = withhold fo (.mtc u.toNat (rdS fo c d.toNat)) c :=
  (if_neg hfp).trans (if_neg hlc)

/-- An MTC of any register but GWTLINC is the core's own. -/
theorem exec_mtc {s : State} {d : BitVec 6} {u : BitVec 12} (hready : Ready (.mtc d u) s c) (hu : u.toNat ≠ 0x601) :
    exec (.mtc d u) s = .next (s.withCore (opMtc d u s.focus c)) :=
  (Laws.onState_ready (f := fun fo k => if u.toNat = 0x601 then s.soon fo.core [.gwtlinc]
    else s.setCore fo.core (opMtc d u fo k)) hready).trans (congrArg _ (if_neg hu))

theorem matCmd_full {op fl : Nat} {x y z : Word} (hfull : fits c (.cmd ⟨op, 0, x, y, z, fl, fo.bundle⟩) = false) :
    matCmd op x y z fl fo c = takeTrap fo cWITHHOLD 0 c := if_neg (ne_true_of_eq_false hfull)

theorem opCnext_full {q fl : Nat} {x y z : Word} (hfull : fits c (.cmd ⟨0x26, q, x, y, z, fl, fo.bundle⟩) = false) :
    opCnext q x y z fl fo c = takeTrap fo cWITHHOLD 0 c := if_neg (ne_true_of_eq_false hfull)

theorem opCseal_full {x : BitVec 6} {q : BitVec 2} (hfull : fits c (.cmd ⟨0x24, q.toNat, 0, 0, 0, 0, fo.bundle⟩) = false) :
    opCseal x q fo c = takeTrap fo cWITHHOLD 0 c := if_neg (ne_true_of_eq_false hfull)

/-! ### The sort and sample unit (R301, R310, R313, R316) -/

/-- A free lane of the primary is taken, and the operation done with it. -/
theorem kLane_prim {i : Instr} {f : Core → Core} (hfo : ofPrim fo) (hfree : c.p.kBusy = 0) :
    kLane i fo f c = f (laneTake i fo c) := by
  have hctx : fo.ctx = .prim := hfo
  simp [kLane, laneTake, hctx, hfree]

theorem laneTake_prim {i : Instr} (hfo : ofPrim fo) : laneTake i fo c = { c with p := { c.p with kBusy := kOcc i } } := by
  simp only [laneTake, (hfo : fo.ctx = .prim)]

theorem opKsamp_prim_full {ins : Instr} {t : BitVec 3} {g : BitVec 8} {a : BitVec 4} {p : BitVec 2} (hfo : ofPrim fo)
    (h : addrTrap fo c (rdA fo c a.toNat).toNat 8 8 = none) (hktrap : c.ktrap = false) (hfull : 256 ≤ c.storeUse) :
    opKsamp ins t g a p fo c = takeTrap fo cWITHHOLD 0 c := by
  have hctx : fo.ctx = .prim := hfo
  have hlt : 256 < c.storeUse + 1 := Nat.lt_succ_of_le hfull
  simp only [opKsamp, ptrAddr, h, hktrap, Bool.and_false, Bool.false_eq_true, if_false, hctx, hlt, if_true]

theorem opGsetSt_prim_full {ins : Instr} {a : BitVec 4} (hfo : ofPrim fo)
    (h : addrTrap fo c (rdA fo c a.toNat).toNat 64 64 = none) (hfull : 256 ≤ c.storeUse) :
    opGsetSt ins a fo c = takeTrap fo cWITHHOLD 0 c := by
  have hctx : fo.ctx = .prim := hfo
  have hlt : 256 < c.storeUse + 1 := Nat.lt_succ_of_le hfull
  simp only [opGsetSt, ptrAddr, h, hctx, hlt, if_true]

theorem kLane_ksamp_full {t : BitVec 3} {g : BitVec 8} {a : BitVec 4} {p : BitVec 2} (hfo : ofPrim fo) (hfree : c.p.kBusy = 0)
    (h : addrTrap fo c (rdA fo c a.toNat).toNat 8 8 = none) (hktrap : c.ktrap = false) (hfull : 256 ≤ c.storeUse) :
    kLane (.ksamp t g a p) fo (opKsamp (.ksamp t g a p) t g a p fo) c =
      takeTrap fo cWITHHOLD 0 (laneTake (.ksamp t g a p) fo c) := by
  rw [kLane_prim hfo hfree, laneTake_prim hfo]
  exact opKsamp_prim_full hfo h hktrap hfull

theorem kLane_gsetSt_full {a : BitVec 4} (hfo : ofPrim fo) (hfree : c.p.kBusy = 0)
    (h : addrTrap fo c (rdA fo c a.toNat).toNat 64 64 = none) (hfull : 256 ≤ c.storeUse) :
    kLane (.gsetSt a) fo (opGsetSt (.gsetSt a) a fo) c = takeTrap fo cWITHHOLD 0 (laneTake (.gsetSt a) fo c) := by
  rw [kLane_prim hfo hfree, laneTake_prim hfo]
  exact opGsetSt_prim_full hfo h hfull

theorem opKsend_prim {t : BitVec 3} {a : BitVec 4} (hfo : ofPrim fo) (hlt : (rdA fo c a.toNat).toNat < 2 ^ 16) :
    opKsend t a fo c = withhold fo (.ksend ((rdA fo c a.toNat).toNat % 256) ((rdA fo c a.toNat).toNat / 256)
      (spGet candList0 c.lists t.toNat)) c := by
  have htop : bits (rdA fo c a.toNat).toNat 31 16 = 0 := by
    unfold bits
    omega
  have htree : bits (rdA fo c a.toNat).toNat 7 0 = (rdA fo c a.toNat).toNat % 256 := by
    unfold bits
    omega
  have hnode : bits (rdA fo c a.toNat).toNat 15 8 = (rdA fo c a.toNat).toNat / 256 := by
    unfold bits
    omega
  simp only [opKsend, htop, htree, hnode, emit_prim hfo, ne_eq, not_true_eq_false, if_false]

theorem exec_ksend_prim_full {s : State} {t : BitVec 3} {a : BitVec 4} (hready : Ready (.ksend t a) s c)
    (hfo : ofPrim s.focus) (hfree : c.p.kBusy = 0) (htree : s.treeTakes c (rdA s.focus c a.toNat).toNat = true)
    (hlt : (rdA s.focus c a.toNat).toNat < 2 ^ 16)
    (hfull : fits c (.ksend ((rdA s.focus c a.toNat).toNat % 256) ((rdA s.focus c a.toNat).toNat / 256)
      (spGet candList0 c.lists t.toNat)) = false) :
    exec (.ksend t a) s = .next (s.withCore (takeTrap s.focus cWITHHOLD 0 (laneTake (.ksend t a) s.focus c))) := by
  have hexec := Laws.onState_ready (f := fun fo k => s.setCore fo.core (kLane (.ksend t a) fo (fun d =>
    if s.treeTakes d (rdA fo d a.toNat).toNat then opKsend t a fo d else takeTrap fo cPOSTTARGET 0 d) k)) hready
  refine (show exec (.ksend t a) s = _ from hexec).trans ?_
  have hrd : rdA s.focus (laneTake (.ksend t a) s.focus c) a.toNat = rdA s.focus c a.toNat := by
    simp only [laneTake_prim hfo, rdA, (hfo : s.focus.ctx = .prim)]
  have htree' : s.treeTakes (laneTake (.ksend t a) s.focus c)
      (rdA s.focus (laneTake (.ksend t a) s.focus c) a.toNat).toNat = true := by
    rw [hrd, laneTake_prim hfo]
    exact htree
  rw [kLane_prim hfo hfree, if_pos htree', opKsend_prim hfo (hrd ▸ hlt), withhold_full, State.withCore]
  rw [hrd, laneTake_prim hfo]
  exact hfull

end

end Sys2Proof.Machine
end

section
/-! PROOFS. The end of a core's cycle: what it releases, captures and goes on withholding (R111, R381, R382; O43, third part). -/

namespace Sys2Proof.Machine

/-! ### What a landing keeps (R4, R109, R382) -/

/-- The captured state with its region, and the marks of the cycle that decide whether one is captured. -/
def marked (c : Core) : Prim × Nat × Bool × Bool := (c.shadow, c.region, c.cyc.ckpt, c.cyc.trapped)

/-- The core `d` comes of `c` without a capture and without a release: it withholds what `c` withholds, and maybe more. -/
structure GoesOn (c d : Core) : Prop where
  marks : marked d = marked c
  keeps : ∀ e ∈ c.withheld, e ∈ d.withheld

/-- The parts that a landing of flags alone keeps: the marks, what is withheld, the scratchpad. -/
def still (c : Core) : (Prim × Nat × Bool × Bool) × List WhE × List WhE × Sparse Byte :=
  (marked c, c.withheld, c.newWith, c.sp)

theorem marked_iff {c d : Core} : marked d = marked c ↔
    d.shadow = c.shadow ∧ d.region = c.region ∧ d.cyc.ckpt = c.cyc.ckpt ∧ d.cyc.trapped = c.cyc.trapped := by
  simp only [marked, Prod.mk.injEq]

theorem still_iff {c d : Core} : still d = still c ↔
    marked d = marked c ∧ d.withheld = c.withheld ∧ d.newWith = c.newWith ∧ d.sp = c.sp := by
  simp only [still, Prod.mk.injEq]

theorem GoesOn.refl (c : Core) : GoesOn c c := ⟨rfl, fun _ h => h⟩

theorem GoesOn.trans {c d e : Core} (h : GoesOn c d) (h' : GoesOn d e) : GoesOn c e :=
  ⟨h'.marks.trans h.marks, fun w hw => h'.keeps w (h.keeps w hw)⟩

theorem GoesOn.of_still {c d : Core} (h : still d = still c) : GoesOn c d := by
  obtain ⟨hmarks, hwith, -⟩ := still_iff.1 h
  exact ⟨hmarks, fun e he => hwith ▸ he⟩

theorem GoesOn.foldl {β : Type} {f : Core → β → Core} (hf : ∀ c x, GoesOn c (f c x)) (l : List β) (c : Core) :
    GoesOn c (l.foldl f c) :=
  List.foldlRecOn _ _ (GoesOn.refl c) fun _ hd x _ => hd.trans (hf _ x)

section
variable {c : Core}

/-! ### Scratchpad and mailboxes -/

theorem marked_withheld_spPuts (l : List (Nat × List Byte)) :
    (marked (spPuts l c), (spPuts l c).withheld, (spPuts l c).newWith, (spPuts l c).p, (spPuts l c).hpend) =
      (marked c, c.withheld, c.newWith, c.p, c.hpend) := by
  unfold spPuts
  refine foldl_keeps (g := fun k : Core => (marked k, k.withheld, k.newWith, k.p, k.hpend)) (fun k e => ?_) l c
  rfl

theorem goesOn_spPuts (l : List (Nat × List Byte)) : GoesOn c (spPuts l c) := by
  unfold spPuts
  refine .foldl (fun k e => ?_) l c
  exact ⟨rfl, fun _ h => h⟩

theorem still_mbClear (m : Nat) : still (mbClear m c) = still c := by
  unfold mbClear
  split <;> rfl

theorem still_inboxRemove (o : Option (Nat × Word)) : still (inboxRemove o c) = still c := by
  unfold inboxRemove
  split <;> rfl

/-! ### Landings that withhold nothing -/

theorem still_setFlags (who : Ctx) (fl : Flags) : still (setFlags who fl c) = still c := by
  cases who <;> rfl

theorem still_clearFlags (who : Ctx) (fl : Flags) : still (clearFlags who fl c) = still c := by
  cases who <;> rfl

theorem still_flagInc (f n : Nat) : still (flagInc c f n) = still c := by
  unfold flagInc
  extract_lets
  split <;> rfl

theorem still_flagSub1 (prim : Bool) (f n : Nat) : still (flagSub1 prim c f n) = still c := by
  cases prim <;> rfl

theorem still_landFlags (l : List Pend) : still (landFlags l c) = still c := by
  unfold landFlags
  extract_lets es c1
  refine (foldl_keeps (fun k x => ?_) es c1).trans (foldl_keeps (fun k x => ?_) es c)
  · split
    · exact still_flagInc ..
    · rfl
  · split
    · exact still_flagSub1 ..
    · rfl

theorem still_fpClears (l : List Pend) : still (fpClears l c) = still c := by
  rw [fpClears_eq]
  refine foldl_keeps (fun k e => foldl_keeps (fun m x => ?_) e.effs k) l c
  cases x with
  | fpClear v => exact still_clearFlags ..
  | _ => rfl

theorem still_fpSets (l : List Pend) : still (fpSets l c) = still c := by
  unfold fpSets
  refine foldl_keeps (fun k e => ?_) _ c
  exact still_setFlags e.who e.fl

theorem still_landGroupGrid (g : Group) : still (landGroupGrid c g) = still c := still_setFlags g.who g.fl

theorem still_gridCycle : still (gridCycle c) = still c :=
  (foldl_keeps (fun _ g => still_landGroupGrid g) _ _).trans (foldl_keeps (fun _ g => still_landGroupGrid g) _ c)

theorem still_landList (prim : Bool) (l : Nat) (op : ListOp) : still (landList prim l op c) = still c := by
  unfold landList
  extract_lets
  split <;> rfl

theorem still_landTap (tp seg ty : Nat) (pred : Word) (x : Vec) : still (landTap tp seg ty pred x c) = still c := by
  unfold landTap
  split
  · rfl
  · refine foldl_keeps (fun k e => ?_) _ c
    rfl

/-! ### Landings that withhold an effect -/

theorem goesOn_addWith (e : WhE) : GoesOn c { c with withheld := addWith e c.withheld } :=
  ⟨by simp only [marked], fun _ h => mem_addWith.2 (.inr h)⟩

theorem goesOn_landMem (who : Ctx) (ord a : Nat) (v : Vec) (m : Word) : GoesOn c (landMem who ord a v m c) := by
  cases who with
  | gate => exact goesOn_spPuts _
  | prim | helper => exact goesOn_addWith _

theorem still_withMcache (c : Core) (m : List ((Nat × Nat × Nat × Nat) × (Nat × BitVec 512))) (v : Word) :
    still { c with mcache := m, kstatV := v } = still c := rfl

theorem goesOn_landEff (e : Pend) (x : Eff) : GoesOn c (landEff e c x) := by
  cases x with
  | vec d v m =>
    cases d with
    | mem a => exact goesOn_landMem ..
    | grid g => exact .refl c
  | withhold w => exact goesOn_addWith _
  | store a d => exact ⟨rfl, fun _ h => h⟩
  | list l op => exact .of_still (still_landList ..)
  | take m => exact .of_still (still_mbClear m)
  | sreg | preg | xreg | handle | lpop | gram | mask | trap | xback | qnote =>
    refine .of_still ?_
    unfold landEff
    dsimp only
    split <;> rfl
  | mcFill key row v miss =>
    refine .of_still ?_
    unfold landEff
    dsimp only
    split
    · exact still_withMcache c ..
    · split <;> rfl
  | kstat nan held em bt => exact .of_still (landEff_kstat e c nan held em bt ▸ still_withMcache c ..)
  | _ => exact .of_still rfl

theorem goesOn_landEffs (l : List Pend) : GoesOn c (l.foldl (fun k e => e.effs.foldl (landEff e) k) c) :=
  .foldl (fun _ e => .foldl (fun _ x => goesOn_landEff e x) e.effs _) l c

theorem mem_foldl_addWith {f : WhE} {ord : Nat} {ws : List Wh} {l : List WhE} (hf : f ∈ l) :
    f ∈ ws.foldl (fun l x => addWith ⟨ord, x⟩ l) l :=
  List.foldlRecOn (motive := fun l => f ∈ l) _ _ hf fun _ h _ _ => mem_addWith.2 (.inr h)

theorem goesOn_landTapFin (ord tp : Nat) (w : Word) (b jobt : Nat) : GoesOn c (landTapFin ord tp w b jobt c).2.2 := by
  unfold landTapFin
  split
  · exact .refl c
  · extract_lets ps vs fl hit ws halt p1 c1 c2
    have h1 : GoesOn c c1 := ⟨by simp only [marked, c1], fun _ h => mem_foldl_addWith h⟩
    refine h1.trans ?_
    dsimp only [c2]
    clear_value halt
    cases halt <;> exact ⟨rfl, fun _ h => h⟩

theorem goesOn_passTap (e : Pend) (r : (List Eff × Flags) × Core) (x : Eff) : GoesOn r.2 (passTap e r x).2 := by
  cases x with
  | tap tp seg ty pr v => exact .of_still (still_landTap ..)
  | tapFin tp w d b t => exact goesOn_landTapFin ..
  | _ => exact .refl r.2

theorem goesOn_passTaps (l : List Pend) : GoesOn c (passTaps l c).2 := by
  rw [passTaps_eq]
  refine List.foldlRecOn (motive := fun r : List Pend × Core => GoesOn c r.2) _ _ (.refl c) fun r hr e _ => hr.trans ?_
  exact List.foldlRecOn (motive := fun q : (List Eff × Flags) × Core => GoesOn r.2 q.2) _ _ (.refl r.2)
    fun q hq x _ => hq.trans (goesOn_passTap e q x)

/-! ### The landings of a cycle (R219) -/

theorem still_gridTurn (goes : Bool) : still (if goes then gridCycle c else
    { gridCycle { c with p := { c.p with groups := [] } } with
      p := { (gridCycle { c with p := { c.p with groups := [] } }).p with groups := c.p.groups } }) = still c := by
  cases goes with
  | true => exact still_gridCycle
  | false => exact still_gridCycle (c := { c with p := { c.p with groups := [] } })

theorem goesOn_landAll (goes : Bool) : GoesOn c (landAll goes c) := by
  unfold landAll
  extract_lets due held pl0 ps hl p0 c0 pt pl c2 c3 hg pg p3 c4 keep c5
  have h0 : GoesOn c c0 := .of_still rfl
  have hclears : GoesOn c0 (fpClears (hl ++ pl0) c0) := .of_still (still_fpClears _)
  have htaps : GoesOn (fpClears (hl ++ pl0) c0) pt.2 := goesOn_passTaps pl0
  have hflags : GoesOn pt.2 c2 := .of_still ((still_fpSets _).trans (still_landFlags _))
  have heffs : GoesOn c2 c3 := goesOn_landEffs _
  have hgroups : GoesOn c3 c4 := .of_still rfl
  have hgrid : GoesOn c4 _ := .of_still (still_gridTurn goes)
  exact h0.trans (hclears.trans (htaps.trans (hflags.trans (heffs.trans (hgroups.trans hgrid)))))

end

end Sys2Proof.Machine
end

section
/-! PROOFS. The end of a core's cycle in its parts, and withheld effects through it (R111, R381, R382, R384; O43). -/

namespace Sys2Proof.Machine

section
variable {c : Core}

/-! ### A cycle in which nothing lands but released flag posts (R133, R219) -/

/-- A result that only counts a flag up. -/
def CountsFlag (e : Pend) : Prop := ∃ f n, e.effs = [.flagAdd f n]

theorem landEffs_countsFlag {e : Pend} (he : CountsFlag e) : e.effs.foldl (landEff e) c = c := by
  obtain ⟨f, n, heffs⟩ := he
  rw [heffs]
  rfl

theorem landEffs_of_flags {l : List Pend} (hl : ∀ e ∈ l, CountsFlag e) :
    l.foldl (fun k e => e.effs.foldl (landEff e) k) c = c := by
  induction l with
  | nil => rfl
  | cons e l ih =>
    obtain ⟨he, hl⟩ := List.forall_mem_cons.1 hl
    rw [List.foldl_cons, landEffs_countsFlag he, ih hl]

theorem countsFlag_loseShared {e : Pend} (he : CountsFlag e) (ps : List (Nat × Nat)) : CountsFlag (loseShared ps e) := by
  obtain ⟨f, n, heffs⟩ := he
  exact ⟨f, n, by simp [loseShared, heffs, sharedOf]⟩

theorem filter_due_eq_nil {l : List Pend} (hl : ∀ e ∈ l, 1 < e.rem) : l.filter (fun e => e.rem ≤ 1) = [] :=
  List.filter_eq_nil_iff.2 fun e he hle => Nat.not_le.2 (hl e he) (of_decide_eq_true hle)

/-- Where nothing else is due, the landings of flag posts leave what is withheld and the scratchpad. -/
theorem still_landAll_of_flags {goes : Bool} (hp : ∀ e ∈ c.p.pend, 1 < e.rem)
    (hh : ∀ e ∈ c.hpend, 1 < e.rem ∨ CountsFlag e) : still (landAll goes c) = still c := by
  unfold landAll
  extract_lets due held pl0 ps hl p0 c0 pt pl c2 c3 hg pg p3 c4 keep c5
  have hdue : due = [] := by
    dsimp only [due]
    rw [filter_due_eq_nil hp]
    exact ite_self _
  have hpl0 : pl0 = [] := by
    dsimp only [pl0]
    rw [hdue]
    rfl
  have hpt : pt = ([], fpClears (hl ++ pl0) c0) := by
    dsimp only [pt]
    rw [hpl0]
    rfl
  have hpl : pl = [] := congrArg Prod.fst hpt
  have hflags : ∀ e ∈ hl ++ pl, CountsFlag e := by
    rw [hpl, List.append_nil]
    intro e he
    obtain ⟨e', he', rfl⟩ := List.mem_map.1 he
    obtain ⟨hmem, hrem⟩ := List.mem_filter.1 (mem_sortPend.1 he')
    exact countsFlag_loseShared ((hh e' hmem).resolve_left (Nat.not_lt.2 (of_decide_eq_true hrem))) ps
  have h0 : still c0 = still c := rfl
  have h1 : still pt.2 = still c0 := hpt ▸ still_fpClears _
  have h2 : still c2 = still pt.2 := (still_fpSets _).trans (still_landFlags _)
  have h3 : c3 = c2 := landEffs_of_flags hflags
  have h4 : still c4 = still c3 := rfl
  have h5 := still_gridTurn (c := c4) goes
  exact h5.trans (h4.trans ((congrArg still h3).trans (h2.trans (h1.trans h0))))

/-! ### Reads of the inbox (R234) -/

theorem still_popInbox (goes : Bool) : still (popInbox goes c) = still c := by
  unfold popInbox
  refine foldl_keeps (fun k (e : Pend) => foldl_keeps (fun m x => ?_) e.effs k) _ c
  split
  · exact still_inboxRemove _
  · rfl

theorem popInbox_of_none_due {goes : Bool} (hp : ∀ e ∈ c.p.pend, 1 < e.rem) (hh : ∀ e ∈ c.hpend, 1 < e.rem) :
    popInbox goes c = c := by
  have hdue : (c.hpend ++ if goes then c.p.pend else []).filter (fun e => e.rem ≤ 1) = [] := by
    refine filter_due_eq_nil fun e he => ?_
    cases goes with
    | true => exact (List.mem_append.1 he).elim (hh e) (hp e)
    | false => exact hh e (by simpa using he)
  rw [popInbox, hdue]
  rfl

/-! ### Releases (R111) -/

theorem marked_releaseAll (c : Core) : marked (releaseAll c).1 = marked c := by
  have h := settled_releasedCore c
  have hcyc : (releasedCore c).cyc = c.cyc := congrArg (fun s => s.2.2.1) h
  have hshadow : (releasedCore c).shadow = c.shadow := congrArg (fun s => s.1) h
  have hregion : (releasedCore c).region = c.region := congrArg (fun s => s.2.1) h
  simp only [marked, releaseAll_fst, hcyc, hshadow, hregion]

theorem sp_releaseAll (c : Core) : (releaseAll c).1.sp = c.sp :=
  congrArg (fun s => s.2.2.2.2.1) (settled_releasedCore c)

theorem pend_releaseAll (c : Core) : (releaseAll c).1.p.pend = c.p.pend :=
  congrArg (fun s => s.2.2.2.2.2) (settled_releasedCore c)

/-- Of the results that helpers and events have on their way after a release, the new ones are flag posts. -/
theorem hpend_releaseAll {c : Core} {e : Pend} (he : e ∈ (releaseAll c).1.hpend) : e ∈ c.hpend ∨ CountsFlag e := by
  have hmasks : (releaseAll c).1.hpend =
      ((allWithheld c).foldl releaseOne ({ c with withheld := [], newWith := [] }, [], [])).1.hpend :=
    congrArg Prod.snd (onWay_setMasks _)
  rw [hmasks] at he
  revert he
  refine List.foldlRecOn (motive := fun r : Rel => e ∈ r.1.hpend → e ∈ c.hpend ∨ CountsFlag e) _ _ .inl
    fun r hr w _ he => ?_
  rw [hpend_releaseOne] at he
  rcases List.mem_append.1 he with he | he
  · exact hr he
  · split at he
    · next f n _ =>
      obtain rfl := List.mem_singleton.1 he
      exact .inr ⟨f, n, rfl⟩
    · cases he

/-! ### The parts of the end of a cycle -/

/-- The release of a CKPT or HALT comes about in this cycle. -/
def releases (c : Core) : Bool := !c.cyc.trapped && (c.cyc.ckpt || c.cyc.halt.isSome)

/-- The core after the reads of the inbox and the release, with the stores released. -/
def releasedEnd (c : Core) : Core × List (Nat × List Byte) :=
  if releases c then releaseAll (popInbox (primGoes c) c)
  else ({ popInbox (primGoes c) c with withheld := allWithheld (popInbox (primGoes c) c), newWith := [] }, [])

/-- The core with the port writes and the released stores written. -/
def storedEnd (c : Core) : Core := spPuts (releasedEnd c).2 (spPuts c.cyc.portWr (releasedEnd c).1)

def landedEnd (c : Core) : Core := landAll (primGoes (storedEnd c)) (storedEnd c)

/-- The primary moves on, when its bundle has issued, and stops at a HALT. -/
def issuedEnd (c : Core) : Core :=
  if c.cyc.issued && !c.cyc.trapped then
    (let k := advancePrim (if c.num < 512 then 16384 else 2049) { c with since := c.since + 1 }
     match c.cyc.halt with
     | some m => { k with run := .halted, retain := some m }
     | none => { k with run := .run })
  else c

def workedEnd (c : Core) : Core := tickBusy (issuedEnd (landedEnd c))

/-- The checkpoint of a CKPT that no trap meets. -/
def capturedEnd (region : Nat) (c : Core) : Core := if c.cyc.ckpt && !c.cyc.trapped then capture region c else c

/-- The engines and the counters. -/
def countedEnd (c : Core) : Core :=
  let d := tickAcq (matEnd (copyEnd (tickRestore c)))
  countCycle { d with
    evs := if d.cyc.trapped then d.evs ++ [(0x11, 15)] else d.evs, lift := d.lift.map (fun e => (e.1, e.2.1 - 1, e.2.2)) }

theorem endCore_eq (c : Core) : endCore c = countedEnd (capturedEnd (slotBundle c.p 7) (workedEnd c)) := rfl

/-! ### What the last of them leaves -/

/-- The parts of a core that stand once the checkpoint has been captured. -/
def checkpointed (c : Core) : (Prim × Prim × Nat × Bool) × (Sparse Nat × List (Nat × Bool × Nat)) ×
    (List (Nat × CandList) × Sparse CandList × Sparse CandList) × (List WhE × List WhE × Sparse Byte) :=
  ((c.shadow, c.p, c.region, c.retry), (c.fTaken, c.hTaken), (c.listSave, c.listCk, c.lists), (c.withheld, c.newWith, c.sp))

theorem checkpointed_tickRestore : checkpointed (tickRestore c) = checkpointed c := by
  unfold tickRestore
  split
  · split
    · rfl
    · split
      · unfold endRestore
        split <;> rfl
      · rfl
  · rfl

theorem checkpointed_setCq (q : Nat) (x : CopyQ) : checkpointed (c.setCq q x) = checkpointed c := rfl

theorem checkpointed_withEng (e : CopyEng) : checkpointed { c with eng := e } = checkpointed c := rfl

theorem checkpointed_copyEnd : checkpointed (copyEnd c) = checkpointed c := by
  unfold copyEnd
  extract_lets c1
  refine (checkpointed_withEng _).trans (foldl_keeps (fun k q => ?_) (List.range 4) c)
  exact (checkpointed_setCq ..).trans (checkpointed_setCq ..)

theorem checkpointed_matEnd : checkpointed (matEnd c) = checkpointed c := rfl

theorem checkpointed_tickAcq : checkpointed (tickAcq c) = checkpointed c := rfl

theorem checkpointed_countCycle : checkpointed (countCycle c) = checkpointed c := rfl

theorem checkpointed_withEvents (evs : List (Nat × Nat)) (lift : List (Nat × Nat × Vec)) :
    checkpointed { c with evs := evs, lift := lift } = checkpointed c := rfl

theorem checkpointed_countedEnd : checkpointed (countedEnd c) = checkpointed c :=
  checkpointed_countCycle.trans ((checkpointed_withEvents ..).trans (checkpointed_tickAcq.trans
    (checkpointed_matEnd.trans (checkpointed_copyEnd.trans checkpointed_tickRestore))))

theorem checkpointed_iff {d : Core} : checkpointed d = checkpointed c ↔
    (d.shadow = c.shadow ∧ d.p = c.p ∧ d.region = c.region ∧ d.retry = c.retry) ∧
    (d.fTaken = c.fTaken ∧ d.hTaken = c.hTaken) ∧
    (d.listSave = c.listSave ∧ d.listCk = c.listCk ∧ d.lists = c.lists) ∧
    d.withheld = c.withheld ∧ d.newWith = c.newWith ∧ d.sp = c.sp := by
  simp only [checkpointed, Prod.mk.injEq]

theorem still_issuedEnd : still (issuedEnd c) = still c := by
  unfold issuedEnd
  extract_lets k
  split
  · split <;> rfl
  · rfl

theorem still_tickBusy : still (tickBusy c) = still c := rfl

theorem still_workedEnd : still (workedEnd c) = still (landedEnd c) := still_tickBusy.trans still_issuedEnd

/-! ### The marks of the cycle through it -/

theorem marked_popInbox (goes : Bool) : marked (popInbox goes c) = marked c := congrArg Prod.fst (still_popInbox goes)

theorem marked_releasedEnd : marked (releasedEnd c).1 = marked c := by
  unfold releasedEnd
  split
  · exact (marked_releaseAll _).trans (marked_popInbox _)
  · exact marked_popInbox _

theorem marked_landedEnd : marked (landedEnd c) = marked c :=
  (goesOn_landAll _).marks.trans
    ((goesOn_spPuts _).marks.trans ((goesOn_spPuts _).marks.trans marked_releasedEnd))

theorem marked_workedEnd : marked (workedEnd c) = marked c :=
  (congrArg Prod.fst still_workedEnd).trans marked_landedEnd

theorem capturedEnd_ckpt {n : Nat} (hckpt : c.cyc.ckpt = true) (htrap : c.cyc.trapped = false) :
    capturedEnd n (workedEnd c) = capture n (workedEnd c) := by
  obtain ⟨-, -, hckpt', htrap'⟩ := marked_iff.1 (marked_workedEnd (c := c))
  rw [capturedEnd, hckpt', htrap', hckpt, htrap]
  rfl

theorem capturedEnd_none {n : Nat} (h : c.cyc.trapped = true ∨ c.cyc.ckpt = false) :
    capturedEnd n (workedEnd c) = workedEnd c := by
  obtain ⟨-, -, hckpt, htrap⟩ := marked_iff.1 (marked_workedEnd (c := c))
  refine if_neg ?_
  rw [hckpt, htrap]
  rcases h with h | h <;> simp [h]

/-- The capture leaves what is withheld and the scratchpad. -/
theorem stored_capturedEnd (n : Nat) : (capturedEnd n c).withheld = c.withheld ∧ (capturedEnd n c).newWith = c.newWith ∧
    (capturedEnd n c).sp = c.sp := by
  unfold capturedEnd
  split <;> exact ⟨rfl, rfl, rfl⟩

/-- What is withheld and the scratchpad after a cycle are as its landings leave them. -/
theorem stored_endCore : (endCore c).withheld = (landedEnd c).withheld ∧ (endCore c).newWith = (landedEnd c).newWith ∧
    (endCore c).sp = (landedEnd c).sp := by
  obtain ⟨-, -, -, hwith, hnew, hsp⟩ := checkpointed_iff.1
    (checkpointed_countedEnd (c := capturedEnd (slotBundle c.p 7) (workedEnd c)))
  obtain ⟨hwith', hnew', hsp'⟩ := stored_capturedEnd (c := workedEnd c) (slotBundle c.p 7)
  obtain ⟨-, hwith'', hnew'', hsp''⟩ := still_iff.1 (still_workedEnd (c := c))
  rw [endCore_eq]
  exact ⟨hwith.trans (hwith'.trans hwith''), hnew.trans (hnew'.trans hnew''), hsp.trans (hsp'.trans hsp'')⟩

/-! ### Captured, or not (R381, R382) -/

theorem capture_opens (n : Nat) : (capture n c).shadow = (capture n c).p ∧ (capture n c).region = n ∧
    (capture n c).retry = false ∧ (capture n c).fTaken = [] ∧ (capture n c).hTaken = [] ∧ (capture n c).listSave = [] ∧
    (capture n c).listCk = (capture n c).lists := ⟨rfl, rfl, rfl, rfl, rfl, rfl, rfl⟩

/-- A CKPT that no trap meets captures the primary as it stands at the end of its cycle and opens a region. -/
theorem endCore_captures (hckpt : c.cyc.ckpt = true) (htrap : c.cyc.trapped = false) :
    (endCore c).shadow = (endCore c).p ∧ (endCore c).region = slotBundle c.p 7 ∧ (endCore c).retry = false ∧
    (endCore c).fTaken = [] ∧ (endCore c).hTaken = [] ∧ (endCore c).listSave = [] ∧
    (endCore c).listCk = (endCore c).lists := by
  have hcheck : checkpointed (endCore c) = checkpointed (capture (slotBundle c.p 7) (workedEnd c)) := by
    rw [endCore_eq, capturedEnd_ckpt hckpt htrap, checkpointed_countedEnd]
  obtain ⟨⟨hshadow, hp, hregion, hretry⟩, ⟨hf, hh⟩, ⟨hsave, hck, hlists⟩, -⟩ := checkpointed_iff.1 hcheck
  rw [hshadow, hp, hregion, hretry, hf, hh, hsave, hck, hlists]
  exact capture_opens _

theorem endCore_keeps_shadow (h : c.cyc.trapped = true ∨ c.cyc.ckpt = false) :
    (endCore c).shadow = c.shadow ∧ (endCore c).region = c.region := by
  have hcheck : checkpointed (endCore c) = checkpointed (workedEnd c) := by
    rw [endCore_eq, capturedEnd_none h, checkpointed_countedEnd]
  obtain ⟨⟨hshadow, -, hregion, -⟩, -⟩ := checkpointed_iff.1 hcheck
  obtain ⟨hshadow', hregion', -⟩ := marked_iff.1 (marked_workedEnd (c := c))
  exact ⟨hshadow.trans hshadow', hregion.trans hregion'⟩

/-! ### Withheld on, or released (R111) -/

theorem releases_eq_false (h : c.cyc.trapped = true ∨ c.cyc.ckpt = false ∧ c.cyc.halt = none) : releases c = false := by
  rcases h with h | ⟨hckpt, hhalt⟩
  · simp [releases, h]
  · simp [releases, hckpt, hhalt]

theorem releases_eq_true (htrap : c.cyc.trapped = false) (h : c.cyc.ckpt = true ∨ c.cyc.halt.isSome = true) :
    releases c = true := by
  rcases h with h | h <;> simp [releases, htrap, h]

/-- Without a release what is withheld stays so, the bundle's own with it. -/
theorem endCore_withholds (h : releases c = false) {e : WhE} (he : e ∈ c.withheld ++ c.newWith) :
    e ∈ (endCore c).withheld := by
  obtain ⟨-, hwith, hnew, -⟩ := still_iff.1 (still_popInbox (c := c) (primGoes c))
  have hall : allWithheld (popInbox (primGoes c) c) = allWithheld c := by
    rw [allWithheld, allWithheld, hnew, hwith]
  have hrel : e ∈ (releasedEnd c).1.withheld := by
    rw [releasedEnd, h, if_neg Bool.false_ne_true, hall]
    exact (perm_allWithheld c).mem_iff.2 he
  have hland : e ∈ (landedEnd c).withheld :=
    ((goesOn_spPuts _).trans ((goesOn_spPuts _).trans (goesOn_landAll _))).keeps e hrel
  exact (stored_endCore (c := c)).1 ▸ hland

/-- The scratchpad after stores depends on nothing of the core but its scratchpad. -/
theorem sp_spPuts_congr {d : Core} (h : d.sp = c.sp) (l : List (Nat × List Byte)) : (spPuts l d).sp = (spPuts l c).sp := by
  induction l generalizing c d with
  | nil => exact h
  | cons x l ih => exact ih (c := spPut x.1 x.2 c) (by simp only [spPut, h])

/-- With nothing due, a release leaves nothing withheld, and the cycle ends with the stores of its ports and the released ones
in the scratchpad. -/
theorem endCore_releases (h : releases c = true) (hrem : ∀ e ∈ c.p.pend ++ c.hpend, 1 < e.rem) :
    (endCore c).withheld = [] ∧ (endCore c).newWith = [] ∧
    (endCore c).sp = (spPuts (releaseAll c).2 (spPuts c.cyc.portWr c)).sp := by
  have hp (e : Pend) (he : e ∈ c.p.pend) : 1 < e.rem := hrem e (List.mem_append_left _ he)
  have hh (e : Pend) (he : e ∈ c.hpend) : 1 < e.rem := hrem e (List.mem_append_right _ he)
  have hrel : releasedEnd c = releaseAll c := by
    rw [releasedEnd, h, if_pos rfl, popInbox_of_none_due hp hh]
  have hkeep : (marked (storedEnd c), (storedEnd c).withheld, (storedEnd c).newWith, (storedEnd c).p, (storedEnd c).hpend) =
      (marked (releaseAll c).1, (releaseAll c).1.withheld, (releaseAll c).1.newWith, (releaseAll c).1.p,
        (releaseAll c).1.hpend) := by
    rw [storedEnd, hrel, marked_withheld_spPuts, marked_withheld_spPuts]
  simp only [Prod.mk.injEq] at hkeep
  obtain ⟨-, hwith, hnew, hprim, hhp⟩ := hkeep
  have hland : still (landedEnd c) = still (storedEnd c) := by
    refine still_landAll_of_flags (fun e he => hp e ?_) fun e he => ?_
    · rwa [hprim, pend_releaseAll] at he
    · rw [hhp] at he
      exact (hpend_releaseAll he).imp_left (hh e)
  obtain ⟨hwith', hnew', hsp'⟩ := stored_endCore (c := c)
  obtain ⟨-, hwith'', hnew'', hsp''⟩ := still_iff.1 hland
  refine ⟨hwith'.trans (hwith''.trans (hwith.trans (withheld_releaseAll c))),
    hnew'.trans (hnew''.trans (hnew.trans (newWith_releaseAll c))), hsp'.trans (hsp''.trans ?_)⟩
  rw [storedEnd, hrel]
  exact sp_spPuts_congr (sp_spPuts_congr (sp_releaseAll c) _) _

end

end Sys2Proof.Machine

namespace Sys2Proof.Proofs

open Sys2Proof Sys2Proof.Machine

/-- Settles O43: the buffer by the place each effect is put in, the release effect by effect, the end of the cycle by its parts,
and the full buffer operation by operation. -/
theorem withheldEffects : Obligations.WithheldEffects := by
  refine ⟨fun c => ⟨perm_allWithheld c, inOrder_allWithheld⟩,
    fun c => ⟨withheld_releaseAll c, newWith_releaseAll c, ?sent, fun h => ?stored⟩,
    fun c st out o h en m n f a v k => ⟨rfl, rfl, rfl, rfl, helper_releaseOne_start, rfl⟩,
    fun c htrap hckpt => endCore_captures hckpt htrap, fun c => endCore_keeps_shadow,
    fun c h e he => endCore_withholds (releases_eq_false h) he,
    fun c htrap h hrem => endCore_releases (releases_eq_true htrap h) hrem,
    fun d x y z w q im f m r n j u l b k t g i a h en => ?full⟩
  case sent =>
    rw [out_releaseAll]
    rfl
  case stored => exact stores_releaseAll h
  case full =>
    intro cm sx o any
    exact ⟨fullTraps_of_withhold (fun _ => rfl) fun _ _ _ _ => rfl,
      fullTraps_of_withhold (fun _ => rfl) fun _ _ hfo h => opStore_prim h hfo,
      fullTraps_of_withhold (fun _ => rfl) fun _ _ hfo h => opStore_prim (w := 3) h hfo,
      fullTraps_of_onCore (fun _ => rfl) fun _ _ hfo h hfull => opVst_prim_full h hfo hfull,
      fullTraps_of_onCore (fun _ => rfl) fun _ _ hfo h hfull => opVstx_prim_full h hfo hfull,
      fullTraps_of_onCore (fun _ => rfl) fun _ _ hfo h hfull => bigStore_prim_full (length_storedQ ▸ h) hfo hfull,
      fullTraps_of_onCore (fun _ => rfl) fun _ _ hfo h hfull =>
        bigStore_prim_full ((length_listImage _).symm ▸ h.1) hfo hfull,
      fullTraps_of_onCore (fun _ => rfl) fun _ _ hfo h hfull => opXst_prim_full h hfo hfull,
      fullTraps_of_onCore (fun _ => rfl) fun _ _ hfo ⟨hroom, hrv, hclear⟩ hfull =>
        opHpush_prim_here_full hfo ⟨hroom, hrv, hclear⟩ hfull,
      fullTraps_of_onCore (fun _ => rfl) fun _ _ hfo ⟨hrv, hin⟩ hfull => opHadv_prim_full hfo hrv hin hfull,
      fullTraps_of_onCore (fun _ => rfl) fun _ _ hfo ⟨hroom, hrv, hnear, hclear⟩ hfull =>
        opHpush_prim_there_full hfo ⟨hroom, hrv, hnear, hclear⟩ hfull,
      fullTraps_of_onCore (fun _ => rfl) fun _ _ hfo ⟨hsome, hrv, hclear⟩ hfull =>
        opHpop_prim_full hfo hsome hrv hclear hfull,
      doesWhen_of_onCore (fun _ => rfl) fun _ _ ⟨hfo, hfree, h, hktrap, hfull⟩ =>
        kLane_ksamp_full hfo hfree h hktrap hfull,
      doesWhen_of_onCore (fun _ => rfl) fun _ _ ⟨hfo, hfree, h, hfull⟩ =>
        kLane_gsetSt_full hfo hfree h hfull,
      fun _ _ hready hfo hfree htree hlt hfull => exec_ksend_prim_full hready hfo hfree htree hlt hfull,
      fullTraps_of_onCore (fun _ => rfl) fun _ _ hfo ⟨hgate, hfree⟩ hfull => opLift_prim_full hfo hgate hfree hfull,
      fullTraps_of_withhold (fun _ => rfl) fun _ _ _ ⟨hfree, hheld⟩ => opStart_prim hfree hheld,
      fun hfp hlc hgwt _ _ hready ⟨_, _, hfull⟩ => by
        rw [exec_mtc hready hgwt, opMtc_withheld hfp hlc, withhold_full hfull],
      fullTraps_of_withhold (fun _ => rfl) fun _ _ hfo _ => opFpost_prim hfo,
      fullTraps_of_withhold (fun _ => rfl) fun _ _ hfo h => (opFpostx_form h).trans (emit_prim hfo),
      fullTraps_of_withhold (fun _ => rfl) fun _ _ hfo _ => emit_prim hfo,
      fullTraps_of_onCore (fun _ => rfl) fun _ _ hfo h hfull => opTakem_prim_full h hfo hfull,
      fullTraps_of_withhold (fun _ => rfl) fun _ _ _ h => opSendm_form h,
      fullTraps_of_onCore (fun _ => rfl) fun _ _ _ _ => matCmd_full,
      fullTraps_of_onCore (fun _ => rfl) fun _ _ _ _ => matCmd_full,
      fullTraps_of_onCore (fun _ => rfl) fun _ _ _ _ => matCmd_full,
      fullTraps_of_onCore (fun _ => rfl) fun _ _ _ _ => matCmd_full,
      fullTraps_of_onCore (fun _ => rfl) fun _ _ _ _ => matCmd_full,
      fullTraps_of_withhold (fun _ => rfl) fun _ _ _ _ => rfl,
      fullTraps_of_withhold (fun _ => rfl) fun _ _ _ _ => rfl,
      fullTraps_of_withhold (fun _ => rfl) fun _ _ _ _ => rfl,
      fullTraps_of_withhold (fun _ => rfl) fun _ _ _ _ => rfl,
      fullTraps_of_onCore (fun _ => rfl) fun _ _ _ _ => opCseal_full,
      fullTraps_of_withhold (fun _ => rfl) fun _ _ _ _ => rfl,
      fullTraps_of_onCore (fun _ => rfl) fun _ _ _ _ => opCnext_full⟩

end Sys2Proof.Proofs
end

section
/-! PROOFS. Issue of engine commands, SENDM and EQRY (R143, R144, R150 to R157, R230, R284; O34). -/

namespace Sys2Proof.Machine

section
variable {fo : Focus} {c : Core}

/-! ### Commands with room in the withhold buffer (R143, R284) -/

/-- A matrix command is counted as issued and withheld. -/
theorem matCmd_fits {op fl : Nat} {x y z : Word} (hfits : fits c (.cmd ⟨op, 0, x, y, z, fl, fo.bundle⟩) = true) :
    matCmd op x y z fl fo c =
      withholdNow fo (.cmd ⟨op, 0, x, y, z, fl, fo.bundle⟩) { c with p := { c.p with mIssued := c.p.mIssued + 1 } } :=
  (if_pos hfits).trans (withhold_fits hfits)

theorem opCnext_fits {q fl : Nat} {x y z : Word} (hfits : fits c (.cmd ⟨0x26, q, x, y, z, fl, fo.bundle⟩) = true) :
    opCnext q x y z fl fo c =
      withholdNow fo (.cmd ⟨0x26, q, x, y, z, fl, fo.bundle⟩) { c with p := { c.p with mIssued := c.p.mIssued + 1 } } :=
  (if_pos hfits).trans (withhold_fits hfits)

theorem opCseal_fits {x : BitVec 6} {q : BitVec 2}
    (hfits : fits c (.cmd ⟨0x24, q.toNat, 0, 0, 0, 0, fo.bundle⟩) = true) :
    let n := (c.p.sealed.getD q.toNat 0 + 1) % 2 ^ 64
    opCseal x q fo c = retireS fo 1 0 x.toNat (wN n) (withholdNow fo (.cmd ⟨0x24, q.toNat, 0, 0, 0, 0, fo.bundle⟩)
      { c with p := { c.p with sealed := setAt c.p.sealed q.toNat n } }) :=
  if_pos hfits

theorem opSendm_trap {x y : BitVec 6} {m : BitVec 5}
    (h : 512 ≤ (rdS fo c x.toNat).toNat ∨ 120 ≤ (rdS fo c x.toNat).toNat % 128) :
    opSendm x y m fo c = takeTrap fo cPOSTTARGET 0 c :=
  if_neg (by rw [coreForm_iff]; omega)

end

/-! ### EQRY (R157) -/

section
variable {c : Core} {sel : Word} {it q : Nat}

/-- The fields of a selector that names item `it` of queue `q`. -/
theorem selector_fields (hsel : sel.toNat = 4 * it + q) (hq : q < 4) (hit : it < 8) :
    bits sel.toNat 63 12 = 0 ∧ bits sel.toNat 5 2 = it ∧ bits sel.toNat 1 0 = q := by
  unfold bits
  omega

theorem eqryVal_timeline (hsel : sel.toNat = q) (hq : q < 4) : eqryVal c sel = wN (c.eng.qs.getD q copyQ0).tl := by
  obtain ⟨htop, hitem, hqueue⟩ := selector_fields (it := 0) (hsel.trans (Nat.zero_add q).symm) hq (by decide)
  simp [eqryVal, htop, hitem, hqueue, timeline, hq, wN]

theorem eqryVal_sealed (hsel : sel.toNat = 4 + q) (hq : q < 4) : eqryVal c sel = wN (c.p.sealed.getD q 0) := by
  obtain ⟨htop, hitem, hqueue⟩ := selector_fields (it := 1) hsel hq (by decide)
  simp [eqryVal, htop, hitem, hqueue, sealedOf, hq, wN]

theorem eqryVal_matrix (hsel : sel.toNat = 16) (hbase : c.upper = false) : eqryVal c sel = wN c.mat.tl := by
  obtain ⟨htop, hitem, -⟩ := selector_fields (it := 4) (q := 0) hsel (by decide) (by decide)
  simp [eqryVal, htop, hitem, timeline, hbase, wN]

theorem eqryVal_timed (hsel : sel.toNat = 20) : eqryVal c sel = wN c.eng.tsb.length := by
  obtain ⟨htop, hitem, -⟩ := selector_fields (it := 5) (q := 0) hsel (by decide) (by decide)
  simp [eqryVal, htop, hitem, wN]

/-- A selector beyond the table. -/
theorem eqryVal_beyond (h : 2 ^ 12 ≤ sel.toNat ∨ 8 ≤ sel.toNat / 4 % 16) : eqryVal c sel = BitVec.allOnes 64 := by
  have hlt := sel.isLt
  have hbeyond : bits sel.toNat 63 12 ≠ 0 ∨ 7 < bits sel.toNat 5 2 := by
    unfold bits
    omega
  exact if_pos (by simpa only [Bool.or_eq_true, decide_eq_true_eq] using hbeyond)

end

end Sys2Proof.Machine

namespace Sys2Proof.Proofs

open Sys2Proof Sys2Proof.Machine

/-- Settles O34: each command by what it does with room in the withhold buffer, EQRY by the fields of its selector. -/
theorem engineCommandsIssue : Obligations.EngineCommandsIssue := by
  refine ⟨⟨fun x y z l b => doesWhen_of_onCore (fun _ => rfl) fun fo c => matCmd_fits,
      fun x y z b => doesWhen_of_onCore (fun _ => rfl) fun fo c => matCmd_fits,
      fun x y z => doesWhen_of_onCore (fun _ => rfl) fun fo c => matCmd_fits,
      fun x => doesWhen_of_onCore (fun _ => rfl) fun fo c => matCmd_fits,
      fun x y z => doesWhen_of_onCore (fun _ => rfl) fun fo c => matCmd_fits,
      fun x y z q => doesWhen_of_onCore (fun _ => rfl) fun fo c => withhold_fits,
      fun x z q => ⟨doesWhen_of_onCore (fun _ => rfl) fun fo c => withhold_fits,
        doesWhen_of_onCore (fun _ => rfl) fun fo c => withhold_fits,
        doesWhen_of_onCore (fun _ => rfl) fun fo c => withhold_fits,
        doesWhen_of_onCore (fun _ => rfl) fun fo c => withhold_fits⟩,
      fun x y z q l b => doesWhen_of_onCore (fun _ => rfl) fun fo c => opCnext_fits,
      fun x q => doesWhen_of_onCore (fun _ => rfl) fun fo c => opCseal_fits,
      fun x y m => doesWhen_of_onCore (fun _ => rfl) fun fo c ⟨hlt, hmod, hfits⟩ =>
        (opSendm_form ⟨hlt, hmod⟩).trans (withhold_fits hfits),
      fun x y m => doesWhen_of_onCore (fun _ => rfl) fun fo c => opSendm_trap⟩,
    fun x y => doesWhen_of_onCore (fun _ => rfl) fun fo c _ => rfl, fun c q hq => ⟨?timeline, ?sealed⟩,
    fun c => eqryVal_matrix rfl, fun c => eqryVal_timed rfl, fun c v => eqryVal_beyond⟩
  case timeline => exact eqryVal_timeline (Nat.mod_eq_of_lt (by omega)) hq
  case sealed => exact eqryVal_sealed (Nat.mod_eq_of_lt (by omega)) hq

end Sys2Proof.Proofs
end

section
/-! PROOFS. Events of the copy engine: completion, timed commands, starts, stops and bursts (R141, R142, R145, R148, R150,
R155, R158, R160; O55, first part). -/

namespace Sys2Proof.Machine

/-! ### An event of one core -/

section
variable {s : State} {c d : Core} {n : Nat} {f : Core → Core}

theorem State.modCore_of (hc : s.core n = some c) (hf : f c = d) : s.modCore n f = s.setCore n d :=
  hf ▸ Laws.modCore_some f hc

theorem State.modCore_self (hc : s.core n = some c) (hf : f c = c) : s.modCore n f = s :=
  (State.modCore_of hc hf).trans (Laws.setCore_self hc)

end

theorem bit_toNat {w : Nat} (v : BitVec w) (i : Nat) : bit v.toNat i = v.getLsbD i := bit_eq_testBit v.toNat i

theorem Core.cq_setCq (c : Core) (q k : Nat) (x : CopyQ) :
    (c.setCq q x).cq k = if k = q ∧ q < c.eng.qs.length then x else c.cq k :=
  Laws.getD_setAt c.eng.qs q k x copyQ0

/-! ### Completion (R142, R148, R160) -/

/-- The nodes `l` handed to the decrements of the cycle's end. -/
def handedOn (l : List Nat) (c : Core) : Core := { c with eng := { c.eng with dec := c.eng.dec ++ l } }

/-- The flag post of a control word on its way. -/
def postedBy (z : Word) (c : Core) : Core := { c with cyc := { c.cyc with out := c.cyc.out ++
  [(.gate, .flagx (z.toNat / 2 ^ 44 % 2 ^ 9) (z.toNat / 2 ^ 32 % 2 ^ 5) (z.toNat / 2 ^ 37 % 2 ^ 7))] } }

section
variable {s : State} {c : Core} {n q : Nat} {k : CopyCmd}

theorem State.copyComplete_none (hc : s.core n = some c) (hfin : (c.cq q).fin = none) : s.copyComplete n q = s := by
  simp only [State.copyComplete, hc, hfin]

theorem State.copyComplete_leaves (hc : s.core n = some c) (hfin : (c.cq q).fin = some k) (hnode : nodeOf c k = none)
    (hpost : k.c.z.getLsbD 53 = false) :
    s.copyComplete n q = s.setCore n (c.setCq q { c.cq q with fin := none }) := by
  simp only [State.copyComplete, hc, hfin, hnode, bit_toNat, hpost, Bool.false_eq_true, if_false]

theorem State.copyComplete_hands {g : GNode} (hc : s.core n = some c) (hfin : (c.cq q).fin = some k)
    (hnode : nodeOf c k = some g) (hpost : k.c.z.getLsbD 53 = false) :
    s.copyComplete n q = s.setCore n (handedOn g.succ (c.setCq q { c.cq q with fin := none })) := by
  simp only [State.copyComplete, hc, hfin, hnode, bit_toNat, hpost, Bool.false_eq_true, if_false]
  rfl

theorem State.copyComplete_posts (hc : s.core n = some c) (hfin : (c.cq q).fin = some k) (hnode : nodeOf c k = none)
    (hpost : k.c.z.getLsbD 53 = true) :
    s.copyComplete n q = s.setCore n (postedBy k.c.z (c.setCq q { c.cq q with fin := none })) := by
  simp only [State.copyComplete, hc, hfin, hnode, bit_toNat, hpost, if_true]
  rfl

theorem State.copyComplete_handsAndPosts {g : GNode} (hc : s.core n = some c) (hfin : (c.cq q).fin = some k)
    (hnode : nodeOf c k = some g) (hpost : k.c.z.getLsbD 53 = true) :
    s.copyComplete n q = s.setCore n (postedBy k.c.z (handedOn g.succ (c.setCq q { c.cq q with fin := none }))) := by
  simp only [State.copyComplete, hc, hfin, hnode, bit_toNat, hpost, if_true]
  rfl

end

/-! ### The due command of lowest time (R155) -/

/-- Of two timed commands the one of lower time, the first where they are equal. -/
def sooner (r : Option (Nat × Nat × CopyCmd)) (e : Nat × Nat × CopyCmd) : Option (Nat × Nat × CopyCmd) :=
  match r with
  | none => some e
  | some f => if e.1 < f.1 then some e else some f

theorem dueTimed_eq (c : Core) (q jobt : Nat) : dueTimed c q jobt =
    (c.eng.tsb.filter (fun e => e.2.1 = q && e.1 ≤ jobt && goesOn (c.cq q) e.2.2)).foldl sooner none := rfl

theorem sooner_spec (r : Option (Nat × Nat × CopyCmd)) (e : Nat × Nat × CopyCmd) :
    ∃ x, sooner r e = some x ∧ (x = e ∨ r = some x) ∧ x.1 ≤ e.1 ∧ ∀ f, r = some f → x.1 ≤ f.1 := by
  cases r with
  | none => exact ⟨e, rfl, .inl rfl, le_rfl, nofun⟩
  | some f =>
    by_cases h : e.1 < f.1
    · exact ⟨e, if_pos h, .inl rfl, le_rfl, fun g hg => Option.some.inj hg ▸ h.le⟩
    · exact ⟨f, if_neg h, .inr rfl, Nat.not_lt.1 h, fun g hg => Option.some.inj hg ▸ le_rfl⟩

/-- What a list of timed commands comes down to is one of them and no later than any. -/
theorem foldl_sooner {l : List (Nat × Nat × CopyCmd)} {r : Option (Nat × Nat × CopyCmd)} {e : Nat × Nat × CopyCmd}
    (h : l.foldl sooner r = some e) :
    (e ∈ l ∨ r = some e) ∧ (∀ f, r = some f → e.1 ≤ f.1) ∧ ∀ f ∈ l, e.1 ≤ f.1 := by
  induction l generalizing r with
  | nil =>
    obtain rfl : r = some e := h
    exact ⟨.inr rfl, fun f hf => Option.some.inj hf ▸ le_rfl, nofun⟩
  | cons a l ih =>
    obtain ⟨x, hx, hfrom, hle, hrest⟩ := sooner_spec r a
    obtain ⟨hmem, hold, hl⟩ := ih h
    have hex := hold x hx
    refine ⟨?_, fun f hf => hex.trans (hrest f hf), List.forall_mem_cons.2 ⟨hex.trans hle, hl⟩⟩
    rcases hmem with hmem | hsame
    · exact .inl (List.mem_cons_of_mem a hmem)
    · obtain rfl : x = e := Option.some.inj (hx.symm.trans hsame)
      rcases hfrom with rfl | hfrom
      · exact .inl List.mem_cons_self
      · exact .inr hfrom

theorem dueTimed_least {c : Core} {q t : Nat} {e : Nat × Nat × CopyCmd} (h : dueTimed c q t = some e) :
    e ∈ c.eng.tsb ∧ e.2.1 = q ∧ e.1 ≤ t ∧
    ∀ f ∈ c.eng.tsb, f.2.1 = q → f.1 ≤ t → goesOn (c.cq q) f.2.2 = true → e.1 ≤ f.1 := by
  rw [dueTimed_eq] at h
  obtain ⟨hmem, -, hleast⟩ := foldl_sooner h
  have hin := hmem.resolve_right nofun
  simp only [List.mem_filter, Bool.and_eq_true, decide_eq_true_eq] at hin hleast
  obtain ⟨htsb, ⟨hqueue, htime⟩, -⟩ := hin
  exact ⟨htsb, hqueue, htime, fun f hf hq ht hgo => hleast f ⟨hf, ⟨hq, ht⟩, hgo⟩⟩

/-! ### Starts (R141, R151, R160) -/

theorem blockAddr (v : Word) : bits v.toNat 31 0 = v.toNat % 2 ^ 32 := by
  rw [bits_31 _ _ (by decide), pow_zero, Nat.div_one]

/-- A bank used in this cycle by the engine. -/
def bankTaken (b : Nat) (c : Core) : Core :=
  { c with cyc := { c.cyc with turns := c.cyc.turns ++ [b], used := c.cyc.used ++ [b] } }

section
variable {c : Core} {q : Nat} {k : CopyCmd} {l : List CopyCmd}

theorem startView_none (hdue : (c.cq q).due = none) : startView c q = (c.cq q, c.eng.tsb) := by
  simp only [startView, hdue]

theorem startView_due {e : Nat × Nat × CopyCmd} (hdue : (c.cq q).due = some e) :
    startView c q = ({ c.cq q with cmds := e.2.2 :: (c.cq q).cmds, due := none }, c.eng.tsb.erase e) := by
  simp only [startView, hdue]

/-- The head of queue `q` as its start leaves it, a timed command out of the buffer (R155). -/
def headStarted (q : Nat) (k : CopyCmd) (l : List CopyCmd) (v : CopyQ × List (Nat × Nat × CopyCmd)) (c : Core) : Core :=
  { c with eng := { c.eng with tsb := v.2 } }.setCq q { v.1 with cmds := k :: l }

theorem headStarted_none {k' : CopyCmd} (hdue : (c.cq q).due = none) :
    headStarted q k' l (startView c q) c = c.setCq q { c.cq q with cmds := k' :: l } := by
  rw [startView_none hdue]
  rfl

theorem copyStart_idle (hstart : startable c q = false) : copyStart q c = c := by
  simp [copyStart, hstart]

theorem copyStart_notLoaded {g : GNode} (hstart : startable c q = true) (hview : (startView c q).1.cmds = k :: l)
    (hnode : nodeOf c k = some g) (hpred : g.pred = none) : copyStart q c =
      stopWith q (startView c q).1 { k with cause := some cENGDESC } l (startView c q).2 c := by
  simp [copyStart, hstart, hview, hnode, hpred]

theorem copyStart_cpy (hstart : startable c q = true) (hview : (startView c q).1.cmds = k :: l)
    (hnode : nodeOf c k = none) (hop : k.c.op = 0x20) :
    copyStart q c = headStarted q { k with started := true } l (startView c q) c := by
  simp only [copyStart, hstart, hview, hnode, hop, Bool.false_eq_true, if_true, if_false]
  rfl

theorem copyStart_cpyFree {g : GNode} {m : Nat} (hstart : startable c q = true) (hview : (startView c q).1.cmds = k :: l)
    (hnode : nodeOf c k = some g) (hpred : g.pred = some m) (hop : k.c.op = 0x20) :
    copyStart q c = headStarted q { k with started := true } l (startView c q) c := by
  simp only [copyStart, hstart, hview, hnode, hpred, hop, Option.isNone_some, Bool.false_eq_true, if_true, if_false]
  rfl

/-- The bank of the block is not the queue's in this cycle. -/
theorem copyStart_waits (hstart : startable c q = true) (hview : (startView c q).1.cmds = k :: l)
    (hnode : nodeOf c k = none) (hop : k.c.op ≠ 0x20) (hbank : bankOf (k.c.x.toNat % 2 ^ 32) ∈ c.cyc.turns) :
    copyStart q c = c := by
  have htaken := List.contains_iff_mem.2 hbank
  simp only [copyStart, hstart, hview, hnode, hop, blockAddr, htaken, Bool.false_eq_true, if_true, if_false]

theorem copyStart_block (hstart : startable c q = true) (hview : (startView c q).1.cmds = k :: l)
    (hnode : nodeOf c k = none) (hop : k.c.op ≠ 0x20) (hbank : bankOf (k.c.x.toNat % 2 ^ 32) ∉ c.cyc.turns)
    (hcheck : blockCheck c k.c.op (readBlk c (k.c.x.toNat % 2 ^ 32)) = none) :
    copyStart q c = headStarted q { k with blk := readBlk c (k.c.x.toNat % 2 ^ 32), started := true, delay := 1 } l
      (startView c q) (bankTaken (bankOf (k.c.x.toNat % 2 ^ 32)) c) := by
  have hfree := Bool.eq_false_iff.2 (mt List.contains_iff_mem.1 hbank)
  simp only [copyStart, hstart, hview, hnode, hop, blockAddr, hfree, hcheck, Bool.false_eq_true, if_true, if_false]
  rfl

theorem copyStart_blockFails {e : Nat} (hstart : startable c q = true) (hview : (startView c q).1.cmds = k :: l)
    (hnode : nodeOf c k = none) (hop : k.c.op ≠ 0x20) (hbank : bankOf (k.c.x.toNat % 2 ^ 32) ∉ c.cyc.turns)
    (hcheck : blockCheck c k.c.op (readBlk c (k.c.x.toNat % 2 ^ 32)) = some e) :
    copyStart q c = stopWith q (startView c q).1 { k with blk := readBlk c (k.c.x.toNat % 2 ^ 32), cause := some e } l
      (startView c q).2 (bankTaken (bankOf (k.c.x.toNat % 2 ^ 32)) c) := by
  have hfree := Bool.eq_false_iff.2 (mt List.contains_iff_mem.1 hbank)
  simp only [copyStart, hstart, hview, hnode, hop, blockAddr, hfree, hcheck, Bool.false_eq_true, if_true, if_false]
  rfl

/-! ### Stops (R145) -/

/-- A stop of a queue is told to the launch; it leaves the scratchpad and the primary. -/
theorem stopWith_tells (q : Nat) (x : CopyQ) (k : CopyCmd) (l : List CopyCmd) (tsb : List (Nat × Nat × CopyCmd)) (c : Core) :
    (stopWith q x k l tsb c).cyc.trig = c.cyc.trig ++ [(0x3A, q, k.c.bundle, k.cause.getD 0)] ∧
    (stopWith q x k l tsb c).sp = c.sp ∧ (stopWith q x k l tsb c).p = c.p := by
  unfold stopWith
  extract_lets first c0 c1
  split <;> exact ⟨rfl, rfl, rfl⟩

theorem copyStop_idle (hstop : stoppable c q = false) : copyStop q c = c := by
  simp [copyStop, hstop]

theorem copyStop_stops (hstop : stoppable c q = true) (hview : (startView c q).1.cmds = k :: l) :
    copyStop q c = stopWith q (startView c q).1 k l (startView c q).2 c := by
  simp only [copyStop, hstop, hview, if_true]

end

/-! ### Bursts (R150, R158) -/

section
variable {s : State} {c : Core} {n q : Nat} {k : CopyCmd}

/-- The core once the queue's pending chunk is written, held for a due command where that ends a burst (R150, R155). -/
def chunkWritten (s : State) (q : Nat) (c : Core) : Core :=
  if (c.cq q).burst.isSome && ((burstWrite q c).cq q).burst.isNone then
    timedStart q (s.jobTime (burstWrite q c).lctx) (burstWrite q c)
  else burstWrite q c

theorem chunkWritten_eq (s : State) (q : Nat) (c : Core) : chunkWritten s q c =
    if (c.cq q).burst.isSome && ((burstWrite q c).cq q).burst.isNone && atBoundary (burstWrite q c) q then
      (burstWrite q c).setCq q
        { (burstWrite q c).cq q with due := dueTimed (burstWrite q c) q (s.jobTime (burstWrite q c).lctx) }
    else burstWrite q c := by
  simp only [chunkWritten, timedStart, Bool.and_eq_true, ite_and]

theorem State.copyBurst_idle (hc : s.core n = some c) (hrun : running (chunkWritten s q c) q = none) :
    s.copyBurst n q = s.setCore n (chunkWritten s q c) := by
  unfold chunkWritten at hrun ⊢
  simp only [State.copyBurst, hc, hrun]

theorem State.copyBurst_empty (hc : s.core n = some c) (hrun : running (chunkWritten s q c) q = some k)
    (hempty : copyTotal k = 0) : s.copyBurst n q = s.setCore n (copyFinish q (chunkWritten s q c)) := by
  unfold chunkWritten at hrun ⊢
  simp only [State.copyBurst, hc, hrun, hempty, if_true, State.setCore_setCore]

theorem State.copyBurst_waits (hc : s.core n = some c) (hrun : running (chunkWritten s q c) q = some k)
    (hbytes : copyTotal k ≠ 0) (hturn : (chunkWritten s q c).eng.rd = true ∨ turnOf (chunkWritten s q c) ≠ some q) :
    s.copyBurst n q = s.setCore n (chunkWritten s q c) := by
  have hwait : ((chunkWritten s q c).eng.rd || Decidable.decide (turnOf (chunkWritten s q c) ≠ some q)) = true := by
    simpa only [Bool.or_eq_true, decide_eq_true_eq] using hturn
  unfold chunkWritten at hrun hwait ⊢
  simp only [State.copyBurst, hc, hrun, hbytes, hwait, if_true, if_false]

theorem State.copyBurst_begins (hc : s.core n = some c) (hrun : running (chunkWritten s q c) q = some k)
    (hbytes : copyTotal k ≠ 0) (hrd : (chunkWritten s q c).eng.rd = false)
    (hturn : turnOf (chunkWritten s q c) = some q) (hburst : ((chunkWritten s q c).cq q).burst = none) :
    s.copyBurst n q = (s.setCore n (chunkWritten s q c)).burstStart n q (chunkWritten s q c) k := by
  unfold chunkWritten at hrun hrd hturn hburst ⊢
  simp only [State.copyBurst, hc, hrun, hbytes, hrd, hturn, hburst, ne_eq, not_true_eq_false, decide_false, Bool.or_false,
    Bool.false_eq_true, if_false]

theorem State.copyBurst_reads {b : Burst} (hc : s.core n = some c) (hrun : running (chunkWritten s q c) q = some k)
    (hbytes : copyTotal k ≠ 0) (hrd : (chunkWritten s q c).eng.rd = false)
    (hturn : turnOf (chunkWritten s q c) = some q) (hburst : ((chunkWritten s q c).cq q).burst = some b) :
    s.copyBurst n q = (s.setCore n (burstRead q (chunkWritten s q c))).burstSend n q := by
  unfold chunkWritten at hrun hrd hturn hburst ⊢
  simp only [State.copyBurst, hc, hrun, hbytes, hrd, hturn, hburst, ne_eq, not_true_eq_false, decide_false, Bool.or_false,
    Bool.false_eq_true, if_false, State.setCore_setCore]

theorem burstWrite_idle {b : Burst} (hrun : running c q = some k) (hburst : (c.cq q).burst = some b)
    (hidle : b.data = [] ∨ b.req ≠ none ∨ b.dparts ≠ [] ∨ burstPaid c q = false) : burstWrite q c = c := by
  simp only [burstWrite, hrun, hburst]
  refine if_pos ?_
  rcases hidle with h | h | h | h <;> simp [h, Option.isSome_iff_ne_none]

theorem copyFinish_finishes {l : List CopyCmd} (hcmds : (c.cq q).cmds = k :: l) :
    copyFinish q c = c.setCq q { c.cq q with cmds := l, fin := some k, burst := none } := by
  simp only [copyFinish, hcmds]

end

end Sys2Proof.Machine
end

section
/-! PROOFS. Events of the matrix engine: starts, completions, exchanges and the stop of the timeline (R285, R286, R291 to R297;
O55, second part). -/

namespace Sys2Proof.Machine

/-! ### Starts (R285, R291, R445) -/

section
variable {c : Core} {k : MCmd}

theorem mmulStart_lacksTokens (hnext : nextOf c 0x10 = some k) (htokens : tokensOk c k.c = false) : mmulStart c = c := by
  simp [mmulStart, hnext, htokens]

theorem mmulStart_fails (hnext : nextOf c 0x10 = some k) (htokens : tokensOk c k.c = true) (hring : k.c.x.getLsbD 63 = true)
    (hout : streamOut c k.c = true) : mmulStart c = matFail k cLOCALRANGE c := by
  simp [mmulStart, hnext, htokens, hring, hout]

/-- A started MMUL is one run more; the scratchpad and the primary are as before. -/
theorem mmulStart_runs (hnext : nextOf c 0x10 = some k) (htokens : tokensOk c k.c = true)
    (hin : k.c.x.getLsbD 63 = false ∨ streamOut c k.c = false) :
    (mmulStart c).mat.runs.length = c.mat.runs.length + 1 ∧ (mmulStart c).sp = c.sp ∧ (mmulStart c).p = c.p := by
  have hpass : (k.c.x.getLsbD 63 && streamOut c k.c) = false := by
    rcases hin with h | h <;> simp only [h, Bool.false_and, Bool.and_false]
  simp only [mmulStart, hnext, htokens, hpass, Bool.not_true, Bool.false_eq_true, if_false]
  exact ⟨List.length_append, trivial, trivial⟩

theorem mdrainStart_starts (hnext : nextOf c 0x11 = some k) :
    (mdrainStart c).mat.drain = some ⟨k.no, k.c, 0, some (0, []), none, [], []⟩ ∧ (mdrainStart c).sp = c.sp := by
  simp only [mdrainStart, hnext, and_self]

theorem bfillStart_starts (hnext : nextOf c 0x12 = some k) :
    (bfillStart c).mat.fill = some ⟨k.no, k.c, 0, none, none, [], []⟩ ∧ (bfillStart c).sp = c.sp := by
  simp only [bfillStart, hnext, and_self]

theorem mcodeStart_starts (hnext : nextOf c 0x13 = some k) :
    (mcodeStart c).mat.mcode = some ⟨k.no, k.c, 0, none, none, [], []⟩ ∧ (mcodeStart c).sp = c.sp := by
  simp only [mcodeStart, hnext, and_self]

end

/-! ### Completions (R286) -/

section
variable {c : Core} {u : MUnit}

theorem mmulComplete_done {r : MRun} {l : List MRun} (hruns : c.mat.runs = r :: l) (hdone : runDone r = true) :
    mmulComplete c = matDone r.no { c with mat := { c.mat with runs := l } } := by
  simp only [mmulComplete, hruns, hdone, if_true]

theorem bfillComplete_done (hfill : c.mat.fill = some u) (hdone : fillDone u = true) :
    bfillComplete c = matDone u.no { c with mat := { c.mat with fill := none } } := by
  simp only [bfillComplete, hfill, hdone, if_true]

theorem mcodeComplete_done {b : Nat × List Byte} (hcode : c.mat.mcode = some u) (hstep : 16 ≤ u.step)
    (hdata : u.data = some b) : mcodeComplete c =
      matDone u.no { c with mat := { c.mat with mcode := none, cbA := bookOf b.2 0, cbB := bookOf b.2 32, code := true } } := by
  simp only [mcodeComplete, hcode, hstep, hdata, if_true]

theorem swapComplete_done (hswap : c.mat.swap = some u) (hdone : swapDoneB c = true) :
    (swapComplete c).mat.swap = none ∧ (swapComplete c).mat.swapDone = c.mat.swapDone + 1 := by
  simp only [swapComplete, hswap, hdone, if_true]
  exact ⟨rfl, rfl⟩

theorem mdrainComplete_done (hdrain : c.mat.drain = some u) (hdone : drainDone u = true) :
    mdrainComplete c = matDone u.no { c with mat := { c.mat with drain := none } } := by
  simp only [mdrainComplete, hdrain, hdone, if_true]

theorem drainBar_none (hdrain : c.mat.drain = some u) (hbar : u.c.z.getLsbD 17 = false) : drainBar c = none := by
  simp only [drainBar, hdrain, bit_toNat, hbar, Bool.and_false, Bool.false_eq_true, if_false]

theorem drainBar_some (hdrain : c.mat.drain = some u) (hdone : drainDone u = true) (hbar : u.c.z.getLsbD 17 = true) :
    drainBar c = some (u.c.z.toNat / 2 ^ 9 % 256) := by
  simp only [drainBar, hdrain, bit_toNat, hdone, hbar, Bool.and_self, if_true]
  rfl

variable {s : State} {n : Nat}

theorem State.drainOver_silent (hc : s.core n = some c) (hbar : drainBar c = none) :
    s.drainOver n = s.setCore n (mdrainComplete c) := by
  simp only [State.drainOver, hc, hbar]

theorem State.drainOver_arrives {b : Nat} (hc : s.core n = some c) (hbar : drainBar c = some b) : s.drainOver n =
    (let t := (s.setCore n (mdrainComplete c)).barTime n
     t.2.send (t.1 + 1) n c.lctx (.arrival b 1)) := by
  simp only [State.drainOver, hc, hbar]

end

/-! ### Exchanges (R296) -/

section
variable {s : State} {c p : Core} {n : Nat} {u v : MUnit}

/-- A started SWAP whose partner is its own core. -/
theorem State.swapStart_own (hc : s.core n = some c) (hswap : c.mat.swap = some u) (hidle : c.mat.swapLive = false)
    (hpartner : s.nowCore c.launch c.mat.partner = n) : s.swapStart n = s.setCore n (swapGo c) := by
  simp only [State.swapStart, hc, hswap, hidle, hpartner, Option.isNone_some, Bool.false_and, Bool.false_eq_true, if_true,
    if_false, State.setCore_setCore]

theorem State.swapStart_both (hc : s.core n = some c) (hswap : c.mat.swap = some u) (hidle : c.mat.swapLive = false)
    (hpartner : s.nowCore c.launch c.mat.partner ≠ n) (hp : s.core (s.nowCore c.launch c.mat.partner) = some p)
    (hpswap : p.mat.swap = some v) (hlen : swLen u.c = swLen v.c) (hdone : p.mat.swapDone = c.mat.swapDone) :
    s.swapStart n = (s.setCore n (swapGo c)).setCore (s.nowCore c.launch c.mat.partner) (swapGo p) := by
  simp only [State.swapStart, hc, hswap, hidle, hpartner, Laws.core_setCore_other _ _ hpartner, hp, hpswap, hlen, hdone,
    Option.isNone_some, Bool.false_and, Bool.false_eq_true, ne_eq, not_true_eq_false, if_true, if_false,
    State.setCore_setCore]

/-- The partner's SWAP is of another turn. -/
theorem State.swapStart_waits (hc : s.core n = some c) (hswap : c.mat.swap = some u) (hidle : c.mat.swapLive = false)
    (hpartner : s.nowCore c.launch c.mat.partner ≠ n) (hp : s.core (s.nowCore c.launch c.mat.partner) = some p)
    (hpswap : p.mat.swap = some v) (hdone : p.mat.swapDone ≠ c.mat.swapDone) : s.swapStart n = s := by
  have hsame := Laws.setCore_self hc
  simp only [State.swapStart, hc, hswap, hidle, hpartner, hsame, hp, hpswap, hdone,
    Option.isNone_some, Bool.false_and, Bool.false_eq_true, ne_eq, not_false_eq_true, if_true, if_false]

end

/-! ### The stop of the timeline (R297) -/

theorem matStop_none {c : Core} {pa : Bool} (hfail : failing pa c = none) : matStop pa c = c := by
  simp only [matStop, hfail]

theorem matStop_some {c : Core} {pa : Bool} {k : MCmd} (hfail : failing pa c = some k) :
    matStop pa c = matFail k (k.cause.getD 0) c := by
  simp only [matStop, hfail]

end Sys2Proof.Machine

namespace Sys2Proof.Proofs

open Sys2Proof Sys2Proof.Machine

/-- Settles O55, clause by clause: each event by what its operation of the engine makes of the core. -/
theorem engineEvents : Obligations.EngineEvents := by
  refine ⟨fun s c n q k hc hfin hnode hpost => next_congr (State.copyComplete_leaves hc hfin hnode hpost), ?complete,
    fun s c n q hc hfin => next_congr (State.copyComplete_none hc hfin), ?timed, fun c q t e => dueTimed_least, ?copy, ?heads,
    fun s c n q hc hstart => next_congr (State.modCore_self hc (copyStart_idle hstart)),
    fun s c n q hc hstop => next_congr (State.modCore_self hc (copyStop_idle hstop)), ?stop, ?burst,
    fun c q k b => burstWrite_idle, ?finish, ?mmul,
    fun s c k hc hnext ht hring hout => next_congr (State.modCore_of hc (mmulStart_fails hnext ht hring hout)),
    fun s c k hc hnext ht => next_congr (State.modCore_self hc (mmulStart_lacksTokens hnext ht)),
    fun s c r l hc hruns hdone => next_congr (State.modCore_of hc (mmulComplete_done hruns hdone)),
    fun s c k hc hnext => ⟨_, next_congr (Laws.modCore_some _ hc), mdrainStart_starts hnext⟩,
    fun s c k hc hnext => ⟨_, next_congr (Laws.modCore_some _ hc), bfillStart_starts hnext⟩,
    fun s c k hc hnext => ⟨_, next_congr (Laws.modCore_some _ hc), mcodeStart_starts hnext⟩, ?completions, ?exchange,
    fun c => ⟨rfl, rfl, rfl, rfl⟩, ?timeline⟩
  case complete =>
    exact fun s c n q k hc hfin =>
      ⟨fun g hnode hpost => next_congr (State.copyComplete_hands hc hfin hnode hpost),
        fun g hnode hpost => next_congr (State.copyComplete_handsAndPosts hc hfin hnode hpost),
        fun hnode hpost => next_congr (State.copyComplete_posts hc hfin hnode hpost)⟩
  case timed => exact fun s c n q hc hbound => next_congr (State.modCore_of hc (if_pos hbound))
  case copy =>
    intro s c n q k l hc hstart hop hnode
    refine ⟨fun hdue hcmds => ?_, fun t hdue hcmds => ?_⟩
    · have hview : (startView c q).1.cmds = k :: l := by rw [startView_none hdue, hcmds]
      exact next_congr (State.modCore_of hc ((copyStart_cpy hstart hview hnode hop).trans (headStarted_none hdue)))
    · have hview : (startView c q).1.cmds = k :: l := by rw [startView_due hdue, hcmds]
      exact next_congr (State.modCore_of hc ((copyStart_cpy hstart hview hnode hop).trans (by rw [startView_due hdue]; rfl)))
  case heads =>
    intro s c n q k l hc hstart hdue hcmds
    have hview : (startView c q).1.cmds = k :: l := by rw [startView_none hdue, hcmds]
    refine ⟨fun g hnode hpred => ?notLoaded, fun g hnode hpred hop => ?free, fun hnode hop => ⟨fun hbank => ?waits,
      fun hbank hcheck => ?block, fun hbank e hcheck => ?fails⟩⟩
    case notLoaded =>
      exact ⟨_, next_congr (State.modCore_of hc (copyStart_notLoaded hstart hview hnode hpred)), stopWith_tells ..⟩
    case free =>
      exact next_congr (State.modCore_of hc
        ((copyStart_cpyFree hstart hview hnode hpred hop).trans (headStarted_none hdue)))
    case waits => exact next_congr (State.modCore_self hc (copyStart_waits hstart hview hnode hop hbank))
    case block =>
      refine next_congr (State.modCore_of hc ((copyStart_block hstart hview hnode hop hbank hcheck).trans ?_))
      rw [startView_none hdue]
      rfl
    case fails =>
      exact ⟨_, next_congr (State.modCore_of hc (copyStart_blockFails hstart hview hnode hop hbank hcheck)),
        stopWith_tells ..⟩
  case stop =>
    exact fun s c n q k l hc hstop hview =>
      ⟨_, next_congr (State.modCore_of hc (copyStop_stops hstop hview)), stopWith_tells ..⟩
  case burst =>
    intro s c n q hc c0 c1
    have hw : chunkWritten s q c = c1 := chunkWritten_eq s q c
    rw [← hw]
    refine ⟨fun hrun => next_congr (State.copyBurst_idle hc hrun), fun k hrun =>
      ⟨fun hempty => next_congr (State.copyBurst_empty hc hrun hempty),
        fun hbytes hturn => next_congr (State.copyBurst_waits hc hrun hbytes hturn),
        fun hbytes hrd hturn hburst => next_congr (State.copyBurst_begins hc hrun hbytes hrd hturn hburst),
        fun hbytes hrd hturn hburst => ?_⟩⟩
    obtain ⟨b, hb⟩ := Option.ne_none_iff_exists'.1 hburst
    exact next_congr (State.copyBurst_reads hc hrun hbytes hrd hturn hb)
  case finish =>
    intro c q k l hcmds hq
    rw [copyFinish_finishes hcmds, Core.cq_setCq, if_pos ⟨rfl, hq⟩]
    exact ⟨rfl, rfl, rfl, rfl, rfl⟩
  case mmul =>
    exact fun s c k hc hnext ht hin => ⟨_, next_congr (Laws.modCore_some _ hc), mmulStart_runs hnext ht hin⟩
  case completions =>
    intro s c u hc
    refine ⟨fun hdrain hdone => ⟨fun hbar => ?silent, fun hbar => ?arrives⟩,
      fun hfill hdone => next_congr (State.modCore_of hc (bfillComplete_done hfill hdone)),
      fun hcode hstep b hdata => next_congr (State.modCore_of hc (mcodeComplete_done hcode hstep hdata)),
      fun hswap hdone => ⟨_, next_congr (Laws.modCore_some _ hc), swapComplete_done hswap hdone⟩⟩
    case silent =>
      exact next_congr (mdrainComplete_done hdrain hdone ▸ State.drainOver_silent hc (drainBar_none hdrain hbar))
    case arrives =>
      exact next_congr (mdrainComplete_done hdrain hdone ▸ State.drainOver_arrives hc (drainBar_some hdrain hdone hbar))
  case exchange =>
    intro s c u hc hswap hidle
    refine ⟨fun hpartner => next_congr (State.swapStart_own hc hswap hidle hpartner),
      fun pn p v hpn hne hp hpswap hlen hdone => ?both, fun pn p v hpn hne hp hpswap hdone => ?waits⟩
    case both =>
      subst hpn
      exact next_congr (State.swapStart_both hc hswap hidle hne hp hpswap hlen hdone)
    case waits =>
      subst hpn
      exact next_congr (State.swapStart_waits hc hswap hidle hne hp hpswap hdone)
  case timeline =>
    exact fun s c hc => ⟨fun hfail => next_congr (State.modCore_self hc (matStop_none hfail)),
      fun k hfail => next_congr (State.modCore_of hc (matStop_some hfail))⟩

end Sys2Proof.Proofs
end

section
/-! PROOFS. What translations, the hub's accesses to a context's memory and the close of a launch leave of the launches (R29 to
R33, R358, R361, R369). -/

namespace Sys2Proof.Machine

theorem State.launches_of_beyondHomes {s t : State} (h : t.beyondHomes = s.beyondHomes) : t.launches = s.launches :=
  (congrArg State.launches h :)

section
variable (s : State)

/-! ### Reads at the homes (R174) -/

theorem State.beyondHomes_homeLine (coh pa n : Nat) : (s.homeLine coh pa n).2.beyondHomes = s.beyondHomes := by
  unfold State.homeLine
  split
  · exact s.beyondHomes_fillLine coh (pa / 64)
  · rfl

theorem State.beyondHomes_homeRead (coh pa k n : Nat) : (s.homeRead coh pa k n).2.beyondHomes = s.beyondHomes := by
  induction k generalizing s pa n with
  | zero => rfl
  | succ k ih =>
    unfold State.homeRead
    extract_lets m r t
    have hr : r.2.beyondHomes = s.beyondHomes := s.beyondHomes_homeLine coh pa m
    split
    · exact hr
    · exact (ih r.2 (pa + m) (n - m)).trans hr

theorem State.launches_physRead (pa n : Nat) : (s.physRead pa n).2.launches = s.launches :=
  State.launches_of_beyondHomes (s.beyondHomes_homeRead _ _ _ _)

theorem State.launches_physWrite (pa : Nat) (bs : List Byte) : (s.physWrite pa bs).launches = s.launches :=
  State.launches_of_beyondHomes (s.beyondHomes_physWrite pa bs)

theorem State.launches_homeWrite (coh pa k : Nat) (d : List (Option Byte)) : (s.homeWrite coh pa k d).launches = s.launches :=
  State.launches_of_beyondHomes (s.beyondHomes_homeWrite coh pa k d)

/-! ### Translations (R29 to R33) -/

theorem State.launches_tlbFill (num : Nat) (ag : Agent) (e : TlbE) : (s.tlbFill num ag e).launches = s.launches := by
  unfold State.tlbFill
  extract_lets s1
  have h1 : s1.launches = s.launches := by
    cases ag with
    | helper | queue | fill => exact Laws.modCore_launches _ _ _
    | gateway | hubAgent => rfl
  split
  · exact h1
  · exact h1

theorem State.launches_tlbDrop (num : Nat) (ag : Agent) (ctx va : Nat) : (s.tlbDrop num ag ctx va).launches = s.launches := by
  unfold State.tlbDrop
  extract_lets f s1
  have h1 : s1.launches = s.launches := by
    cases ag with
    | helper | queue | fill => exact Laws.modCore_launches _ _ _
    | gateway | hubAgent => rfl
  split
  · exact h1
  · exact h1

/-- Each level reads its entry; the one below goes on from there. -/
theorem State.launches_descend (ctx va l t : Nat) : (s.descend ctx va l t).2.launches = s.launches := by
  induction l generalizing s t with
  | zero =>
    have hr := s.launches_physRead (t + 8 * vaIdx va 0) 8
    rw [State.descend]
    dsimp only
    split_ifs
    · rfl
    iterate 5 exact hr
  | succ l ih =>
    have hr := s.launches_physRead (t + 8 * vaIdx va (l + 1)) 8
    rw [State.descend]
    dsimp only
    split_ifs
    · rfl
    iterate 4 exact hr
    · exact (ih _ _).trans hr

theorem State.launches_walk (num : Nat) (ag : Agent) (ctx va : Nat) : (s.walk num ag ctx va).2.launches = s.launches := by
  unfold State.walk
  split
  · exact s.launches_descend _ _ _ _
  · exact s.launches_descend _ _ _ _

theorem State.launches_walkRead (num pa c : Nat) : (s.walkRead num pa c).2.launches = s.launches :=
  State.launches_of_beyondHomes (s.beyondHomes_timeFrom _ _ _ _ _)

theorem State.launches_walkTime (num : Nat) (ag : Agent) (reads : List Nat) (last : Nat) (l2 : List L2Line) :
    (s.walkTime num ag reads last l2).2.launches = s.launches := by
  unfold State.walkTime
  extract_lets wk who w r
  exact List.foldlRecOn (motive := fun x : Nat × State => x.2.launches = s.launches) reads _ rfl
    fun x hx a _ => (x.2.launches_walkRead who a (s.tick + x.1)).trans hx

theorem State.launches_walkFor (num : Nat) (ag : Agent) (ctx va : Nat) (k : Acces) :
    (s.walkFor num ag ctx va k).2.launches = s.launches := by
  unfold State.walkFor
  split
  · rfl
  · extract_lets w timed set
    have ht (last : Nat) : (timed last w.2).2.launches = s.launches :=
      (State.launches_walkTime _ _ _ _ _ _).trans (s.launches_walk num ag ctx va)
    split
    · exact ht _
    · next v lvl _ =>
      extract_lets s1 e pa s2 s3
      split
      · exact (State.launches_tlbDrop _ _ _ _ _).trans (ht lvl)
      · have h2 : s2.launches = s1.2.launches := by
          dsimp only [s2]
          split
          · rfl
          · exact State.launches_physWrite _ _ _
        have h3 : s3.launches = s2.launches :=
          List.foldlRecOn (motive := fun t : State => t.launches = s2.launches) w.1.ptrs _ rfl fun _ ht _ _ => ht
        exact (State.launches_tlbFill _ _ _ _).trans (h3.trans (h2.trans (ht lvl)))

theorem State.launches_xlate (num : Nat) (ag : Agent) (ctx va : Nat) (k : Acces) :
    (s.xlate num ag ctx va k).2.launches = s.launches := by
  unfold State.xlate
  split
  · rfl
  · extract_lets use s0
    have huse (e : TlbE) (lat : Nat) (t : State) : (use e lat t).2.launches = t.launches := by
      dsimp only [use]
      split
      · exact t.launches_walkFor _ _ _ _ _
      · split
        · exact t.launches_tlbDrop _ _ _ _
        · rfl
    have h0 : s0.launches = s.launches := Laws.modCore_launches _ _ _
    split
    · exact huse _ _ _
    · split
      · exact (huse _ _ _).trans ((State.launches_tlbFill _ _ _ _).trans h0)
      · exact (State.launches_walkFor _ _ _ _ _ _).trans h0

/-! ### A context's memory and completion records (R29, R358, R361) -/

theorem State.launches_hubXl (ctx va : Nat) (k : Acces) : (s.hubXl ctx va k).2.launches = s.launches := by
  have hx := s.launches_xlate 0 .hubAgent ctx va k
  unfold State.hubXl
  split
  · next h => rwa [h] at hx
  · next h => rwa [h] at hx

theorem State.launches_ctxWrite (ctx va k : Nat) (d : List Byte) : (s.ctxWrite ctx va k d).launches = s.launches := by
  induction k generalizing s va d with
  | zero => rfl
  | succ k ih =>
    have hx := s.launches_hubXl ctx va .write
    unfold State.ctxWrite
    split
    · rfl
    · refine (ih _ _ _).trans ?_
      split
      · next h => rwa [h] at hx
      · next h =>
        rw [h] at hx
        exact (State.launches_homeWrite _ _ _ _ _).trans hx

theorem State.launches_record (ctx addr : Nat) (dws : List Word) : (s.record ctx addr dws).launches = s.launches :=
  s.launches_ctxWrite _ _ _ _

theorem State.launches_advanceDone (m k : Nat) : (s.advanceDone m k).launches = s.launches := by
  induction k generalizing s with
  | zero => rfl
  | succ k ih =>
    unfold State.advanceDone
    extract_lets d
    split
    · exact ih _
    · rfl

theorem State.launches_finishSeq (m seq : Nat) : (s.finishSeq m seq).launches = s.launches :=
  State.launches_advanceDone _ m _

theorem State.launches_setNoc : s.setNoc.launches = s.launches :=
  List.foldlRecOn (motive := fun t : State => t.launches = s.launches) (List.range 4) _ rfl fun _ ht _ _ => ht

theorem State.launches_refund (l : Launch) : (s.refund l).launches = s.launches := by
  unfold State.refund
  extract_lets used
  split
  · rfl
  · rfl

/-! ### The close of a launch and its finish as one killed (R361, R369, R399) -/

/-- A launch that is closed is gone; the others stay. -/
theorem State.launches_close (l : Launch) (status cause : Nat) :
    (s.close l status cause).launches = s.launches.filter (fun k => k.id ≠ l.id) := by
  unfold State.close
  extract_lets jobt late s1 s2 s3 s4
  have h1 : s1.launches = s.launches := (State.launches_record _ _ _ _).trans (s.launches_refund l)
  have h2 : s2.launches = s1.launches := by
    dsimp only [s2]
    split
    · rfl
    · rfl
  have h3 : s3.launches = s2.launches := by
    dsimp only [s3]
    split
    · rfl
    · rfl
  have h4 : s4.launches = s3.launches := by
    dsimp only [s4]
    split
    · rfl
    · rfl
  rw [State.launches_setNoc, State.launches_finishSeq, h4, h3, h2, h1]

/-- A killed launch has no buffer actions to wait for: it is closed at once. -/
theorem State.launches_finish_killed (id cause : Nat) :
    (s.finish id 4 cause).launches = s.launches.filter (fun k => k.id ≠ id) := by
  unfold State.finish
  cases hl : s.launchOf id with
  | none =>
    have hnone := List.find?_eq_none.1 hl
    exact (List.filter_eq_self.2 fun k hk => by simpa using hnone k hk).symm
  | some l =>
    have hid : l.id = id := by simpa using List.find?_some hl
    exact hid ▸ s.launches_close _ 4 cause

/-- Of launches that are finished as killed one after the other, none is left. -/
theorem State.mem_launches_killAll {l : List Launch} {k : Launch} (cause : Nat)
    (hk : k ∈ (l.foldl (fun st x => st.finish x.id 4 cause) s).launches) : k ∈ s.launches ∧ ∀ x ∈ l, k.id ≠ x.id := by
  induction l generalizing s with
  | nil => exact ⟨hk, fun x hx => absurd hx List.not_mem_nil⟩
  | cons y l ih =>
    obtain ⟨hmem, hrest⟩ := ih _ hk
    rw [s.launches_finish_killed] at hmem
    obtain ⟨hin, hne⟩ := List.mem_filter.1 hmem
    exact ⟨hin, List.forall_mem_cons.2 ⟨by simpa using hne, hrest⟩⟩

theorem State.launches_killAll (cause : Nat) : (s.launches.foldl (fun st x => st.finish x.id 4 cause) s).launches = [] :=
  List.eq_nil_iff_forall_not_mem.2 fun k hk =>
    have h := s.mem_launches_killAll cause hk
    h.2 k h.1 rfl

end

end Sys2Proof.Machine
end

section
/-! PROOFS. The reset ladder, power-up, thermal events, upper-core domains and snoops (R183, R440, R441, R444 to R447, R454,
R455; O60). -/

namespace Sys2Proof.Machine

/-- The state without what the ladder, the boot and thermal events do to registers, the recorder, timers and the firmware. -/
def State.beyondPower (s : State) : State :=
  { s with regs := [], frec := [], frq := [], draws := 0, timers := [], meas := 0, bootFail := false, sram := [], rungUp := 0,
           budgetWas := 0 }

/-- What does not read those parts is as before where the rest is. -/
theorem State.eq_of_beyondPower {α : Type} (f : State → α) {s t : State} (h : t.beyondPower = s.beyondPower)
    (hf : ∀ u : State, f u.beyondPower = f u := by exact fun _ => rfl) : f t = f s :=
  (hf t).symm.trans ((congrArg f h).trans (hf s))

section
variable (s : State)

/-! ### What registers, free values, notes and timers leave -/

theorem State.beyondPower_setReg (off v : Nat) : (s.setReg off v).beyondPower = s.beyondPower := rfl

theorem State.beyondPower_setFld (off hi lo v : Nat) : (s.setFld off hi lo v).beyondPower = s.beyondPower :=
  s.beyondPower_setReg off _

theorem State.beyondPower_drawIn (lo hi : Nat) : (s.drawIn lo hi).2.beyondPower = s.beyondPower := rfl

theorem State.beyondPower_note (die kind cause ctx core detail : Nat) :
    (s.note die kind cause ctx core detail).beyondPower = s.beyondPower := rfl

theorem State.beyondPower_later (t unit : Nat) (i : Instr) : (s.later t unit i).beyondPower = s.beyondPower := rfl

/-! ### Fields of a register (R7, R434) -/

/-- The low byte of a register set. -/
theorem State.fld_setFld_byte (off v : Nat) : (s.setFld off 7 0 v).fld off 7 0 = v % 256 := by
  refine Laws.fld_setFld s off 7 0 v (by decide) ?_
  have := Laws.reg_lt s off
  simp only [setBits, bits]
  omega

theorem State.fld_byte_lt (off : Nat) : s.fld off 7 0 < 256 := Nat.mod_lt _ (by decide)

/-- A note is counted in its die's own registers. -/
theorem State.reg_note_other {off die : Nat} (hhead : off ≠ 0x8200 + 32 * die) (hlost : off ≠ 0x8208 + 32 * die)
    (kind cause ctx core detail : Nat) : (s.note die kind cause ctx core detail).reg off = s.reg off := by
  change State.reg (if 32 ≤ spGet 0 s.frq die then s.countSat (0x8208 + 32 * die) 63 0 1
    else s.countMod (0x8200 + 32 * die) 31 0 1) off = s.reg off
  split
  · exact Laws.reg_setFld_other s _ _ _ _ off hlost
  · exact Laws.reg_setFld_other s _ _ _ _ off hhead

/-- The number of the rung just over stands in RESETSTAT (R440). -/
theorem State.fld_rungOver (rung : Nat) : (s.rungOver rung).fld 0x118 34 32 = rung % 8 := by
  have hset (t : State) : (t.setFld 0x118 34 32 rung).fld 0x118 34 32 = rung % 8 := by
    refine Laws.fld_setFld t 0x118 34 32 rung (by decide) ?_
    have := Laws.reg_lt t 0x118
    simp only [setBits, bits]
    omega
  have hcount (t : State) : (t.countMod 0x118 31 0 1).fld 0x118 34 32 = t.fld 0x118 34 32 := by
    have := Laws.reg_lt t 0x118
    simp only [State.countMod, State.setFld, State.fld, Laws.reg_setReg, if_true, setBits, bits]
    omega
  exact (hcount _).trans (hset _)

/-! ### The reset ladder and power-on (R440, R441) -/

/-- Of the ends of rungs that are set, those of rung 5 stay. -/
theorem State.mem_timers_dropRungs {e : Nat × Nat × Instr} (he : e ∈ s.dropRungs.timers) :
    e ∈ s.timers ∧ ∀ r, e.2.2 = .resetRungComplete r → 4 < r := by
  obtain ⟨hmem, hkept⟩ := List.mem_filter.1 he
  refine ⟨hmem, fun r hr => ?_⟩
  rw [hr] at hkept
  simpa using hkept

/-- What the part holds itself reads 0 once only what lies outside it is kept. -/
theorem State.memRead_outsideMem {a : Nat} (hchip : chipOf a = s.chip) (hhost : regionOf (localOf a) ≠ .host) :
    memRead s.outsideMem a = 0 := by
  refine (Laws.spGet_filter 0 (fun i => chipOf i ≠ s.chip || regionOf (localOf i) = .host) s.mem a).trans ?_
  simp [hchip, hhost]

theorem State.beyondPower_keepRecorder (old : State) : (s.keepRecorder old).beyondPower = s.beyondPower :=
  List.foldlRecOn (motive := fun t : State => t.beyondPower = s.beyondPower) _ _ rfl fun _ ht d _ =>
    List.foldlRecOn (motive := fun t : State => t.beyondPower = s.beyondPower) _ _ ht fun u hu k _ =>
      (u.beyondPower_setReg (0x8200 + 32 * d + 8 * k) _).trans hu

theorem State.beyondPower_rungBegins (rung most : Nat) : (s.rungBegins rung most).beyondPower = s.beyondPower := by
  unfold State.rungBegins
  extract_lets s1 d
  have h1 : s1.beyondPower = s.beyondPower := (State.beyondPower_setFld _ _ _ _ _).trans (s.beyondPower_note ..)
  exact (State.beyondPower_later _ _ _ _).trans ((s1.beyondPower_drawIn _ _).trans h1)

theorem State.beyondPower_rungFive :
    s.rungFive.beyondPower = ({ s.fresh with mem := s.outsideMem, fwBusy := true } : State).beyondPower :=
  (State.beyondPower_rungBegins _ _ _).trans (State.beyondPower_keepRecorder _ _)

/-- Rung 5 leaves the part as after power-on, the firmware busy until it has booted. -/
theorem State.rungFive_leaves : s.rungFive.cores = [] ∧ s.rungFive.launches = [] ∧ s.rungFive.fwBusy = true ∧
    s.rungFive.l2 = [] ∧ s.rungFive.reqs = [] ∧ s.rungFive.tick = s.tick ∧ s.rungFive.mem = s.outsideMem :=
  have h := s.beyondPower_rungFive
  ⟨(State.eq_of_beyondPower State.cores h :), (State.eq_of_beyondPower State.launches h :),
    (State.eq_of_beyondPower State.fwBusy h :), (State.eq_of_beyondPower State.l2 h :),
    (State.eq_of_beyondPower State.reqs h :), (State.eq_of_beyondPower State.tick h :),
    (State.eq_of_beyondPower State.mem h :)⟩

/-- The boot ends with the firmware running, or in recovery, and leaves the rest of the part. -/
theorem State.beyondPower_boot : s.boot.beyondPower = ({ s with fwBusy := false } : State).beyondPower := by
  unfold State.boot
  extract_lets m v h code
  have hm : m.2.beyondPower = s.beyondPower := s.beyondPower_drawIn 0 1
  have hv : v.2.beyondPower = s.beyondPower := (m.2.beyondPower_setFld 0x100 1 0 (b2n m.1)).trans hm
  have hfw : ({ v.2 with fwBusy := false } : State).beyondPower = ({ s with fwBusy := false } : State).beyondPower :=
    congrArg (fun t : State => { t with fwBusy := false }) hv
  split
  · exact (State.beyondPower_later _ _ _ _).trans ((State.beyondPower_note ..).trans hfw)
  · exact hfw

theorem State.boot_leaves : s.boot.cores = s.cores ∧ s.boot.launches = s.launches ∧ s.boot.fwBusy = false ∧
    s.boot.faults = s.faults ∧ s.boot.tick = s.tick ∧ s.boot.jobs = s.jobs :=
  have h := s.beyondPower_boot
  ⟨(State.eq_of_beyondPower State.cores h :), (State.eq_of_beyondPower State.launches h :),
    (State.eq_of_beyondPower State.fwBusy h :), (State.eq_of_beyondPower State.faults h :),
    (State.eq_of_beyondPower State.tick h :), (State.eq_of_beyondPower State.jobs h :)⟩

theorem State.bootRung_fails {k : Nat} (h : ({ s with rungUp := k } : State).boot.bootFail = true) :
    s.bootRung k = ({ ({ s with rungUp := k } : State).boot with rungUp := 0 } : State).rungOver k := if_pos h

theorem State.bootRung_boots {k : Nat} (h : ({ s with rungUp := k } : State).boot.bootFail = false) :
    s.bootRung k = ({ s with rungUp := k } : State).boot := if_neg (ne_true_of_eq_false h)

theorem State.rungComplete_waits (h : s.launches.any leaving = true) :
    s.rungComplete 3 = s.later (s.tick + 1) 0 (.resetRungComplete 3) ∧
      s.rungComplete 4 = s.later (s.tick + 1) 0 (.resetRungComplete 4) := ⟨if_pos h, if_pos h⟩

theorem State.rungComplete_killed (h : s.launches.any leaving = false) :
    s.rungComplete 3 = ({ s with fwBusy := false }.settleStreams).rungOver 3 ∧
      s.rungComplete 4 = ((({ s.fresh with mem := s.drained } : State).keepRecorder s).setReg 0x118 (s.reg 0x118)).bootRung 4 :=
  ⟨if_neg (ne_true_of_eq_false h), if_neg (ne_true_of_eq_false h)⟩

/-! ### Power (R444) -/

theorem State.clusterUp_stays {k : Nat} (h : 96 ≤ k ∨ s.powered k = true) : s.clusterUp k = s :=
  if_pos (by simpa using h)

/-- The part with one more cluster powered, counted, and its stack marked with the last. -/
def State.onePowered (s : State) (c : Nat) : State :=
  let s1 := ({ s with clusters := spSet cluster0 s.clusters c { spGet cluster0 s.clusters c with powered := true } } :
    State).countMod 0x130 14 8 1
  if c % 24 = 23 then s1.setFld 0x130 (c / 24) (c / 24) 1 else s1

theorem State.clusterUp_powers {c : Nat} (hc : c < 96) (hoff : s.powered c = false) :
    s.clusterUp c = (if c = 95 then (s.onePowered c).rungUpOver
      else (s.onePowered c).later (s.tick + 4700) 0 (.clusterPowerUp (c + 1))).decide := by
  have hgo : s.clusterUp c = (if c < 95 then (s.onePowered c).later (s.tick + 4700) 0 (.clusterPowerUp (c + 1))
      else (s.onePowered c).rungUpOver).decide := if_neg (by simp [hoff, hc])
  rw [hgo]
  by_cases hlast : c = 95
  · rw [if_neg (by omega), if_pos hlast]
  · rw [if_pos (by omega), if_neg hlast]

/-! ### Throttling (R446) -/

/-- The event is noted; BUDGET is as it was. -/
theorem State.fld_budget_noteHeat (cause : Nat) : (s.noteHeat cause).fld 0x128 7 0 = s.fld 0x128 7 0 :=
  congrArg (bits · 7 0) (State.reg_note_other _ (by decide) (by decide) _ _ _ _ _)

theorem State.drawIn_bounds {lo hi : Nat} (h : lo ≤ hi) : lo ≤ (s.drawIn lo hi).1 ∧ (s.drawIn lo hi).1 ≤ hi := by
  have := Nat.mod_lt (Config.draw s.draws).toNat (hi - lo).add_one_pos
  simp only [State.drawIn]
  omega

theorem State.fld_budget_throttle :
    s.throttle.fld 0x128 7 0 = (s.drawIn 33 (max 33 (s.fld 0x128 7 0 - 1))).1 % 256 :=
  (State.fld_budget_noteHeat _ 1).trans (State.fld_setFld_byte _ 0x128 _)

/-- A throttled part's BUDGET is 33 at the least, and lower than before where it was above that. -/
theorem State.throttle_lowers : 33 ≤ s.throttle.fld 0x128 7 0 ∧
    (33 < s.fld 0x128 7 0 → s.throttle.fld 0x128 7 0 < s.fld 0x128 7 0) := by
  have hb := s.fld_byte_lt 0x128
  have hd := s.drawIn_bounds (Nat.le_max_left 33 (s.fld 0x128 7 0 - 1))
  rw [s.fld_budget_throttle]
  omega

/-- BUDGET rises, at most to what it was. -/
theorem State.throttleEnd_raises (hlow : s.fld 0x128 7 0 < s.budgetWas) (hwas : s.budgetWas < 256) :
    s.fld 0x128 7 0 < s.throttleEnd.fld 0x128 7 0 ∧ s.throttleEnd.fld 0x128 7 0 ≤ s.budgetWas := by
  have hd := s.drawIn_bounds (lo := s.fld 0x128 7 0 + 1) hlow
  have hfld : s.throttleEnd.fld 0x128 7 0 = (s.drawIn (s.fld 0x128 7 0 + 1) s.budgetWas).1 % 256 := by
    rw [State.throttleEnd, if_pos hlow]
    exact (State.fld_budget_noteHeat _ 2).trans (State.fld_setFld_byte _ 0x128 _)
  rw [hfld]
  omega

theorem State.throttleEnd_over (h : s.budgetWas ≤ s.fld 0x128 7 0) : s.throttleEnd.fld 0x128 7 0 = s.fld 0x128 7 0 := by
  rw [State.throttleEnd, if_neg (Nat.not_lt_of_le h)]
  exact State.fld_budget_noteHeat _ 2

theorem State.beyondPower_noteHeat (cause : Nat) : (s.noteHeat cause).beyondPower = s.beyondPower :=
  (State.beyondPower_note ..).trans (s.beyondPower_drawIn _ _)

theorem State.beyondPower_throttle : s.throttle.beyondPower = s.beyondPower :=
  (State.beyondPower_noteHeat _ 1).trans (State.beyondPower_setFld _ _ _ _ _)

theorem State.beyondPower_throttleEnd : s.throttleEnd.beyondPower = s.beyondPower := by
  unfold State.throttleEnd
  extract_lets b d
  split
  · exact (State.beyondPower_noteHeat _ 2).trans (State.beyondPower_setFld _ _ _ _ _)
  · exact State.beyondPower_noteHeat _ 2

/-! ### A thermal trip (R446) -/

theorem State.rungUpOver_noRung (h : s.rungUp = 0) : s.rungUpOver = s := if_pos h

theorem State.rungUpOver_rung (h : s.rungUp ≠ 0) :
    s.rungUpOver = ({ s with rungUp := 0 } : State).rungOver s.rungUp := if_neg h

theorem State.beyondPower_rungUpOver : s.rungUpOver.beyondPower = s.beyondPower := by
  by_cases h : s.rungUp = 0
  · rw [s.rungUpOver_noRung h]
  · rw [s.rungUpOver_rung h]
    exact (State.beyondPower_setFld _ _ _ _ _).trans
      ((State.beyondPower_setFld _ _ _ _ _).trans (State.beyondPower_setFld _ _ _ _ _))

theorem State.mem_timers_rungUpOver {e : Nat × Nat × Instr} (he : e ∈ s.rungUpOver.timers) : e ∈ s.timers := by
  by_cases h : s.rungUp = 0
  · rwa [s.rungUpOver_noRung h] at he
  · rwa [s.rungUpOver_rung h, State.rungOver, Laws.countMod_timers, Laws.setFld_timers, Laws.setFld_timers] at he

/-- A trip leaves no line cached, no image, no launch, and no cluster to be powered. -/
theorem State.trip_leaves : s.trip.l2 = [] ∧ s.trip.retained = [] ∧ s.trip.parked = [] ∧ s.trip.launches = [] ∧
    ∀ e ∈ s.trip.timers, ∀ j, e.2.2 ≠ .clusterPowerUp j := by
  have hnone := s.launches_killAll 0
  unfold State.trip
  extract_lets s1 g s2
  have hs2 (t : State) : (t.rungUpOver.noteHeat 3).beyondPower = t.beyondPower :=
    (State.beyondPower_noteHeat _ 3).trans t.beyondPower_rungUpOver
  refine ⟨(State.eq_of_beyondPower State.l2 (hs2 _) :), (State.eq_of_beyondPower State.retained (hs2 _) :),
    (State.eq_of_beyondPower State.parked (hs2 _) :),
    (State.eq_of_beyondPower State.launches (hs2 _) :).trans hnone, fun e he j hj => ?_⟩
  obtain ⟨-, hkept⟩ := List.mem_filter.1 (State.mem_timers_rungUpOver _ he)
  rw [hj] at hkept
  exact Bool.false_ne_true hkept

/-! ### Upper-core domains (R447, R454, R455) -/

theorem State.domainCloses_open {k : Nat} (h : s.gateOf k = 0) : s.domainCloses k = s.setGate k 1 := if_pos h

theorem State.domainCloses_other {k : Nat} (h : s.gateOf k ≠ 0) : s.domainCloses k = s := if_neg h

theorem State.openDomain_closing {k : Nat} (h : s.gateOf k = 1) : s.openDomain k = s.setGate k 0 := if_pos h

theorem State.openDomain_closed {k : Nat} (h : s.gateOf k = 2)
    (hnew : s.timers.any (fun e => e.2.2 = .domainOpened k) = false) :
    s.openDomain k = s.later (s.tick + 4700) 0 (.domainOpened k) := by
  simp [State.openDomain, h, hnew]

theorem State.clusters_domainClosed {k : Nat} (h : s.gateOf k = 1) :
    (s.domainClosed k).clusters = (s.setGate k 2).clusters := by
  rw [State.domainClosed, if_pos h]
  exact Laws.modCore_clusters _ _ _

theorem State.domainClosed_other {k : Nat} (h : s.gateOf k ≠ 1) : s.domainClosed k = s := if_neg h

theorem State.domainOpens_closed {k : Nat} (h : s.gateOf k = 2) : s.domainOpens k = s.setGate k 0 := if_pos h

theorem State.domainOpens_other {k : Nat} (h : s.gateOf k ≠ 2) : s.domainOpens k = s := if_neg h

/-! ### Snoops (R183) -/

/-- A line that the host takes is not held under CXL.cache any more. -/
theorem State.snoop_takes {x : Nat} {e : L2Line} (he : e ∈ (s.snoop x true).l2) : ¬(e.line = x ∧ e.cxl = true) := by
  obtain ⟨-, hkept⟩ := List.mem_filter.1 he
  rintro ⟨hline, hcxl⟩
  simp [hline, hcxl] at hkept

/-- Where no line passes the test, none is written back, cleaned or dropped. -/
theorem State.cleanLines_none {p : L2Line → Bool} (h : ∀ e ∈ s.l2, p e = false) (drop : Bool) :
    s.cleanLines drop p = s := by
  have hhit : s.l2.filter p = [] := List.filter_eq_nil_iff.2 fun e he => ne_true_of_eq_false (h e he)
  rw [State.cleanLines, hhit]
  cases drop with
  | false =>
    have hl2 : s.l2.map (fun e => if p e then { e with dirty := false } else e) = s.l2 :=
      (List.map_congr_left fun e he => if_neg (ne_true_of_eq_false (h e he))).trans (List.map_id _)
    exact congrArg (fun l => { s with l2 := l }) hl2
  | true =>
    have hl2 : s.l2.filter (fun e => !p e) = s.l2 := List.filter_eq_self.2 fun e he => congrArg not (h e he)
    exact congrArg (fun l => { s with l2 := l }) hl2

/-- A line that is not held under CXL.cache is not the host's to read or take. -/
theorem State.snoop_notHeld {x : Nat} (h : ∀ e ∈ s.l2, ¬(e.line = x ∧ e.cxl = true)) (inv : Bool) : s.snoop x inv = s :=
  s.cleanLines_none (fun e he => by simpa using h e he) inv

end

end Sys2Proof.Machine

namespace Sys2Proof.Proofs

open Sys2Proof Sys2Proof.Machine

/-- Settles O60, clause by clause: each event by what its operation of the part makes of the state. -/
theorem resetsAndPower : Obligations.ResetsAndPower := by
  refine ⟨fun s => ⟨rfl, rfl, rfl, rfl, rfl, fun e => s.mem_timers_dropRungs⟩, ?rungFive, ?powerOn, ?rungOver,
    ?powered, ?powers, ?rungUp, ?throttle, fun s k => ⟨_, rfl, s.trip_leaves⟩, ?domains,
    fun s x => ⟨_, rfl, fun e => s.snoop_takes⟩, fun s x h b => next_congr (s.snoop_notHeld h b)⟩
  case rungFive =>
    intro s
    obtain ⟨hcores, hlaunches, hbusy, hl2, hreqs, htick, hmem⟩ := s.rungFive_leaves
    exact ⟨_, rfl, hcores, hlaunches, hbusy, hl2, hreqs, htick,
      fun a hchip hhost => hmem ▸ s.memRead_outsideMem hchip hhost⟩
  case powerOn => exact fun s => ⟨_, rfl, State.boot_leaves _⟩
  case rungOver =>
    exact fun s => ⟨rfl, rfl, rfl, fun k => ⟨s.bootRung_fails, s.bootRung_boots⟩,
      fun h => (s.rungComplete_waits h).imp next_congr next_congr,
      fun h => (s.rungComplete_killed h).imp next_congr next_congr, s.fld_rungOver 2⟩
  case powered => exact fun s k h => next_congr (s.clusterUp_stays h)
  case powers => exact fun s c hc hoff => next_congr (s.clusterUp_powers hc hoff)
  case rungUp => exact fun s => ⟨s.rungUpOver_noRung, s.rungUpOver_rung⟩
  case throttle =>
    intro s
    obtain ⟨hleast, hlower⟩ := s.throttle_lowers
    have ht := s.beyondPower_throttle
    have hu := s.beyondPower_throttleEnd
    exact ⟨_, _, rfl, rfl, (State.eq_of_beyondPower State.mem ht :), (State.eq_of_beyondPower State.mem hu :),
      (State.eq_of_beyondPower State.cores ht :), (State.eq_of_beyondPower State.cores hu :), hleast, hlower,
      s.throttleEnd_raises, s.throttleEnd_over⟩
  case domains =>
    exact fun s k => ⟨fun h => next_congr (s.domainCloses_open h), fun h => next_congr (s.domainCloses_other h),
      fun h => next_congr (s.openDomain_closing h), fun h hnew => next_congr (s.openDomain_closed h hnew),
      fun h => ⟨_, rfl, s.clusters_domainClosed h⟩, fun h => next_congr (s.domainClosed_other h),
      fun h => next_congr (s.domainOpens_closed h), fun h => next_congr (s.domainOpens_other h)⟩

end Sys2Proof.Proofs
end

section
/- As above, the proofs are elaborated one after the other, for the sake of the check's memory. -/
set_option deprecated.oldSectionVars true

section
/-! PROOFS. The values of the I class as arithmetic on numbers, and the operations that retire one of them: integer, pointer,
floating-point and spill operations (R117, R240 to R245; O3, O4, O5). -/

namespace Sys2Proof.Machine

/-! ### Words as numbers -/

section
variable (x y : Word)

theorem wN_toNat : wN x.toNat = x := BitVec.eq_of_toNat_eq (Nat.mod_eq_of_lt x.isLt)

theorem wI_toInt : wI x.toInt = x := BitVec.ofInt_toInt

theorem wN_allOnes : wN (2 ^ 64 - 1) = BitVec.allOnes 64 := by decide

theorem toNat_eq_zero_iff : x.toNat = 0 ↔ x = 0 := BitVec.toNat_inj (y := 0)

/-! ### Sums, products and quotients (R241, R242) -/

theorem add_eq_wN : x + y = wN (x.toNat + y.toNat) := by
  rw [wN, BitVec.ofNat_add]
  exact congrArg₂ _ (wN_toNat x).symm (wN_toNat y).symm

theorem sub_eq_wI : x - y = wI (x.toInt - y.toInt) := by
  refine BitVec.eq_of_toInt_eq ?_
  rw [BitVec.toInt_sub]
  exact (BitVec.toInt_ofInt _).symm

theorem add_imm12_eq_wI (k : BitVec 12) : x + imm12 k = wI (x.toInt + k.toInt) := by
  rw [wI, BitVec.ofInt_add]
  exact congrArg (· + imm12 k) (wI_toInt x).symm

theorem mul_eq_wI : x * y = wI (x.toInt * y.toInt) := by
  rw [wI, BitVec.ofInt_mul]
  exact congrArg₂ _ (wI_toInt x).symm (wI_toInt y).symm

/-- A word shifted left is its product with a power of two. -/
theorem shiftLeft_eq_wN (k : Nat) : x <<< k = wN (x.toNat * 2 ^ k) := by
  refine BitVec.eq_of_toNat_eq ?_
  rw [BitVec.toNat_shiftLeft, Nat.shiftLeft_eq]
  rfl

theorem shiftLeft_add_eq_wN (k : Nat) : x <<< k + y = wN (x.toNat * 2 ^ k + y.toNat) := by
  rw [wN, BitVec.ofNat_add]
  exact congrArg₂ _ (shiftLeft_eq_wN x k) (wN_toNat y).symm

/-- A word shifted right is its quotient by a power of two. -/
theorem shiftRight_eq_wN (k : Nat) : x >>> k = wN (x.toNat / 2 ^ k) := by
  rw [← wN_toNat (x >>> k), BitVec.toNat_ushiftRight, Nat.shiftRight_eq_div_pow]

theorem sshiftRight_eq_wI (k : Nat) : x.sshiftRight k = wI (x.toInt / 2 ^ k) := by
  rw [BitVec.sshiftRight_eq, Int.shiftRight_eq_div_pow]
  norm_cast

theorem mulHi_eq_wI : mulHi x y = wI (x.toInt * y.toInt / 2 ^ 64) := by
  rw [mulHi, Int.fdiv_eq_ediv_of_nonneg _ (by norm_num)]
  rfl

theorem divS_eq : divS x y = if y.toNat = 0 then wN (2 ^ 64 - 1) else wI (x.toInt.tdiv y.toInt) := by
  simp only [toNat_eq_zero_iff, wN_allOnes]
  rfl

theorem divN_eq : divN x y = if y.toNat = 0 then wN (2 ^ 64 - 1) else wN (x.toNat / y.toNat) := by
  simp only [toNat_eq_zero_iff, wN_allOnes]
  rfl

/-- A word rotated left: its low part times a power of two, and its high part below that. -/
theorem rotateLeft_eq_wN {k : Nat} (hk : k < 64) :
    x.rotateLeft k = wN (x.toNat * 2 ^ k % 2 ^ 64 + x.toNat / 2 ^ (64 - k)) := by
  have hhigh : x.toNat / 2 ^ (64 - k) < 2 ^ k := Nat.div_lt_of_lt_mul (by
    rw [← pow_add, Nat.sub_add_cancel hk.le]
    exact x.isLt)
  have hlow : x.toNat * 2 ^ k % 2 ^ 64 = 2 ^ k * (x.toNat % 2 ^ (64 - k)) := by
    rw [mul_comm, ← Nat.mul_mod_mul_left, ← pow_add, Nat.add_sub_cancel' hk.le]
  rw [← wN_toNat (x.rotateLeft k), BitVec.toNat_rotateLeft, Nat.mod_eq_of_lt hk, Nat.shiftLeft_eq, Nat.shiftRight_eq_div_pow,
    hlow, Nat.two_pow_add_eq_or_of_lt hhigh]

/-- A word shifted left, with a smaller number in the bits that fall free. -/
theorem shiftLeft_or_eq_wN {k : Nat} (v : BitVec k) :
    x <<< k ||| v.setWidth 64 = wN (x.toNat * 2 ^ k + v.toNat) := by
  refine BitVec.eq_of_getLsbD_eq fun j hj => ?_
  rw [wN, BitVec.getLsbD_ofNat, mul_comm, Nat.testBit_two_pow_mul_add _ v.isLt, BitVec.getLsbD_or, BitVec.getLsbD_shiftLeft,
    BitVec.getLsbD_setWidth, BitVec.testBit_toNat, BitVec.testBit_toNat]
  by_cases h : j < k
  · simp [h, hj]
  · simp [h, hj, BitVec.getLsbD_of_ge v j (Nat.le_of_not_lt h)]

/-! ### Comparisons and choices -/

theorem cmpW_eq {p q : Prop} [Decidable p] [Decidable q] :
    cmpW (decide p) (decide q) = if p then wI (-1) else if q then wI 0 else wI 1 := by
  simp only [cmpW, decide_eq_true_eq]
  rfl

theorem cmpN_eq : cmpW (decide (x.toNat < y.toNat)) (x == y) =
    if x.toNat < y.toNat then wI (-1) else if x.toNat = y.toNat then wI 0 else wI 1 := by
  rw [← cmpW_eq]
  exact congrArg _ (decide_eq_decide.2 BitVec.toNat_inj.symm)

theorem cmpS_eq : cmpW (decide (x.toInt < y.toInt)) (x == y) =
    if x.toInt < y.toInt then wI (-1) else if x.toInt = y.toInt then wI 0 else wI 1 := by
  rw [← cmpW_eq]
  exact congrArg _ (decide_eq_decide.2 BitVec.toInt_inj.symm)

theorem toInt_imm12 (k : BitVec 12) : (imm12 k).toInt = k.toInt := BitVec.toInt_signExtend_of_le (by norm_num)

theorem cmp_eq (u : BitVec 1) :
    cmpW (if u = 1 then decide (x.toNat < y.toNat) else decide (x.toInt < y.toInt)) (x == y) =
      if u = 1 then (if x.toNat < y.toNat then wI (-1) else if x.toNat = y.toNat then wI 0 else wI 1)
      else (if x.toInt < y.toInt then wI (-1) else if x.toInt = y.toInt then wI 0 else wI 1) := by
  rw [apply_ite (cmpW · (x == y)), cmpN_eq, cmpS_eq]

theorem cmpi_eq (k : BitVec 12) : cmpW (decide (x.toInt < (imm12 k).toInt)) (x == imm12 k) =
    if x.toInt < k.toInt then wI (-1) else if x.toInt = k.toInt then wI 0 else wI 1 := by
  rw [cmpS_eq, toInt_imm12]

theorem minS_eq_wI : (if x.toInt ≤ y.toInt then x else y) = wI (min x.toInt y.toInt) := by
  rw [min_def, apply_ite wI, wI_toInt, wI_toInt]

theorem maxS_eq_wI : (if x.toInt ≤ y.toInt then y else x) = wI (max x.toInt y.toInt) := by
  rw [max_def, apply_ite wI, wI_toInt, wI_toInt]

theorem minN_eq_wN : (if x.toNat ≤ y.toNat then x else y) = wN (min x.toNat y.toNat) := by
  rw [min_def, apply_ite wN, wN_toNat, wN_toNat]

theorem maxN_eq_wN : (if x.toNat ≤ y.toNat then y else x) = wN (max x.toNat y.toNat) := by
  rw [max_def, apply_ite wN, wN_toNat, wN_toNat]

theorem select_eq_wN (z : Word) : (if z ≠ 0 then x else y) = if z.toNat = 0 then wN y.toNat else wN x.toNat := by
  simp only [wN_toNat, toNat_eq_zero_iff, ite_not]

/-! ### Bits -/

theorem eq_wBits_of_bits {f : Nat → Bool} (h : ∀ k < 64, x.getLsbD k = f k) : x = wBits f :=
  BitVec.eq_of_getLsbD_eq fun k hk => by rw [Laws.wBits_getLsbD, decide_eq_true hk, Bool.true_and, h k hk]

theorem clzN_eq_length (v n : Nat) : clzN n v = ((List.range n).reverse.takeWhile (fun k => !bit v k)).length := by
  induction n with
  | zero => rfl
  | succ n ih =>
    rw [List.range_succ, List.reverse_append, List.reverse_singleton, List.singleton_append, List.takeWhile_cons, clzN, ih]
    cases bit v n <;> simp [Nat.add_comm]

theorem bit_succ (v k : Nat) : bit v (k + 1) = bit (v / 2) k := by
  rw [bit_eq_testBit, bit_eq_testBit, Nat.testBit_succ]

theorem bit_zero (v : Nat) : bit v 0 = decide (v % 2 = 1) := by
  rw [bit, pow_zero, Nat.div_one]

theorem ctzN_eq_length (v n : Nat) : ctzN n v = ((List.range n).takeWhile (fun k => !bit v k)).length := by
  induction n generalizing v with
  | zero => rfl
  | succ n ih =>
    have htail : (fun k => !bit v k) ∘ Nat.succ = fun k => !bit (v / 2) k := funext fun k => by rw [← bit_succ]; rfl
    rw [List.range_succ_eq_map, List.takeWhile_cons, List.takeWhile_map, htail, ctzN, ih, bit_zero]
    by_cases h : v % 2 = 1 <;> simp [h, Nat.add_comm]

theorem popN_eq_countP (v n : Nat) : popN n v = (List.range n).countP (fun k => bit v k) := by
  induction n generalizing v with
  | zero => rfl
  | succ n ih =>
    have htail : (fun k => bit v k) ∘ Nat.succ = fun k => bit (v / 2) k := funext fun k => by rw [← bit_succ]; rfl
    rw [List.range_succ_eq_map, List.countP_cons, List.countP_map, htail, popN, ih, bit_zero]
    rcases Nat.mod_two_eq_zero_or_one v with h | h <;> simp [h, Nat.add_comm]

theorem clz_eq_wN : wN (clzN 64 x.toNat) =
    wN ((List.range 64).reverse.takeWhile (fun k => !x.getLsbD k)).length := by
  simp only [clzN_eq_length, bit_toNat]

theorem ctz_eq_wN : wN (ctzN 64 x.toNat) = wN ((List.range 64).takeWhile (fun k => !x.getLsbD k)).length := by
  simp only [ctzN_eq_length, bit_toNat]

theorem popc_eq_wN : wN (popN 64 x.toNat) = wN ((List.range 64).countP (fun k => x.getLsbD k)) := by
  simp only [popN_eq_countP, bit_toNat]

theorem bfxW_eq_wBits (p l : Nat) : bfxW x p (l + 1) = wBits (fun k => k ≤ l && x.getLsbD (p + k)) := by
  refine eq_wBits_of_bits _ fun k hk => ?_
  rw [bfxW, BitVec.getLsbD_ofNat, Nat.testBit_mod_two_pow, Nat.testBit_div_two_pow, Nat.add_comm k p, decide_eq_true hk,
    Bool.true_and, decide_eq_decide.2 Nat.lt_succ_iff]
  rfl

/-- A number with some bits replaced: what stood above them, the new bits, what stood below. -/
theorem setBits_eq (v lo w a : Nat) : setBits v (lo + w) lo a =
    2 ^ lo * (2 ^ (w + 1) * (v / 2 ^ lo / 2 ^ (w + 1)) + a % 2 ^ (w + 1)) + v % 2 ^ lo := by
  have hw : lo + w + 1 - lo = w + 1 := by omega
  have hlow := Nat.div_add_mod v (2 ^ lo)
  have hhigh := Nat.div_add_mod (v / 2 ^ lo) (2 ^ (w + 1))
  have hsplit : v = 2 ^ lo * (2 ^ (w + 1) * (v / 2 ^ lo / 2 ^ (w + 1))) + v % 2 ^ lo + v / 2 ^ lo % 2 ^ (w + 1) * 2 ^ lo := by
    calc v = 2 ^ lo * (2 ^ (w + 1) * (v / 2 ^ lo / 2 ^ (w + 1)) + v / 2 ^ lo % 2 ^ (w + 1)) + v % 2 ^ lo := by
          rw [hhigh, hlow]
      _ = _ := by ring
  have hcut : v - v / 2 ^ lo % 2 ^ (w + 1) * 2 ^ lo = 2 ^ lo * (2 ^ (w + 1) * (v / 2 ^ lo / 2 ^ (w + 1))) + v % 2 ^ lo :=
    Nat.sub_eq_of_eq_add hsplit
  rw [setBits, bits, hw, hcut]
  ring

theorem testBit_setBits (v lo w a k : Nat) : (setBits v (lo + w) lo a).testBit k =
    if lo ≤ k ∧ k ≤ lo + w then a.testBit (k - lo) else v.testBit k := by
  rw [setBits_eq, Nat.testBit_two_pow_mul_add _ (Nat.mod_lt _ (by positivity)),
    Nat.testBit_two_pow_mul_add _ (Nat.mod_lt _ (by positivity))]
  by_cases hlo : k < lo
  · simp [hlo, Nat.testBit_mod_two_pow, Nat.not_le.2 hlo]
  by_cases hhi : k ≤ lo + w
  · simp [hlo, hhi, Nat.testBit_mod_two_pow, Nat.le_of_not_lt hlo, show k - lo < w + 1 by omega]
  · simp [hlo, hhi, Nat.testBit_div_two_pow, show ¬k - lo < w + 1 by omega, show k - lo - (w + 1) + (w + 1) + lo = k by omega]

theorem bfiW_eq_wBits (p l : Nat) : bfiW y x p (l + 1) = wBits (fun k =>
    if p ≤ k ∧ k ≤ p + l then x.getLsbD (k - p) else y.getLsbD k) := by
  refine eq_wBits_of_bits _ fun k hk => ?_
  rw [bfiW, BitVec.getLsbD_ofNat, decide_eq_true hk, Bool.true_and, Nat.add_sub_assoc (by omega), Nat.add_sub_cancel,
    testBit_setBits]
  rfl

theorem and_eq_wBits : x &&& y = wBits (fun k => x.getLsbD k && y.getLsbD k) :=
  eq_wBits_of_bits _ fun _ _ => BitVec.getLsbD_and

theorem or_eq_wBits : x ||| y = wBits (fun k => x.getLsbD k || y.getLsbD k) :=
  eq_wBits_of_bits _ fun _ _ => BitVec.getLsbD_or

theorem xor_eq_wBits : x ^^^ y = wBits (fun k => x.getLsbD k != y.getLsbD k) :=
  eq_wBits_of_bits _ fun _ _ => BitVec.getLsbD_xor

theorem andn_eq_wBits : x &&& ~~~y = wBits (fun k => x.getLsbD k && !y.getLsbD k) :=
  eq_wBits_of_bits _ fun k hk => by rw [BitVec.getLsbD_and, BitVec.getLsbD_not, decide_eq_true hk, Bool.true_and]

/-- A natural immediate has its own bits, and zeros above them. -/
theorem getLsbD_immediate (v : BitVec 12) {k : Nat} (hk : k < 64) : (v.setWidth 64).getLsbD k = v.getLsbD k := by
  rw [BitVec.getLsbD_setWidth, decide_eq_true hk, Bool.true_and]

theorem andi_eq_wBits (v : BitVec 12) : x &&& v.setWidth 64 = wBits (fun k => x.getLsbD k && v.getLsbD k) :=
  eq_wBits_of_bits _ fun k hk => by rw [BitVec.getLsbD_and, getLsbD_immediate v hk]

theorem ori_eq_wBits (v : BitVec 12) : x ||| v.setWidth 64 = wBits (fun k => x.getLsbD k || v.getLsbD k) :=
  eq_wBits_of_bits _ fun k hk => by rw [BitVec.getLsbD_or, getLsbD_immediate v hk]

theorem xori_eq_wBits (v : BitVec 12) : x ^^^ v.setWidth 64 = wBits (fun k => x.getLsbD k != v.getLsbD k) :=
  eq_wBits_of_bits _ fun k hk => by rw [BitVec.getLsbD_xor, getLsbD_immediate v hk]

end

theorem wN_b2n (b : Bool) : wN (b2n b) = if b = true then 1 else 0 := apply_ite wN ..

/-! ### Pointers (R85, R243) -/

theorem add_signExtend_eq_ofInt (a : Lane) (k : BitVec 12) : a + k.signExtend 32 = BitVec.ofInt 32 (a.toNat + k.toInt) := by
  rw [BitVec.ofInt_add, BitVec.ofInt_natCast, BitVec.ofNat_toNat, BitVec.setWidth_eq]
  rfl

theorem setWidth_eq_ofNat_mod (x : Word) : x.setWidth 32 = BitVec.ofNat 32 (x.toNat % 2 ^ 32) := by
  refine BitVec.eq_of_toNat_eq ?_
  rw [BitVec.toNat_setWidth, BitVec.toNat_ofNat, Nat.mod_mod]

theorem setWidth_eq_ofNat {m : Nat} (n : Nat) (x : BitVec m) : x.setWidth n = BitVec.ofNat n x.toNat :=
  (BitVec.ofNat_toNat ..).symm

/-! ### Operations that retire one result (R240) -/

section
variable {i : Instr} {s : State} {c : Core} {lat d lat' d' : Nat}

theorem retireS_congr {fo : Focus} {fl : Flags} {v w : Word} (h : v = w) :
    retireS fo lat fl d v c = retireS fo lat fl d w c := h ▸ rfl

theorem opAdda_eq {fo : Focus} {d x : BitVec 4} {k : BitVec 12} : opAdda d x k fo c =
    retire fo 1 0 [.areg d.toNat (BitVec.ofInt 32 ((rdA fo c x.toNat).toNat + k.toInt))] c := by
  rw [opAdda, add_signExtend_eq_ofInt]

theorem opMva_eq {fo : Focus} {d : BitVec 4} {x : BitVec 6} : opMva d x fo c =
    retire fo 1 0 [.areg d.toNat (BitVec.ofNat 32 ((rdS fo c x.toNat).toNat % 2 ^ 32))] c := by
  rw [opMva, setWidth_eq_ofNat_mod]

/-- An operation that answers with a result on its way answers with the one its table entry names. -/
theorem exec_intResult {v v' w : Word} (hexec : exec i s = .next (s.withCore (retireS s.focus lat 0 d w c))) (hv : w = v)
    (h : some (lat, d, v) = some (lat', d', v')) : exec i s = .next (s.withCore (retireS s.focus lat' 0 d' v' c)) := by
  cases h
  exact hv ▸ hexec

/-- The same with flags. -/
theorem exec_fpResult {v v' : Nat} {w : Word} {fl fl' : Flags}
    (hexec : exec i s = .next (s.withCore (retireS s.focus lat fl d w c))) (hv : w = wN v)
    (h : some (lat, d, v, fl) = some (lat', d', v', fl')) :
    exec i s = .next (s.withCore (retireS s.focus lat' fl' d' (wN v') c)) := by
  cases h
  exact hv ▸ hexec

end

end Sys2Proof.Machine

namespace Sys2Proof.Proofs

open Sys2Proof Sys2Proof.Machine

/-- Settles O3: each operation of the table by the lemma that computes its value on numbers or bits. -/
theorem integerResults : Obligations.IntegerResults := by
  intro i s c lat d v hready h
  cases i with
  | add d x y => exact exec_intResult (Laws.onCore_ready hready) (add_eq_wN ..) h
  | sub d x y => exact exec_intResult (Laws.onCore_ready hready) (sub_eq_wI ..) h
  | addi d x k => exact exec_intResult (Laws.onCore_ready hready) (add_imm12_eq_wI ..) h
  | addsh d x y k => exact exec_intResult (Laws.onCore_ready hready) (shiftLeft_add_eq_wN ..) h
  | mul d x y => exact exec_intResult (Laws.onCore_ready hready) (mul_eq_wI ..) h
  | mulh d x y => exact exec_intResult (Laws.onCore_ready hready) (mulHi_eq_wI ..) h
  | mulhn d x y => exact exec_intResult (Laws.onCore_ready hready) rfl h
  | div d x y => exact exec_intResult (Laws.onCore_ready hready) (divS_eq ..) h
  | divn d x y => exact exec_intResult (Laws.onCore_ready hready) (divN_eq ..) h
  | and d x y => exact exec_intResult (Laws.onCore_ready hready) (and_eq_wBits ..) h
  | or d x y => exact exec_intResult (Laws.onCore_ready hready) (or_eq_wBits ..) h
  | xor d x y => exact exec_intResult (Laws.onCore_ready hready) (xor_eq_wBits ..) h
  | andn d x y => exact exec_intResult (Laws.onCore_ready hready) (andn_eq_wBits ..) h
  | andi d x k => exact exec_intResult (Laws.onCore_ready hready) (andi_eq_wBits ..) h
  | ori d x k => exact exec_intResult (Laws.onCore_ready hready) (ori_eq_wBits ..) h
  | xori d x k => exact exec_intResult (Laws.onCore_ready hready) (xori_eq_wBits ..) h
  | shl d x y => exact exec_intResult (Laws.onCore_ready hready) (shiftLeft_eq_wN ..) h
  | shr d x y => exact exec_intResult (Laws.onCore_ready hready) (shiftRight_eq_wN ..) h
  | sar d x y => exact exec_intResult (Laws.onCore_ready hready) (sshiftRight_eq_wI ..) h
  | rol d x y => exact exec_intResult (Laws.onCore_ready hready) (rotateLeft_eq_wN _ (Nat.mod_lt _ (by decide))) h
  | shli d x k => exact exec_intResult (Laws.onCore_ready hready) (shiftLeft_eq_wN ..) h
  | shri d x k => exact exec_intResult (Laws.onCore_ready hready) (shiftRight_eq_wN ..) h
  | sari d x k => exact exec_intResult (Laws.onCore_ready hready) (sshiftRight_eq_wI ..) h
  | cmp d x y u => exact exec_intResult (Laws.onCore_ready hready) (cmp_eq ..) h
  | cmpi d x k => exact exec_intResult (Laws.onCore_ready hready) (cmpi_eq ..) h
  | min d x y => exact exec_intResult (Laws.onCore_ready hready) (minS_eq_wI ..) h
  | max d x y => exact exec_intResult (Laws.onCore_ready hready) (maxS_eq_wI ..) h
  | minn d x y => exact exec_intResult (Laws.onCore_ready hready) (minN_eq_wN ..) h
  | maxn d x y => exact exec_intResult (Laws.onCore_ready hready) (maxN_eq_wN ..) h
  | sel d x y k => exact exec_intResult (Laws.onCore_ready hready) (select_eq_wN ..) h
  | movi d k => exact exec_intResult (Laws.onCore_ready hready) rfl h
  | lui d k => exact exec_intResult (Laws.onCore_ready hready) (shiftLeft_or_eq_wN ..) h
  | clz d x => exact exec_intResult (Laws.onCore_ready hready) (clz_eq_wN ..) h
  | ctz d x => exact exec_intResult (Laws.onCore_ready hready) (ctz_eq_wN ..) h
  | popc d x => exact exec_intResult (Laws.onCore_ready hready) (popc_eq_wN ..) h
  | bfx d x p l => exact exec_intResult (Laws.onCore_ready hready) (bfxW_eq_wBits ..) h
  | bfi d x p l => exact exec_intResult (Laws.onCore_ready hready) (bfiW_eq_wBits ..) h
  | _ => cases h

/-- Settles O4: each operation of the table retires the entry's value with the entry's flags. -/
theorem floatResults : Obligations.FloatResults := by
  intro i s c lat d v fl hready h
  cases i with
  | fadd d x y => exact exec_fpResult (Laws.onCore_ready hready) rfl h
  | fsub d x y => exact exec_fpResult (Laws.onCore_ready hready) rfl h
  | fmul d x y => exact exec_fpResult (Laws.onCore_ready hready) rfl h
  | fma d x y z => exact exec_fpResult (Laws.onCore_ready hready) rfl h
  | fmin d x y => exact exec_fpResult (Laws.onCore_ready hready) rfl h
  | fmax d x y => exact exec_fpResult (Laws.onCore_ready hready) rfl h
  | fcmp d x y k => exact exec_fpResult (Laws.onCore_ready hready) (wN_b2n _).symm h
  | fcvt d x r k => exact exec_fpResult (Laws.onCore_ready hready) (wN_toNat _).symm h
  | _ => cases h

/-- Settles O5: the pointers by what their words are as numbers, SPST by the room in the withhold buffer. -/
theorem pointersAndSpill : Obligations.PointersAndSpill :=
  ⟨fun _ _ _ => doesWhen_of_onCore (fun _ => rfl) fun _ _ _ => opAdda_eq,
    fun _ _ => doesWhen_of_onCore (fun _ => rfl) fun _ _ _ => opMva_eq,
    fun _ _ => doesWhen_of_onCore (fun _ => rfl) fun _ _ _ => retireS_congr (setWidth_eq_ofNat ..),
    fun _ _ => doesWhen_of_onCore (fun _ => rfl) fun _ _ _ => rfl,
    fun _ _ => doesWhen_of_onCore (fun _ => rfl) fun _ _ hfits => withhold_fits hfits⟩

end Sys2Proof.Proofs
end

section
/-! PROOFS. Transfers of control, repetition, HALT, START and TRAP (R82, R100, R223 to R226, R251 to R258, R386; O8, O9). -/

namespace Sys2Proof.Machine

section
variable {fo : Focus} {c : Core}

/-! ### Transfers (R251 to R253) -/

theorem offTo_eq (fo : Focus) (o : BitVec 18) : offTo fo o = (fo.bundle + o.toInt).toNat := by
  rw [offTo, offOf, sext_toNat]

theorem goTo_of_not_helper (hfo : ofPrim fo ∨ ofGate fo) (t : Nat) :
    goTo fo t c = { c with cyc := { c.cyc with taken := some t } } := by
  rcases hfo with h | h <;> rw [goTo, h]

theorem goTo_helper {h : Nat} (hfo : ofHelper fo h) (t : Nat) :
    goTo fo t c = c.setHelper h { c.helper h with next := some t } := by
  rw [goTo, hfo]

theorem brCode_cases (k : BitVec 2) : k = 0 ∨ k = 1 ∨ k = 2 ∨ k = 3 := by
  revert k
  decide

/-- The codes of BR: always, some lane, every lane, no lane. -/
theorem brCond_iff {k : BitVec 2} {p : Nat} : brCond c k.toNat p = true ↔
    k = 0 ∨ k = 1 ∧ rdP c p ≠ 0 ∨ k = 2 ∧ rdP c p = BitVec.allOnes 64 ∨ k = 3 ∧ rdP c p = 0 := by
  rcases brCode_cases k with rfl | rfl | rfl | rfl <;> simp [brCond]

theorem opBr_eq {k p : BitVec 2} {o : BitVec 18} : opBr k p o fo c =
    if k = 0 ∨ k = 1 ∧ rdP c p.toNat ≠ 0 ∨ k = 2 ∧ rdP c p.toNat = BitVec.allOnes 64 ∨ k = 3 ∧ rdP c p.toNat = 0
    then goTo fo (fo.bundle + o.toInt).toNat c else c := by
  rw [opBr, offTo_eq]
  exact if_congr brCond_iff rfl rfl

theorem opBrz_eq {x : BitVec 6} {o : BitVec 18} :
    opBrz x o fo c = if rdS fo c x.toNat = 0 then goTo fo (fo.bundle + o.toInt).toNat c else c := by
  rw [opBrz, offTo_eq]

theorem opBrnz_eq {x : BitVec 6} {o : BitVec 18} :
    opBrnz x o fo c = if rdS fo c x.toNat = 0 then c else goTo fo (fo.bundle + o.toInt).toNat c := by
  rw [opBrnz, offTo_eq, ite_not]

theorem opCall_of_not_helper (hfo : ofPrim fo ∨ ofGate fo) {o : BitVec 18} : opCall o fo c =
    goTo fo (fo.bundle + o.toInt).toNat (retireS fo 1 0 63 (wN (fo.bundle + 2)) c) := by
  rw [← offTo_eq]
  rcases hfo with h | h <;> (rw [opCall, h]; rfl)

theorem opCall_helper {h : Nat} (hfo : ofHelper fo h) {o : BitVec 18} : opCall o fo c =
    goTo fo (fo.bundle + o.toInt).toNat (retireS fo 1 0 31 (wN (fo.bundle + 1)) c) := by
  rw [← offTo_eq, opCall, hfo]
  rfl

/-- A counter that is not zero, taken down by one. -/
theorem pred_eq_ofNat {v : BitVec 32} (h : v.toNat ≠ 0) : v - 1 = BitVec.ofNat 32 (v.toNat - 1) := by
  have hlt := v.isLt
  refine BitVec.eq_of_toNat_eq ?_
  rw [BitVec.toNat_ofNat, BitVec.toNat_sub]
  simp only [BitVec.reduceToNat]
  omega

/-- LOOP's counter after it: one less, unless it was zero. -/
theorem loopCount_eq {l : BitVec 2} :
    (if spGet 0 c.p.lc l.toNat ≠ 0 then retire fo 1 0 [.lcnt l.toNat (spGet 0 c.p.lc l.toNat - 1)] c else c) =
      if (spGet 0 c.p.lc l.toNat).toNat = 0 then c
      else retire fo 1 0 [.lcnt l.toNat (BitVec.ofNat 32 ((spGet 0 c.p.lc l.toNat).toNat - 1))] c := by
  have hzero : (spGet 0 c.p.lc l.toNat).toNat = 0 ↔ spGet 0 c.p.lc l.toNat = 0 := BitVec.toNat_inj (y := 0)
  rw [ite_not]
  refine ite_congr (propext hzero.symm) (fun _ => rfl) fun h => ?_
  rw [pred_eq_ofNat h]

/-! ### REP, HALT, START and TRAP (R223 to R226, R254 to R258) -/

theorem opRep_eq {r : BitVec 6} {n : BitVec 4} {k : BitVec 14} : opRep r n k fo c = { c with cyc := { c.cyc with
    repNew := some { body := fo.bundle + 1, n := n.toNat + 1, count := k.toNat + 1, rot := r.toNat, j := 0, b := 0,
                     o := fo.bundle + 1 + (n.toNat + 1) } } } := by
  have hafter : fo.bundle + 2 + n.toNat = fo.bundle + 1 + (n.toNat + 1) := by omega
  rw [opRep, hafter]

theorem opHalt_of_not_helper (hfo : ofPrim fo ∨ ofGate fo) {m : BitVec 4} :
    opHalt m fo c = { c with cyc := { c.cyc with halt := some m.toNat } } := by
  rcases hfo with h | h <;> rw [opHalt, h]

theorem opHalt_helper {h : Nat} (hfo : ofHelper fo h) {m : BitVec 4} : opHalt m fo c = retire fo 1 0 [.haltH h] c := by
  rw [opHalt, hfo]

/-- A helper that halts keeps its counters and where it stood; its registers are gone. -/
theorem helper_landEff_haltH (e : Pend) {h : Nat} (hh : h < c.helpers.length) (k : Nat) :
    (landEff e c (.haltH h)).helper k = if k = h then { helper0 with
      st := .halted, pc := (c.helper h).pc, pos := (c.helper h).pos, adv := (c.helper h).adv, iss := (c.helper h).iss,
      dport := (c.helper h).dport, dtok := (c.helper h).dtok, trapv := (c.helper h).trapv } else c.helper k := by
  refine (Laws.helper_setHelper c h k _).trans ?_
  simp only [hh, and_true]

theorem opStart_busy {d : BitVec 6} {h : BitVec 4} {e : BitVec 14}
    (hbusy : freeState (c.helper h.toNat) = false ∨ startHeld h.toNat (c.withheld ++ c.newWith) = true) :
    opStart d h e fo c = takeTrap fo cHELPERBUSY 0 c :=
  if_neg (by rcases hbusy with hb | hb <;> simp [hb])

theorem opTrap_prim (hfo : ofPrim fo) {d : BitVec 6} {k : BitVec 8} : opTrap d k fo c =
    primTrap k.toNat fo.slot fo.bundle (rdS fo c d.toNat) fo.jobt c := by
  have hctx : fo.ctx = .prim := hfo
  simp only [opTrap, takeTrap, hctx]

/-- TRAP of a helper: the trap of a helper, and the register's value beside it. -/
theorem opTrap_helper {h : Nat} (hfo : ofHelper fo h) {d : BitVec 6} {k : BitVec 8} : opTrap d k fo c =
    (helperTrap h k.toNat fo.bundle (slotPos fo.slot) c).setHelper h
      { (helperTrap h k.toNat fo.bundle (slotPos fo.slot) c).helper h with trapv := rdS fo c d.toNat } := by
  have hctx : fo.ctx = .helper h := hfo
  simp only [opTrap, takeTrap_helper hfo, hctx]

theorem helper_opTrap {h : Nat} (hfo : ofHelper fo h) (hh : h < c.helpers.length) (hrun : c.run ≠ .halted) (d : BitVec 6)
    (k : BitVec 8) : (opTrap d k fo c).helper h = { c.helper h with
      st := .trapped, cause := k.toNat, pc := fo.bundle, pos := slotPos fo.slot, next := none,
      trapv := rdS fo c d.toNat } := by
  have hlen : h < (helperTrap h k.toNat fo.bundle (slotPos fo.slot) c).helpers.length :=
    (Laws.length_setAt c.helpers h _).symm ▸ hh
  rw [opTrap_helper hfo, Laws.helper_setHelper, if_pos ⟨rfl, hlen⟩, helperTrap_helper hh, if_pos rfl, if_neg hrun]

theorem p_opTrap_helper {h : Nat} (hfo : ofHelper fo h) (d : BitVec 6) (k : BitVec 8) : (opTrap d k fo c).p = c.p := by
  rw [opTrap_helper hfo]
  rfl

end

end Sys2Proof.Machine

namespace Sys2Proof.Proofs

open Sys2Proof Sys2Proof.Machine

/-- Settles O8: the condition and the target of each transfer, and where a target is set. -/
theorem transfersOfControl : Obligations.TransfersOfControl := by
  refine ⟨fun _ _ _ => doesWhen_of_onCore (fun _ => rfl) fun _ _ _ => opBr_eq,
    fun _ _ => doesWhen_of_onCore (fun _ => rfl) fun _ _ _ => opBrz_eq,
    fun _ _ => doesWhen_of_onCore (fun _ => rfl) fun _ _ _ => opBrnz_eq,
    fun _ => doesWhen_of_onCore (fun _ => rfl) fun _ _ hin => if_pos hin,
    fun _ => doesWhen_of_onCore (fun _ => rfl) fun _ _ hpast => if_neg (Nat.not_lt.2 hpast),
    fun _ => doesWhen_of_onCore (fun _ => rfl) fun _ _ hfo => opCall_of_not_helper hfo,
    fun _ _ => doesWhen_of_onCore (fun _ => rfl) fun _ _ hfo => opCall_helper hfo,
    fun l o => doesWhen_of_onCore (fun _ => rfl) fun fo c _ => ?loop,
    fun _ t _ => ⟨fun hfo => goTo_of_not_helper hfo t, fun _ hfo => goTo_helper hfo t⟩⟩
  case loop =>
    rw [opLoop, loopCount_eq, offTo_eq]
    simp only [← Nat.not_lt, ite_not]

/-- Settles O9: each operation by what it sets in its context; a helper's HALT and TRAP by the helper they leave. -/
theorem repetitionAndHalt : Obligations.RepetitionAndHalt := by
  refine ⟨⟨fun _ _ _ => doesWhen_of_onCore (fun _ => rfl) fun _ _ _ => opRep_eq,
      fun _ => doesWhen_of_onCore (fun _ => rfl) fun _ _ hfo => opHalt_of_not_helper hfo,
      fun _ _ => doesWhen_of_onCore (fun _ => rfl) fun _ _ hfo => opHalt_helper hfo, fun e c h hh => ?halted⟩,
    fun _ _ _ => doesWhen_of_onCore (fun _ => rfl) fun _ _ ⟨hfree, hheld, hfits⟩ =>
      (opStart_prim hfree hheld).trans (withhold_fits hfits),
    fun _ _ _ => doesWhen_of_onCore (fun _ => rfl) fun _ _ hbusy => opStart_busy hbusy,
    fun _ _ => doesWhen_of_onCore (fun _ => rfl) fun _ _ hfo => opTrap_prim hfo,
    fun d k h s c hready hfo hh hrun => ?trapped⟩
  case halted =>
    have hhelper := helper_landEff_haltH e hh
    have hself := (hhelper h).trans (if_pos rfl)
    exact ⟨congrArg Helper.st hself, congrArg Helper.x hself, fun k hk => (hhelper k).trans (if_neg hk)⟩
  case trapped =>
    have hself := helper_opTrap hfo hh hrun d k
    exact ⟨_, Laws.onCore_ready hready, congrArg Helper.st hself, congrArg Helper.cause hself, congrArg Helper.pc hself,
      congrArg Helper.trapv hself, (congrArg Helper.x hself :), p_opTrap_helper hfo d k⟩

end Sys2Proof.Proofs
end

section
/-! PROOFS. Control registers: what MFC and RDT read, what MTC writes and when (R200, R225, R234, R246 to R249, R320, R351, R391,
R416; O6, O7), and the mailboxes (R55, R231, R232, R250; O10). -/

namespace Sys2Proof.Machine

section
variable {fo : Focus} {c : Core}

/-! ### The view of a cycle (R246) -/

theorem mfcVal_of_viewed {n : Nat} {v : Word} (h : c.cyc.view.find? (fun e => e.1 = n) = some (n, v)) :
    mfcVal fo c n = v := by
  rw [mfcVal, h]

theorem mfcVal_of_noView (h : c.cyc.view = []) (n : Nat) : mfcVal fo c n = ctrlOf fo c n := by
  rw [mfcVal, h]
  rfl

/-- The registers that the view lists beside those of the helpers. -/
def cycleRegs : List Nat :=
  [0x10, 0x11, 0x12, 0x13, 0x18, 0x19, 0x1B, 0x1D, 0x101, 0x200, 0x400, 0x500, 0x501, 0x502, 0x503, 0x504]

theorem mem_cycleRegs {n : Nat} : n ∈ cycleRegs ↔ (0x10 ≤ n ∧ n ≤ 0x13) ∨ n = 0x18 ∨ n = 0x19 ∨ n = 0x1B ∨ n = 0x1D ∨
    n = 0x101 ∨ n = 0x200 ∨ n = 0x400 ∨ (0x500 ≤ n ∧ n ≤ 0x504) := by
  simp only [cycleRegs, List.mem_cons, List.not_mem_nil, or_false]
  omega

theorem find?_map_key {α : Type} (f : Nat → α) {l : List Nat} {n : Nat} (hn : n ∈ l) :
    (l.map (fun k => (k, f k))).find? (fun e => e.1 = n) = some (n, f n) := by
  induction l with
  | nil => cases hn
  | cons k l ih =>
    by_cases hk : k = n
    · subst hk
      simp
    · simpa [hk] using ih (List.mem_of_ne_of_mem (Ne.symm hk) hn)

/-- A register outside the helpers' ten is not found among them. -/
theorem find?_helperRegs {α : Type} (f : Nat → α) {lo n : Nat} (hn : n < lo ∨ lo + 10 ≤ n) :
    ((List.range 10).map (fun h => (lo + h, f h))).find? (fun e => e.1 = n) = none := by
  refine List.find?_eq_none.2 fun e he => ?_
  obtain ⟨h, hh, rfl⟩ := List.mem_map.1 he
  have hlt := List.mem_range.1 hh
  simp only [decide_eq_true_eq]
  omega

theorem State.viewRegs_find (s : State) (num jobt : Nat) (c : Core) {n : Nat} (hn : n ∈ cycleRegs) :
    (s.viewRegs num jobt c).find? (fun e => e.1 = n) =
      some (n, ctrlOf (primFocus num c 0 1 jobt s.tick) c n) := by
  have hout : n < 0x30 ∨ 0x6A ≤ n := by
    have := mem_cycleRegs.1 hn
    omega
  have hown := find?_map_key (ctrlOf (primFocus num c 0 1 jobt s.tick) c) hn
  rw [State.viewRegs, List.find?_append, List.find?_append, List.find?_append, List.find?_append,
    find?_helperRegs _ (by omega), find?_helperRegs _ (by omega), find?_helperRegs _ (by omega),
    find?_helperRegs _ (by omega)]
  exact hown

theorem State.view_cycleView (s : State) (num jobt : Nat) (c : Core) (fences : List Nat) (gate : Nat) :
    (s.cycleView num jobt c fences gate).cyc.view = s.viewRegs num jobt { c with gate := gate } := rfl

/-! ### Registers as they stand (R247, R248) -/

/-- But for HID, FPSTAT and INBOXPOP, a register reads alike in every context, and none depends on the cycle's own notes. -/
theorem ctrlOf_cyc (fo go : Focus) (c : Core) (y : Cyc) {n : Nat} (hhid : n ≠ 3) (hfp : n ≠ 4) (hpop : n ≠ 0x21) :
    ctrlOf fo { c with cyc := y } n = ctrlOf go c n := by
  simp only [ctrlOf, hhid, hfp, hpop, if_false]
  rfl

theorem ctrlOf_hid_prim (hfo : ofPrim fo) : ctrlOf fo c 3 = 15 := by
  show hidOf fo = 15
  rw [hidOf, hfo]

theorem ctrlOf_hid_helper {h : Nat} (hfo : ofHelper fo h) : ctrlOf fo c 3 = wN h := by
  show hidOf fo = wN h
  rw [hidOf, hfo]
  rfl

theorem ctrlOf_lcnt {k : Nat} (hk : k < 4) : ctrlOf fo c (0x10 + k) = wN (spGet 0 c.p.lc k).toNat := by
  have hreg : ctrlOf fo c (0x10 + k) = (spGet 0 c.p.lc k).setWidth 64 := by interval_cases k <;> rfl
  rw [hreg, setWidth_eq_ofNat]
  rfl

theorem ctrlOf_htrapv {h : Nat} (hh : h < 10) : ctrlOf fo c (0x60 + h) = (c.helper h).trapv := by
  interval_cases h <;> rfl

theorem ctrlOf_seqmask {k : Nat} (hk : k < 4) : ctrlOf fo c (0x300 + k) = c.seqmask.getD k 0 := by
  interval_cases k <;> rfl

/-! ### MFC and RDT (R246, R249) -/

theorem exec_mfc_ready {s : State} {d : BitVec 6} {n : BitVec 12} (hready : Ready (.mfc d n) s c) : exec (.mfc d n) s =
    .next (if n.toNat = 0x600 then s.soon s.focus.core [.bqtake (s.focus.core - 512) d.toNat]
      else s.withCore (opMfc d n s.focus c)) :=
  Laws.onState_ready (f := fun fo k => if n.toNat = 0x600 then s.soon fo.core [.bqtake (fo.core - 512) d.toNat]
    else s.setCore fo.core (opMfc d n fo k)) hready

theorem exec_mfc_bqtake {s : State} {d : BitVec 6} (hready : Ready (.mfc d 0x600) s c) :
    exec (.mfc d 0x600) s = .next (s.soon s.focus.core [.bqtake (s.focus.core - 512) d.toNat]) :=
  exec_mfc_ready hready

/-- An MFC of any register but BQTAKE is the core's own. -/
theorem exec_mfc {s : State} {d : BitVec 6} {n : BitVec 12} (hready : Ready (.mfc d n) s c) (hn : n.toNat ≠ 0x600) :
    exec (.mfc d n) s = .next (s.withCore (opMfc d n s.focus c)) :=
  (exec_mfc_ready hready).trans (congrArg _ (if_neg hn))

/-- Bundles the context has issued, as RDT tells them. -/
def bundlesIssued (fo : Focus) (c : Core) : Nat :=
  match fo.ctx with
  | .helper h => (c.helper h).iss % 2 ^ 32
  | _ => c.p.iss

theorem opRdt_eq {d f : BitVec 6} : opRdt d f fo c =
    retireS fo 1 0 d.toNat (wN (if f = 0 then fo.jobt else if f = 1 then fo.grat else bundlesIssued fo c)) c := by
  by_cases h0 : f = 0
  · subst h0
    rfl
  by_cases h1 : f = 1
  · subst h1
    rfl
  have hn0 : f.toNat ≠ 0 := fun h => h0 (BitVec.eq_of_toNat_eq h)
  have hn1 : f.toNat ≠ 1 := fun h => h1 (BitVec.eq_of_toNat_eq h)
  rw [if_neg h0, if_neg h1, opRdt]
  split
  · contradiction
  · contradiction
  · rfl

/-! ### MTC (R200, R246) -/

theorem exec_mtc_gwtlinc {s : State} {d : BitVec 6} (hready : Ready (.mtc d 0x601) s c) :
    exec (.mtc d 0x601) s = .next (s.soon s.focus.core [.gwtlinc]) :=
  Laws.onState_ready (f := fun fo k => if (0x601 : BitVec 12).toNat = 0x601 then s.soon fo.core [.gwtlinc]
    else s.setCore fo.core (opMtc d 0x601 fo k)) hready

theorem opMtc_fpstat {d : BitVec 6} : opMtc d 4 fo c = retire fo 1 0
    [.fpClear (BitVec.ofNat 6 (rdS fo c d.toNat).toNat), .fpClearM (BitVec.ofNat 6 ((rdS fo c d.toNat).toNat / 256))] c := by
  rw [← setWidth_eq_ofNat 6, ← Nat.shiftRight_eq_div_pow _ 8, ← BitVec.toNat_ushiftRight, ← setWidth_eq_ofNat 6]
  rfl

theorem opMtc_lcnt {d : BitVec 6} {n : BitVec 12} (hlo : 0x10 ≤ n.toNat) (hhi : n.toNat ≤ 0x13) : opMtc d n fo c =
    retire fo 1 0 [.lcnt (n.toNat - 0x10) (BitVec.ofNat 32 (rdS fo c d.toNat).toNat)] c := by
  have hfp : n.toNat ≠ 4 := by omega
  rw [← setWidth_eq_ofNat 32]
  exact (if_neg hfp).trans (if_pos ⟨hlo, hhi⟩)

theorem applyMtc_seqmask {k : Nat} (hk : k < 4) (v : Word) (c : Core) :
    applyMtc (0x300 + k) v c = { c with seqmask := setAt c.seqmask k (c.seqmask.getD k 0 &&& ~~~v) } := by
  interval_cases k <;> rfl

/-! ### HCTL (R225) -/

/-- A helper context after its FREE bit: released if it was trapped. -/
def freed (x : Helper) : Helper := if x.st = .trapped then { x with st := .released } else x

theorem freed_freed (x : Helper) : freed (freed x) = freed x := by
  by_cases h : x.st = .trapped
  · simp [freed, h]
  · simp [freed, h]

theorem helper_eq_of_length_le {h : Nat} (hh : c.helpers.length ≤ h) : c.helper h = helper0 :=
  List.getD_eq_default _ _ hh

theorem helper_freeHelper (c : Core) (j h : Nat) :
    (freeHelper j c).helper h = if h = j then freed (c.helper h) else c.helper h := by
  by_cases ht : (c.helper j).st = .trapped
  · have hj : j < c.helpers.length := Nat.lt_of_not_le fun hle => by
      rw [helper_eq_of_length_le hle] at ht
      cases ht
    rw [freeHelper, if_pos ht, Laws.helper_setHelper]
    simp only [hj, and_true]
    refine ite_congr rfl (fun h => ?_) fun _ => rfl
    rw [h, freed, if_pos ht]
  · rw [freeHelper, if_neg ht]
    split
    · subst h
      rw [freed, if_neg ht]
    · rfl

theorem helper_freeBit (w : Nat) (c : Core) (j h : Nat) : (if bit w j then freeHelper j c else c).helper h =
    if h = j ∧ bit w h = true then freed (c.helper h) else c.helper h := by
  by_cases hh : h = j
  · subst hh
    by_cases hw : bit w h = true <;> simp [hw, helper_freeHelper]
  · by_cases hw : bit w j = true <;> simp [hw, hh, helper_freeHelper]

/-- The helpers after the FREE bits of a list of them: each named one whose bit is 1 is freed, the others stand. -/
theorem helper_freeHelpers (w : Nat) (l : List Nat) (c : Core) (h : Nat) :
    (l.foldl (fun k j => if bit w j then freeHelper j k else k) c).helper h =
      if h ∈ l ∧ bit w h = true then freed (c.helper h) else c.helper h := by
  induction l generalizing c with
  | nil => simp
  | cons j l ih =>
    rw [List.foldl_cons, ih, helper_freeBit]
    by_cases hw : bit w h = true
    · by_cases hj : h = j
      · subst hj
        by_cases hl : h ∈ l <;> simp [hw, hl, freed_freed]
      · simp [hw, hj]
    · simp [hw]

theorem helper_applyMtc_hctl (v : Word) (c : Core) (h : Nat) :
    (applyMtc 0x1E v c).helper h = if h < 10 ∧ v.getLsbD h = true then freed (c.helper h) else c.helper h := by
  refine (helper_freeHelpers v.toNat (List.range 10) _ h).trans ?_
  simp only [List.mem_range, bit_toNat]
  rfl

theorem fnen_freeHelpers (w : Nat) (l : List Nat) (c : Core) :
    (l.foldl (fun k j => if bit w j then freeHelper j k else k) c).fnen = c.fnen := by
  refine List.foldlRecOn (motive := fun k : Core => k.fnen = c.fnen) l _ rfl fun k hk j _ => ?_
  split
  · rw [← hk, freeHelper]
    split <;> rfl
  · exact hk

/-! ### Mailboxes (R55, R231, R232, R250) -/

theorem opTakem_absent {d : BitVec 6} {m : BitVec 5} (habsent : mbPresent c m.toNat = false) :
    opTakem d m fo c = retireS fo 1 0 d.toNat 0 c := if_neg (ne_true_of_eq_false habsent)

theorem opTakem_helper {d : BitVec 6} {m : BitVec 5} {h : Nat} (hfo : ofHelper fo h) (hpresent : mbPresent c m.toNat = true) :
    opTakem d m fo c =
      retire fo 1 0 [.take m.toNat] (retireS fo 1 0 d.toNat (spGet ((0 : Word), false) c.mb m.toNat).1 c) := by
  have hctx : fo.ctx = .helper h := hfo
  simp only [opTakem, hpresent, hctx, if_true]

/-- The primary's TAKEM: the value on its way, the mailbox marked, its clear withheld. -/
theorem opTakem_prim_fits {d : BitVec 6} {m : BitVec 5} (hfo : ofPrim fo) (hpresent : mbPresent c m.toNat = true)
    (hfits : fits c (.takem m.toNat) = true) {c1 : Core}
    (hc1 : retireS fo 1 0 d.toNat (spGet ((0 : Word), false) c.mb m.toNat).1 c = c1) : opTakem d m fo c =
      { c1 with p := { c1.p with marks := c1.p.marks ++ [m.toNat] },
                newWith := c1.newWith ++ [⟨ordOf fo c, .takem m.toNat⟩] } := by
  have hctx : fo.ctx = .prim := hfo
  have hord : ordOf fo { c1 with p := { c1.p with marks := c1.p.marks ++ [m.toNat] } } = ordOf fo c := by
    rw [← hc1, retireS, ← ordOf_retire fo fo c 1 0 [effS fo d.toNat (spGet ((0 : Word), false) c.mb m.toNat).1], ordOf,
      ordOf, hctx]
  simp only [opTakem, hpresent, hctx, hfits, hc1, if_true, withholdNow, hord]

theorem mbPresent_of_marked {m : Nat} (h : m ∈ c.p.marks) : mbPresent c m = false := by
  simp [mbPresent, h]

/-- Cleared with no entry of the inbox for it, a mailbox is absent; the others stand. -/
theorem mb_mbClear {m : Nat} (hinbox : ∀ x ∈ c.inbox, x.1 ≠ m) (k : Nat) :
    spGet ((0 : Word), false) (mbClear m c).mb k =
      if k = m then ((spGet ((0 : Word), false) c.mb m).1, false) else spGet ((0 : Word), false) c.mb k := by
  have hnone : c.inbox.find? (fun e => e.1 = m) = none :=
    List.find?_eq_none.2 fun x hx => by simpa using hinbox x hx
  rw [mbClear, hnone]
  exact Laws.spGet_spSet ..

end

end Sys2Proof.Machine

namespace Sys2Proof.Proofs

open Sys2Proof Sys2Proof.Machine

/-- Settles O6: a viewed register is found in the view as it stood when the cycle began; another reads as it stands. -/
theorem controlReads : Obligations.ControlReads := by
  refine ⟨fun _ _ hn s c hready _ => exec_mfc hready hn,
    fun _ _ _ hready => exec_mfc_bqtake hready, fun fo c hview => ?stand,
    fun _ _ _ _ hfind => mfcVal_of_viewed hfind, fun s num jobt gate n c fences => ?viewed,
    fun _ _ => doesWhen_of_onCore (fun _ => rfl) fun _ _ _ => opRdt_eq⟩
  case stand =>
    simp only [mfcVal_of_noView hview]
    exact ⟨rfl, rfl, rfl, ctrlOf_hid_prim, fun _ => ctrlOf_hid_helper, fun _ => ctrlOf_lcnt, fun _ => ctrlOf_htrapv,
      fun _ => ctrlOf_seqmask, rfl, rfl, rfl⟩
  case viewed =>
    intro d e hn fo _
    have hreg := mem_cycleRegs.2 hn
    have hfind := s.viewRegs_find num jobt { c with gate := gate } hreg
    rw [← s.view_cycleView num jobt c fences gate] at hfind
    rw [mfcVal_of_viewed (c := { c with cyc := { c.cyc with view := d.cyc.view } }) hfind, mfcVal_of_noView rfl]
    exact (ctrlOf_cyc fo _ { c with gate := gate } _ (by omega) (by omega) (by omega)).symm

/-- Settles O7: MTC by its register, and the writes that take effect by the map of theirs. -/
theorem controlWrites : Obligations.ControlWrites := by
  refine ⟨fun _ s c hready _ => (exec_mtc hready (by decide)).trans (next_congr (congrArg s.withCore opMtc_fpstat)),
    fun _ n hlo hhi s c hready _ =>
      (exec_mtc hready (by omega)).trans (next_congr (congrArg s.withCore (opMtc_lcnt hlo hhi))),
    fun _ _ _ hready => exec_mtc_gwtlinc hready,
    fun _ n hfp hlc hgw s c hready hfits => (exec_mtc hready hgw).trans
      (next_congr (congrArg s.withCore ((opMtc_withheld hfp hlc).trans (withhold_fits hfits)))),
    fun v c => ⟨bit_toNat v 0, blockAddr v, fun k hk hlen => ?seqmask, ?fnen, fun h hh _ hv ht => ?frees,
      fun h hkept => ?keeps, rfl, rfl, rfl⟩⟩
  case seqmask =>
    rw [applyMtc_seqmask hk]
    exact (Laws.getD_setAt ..).trans (if_pos ⟨rfl, by omega⟩)
  case fnen => exact (fnen_freeHelpers ..).trans (bit_toNat v 15)
  case frees => rw [helper_applyMtc_hctl, if_pos ⟨hh, hv⟩, freed, if_pos ht]
  case keeps =>
    rw [helper_applyMtc_hctl]
    split
    case isTrue hfree => rw [freed, if_neg (hkept.resolve_left (by simp [hfree.2]))]
    case isFalse => rfl

/-- Settles O10: TAKEM by the presence its context sees, and the clear by the mailboxes it leaves. -/
theorem takeMailbox : Obligations.TakeMailbox := by
  refine ⟨fun _ _ => doesWhen_of_onCore (fun _ => rfl) fun _ _ habsent => opTakem_absent habsent,
    fun _ _ _ => doesWhen_of_onCore (fun _ => rfl) fun _ _ ⟨hfo, hpresent⟩ => opTakem_helper hfo hpresent,
    fun _ _ => doesWhen_of_onCore (fun _ => rfl) fun _ _ ⟨hfo, hpresent, hfits⟩ =>
      opTakem_prim_fits hfo hpresent hfits rfl,
    fun _ _ hmarked => mbPresent_of_marked hmarked, fun e c m hinbox => ⟨?_, fun k hk => ?_⟩⟩
  · exact congrArg Prod.snd ((mb_mbClear hinbox m).trans (if_pos rfl))
  · exact (mb_mbClear hinbox k).trans (if_neg hk)

end Sys2Proof.Proofs
end

end

section
/- As above, the proofs are elaborated one after the other, for the sake of the check's memory. -/
set_option deprecated.oldSectionVars true

section
/-! PROOFS. Issue of the V class (R47, R110, R259 to R265, R328, R345, R384): what its operations check, and what they begin
(O23, O24, O25). -/

namespace Sys2Proof.Machine

section
variable {i : Instr} {fo : Focus} {c : Core}

/-! ### The operations of the class -/

/-- An operation of the V class acts on its core by the one rule of the class. -/
theorem exec_vec (hclass : classOf i = some .V) (hnil : isNil i = false) (hhold : isHold i = false) (s : State) :
    exec i s = onCore i (opV i) s := by
  cases i with
  | vadd | vsub | vmul | vfma | vfms | vmin | vmax | vabs | vneg | vcmp | vsel | vcvt | vand | vor | vxor | vshl
  | vshr | vsar | vrcp | vrsq | vexp2 | vlog2 | vtanh | vred | vscan | vperm | vbc | viota | vmov | vrand | vclamp
  | vpack | vunpk | baddq | tap | tapfin | vsteer | qset | qadd | qmul | qscale | qshift | qmix | qcond | qmom
  | qquant | qtag | qsamp => rfl
  | nilV => cases hnil
  | holdV => cases hhold
  | _ => cases hclass

theorem exec_vec_ready {s : State} (hready : Ready i s c) (hclass : classOf i = some .V) (hnil : isNil i = false)
    (hhold : isHold i = false) {d : Core} (hop : opV i s.focus c = d) : exec i s = .next (s.withCore d) := by
  rw [exec_vec hclass hnil hhold, Laws.onCore_ready hready, hop]

/-! ### What an operation checks, in order (R110, R261, R345, R384) -/

/-- The tap word an operation takes (R345). -/
def tapWord (i : Instr) (fo : Focus) (c : Core) : Word :=
  match tapReg i with
  | some r => rdS fo c r
  | none => 0

/-- The destination of an operation. -/
def vecDst (i : Instr) (fo : Focus) (c : Core) : VDst :=
  match vDst i with
  | some d => fDst fo c d
  | none => .grid 0

/-- The cause for which an operation's tap word does not pass. -/
def tapErr (i : Instr) (fo : Focus) (c : Core) : Option Nat :=
  if (tapReg i).isSome then tapCheck c (tapWord i fo c) else none

/-- The core with the post-increments of an operation on their way (R265). -/
def vecBumped (i : Instr) (fo : Focus) (c : Core) : Core :=
  if vBumps fo c i = [] then c else retire fo 1 0 (vBumps fo c i) c

theorem tapErr_eq_none (h : (tapReg i).isSome = true → tapCheck c (tapWord i fo c) = none) : tapErr i fo c = none :=
  ite_eq_right_iff.2 h

theorem opV_eq : opV i fo c =
    if vBusy fo c i then takeTrap fo cUNITBUSY 0 c
    else match tapErr i fo c with
      | some e => takeTrap fo e 0 c
      | none => match firstTrap fo c (vAddrs fo c i) with
        | some t => takeTrap fo t.1 (wN t.2) c
        | none =>
          if 256 < c.storeUse + vNeed c i (vecDst i fo c) (tapWord i fo c) then takeTrap fo cWITHHOLD 0 c
          else vOccupy i (launch (vFlight i fo c (tapWord i fo c) (vecDst i fo c)) (vecBumped i fo c)) := rfl

theorem opV_busy (hbusy : vBusy fo c i = true) : opV i fo c = takeTrap fo cUNITBUSY 0 c := by
  rw [opV_eq, if_pos hbusy]

theorem opV_tapErr (hfree : vBusy fo c i = false) {e : Nat} (htap : tapErr i fo c = some e) :
    opV i fo c = takeTrap fo e 0 c := by
  rw [opV_eq, if_neg (ne_true_of_eq_false hfree), htap]

theorem opV_addrTrap (hfree : vBusy fo c i = false) (htap : tapErr i fo c = none) {k v : Nat}
    (haddr : firstTrap fo c (vAddrs fo c i) = some (k, v)) : opV i fo c = takeTrap fo k (wN v) c := by
  rw [opV_eq, if_neg (ne_true_of_eq_false hfree), htap, haddr]

theorem opV_full (hfree : vBusy fo c i = false) (htap : tapErr i fo c = none)
    (haddr : firstTrap fo c (vAddrs fo c i) = none)
    (hfull : 256 < c.storeUse + vNeed c i (vecDst i fo c) (tapWord i fo c)) :
    opV i fo c = takeTrap fo cWITHHOLD 0 c := by
  rw [opV_eq, if_neg (ne_true_of_eq_false hfree), htap, haddr]
  exact if_pos hfull

theorem opV_pass (hfree : vBusy fo c i = false) (htap : tapErr i fo c = none)
    (haddr : firstTrap fo c (vAddrs fo c i) = none)
    (hroom : c.storeUse + vNeed c i (vecDst i fo c) (tapWord i fo c) ≤ 256) :
    opV i fo c = vOccupy i (launch (vFlight i fo c (tapWord i fo c) (vecDst i fo c)) (vecBumped i fo c)) := by
  rw [opV_eq, if_neg (ne_true_of_eq_false hfree), htap, haddr]
  exact if_neg (Nat.not_lt.2 hroom)

/-- A unit is occupied: V1, for an operation in its slot, or the transcendental unit, for one that needs it (R261). -/
theorem vBusy_of_occupied (hslot : fo.slot = 4) (h : 0 < c.p.v1Busy ∨ (transBf i).isSome = true ∧ 0 < c.p.vtBusy) :
    vBusy fo c i = true := by
  simpa [vBusy, hslot] using h

theorem takeTrap_prim {fo : Focus} (hfo : ofPrim fo) (k : Nat) (v : Word) (c : Core) :
    takeTrap fo k v c = primTrap k fo.slot fo.bundle v fo.jobt c := by
  rw [takeTrap, hfo]

/-! ### Operands in the grid (R45, R85) -/

theorem fAddr_grid {f : BitVec 9} (hf : f.toNat < 256) (wr : Bool) : fAddr fo c f wr = none := if_pos hf

theorem fDst_grid {f : BitVec 9} (hf : f.toNat < 256) : fDst fo c f = .grid f.toNat := by
  rw [fDst, fAddr_grid hf]

theorem fBump_grid {f : BitVec 9} (hf : f.toNat < 256) : fBump fo c f = [] := by
  have hkind : bits f.toNat 8 7 ≠ 2 := by
    unfold bits
    omega
  simp [fBump, fStream, hkind]

/-- A field an operation may have, in the grid if it has it. -/
def InGrid (f : Option (BitVec 9)) : Prop := ∀ b ∈ f, b.toNat < 256

theorem inGrid_none : InGrid none := nofun

theorem inGrid_some {b : BitVec 9} (hb : b.toNat < 256) : InGrid (some b) := by
  rintro _ ⟨⟩
  exact hb

/-- The fields read as x, y and d are among the operation's fields. -/
theorem vXYD_inGrid (h : ∀ f ∈ (vFields i).1, f.toNat < 256) :
    InGrid (vXYD i).1 ∧ InGrid (vXYD i).2.1 ∧ InGrid (vXYD i).2.2 := by
  unfold vXYD
  split
  case h_1 => exact ⟨inGrid_some (h _ (by simp [vFields])), inGrid_none, inGrid_some (h _ (by simp [vFields]))⟩
  iterate 5 exact ⟨inGrid_none, inGrid_some (h _ (by simp [vFields])), inGrid_none⟩
  split
  case h_1 hx => exact ⟨inGrid_some (h _ (by simp [hx])), inGrid_none, inGrid_none⟩
  case h_2 hxy => exact ⟨inGrid_some (h _ (by simp [hxy])), inGrid_some (h _ (by simp [hxy])), inGrid_none⟩
  case h_3 hxyd =>
    exact ⟨inGrid_some (h _ (by simp [hxyd])), inGrid_some (h _ (by simp [hxyd])), inGrid_some (h _ (by simp [hxyd]))⟩
  case h_4 => exact ⟨inGrid_none, inGrid_none, inGrid_none⟩

theorem vDst_inGrid (h : ∀ f ∈ (vFields i).2, f.toNat < 256) : InGrid (vDst i) := by
  unfold vDst
  split
  case h_1 hd => exact inGrid_some (h _ (by simp [hd]))
  case h_2 => exact inGrid_none

theorem gridOnly_inGrid (h : gridOnly i = true) :
    InGrid (vXYD i).1 ∧ InGrid (vXYD i).2.1 ∧ InGrid (vXYD i).2.2 ∧ InGrid (vDst i) := by
  simp only [gridOnly, Bool.and_eq_true, List.all_eq_true, decide_eq_true_eq] at h
  obtain ⟨hx, hy, hd⟩ := vXYD_inGrid h.1
  exact ⟨hx, hy, hd, vDst_inGrid h.2⟩

theorem vecDst_inGrid (h : InGrid (vDst i)) : vecDst i fo c = match vDst i with
    | some d => .grid d.toNat
    | none => .grid 0 := by
  unfold vecDst
  cases hd : vDst i with
  | none => rfl
  | some d => exact fDst_grid (h d hd)

theorem srcAcc_inGrid {f : Option (BitVec 9)} (hf : InGrid f) (k : Nat) : srcAcc fo c k f = [] := by
  cases f with
  | none => rfl
  | some b => simp only [srcAcc, fAddr_grid (hf b rfl)]

/-- The address a field accesses, with the length and the alignment of a vector (R110). -/
def fieldAddrs (fo : Focus) (c : Core) (f : Option (BitVec 9)) (wr : Bool) : List (Nat × Nat × Nat) :=
  match f with
  | none => []
  | some b => match fAddr fo c b wr with
    | some a => [(a, 256, 4)]
    | none => []

theorem fieldAddrs_inGrid {f : Option (BitVec 9)} (hf : InGrid f) (wr : Bool) : fieldAddrs fo c f wr = [] := by
  cases f with
  | none => rfl
  | some b => simp only [fieldAddrs, fAddr_grid (hf b rfl)]

theorem vAddrs_eq : vAddrs fo c i = fieldAddrs fo c (vXYD i).1 false ++ fieldAddrs fo c (vXYD i).2.1 false ++
    fieldAddrs fo c (vXYD i).2.2 false ++ fieldAddrs fo c (vDst i) true := rfl

theorem vAddrs_gridOnly (h : gridOnly i = true) : vAddrs fo c i = [] := by
  obtain ⟨hx, hy, hd, hdst⟩ := gridOnly_inGrid h
  simp only [vAddrs_eq, fieldAddrs_inGrid hx, fieldAddrs_inGrid hy, fieldAddrs_inGrid hd, fieldAddrs_inGrid hdst,
    List.append_nil]

/-- The post-increment of a field (R265). -/
def fieldBump (fo : Focus) (c : Core) (f : Option (BitVec 9)) : List Eff :=
  match f with
  | none => []
  | some b => fBump fo c b

theorem fieldBump_inGrid {f : Option (BitVec 9)} (hf : InGrid f) : fieldBump fo c f = [] := by
  cases f with
  | none => rfl
  | some b => exact fBump_grid (hf b rfl)

theorem vBumps_eq : vBumps fo c i =
    fieldBump fo c (vXYD i).1 ++ fieldBump fo c (vXYD i).2.1 ++ fieldBump fo c (vDst i) := rfl

theorem vecBumped_gridOnly (h : gridOnly i = true) : vecBumped i fo c = c := by
  obtain ⟨hx, hy, -, hdst⟩ := gridOnly_inGrid h
  refine if_pos ?_
  simp only [vBumps_eq, fieldBump_inGrid hx, fieldBump_inGrid hy, fieldBump_inGrid hdst, List.append_nil]

/-! ### A flight without accesses -/

theorem writes_vec {fl : Flight} (hclass : classOf fl.ins = some .V) : writes fl = false := by
  unfold writes
  split
  · split
    case h_8 => rfl
    all_goals next hins => rw [hins] at hclass; cases hclass
  · rfl

/-- The effects of a V-class flight whose accesses have transferred. -/
def flightEffs (fl : Flight) (c : Core) : Flags × List Eff :=
  vecEffs c fl.ins fl.dst fl.pred (fl.vals.headD 0) fl.foc.jobt fl.foc.bundle fl.qs (fillVecs fl).vx (fillVecs fl).vy
    (fillVecs fl).vd

theorem complete_vec {fl : Flight} (hclass : classOf fl.ins = some .V) :
    complete fl c = (none, retireF fl fl.lat (flightEffs fl c).1 (flightEffs fl c).2 c) := by
  unfold complete
  extract_lets
  split
  case h_14 =>
    rw [if_neg (ne_true_of_eq_false (writes_vec hclass))]
    split
    case h_3 => rfl
    all_goals next hins => rw [hins] at hclass; cases hclass
  all_goals next hins => rw [hins] at hclass; cases hclass

theorem launch_vec {fl : Flight} (hclass : classOf fl.ins = some .V) (haccs : fl.accs = []) :
    launch fl c = retireF fl fl.lat (flightEffs fl c).1 (flightEffs fl c).2 c := by
  have hsame : { fl with accs := [] } = fl := by rw [← haccs]
  have hpump : pump fl c = complete fl c := by simp [pump, haccs, stepAccs, writes_vec hclass, hsame]
  rw [launch, hpump, complete_vec hclass]

/-- A V-class operation on grid operands, launched, is its result on its way (R47). -/
theorem launch_vFlight (hclass : classOf i = some .V) (hgrid : gridOnly i = true) :
    launch (vFlight i fo c (tapWord i fo c) (vecDst i fo c)) c =
      retire fo (gridAfter i fo) (gridEffs i fo c).1 (gridEffs i fo c).2 c := by
  obtain ⟨hx, hy, hd, hdst⟩ := gridOnly_inGrid hgrid
  have haccs : (vFlight i fo c (tapWord i fo c) (vecDst i fo c)).accs = [] := by
    simp only [vFlight, mkFlight, srcAcc_inGrid hx, srcAcc_inGrid hy, srcAcc_inGrid hd, List.append_nil]
  have heffs : flightEffs (vFlight i fo c (tapWord i fo c) (vecDst i fo c)) c = gridEffs i fo c := by
    rw [flightEffs, fillVecs, haccs, vecDst_inGrid hdst]
    rfl
  rw [launch_vec hclass haccs, heffs]
  exact retireF_eq_retire rfl ..

theorem opV_gridOnly (hclass : classOf i = some .V) (hgrid : gridOnly i = true) (hclear : vClear i fo c) :
    opV i fo c =
      vOccupy i (retire fo (gridAfter i fo) (gridEffs i fo c).1 (gridEffs i fo c).2 c) := by
  obtain ⟨hfree, htap, hroom⟩ := hclear
  have haddr : firstTrap fo c (vAddrs fo c i) = none := by rw [vAddrs_gridOnly hgrid, firstTrap]
  rw [opV_pass hfree (tapErr_eq_none htap) haddr hroom, vecBumped_gridOnly hgrid, launch_vFlight hclass hgrid]

end

end Sys2Proof.Machine

namespace Sys2Proof.Proofs

open Sys2Proof Sys2Proof.Machine

/-- Settles O23: the checks pass, and the operation's flight, which makes no access, is its result. -/
theorem vectorOperationsIssue : Obligations.VectorOperationsIssue :=
  fun _ _ _ hready hclass hnil hhold hgrid hclear =>
    exec_vec_ready hready hclass hnil hhold (opV_gridOnly hclass hgrid hclear)

/-- Settles O24, check by check. -/
theorem vectorOperationsFromStorage : Obligations.VectorOperationsFromStorage := by
  intro i s c hready hclass hnil hhold
  have hexec {d : Core} (hop : opV i s.focus c = d) : exec i s = .next (s.withCore d) :=
    exec_vec_ready hready hclass hnil hhold hop
  refine ⟨fun hbusy => hexec (opV_busy hbusy),
    fun hfree e htap hcheck => hexec (opV_tapErr hfree ((if_pos htap).trans hcheck)), fun hfree htap => ?_⟩
  have hpass := tapErr_eq_none htap
  exact ⟨fun _ _ haddr => hexec (opV_addrTrap hfree hpass haddr), fun haddr =>
    ⟨fun hfull => hexec (opV_full hfree hpass haddr hfull), fun hroom => hexec (opV_pass hfree hpass haddr hroom)⟩⟩

/-- Settles O25: the trap's record, its restore and the shadow are what taking it in the primary makes of the core. -/
theorem unitBusyTrap : Obligations.UnitBusyTrap := by
  intro i s c hready hclass hnil hhold hprim hslot hoccupied
  have htrap : takeTrap s.focus cUNITBUSY 0 c = primTrap 0x15 4 s.focus.bundle 0 s.focus.jobt c := by
    rw [takeTrap_prim hprim, hslot]
    rfl
  have hop := (opV_busy (vBusy_of_occupied hslot hoccupied)).trans htrap
  exact ⟨_, exec_vec_ready hready hclass hnil hhold hop, rfl, rfl, rfl, rfl, rfl⟩

end Sys2Proof.Proofs
end

section
/-! PROOFS. The lanes of V-class results (R262 to R271, R273 to R276, R279): operations on 32-bit elements, lane by
lane (O26, O27, O28, O29). -/

namespace Sys2Proof.Machine

/-! ### Vectors of 32-bit elements (R194) -/

theorem etWidth_word : etWidth 5 = 32 := rfl

/-- A vector's elements of 32 bits are its lanes. -/
theorem elems_lanes (v : Vec) : elems 32 v = v.map BitVec.toNat := by
  rw [elems, ← List.flatMap_pure_eq_map]
  exact List.flatMap_congr fun l _ => by simpa using l.isLt

theorem packLanes_lanes {n : Nat} {es : List Nat} (hn : es.length = n) :
    packLanes 32 n es = es.map (BitVec.ofNat 32) := by
  induction n generalizing es with
  | zero => simp [packLanes, List.length_eq_zero_iff.1 hn]
  | succ n ih =>
    obtain ⟨e, es, rfl⟩ := List.exists_cons_of_length_eq_add_one hn
    have hlane : BitVec.ofNat 32 (packLane 32 [e]) = BitVec.ofNat 32 e :=
      BitVec.eq_of_toNat_eq (by simp [packLane])
    exact congrArg₂ List.cons hlane (ih (Nat.succ.inj hn))

/-- A vector and its flags from 64 results of 32 bits. -/
theorem packRes_lanes {l : List (Nat × Flags)} (hl : l.length = 64) :
    packRes 32 l = (l.map (fun e => BitVec.ofNat 32 e.1), orFlags l) := by
  rw [packRes, packVec, packLanes_lanes (by simpa using hl), List.map_map]
  rfl

/-- Results of which none has a flag. -/
theorem orFlags_eq_zero {l : List (Nat × Flags)} (h : ∀ e ∈ l, e.2 = 0) : orFlags l = 0 :=
  List.foldlRecOn (motive := fun u : Flags => u = 0) l _ rfl fun u hu e he => by rw [hu, h e he]; rfl

/-- 64 results of 32 bits without a flag. -/
theorem packRes_plain {v : Vec} (hv : v.length = 64) : packRes 32 (v.map (fun a => (a.toNat, 0))) = (v, 0) := by
  rw [packRes_lanes (by simpa using hv), orFlags_eq_zero (by simp), List.map_map]
  simp [Function.comp_def]

section
variable {x y z : Vec}

theorem vMap1_lanes (hx : x.length = 64) (f : Nat → Nat × Flags) :
    vMap1 32 f x = ((x.map (fun a => f a.toNat)).map (fun e => BitVec.ofNat 32 e.1),
      orFlags (x.map (fun a => f a.toNat))) := by
  rw [vMap1, elems_lanes, List.map_map]
  exact packRes_lanes (by simpa using hx)

theorem vMap2_lanes (hx : x.length = 64) (hy : y.length = 64) (f : Nat → Nat → Nat × Flags) :
    vMap2 32 f x y = ((List.zipWith (fun a b => f a.toNat b.toNat) x y).map (fun e => BitVec.ofNat 32 e.1),
      orFlags (List.zipWith (fun a b => f a.toNat b.toNat) x y)) := by
  rw [vMap2, elems_lanes, elems_lanes, List.zipWith_map]
  exact packRes_lanes (by simp [hx, hy])

/-! ### Operations whose elements are words without flags -/

theorem vMap1_plain (hx : x.length = 64) {f : Nat → Nat × Flags} {g : Lane → Lane}
    (hf : ∀ a : Lane, f a.toNat = ((g a).toNat, 0)) : vMap1 32 f x = (x.map g, 0) := by
  rw [vMap1, elems_lanes, List.map_map, Function.comp_def]
  simp only [hf]
  rw [← packRes_plain (v := x.map g) (by simpa using hx), List.map_map]
  rfl

theorem vMap2_plain (hx : x.length = 64) (hy : y.length = 64) {f : Nat → Nat → Nat × Flags} {g : Lane → Lane → Lane}
    (hf : ∀ a b : Lane, f a.toNat b.toNat = ((g a b).toNat, 0)) : vMap2 32 f x y = (List.zipWith g x y, 0) := by
  rw [vMap2, elems_lanes, elems_lanes, List.zipWith_map]
  simp only [hf]
  rw [← packRes_plain (v := List.zipWith g x y) (by simp [hx, hy]), List.map_zipWith]

theorem vMap3_plain (hx : x.length = 64) (hy : y.length = 64) (hz : z.length = 64) {f : Nat → Nat → Nat → Nat × Flags}
    {g : Lane → Lane → Lane → Lane} (hf : ∀ a b c : Lane, f a.toNat b.toNat c.toNat = ((g a b c).toNat, 0)) :
    vMap3 32 f x y z = (List.zipWith (fun c e => g e.1 e.2 c) z (List.zip x y), 0) := by
  have hlanes : List.zipWith (fun h c => h c) (List.zipWith f (elems 32 x) (elems 32 y)) (elems 32 z) =
      (List.zipWith (fun c e => g e.1 e.2 c) z (List.zip x y)).map (fun a => (a.toNat, 0)) := by
    refine List.ext_getElem (by simp [elems_lanes, hx, hy, hz]) fun i _ _ => ?_
    simp [elems_lanes, hf]
  rw [vMap3, hlanes]
  exact packRes_plain (by simp [hx, hy, hz])

end

/-! ### Elements as signed numbers (R193, R266, R270, R271) -/

/-- An integer modulo 2^32, as a lane. -/
theorem wrapN_lane (i : Int) : wrapN 32 i = (BitVec.ofInt 32 i).toNat := (BitVec.toNat_ofInt ..).symm

theorem ofInt_toInt_ite {p : Prop} [Decidable p] (a b : Lane) :
    (if p then b else a) = BitVec.ofInt 32 (if p then b.toInt else a.toInt) := by
  rw [apply_ite (BitVec.ofInt 32), BitVec.ofInt_toInt, BitVec.ofInt_toInt]

section
variable (a b c : Lane)

theorem intOp2_lanes (f : Int → Int → Int) :
    intOp2 32 f a.toNat b.toNat = ((BitVec.ofInt 32 (f a.toInt b.toInt)).toNat, 0) := by
  rw [intOp2, sext_toNat, sext_toNat, wrapN_lane]
  rfl

theorem elFma_lanes : elFma 5 false a.toNat b.toNat c.toNat =
    ((BitVec.ofInt 32 (c.toInt + a.toInt * b.toInt)).toNat, 0) := by
  rw [← wrapN_lane, ← sext_toNat, ← sext_toNat, ← sext_toNat]
  rfl

theorem elFms_lanes : elFma 5 true a.toNat b.toNat c.toNat =
    ((BitVec.ofInt 32 (c.toInt - a.toInt * b.toInt)).toNat, 0) := by
  rw [← wrapN_lane, ← sext_toNat, ← sext_toNat, ← sext_toNat]
  rfl

theorem elMin_lanes : elMin 5 false a.toNat b.toNat = ((BitVec.ofInt 32 (min a.toInt b.toInt)).toNat, 0) := by
  rw [min_comm, min_def_lt, ← ofInt_toInt_ite, ← sext_toNat a, ← sext_toNat b, apply_ite BitVec.toNat]
  rfl

theorem elMax_lanes : elMax 5 false a.toNat b.toNat = ((BitVec.ofInt 32 (max a.toInt b.toInt)).toNat, 0) := by
  rw [max_def_lt, ← ofInt_toInt_ite, ← sext_toNat a, ← sext_toNat b, apply_ite BitVec.toNat]
  rfl

/-- VCLAMP of one element `c`, between `a` and `b` (R270). -/
def elClamp (a b c : Nat) : Nat × Flags := elMin 5 false (elMax 5 false a c).1 b

theorem elClamp_lanes : elClamp a.toNat b.toNat c.toNat =
    ((BitVec.ofInt 32 (min (max a.toInt c.toInt) b.toInt)).toNat, 0) := by
  have hmax : (BitVec.ofInt 32 (max a.toInt c.toInt)).toInt = max a.toInt c.toInt := by
    rcases max_choice a.toInt c.toInt with h | h <;> rw [h, BitVec.ofInt_toInt]
  rw [elClamp, elMax_lanes, elMin_lanes, hmax]

theorem elAbs_lanes : elAbs 5 a.toNat = ((BitVec.ofInt 32 a.toInt.natAbs).toNat, 0) := by
  have habs : (a.toInt.natAbs : Int) = if a.toInt < 0 then -a.toInt else a.toInt := by
    split <;> omega
  rw [← wrapN_lane, habs, ← sext_toNat]
  rfl

theorem elNeg_lanes : elNeg 5 a.toNat = ((BitVec.ofInt 32 (-a.toInt)).toNat, 0) := by
  rw [← wrapN_lane, ← sext_toNat]
  rfl

theorem elShl_lanes : elShl 32 a.toNat b.toNat = ((a <<< (b.toNat % 32)).toNat, 0) := by
  rw [elShl, BitVec.toNat_shiftLeft, Nat.shiftLeft_eq]
  rfl

theorem elShr_lanes : elShr 32 a.toNat b.toNat = ((a >>> (b.toNat % 32)).toNat, 0) := by
  rw [elShr, BitVec.toNat_ushiftRight, Nat.shiftRight_eq_div_pow]
  rfl

theorem elSar_lanes : elSar 32 a.toNat b.toNat = ((a.sshiftRight (b.toNat % 32)).toNat, 0) := by
  rw [elSar, sext_toNat, wrapN_lane, Int.fdiv_eq_ediv_of_nonneg _ (Int.natCast_nonneg _), BitVec.sshiftRight_eq,
    Int.shiftRight_eq_div_pow]
  rfl

end

/-! ### Operations on whole lanes (R268, R271, R279) -/

section
variable {x y : Vec}

theorem lane_eq_getElem {i : Nat} (hi : i < x.length) : lane x i = x[i] := List.getD_eq_getElem _ _ hi

theorem vBit_lanes (hx : x.length = 64) (hy : y.length = 64) (f : Lane → Lane → Lane) :
    vBit f x y = List.zipWith f x y := by
  refine List.ext_getElem (by simp [vBit, hx, hy]) fun i hi _ => ?_
  have hi : i < 64 := by simpa [vBit] using hi
  simp [vBit, lane_eq_getElem (hi.trans_eq hx.symm), lane_eq_getElem (hi.trans_eq hy.symm)]

/-- The lane numbers are short of 2^32. -/
theorem viotaVec_lanes : viotaVec 5 = (List.range 64).map (fun e => BitVec.ofNat 32 e) := by
  have hcount : 64 * (32 / etWidth 5) = 64 := rfl
  rw [viotaVec, hcount, packVec, etWidth_word, packLanes_lanes (by simp), List.map_map]
  exact List.map_congr_left fun e _ => BitVec.eq_of_toNat_eq (Nat.mod_mod ..)

theorem getD_vselVec (m : Word) {i : Nat} (hi : i < 64) :
    (vselVec m x y).getD i 0 = if m.getLsbD i then x.getD i 0 else y.getD i 0 := by
  simp [vselVec, lane, hi]

theorem vselVec_allOnes (hx : x.length = 64) : vselVec (BitVec.allOnes 64) x y = x := by
  refine List.ext_getElem (by simp [vselVec, hx]) fun i hi hix => ?_
  have hbit : (BitVec.allOnes 64).getLsbD i = true :=
    (BitVec.getLsbD_allOnes ..).trans (decide_eq_true (hix.trans_eq hx))
  simp only [vselVec, List.getElem_map, List.getElem_range, if_pos hbit, lane_eq_getElem hix]

end

/-! ### VCMP (R94, R267) -/

theorem testBit_boolsToNat (l : List Bool) (i : Nat) : (boolsToNat l).testBit i = l.getD i false := by
  induction l generalizing i with
  | nil => simp [boolsToNat]
  | cons b l ih =>
    cases i with
    | zero => cases b <;> simp [boolsToNat, b2n, Nat.testBit_zero]
    | succ i =>
      rw [List.getD_cons_succ, ← ih, boolsToNat, Nat.testBit_succ]
      have hb : b2n b < 2 := by cases b <;> decide
      congr 1
      omega

/-- The relation a condition code below UN names (R94). -/
theorem intRel_code {k : BitVec 3} (hk : k.toNat < 6) (u z : Int) : intRel k.toNat u z =
    if k = 0 then decide (u = z) else if k = 1 then decide (u ≠ z) else if k = 2 then decide (u < z)
    else if k = 3 then decide (u ≤ z) else if k = 4 then decide (z < u) else decide (z ≤ u) := by
  have hcodes : k = 0 ∨ k = 1 ∨ k = 2 ∨ k = 3 ∨ k = 4 ∨ k = 5 := by bv_omega
  rcases hcodes with rfl | rfl | rfl | rfl | rfl | rfl <;> rfl

/-- The reading of a 32-bit element, as a natural or as a signed number (R193). -/
theorem intVal_lane (n : Bool) (a : Lane) : intVal 32 (!n) a.toNat = if n then (a.toNat : Int) else a.toInt := by
  cases n
  · exact sext_toNat a
  · exact congrArg Nat.cast (Nat.mod_eq_of_lt a.isLt)

theorem elRel_lane (n : Bool) (k : Nat) (a b : Lane) :
    elRel 5 n k a.toNat b.toNat = intRel k (if n then a.toNat else a.toInt) (if n then b.toNat else b.toInt) := by
  rw [← intVal_lane, ← intVal_lane]
  rfl

theorem getLsbD_vcmpBits (n : Bool) (k : Nat) (m : Word) (x y : Vec) {i : Nat} (hi : i < 64) :
    (vcmpBits 5 n k m x y).getLsbD i = (m.getLsbD i && elRel 5 n k (lane x i).toNat (lane y i).toNat) := by
  rw [vcmpBits, BitVec.getLsbD_ofNat, testBit_boolsToNat]
  simp [hi, etWidth_word, elems_lanes]

end Sys2Proof.Machine

namespace Sys2Proof.Proofs

open Sys2Proof Sys2Proof.Machine

/-- Settles O26: each operation by what it makes of the elements of one lane. -/
theorem wordLaneResults : Obligations.WordLaneResults := by
  intro p d x y l m vx vy vd hx hy hd z l2
  have one {f : Nat → Nat × Flags} {g : Lane → Lane} (h : ∀ a : Lane, f a.toNat = ((g a).toNat, 0)) :
      some (vMap1 32 f vx, m) = some ((vx.map g, 0), m) := by rw [vMap1_plain hx h]
  have two {f : Nat → Nat → Nat × Flags} {g : Lane → Lane → Lane}
      (h : ∀ a b : Lane, f a.toNat b.toNat = ((g a b).toNat, 0)) : some (vMap2 32 f vx vy, m) = l2 g := by
    rw [vMap2_plain hx hy h]
  have three {f : Nat → Nat → Nat → Nat × Flags} {g : Lane → Lane → Lane → Lane}
      (h : ∀ a b c : Lane, f a.toNat b.toNat c.toNat = ((g a b c).toNat, 0)) : some (vMap3 32 f vx vy vd, m) =
        some ((List.zipWith (fun c (e : Lane × Lane) => g e.1 e.2 c) vd (List.zip vx vy), 0), m) := by
    rw [vMap3_plain hx hy hd h]
  have bitwise (f : Lane → Lane → Lane) : some (noFl (vBit f vx vy), m) = l2 f := by rw [vBit_lanes hx hy]; rfl
  refine ⟨two fun _ _ => intOp2_lanes .., two fun _ _ => intOp2_lanes .., two fun _ _ => intOp2_lanes ..,
    two elMin_lanes, two elMax_lanes, two elShl_lanes, two elShr_lanes, two elSar_lanes,
    bitwise _, bitwise _, bitwise _, three elFma_lanes, three elFms_lanes, three elClamp_lanes,
    one elAbs_lanes, one elNeg_lanes, rfl, ?bc, ?iota⟩
  case bc => rw [List.map_const', hx]; rfl
  case iota => rw [← viotaVec_lanes]; rfl

/-- Settles O27: the elements are the lanes, and the flags of all of them are joined. -/
theorem floatLaneResults : Obligations.FloatLaneResults := by
  intro p d x y m vx vy vd hx hy l2 l1
  have two (f : Nat → Nat → Nat × Flags) : some (vMap2 32 f vx vy, m) = l2 f := by rw [vMap2_lanes hx hy]; rfl
  have one (f : Nat → Nat × Flags) : some (vMap1 32 f vx, m) = l1 f := by rw [vMap1_lanes hx]; rfl
  exact ⟨two _, two _, two _, two _, two _, one _, one _, one _, one _, one _⟩

/-- Settles O28, bit by bit of the predicate; p0 has them all set. -/
theorem selectCopiesLanes : Obligations.SelectCopiesLanes := by
  intro p d x y m vx vy _ hx _
  refine ⟨vselVec m vx vy, rfl, by simp [vselVec], fun i hi => getD_vselVec m hi, fun c hm => ?_⟩
  rw [hm, rdP_zero, vselVec_allOnes hx]

/-- Settles O29: a bit of the predicate is the relation of its one element pair, and p0 is not written. -/
theorem compareWritesPredicate : Obligations.CompareWritesPredicate := by
  refine ⟨fun _ _ _ _ _ _ _ _ m _ _ _ _ vx vy _ hcode => ⟨_, rfl, fun i hi => ?_⟩, fun e c v q => ?_,
    fun e c v q hq => ?_⟩
  · refine (getLsbD_vcmpBits _ _ m vx vy hi).trans ?_
    rw [elRel_lane, intRel_code hcode]
    simp only [decide_eq_true_eq]
    rfl
  · rw [rdP_landEff_preg, if_neg fun h => h.2 rfl]
  · rw [rdP_landEff_preg, if_pos ⟨rfl, hq⟩]

end Sys2Proof.Proofs
end

end

section
/- As above, the proofs are elaborated one after the other, for the sake of the check's memory. -/
set_option deprecated.oldSectionVars true

section
/-! PROOFS. The lane of the sort and sample unit (R301): what taking it leaves as it was, and the operations of the unit
with it. -/

namespace Sys2Proof.Machine

section
variable {i : Instr} {fo : Focus} {c : Core}

/-! ### What the lane's taking leaves (R301) -/

/-- A helper is as before, but for its lane. -/
theorem helper_laneTake (k : Nat) : ∃ n, (laneTake i fo c).helper k = { c.helper k with kBusy := n } := by
  unfold laneTake
  split
  · next h _ =>
    rw [Laws.helper_setHelper]
    split
    · next hk => exact ⟨kOcc i, by rw [hk.1]⟩
    · exact ⟨(c.helper k).kBusy, rfl⟩
  · exact ⟨(c.helper k).kBusy, rfl⟩

@[simp] theorem helper_laneTake_x (k : Nat) : ((laneTake i fo c).helper k).x = (c.helper k).x := by
  obtain ⟨n, hn⟩ := helper_laneTake (i := i) (fo := fo) (c := c) k
  rw [hn]

@[simp] theorem helper_laneTake_gram (k : Nat) : ((laneTake i fo c).helper k).gram = (c.helper k).gram := by
  obtain ⟨n, hn⟩ := helper_laneTake (i := i) (fo := fo) (c := c) k
  rw [hn]

@[simp] theorem helper_laneTake_mask (k : Nat) : ((laneTake i fo c).helper k).mask = (c.helper k).mask := by
  obtain ⟨n, hn⟩ := helper_laneTake (i := i) (fo := fo) (c := c) k
  rw [hn]

/-- The primary is as before, but for its lane. -/
theorem p_laneTake : ∃ n, (laneTake i fo c).p = { c.p with kBusy := n } := by
  unfold laneTake
  split
  · exact ⟨c.p.kBusy, rfl⟩
  · exact ⟨kOcc i, rfl⟩

@[simp] theorem laneTake_lists : (laneTake i fo c).lists = c.lists := by
  unfold laneTake
  split <;> rfl

@[simp] theorem laneTake_ktrap : (laneTake i fo c).ktrap = c.ktrap := by
  unfold laneTake
  split <;> rfl

@[simp] theorem laneTake_mcache : (laneTake i fo c).mcache = c.mcache := by
  unfold laneTake
  split <;> rfl

@[simp] theorem rdA_laneTake (r : Nat) : rdA fo (laneTake i fo c) r = rdA fo c r := by
  obtain ⟨n, hp⟩ := p_laneTake (i := i) (fo := fo) (c := c)
  simp only [rdA, helper_laneTake_x, hp]

@[simp] theorem rdGrid_laneTake (g : Nat) : rdGrid (laneTake i fo c) g = rdGrid c g := by
  obtain ⟨n, hp⟩ := p_laneTake (i := i) (fo := fo) (c := c)
  simp only [rdGrid, hp]

@[simp] theorem gramOf_laneTake : gramOf fo (laneTake i fo c) = gramOf fo c := by
  obtain ⟨n, hp⟩ := p_laneTake (i := i) (fo := fo) (c := c)
  simp only [gramOf, helper_laneTake_gram, hp]

@[simp] theorem maskOf_laneTake : maskOf fo (laneTake i fo c) = maskOf fo c := by
  obtain ⟨n, hp⟩ := p_laneTake (i := i) (fo := fo) (c := c)
  simp only [maskOf, helper_laneTake_mask, hp]

@[simp] theorem addrTrap_laneTake (a n al : Nat) : addrTrap fo (laneTake i fo c) a n al = addrTrap fo c a n al := by
  unfold laneTake
  split <;> rfl

@[simp] theorem ordOf_laneTake : ordOf fo (laneTake i fo c) = ordOf fo c := by
  unfold laneTake
  split <;> rfl

@[simp] theorem storeUse_laneTake : (laneTake i fo c).storeUse = c.storeUse := by
  unfold laneTake
  split <;> rfl

@[simp] theorem fits_laneTake (w : Wh) : fits (laneTake i fo c) w = fits c w := by
  unfold laneTake
  split <;> rfl

@[simp] theorem sampOf_laneTake (r : BitVec 3) (g : BitVec 8) (p : BitVec 2) :
    sampOf r g p (laneTake i fo c) = sampOf r g p c := by
  unfold laneTake
  split <;> rfl

@[simp] theorem treeTakes_laneTake (s : State) (w : Nat) : s.treeTakes (laneTake i fo c) w = s.treeTakes c w := by
  unfold laneTake
  split <;> rfl

/-! ### An operation with its lane -/

theorem laneFree_prim (hfo : ofPrim fo) : laneFree fo c ↔ c.p.kBusy = 0 := by
  simp [laneFree, (hfo : fo.ctx = .prim)]

theorem laneFree_helper {h : Nat} (hfo : ofHelper fo h) : laneFree fo c := by
  simp [laneFree, (hfo : fo.ctx = .helper h)]

theorem kLane_free {f : Core → Core} (hfree : laneFree fo c) : kLane i fo f c = f (laneTake i fo c) := by
  cases hctx : fo.ctx with
  | helper h => simp only [kLane, laneTake, hctx]
  | prim | gate =>
    have hzero : c.p.kBusy = 0 := by simpa [laneFree, hctx] using hfree
    simp [kLane, laneTake, hctx, hzero]

theorem kLane_busy {f : Core → Core} (hfo : ofPrim fo) (hbusy : 0 < c.p.kBusy) :
    kLane i fo f c = takeTrap fo cUNITBUSY 0 c := by
  simp only [kLane, (hfo : fo.ctx = .prim), if_pos hbusy]

/-- An operation of the unit with its lane free takes the lane, and does with it what it does. -/
theorem doesWhen_of_lane {P : Focus → Core → Prop} {f g : Focus → Core → Core}
    (hexec : ∀ s, exec i s = onCore i (fun fo => kLane i fo (f fo)) s)
    (hf : ∀ fo c, P fo c → laneFree fo c ∧ f fo (laneTake i fo c) = g fo c) : DoesWhen i P g :=
  doesWhen_of_onCore hexec fun fo c hP => (kLane_free (hf fo c hP).1).trans (hf fo c hP).2

/-- The primary's lane occupied, whatever the operation. -/
theorem doesWhen_of_laneBusy {f : Focus → Core → Core}
    (hexec : ∀ s, exec i s = onCore i (fun fo => kLane i fo (f fo)) s) :
    DoesWhen i (fun fo c => ofPrim fo ∧ 0 < c.p.kBusy) fun fo c => takeTrap fo cUNITBUSY 0 c :=
  doesWhen_of_onCore hexec fun _ _ ⟨hfo, hbusy⟩ => kLane_busy hfo hbusy

end

end Sys2Proof.Machine
end

section
/-! PROOFS. The operations of the sort and sample unit (R302, R304 to R318), each by its checks (O31). -/

namespace Sys2Proof.Machine

section
variable {ins : Instr} {fo : Focus} {c : Core} {r k : BitVec 3} {g : BitVec 8} {a : BitVec 4} {p : BitVec 2}

/-! ### Lists (R306, R307, R310) -/

theorem opKmergel_plain : opKmergel r g a 0 fo c = retire fo (6 + (fo.beats - 1)) 0
    [.list r.toNat (.merge (List.zip (rdGrid c g.toNat)
      ((List.range 64).map (fun i => rdA fo c a.toNat + BitVec.ofNat 32 i))))]
    (retire fo 1 0 [effA fo a.toNat (rdA fo c a.toNat + 64)] c) := rfl

theorem opKmergel_masked (hvalid : (maskOf fo c).valid = true) : opKmergel r g a 1 fo c = retire fo (6 + (fo.beats - 1)) 0
    [.list r.toNat (.merge ((List.zip (rdGrid c g.toNat)
      ((List.range 64).map (fun i => rdA fo c a.toNat + BitVec.ofNat 32 i))).filter
        (fun e => maskPass (maskOf fo c) e.2.toNat)))]
    (retire fo 1 0 [effA fo a.toNat (rdA fo c a.toNat + 64)] c) := by
  simp only [opKmergel, hvalid, beatAdd]
  rfl

theorem opKmergel_noMask (hvalid : (maskOf fo c).valid = false) :
    opKmergel r g a 1 fo c = takeTrap fo cGRAMNOMASK 0 c := by
  simp [opKmergel, hvalid]

theorem opKmerge_pass {m : BitVec 1} (haddr : addrTrap fo c (rdA fo c a.toNat).toNat 256 4 = none)
    (hvalid : m = 1 → (maskOf fo c).valid = true) :
    opKmerge ins g a m fo c =
      launch { mkFlight ins fo c [mkAcc 0 (rdA fo c a.toNat).toNat 256] (6 + (fo.beats - 1)) with
          vx := rdGrid c g.toNat, mreg := if m = 1 then some (maskOf fo c) else none }
        (retire fo 1 0 [effA fo a.toNat (rdA fo c a.toNat + 256)] c) := by
  have hpass : ¬(m = 1 && !(maskOf fo c).valid) = true := by simpa using hvalid
  simp only [opKmerge, ptrAddr, if_neg hpass, haddr, beatAdd]

theorem opKmerge_noMask (hvalid : (maskOf fo c).valid = false) :
    opKmerge ins g a 1 fo c = takeTrap fo cGRAMNOMASK 0 c := by
  simp [opKmerge, hvalid]

theorem opKmask_valid (hvalid : (maskOf fo c).valid = true) :
    opKmask r fo c = retire fo 4 0 [.list r.toNat (.mask (maskOf fo c))] c := if_pos hvalid

/-- A route word without reserved bits names a tree and a node (R310). -/
theorem opKsend_sends (hlt : (rdA fo c a.toNat).toNat < 2 ^ 16) :
    opKsend r a fo c = emit fo (.ksend ((rdA fo c a.toNat).toNat % 256) ((rdA fo c a.toNat).toNat / 256)
      (spGet candList0 c.lists r.toNat)) c := by
  have htop : bits (rdA fo c a.toNat).toNat 31 16 = 0 := by
    unfold bits
    omega
  have htree : bits (rdA fo c a.toNat).toNat 7 0 = (rdA fo c a.toNat).toNat % 256 := by
    unfold bits
    omega
  have hnode : bits (rdA fo c a.toNat).toNat 15 8 = (rdA fo c a.toNat).toNat / 256 := by
    unfold bits
    omega
  simp only [opKsend, htop, htree, hnode, ne_eq, not_true_eq_false, if_false]

theorem opKsend_reserved (hge : 2 ^ 16 ≤ (rdA fo c a.toNat).toNat) : opKsend r a fo c = takeTrap fo cPOSTTARGET 0 c := by
  have htop : bits (rdA fo c a.toNat).toNat 31 16 ≠ 0 := by
    have := (rdA fo c a.toNat).isLt
    unfold bits
    omega
  exact if_pos htop

/-- KSEND with its core: the lane first, then the trees of the part are asked about the route word (R301, R411). -/
theorem exec_ksend {s : State} (hready : Ready (.ksend r a) s c) :
    exec (.ksend r a) s = .next (s.withCore (kLane (.ksend r a) s.focus (fun d =>
      if s.treeTakes d (rdA s.focus d a.toNat).toNat then opKsend r a s.focus d else takeTrap s.focus cPOSTTARGET 0 d) c)) :=
  Laws.onState_ready (f := fun fo k => s.setCore fo.core (kLane (.ksend r a) fo (fun d =>
    if s.treeTakes d (rdA fo d a.toNat).toNat then opKsend r a fo d else takeTrap fo cPOSTTARGET 0 d) k)) hready

theorem exec_ksend_takes {s : State} (hready : Ready (.ksend r a) s c) (hfree : laneFree s.focus c)
    (htakes : s.treeTakes c (rdA s.focus c a.toNat).toNat = true) :
    exec (.ksend r a) s = .next (s.withCore (opKsend r a s.focus (laneTake (.ksend r a) s.focus c))) := by
  rw [exec_ksend hready, kLane_free hfree, rdA_laneTake, treeTakes_laneTake, if_pos htakes]

theorem exec_ksend_refused {s : State} (hready : Ready (.ksend r a) s c) (hfree : laneFree s.focus c)
    (htakes : s.treeTakes c (rdA s.focus c a.toNat).toNat = false) :
    exec (.ksend r a) s = .next (s.withCore (takeTrap s.focus cPOSTTARGET 0 (laneTake (.ksend r a) s.focus c))) := by
  rw [exec_ksend hready, kLane_free hfree, rdA_laneTake, treeTakes_laneTake, if_neg (ne_true_of_eq_false htakes)]

theorem ksend_busy : DoesWhen (.ksend r a) (fun fo c => ofPrim fo ∧ 0 < c.p.kBusy) fun fo c => takeTrap fo cUNITBUSY 0 c :=
  fun s c hready ⟨hfo, hbusy⟩ => by rw [exec_ksend hready, kLane_busy hfo hbusy]

/-! ### Sampling (R311 to R313) -/

theorem opKsamp_prim (hfo : ofPrim fo) (haddr : addrTrap fo c (rdA fo c a.toNat).toNat 8 8 = none)
    (hktrap : c.ktrap = false) (hroom : c.storeUse < 256) :
    opKsamp ins r g a p fo c = retire fo (12 + (fo.beats - 1)) 0
      [.withhold (.store (rdA fo c a.toNat).toNat (leBytes 8 (sampRec (sampOf r g p c)))),
        .kstat (sampOf r g p c).nan (sampOf r g p c).held (sampOf r g p c).empty (sampOf r g p c).badt] c := by
  have hctx : fo.ctx = .prim := hfo
  have hfits : ¬256 < c.storeUse + 1 := Nat.not_lt.2 hroom
  simp only [opKsamp, ptrAddr, haddr, hktrap, Bool.and_false, Bool.false_eq_true, if_false, hctx, if_neg hfits, beatAdd]

theorem opKsamp_helper {h : Nat} (hfo : ofHelper fo h) (haddr : addrTrap fo c (rdA fo c a.toNat).toNat 8 8 = none)
    (hktrap : c.ktrap = false) :
    opKsamp ins r g a p fo c = addFlight { mkFlight ins fo c [mkAcc 0 (rdA fo c a.toNat).toNat 8] 1 with
      vals := [wN (rdA fo c a.toNat).toNat], data := leBytes 8 (sampRec (sampOf r g p c)), delay := 11 + (fo.beats - 1),
      fin := [.kstat (sampOf r g p c).nan (sampOf r g p c).held (sampOf r g p c).empty (sampOf r g p c).badt] } c := by
  have hctx : fo.ctx = .helper h := hfo
  simp only [opKsamp, ptrAddr, haddr, hktrap, Bool.and_false, Bool.false_eq_true, if_false, hctx, beatAdd, wN]

theorem opKsamp_empty (haddr : addrTrap fo c (rdA fo c a.toNat).toNat 8 8 = none) (hktrap : c.ktrap = true)
    (hempty : (sampOf r g p c).empty = true) : opKsamp ins r g a p fo c = takeTrap fo cKSAMPEMPTY 0 c := by
  simp only [opKsamp, ptrAddr, haddr, hktrap, hempty, Bool.and_self, if_true]

/-! ### Grammar automata (R314, R316 to R318) -/

theorem opGsetRead_pass (haddr : addrTrap fo c (rdA fo c a.toNat).toNat 64 64 = none) :
    opGsetRead ins a fo c = launch (mkFlight ins fo c [mkAcc 0 (rdA fo c a.toNat).toNat 64] 3) c := by
  simp only [opGsetRead, ptrAddr, haddr]

theorem opGsetSt_prim (hfo : ofPrim fo) (haddr : addrTrap fo c (rdA fo c a.toNat).toNat 64 64 = none)
    (hroom : c.storeUse < 256) :
    opGsetSt ins a fo c = retire fo 1 0 [.withhold (.store (rdA fo c a.toNat).toNat (gramImage (gramOf fo c)))] c := by
  have hctx : fo.ctx = .prim := hfo
  have hfits : ¬256 < c.storeUse + 1 := Nat.not_lt.2 hroom
  simp only [opGsetSt, ptrAddr, haddr, hctx, if_neg hfits]

theorem opGsetSt_helper {h : Nat} (hfo : ofHelper fo h) (haddr : addrTrap fo c (rdA fo c a.toNat).toNat 64 64 = none) :
    opGsetSt ins a fo c = launch { mkFlight ins fo c [mkAcc 0 (rdA fo c a.toNat).toNat 64] 1 with
      vals := [wN (rdA fo c a.toNat).toNat], data := gramImage (gramOf fo c) } c := by
  have hctx : fo.ctx = .helper h := hfo
  simp only [opGsetSt, ptrAddr, haddr, hctx, wN]

theorem opGstep_reserved (hge : 0xFFFFFFFE ≤ (rdA fo c a.toNat).toNat) :
    opGstep ins a fo c = retire fo 5 0 [.gramNone] c := if_pos hge

theorem opGstep_pass (hvalid : (gramOf fo c).valid = true)
    (hin : (rdA fo c a.toNat).toNat < 512 * ((gramOf fo c).nchunk + 1)) (hlt : (rdA fo c a.toNat).toNat < 0xFFFFFFFE) :
    opGstep ins a fo c =
      launch { mkFlight ins fo c [mkAcc 0 ((gramOf fo c).tcls + (rdA fo c a.toNat).toNat) 1] 5 with gr := gramOf fo c } c := by
  simp only [opGstep, if_neg (Nat.not_le.2 hlt), if_neg (Nat.not_le.2 hin), hvalid, Bool.not_true, Bool.false_eq_true,
    if_false]

/-- What a cached mask of chunk `k` is found by: mask table, state, top of the stack, chunk (R317). -/
def maskKey (gr : Gram) (k : BitVec 3) : Nat × Nat × Nat × Nat := (gr.mask, gr.state, gramTop gr, k.toNat)

/-- Where the number of the mask row for the automaton's state and top of the stack stands (R317). -/
def maskRowAddr (gr : Gram) : Nat := gr.mrow + 2 * (gr.state * gr.nsym + gramTop gr)

theorem opGmask_miss (hvalid : (gramOf fo c).valid = true) (hk : k.toNat ≤ (gramOf fo c).nchunk)
    (hmiss : c.mcache.find? (fun e => e.1 = maskKey (gramOf fo c) k) = none) :
    opGmask ins k fo c =
      addFlight { mkFlight ins fo c [mkAcc 0 (maskRowAddr (gramOf fo c)) 2] 6 with delay := 1, gr := gramOf fo c } c := by
  have hpass : ¬(!(gramOf fo c).valid || (gramOf fo c).nchunk < k.toNat) = true := by simpa [hvalid] using hk
  rw [maskKey] at hmiss
  simp only [opGmask, if_neg hpass, hmiss]
  rfl

theorem opGmask_hit {row : Nat} {b : BitVec 512} (hvalid : (gramOf fo c).valid = true)
    (hk : k.toNat ≤ (gramOf fo c).nchunk) (hhit : c.mcache.find? (fun e => e.1 = maskKey (gramOf fo c) k) =
      some (maskKey (gramOf fo c) k, row, b)) :
    opGmask ins k fo c =
      (match fo.ctx with
      | .helper _ => retire fo 6 0 [.mask ⟨true, k.toNat, b⟩, .mcFill (maskKey (gramOf fo c) k) row b false] c
      | _ => addFlight { mkFlight ins fo c [ghostIf true (mkAcc 0 (maskRowAddr (gramOf fo c)) 2)] 6 with
          delay := 1, vals := [wN row], fin := [.mask ⟨true, k.toNat, b⟩, .mcFill (maskKey (gramOf fo c) k) row b false],
          gr := gramOf fo c } c) := by
  have hpass : ¬(!(gramOf fo c).valid || (gramOf fo c).nchunk < k.toNat) = true := by simpa [hvalid] using hk
  rw [maskKey] at hhit ⊢
  simp only [opGmask, if_neg hpass, hhit]
  rfl

end

end Sys2Proof.Machine

namespace Sys2Proof.Proofs

open Sys2Proof Sys2Proof.Machine

/-- Settles O31: each operation by what it does of its core, which reads as before once the lane is taken. -/
theorem sortUnitOperations : Obligations.SortUnitOperations := by
  refine ⟨fun r g a => doesWhen_of_lane (fun _ => rfl) fun fo c hfree => ⟨hfree, ?kmergel⟩,
    fun r g a => doesWhen_of_lane (fun _ => rfl) fun fo c ⟨hfree, hvalid⟩ => ⟨hfree, ?kmergelMasked⟩,
    fun r g a => doesWhen_of_lane (fun _ => rfl) fun fo c ⟨hfree, hvalid⟩ => ⟨hfree, ?kmergelNoMask⟩,
    fun r g a m => doesWhen_of_lane (fun _ => rfl) fun fo c ⟨hfree, haddr, hvalid⟩ => ⟨hfree, ?kmerge⟩,
    fun r g a => doesWhen_of_lane (fun _ => rfl) fun fo c ⟨hfree, hvalid⟩ => ⟨hfree, ?kmergeNoMask⟩,
    fun r => doesWhen_of_lane (fun _ => rfl) fun fo c ⟨hfree, hvalid⟩ => ⟨hfree, ?kmask⟩,
    doesWhen_of_lane (fun _ => rfl) fun fo c hfree => ⟨hfree, rfl⟩,
    fun a => doesWhen_of_lane (fun _ => rfl) fun fo c ⟨hfree, hge⟩ => ⟨hfree, ?gstepReserved⟩,
    fun _ _ => rfl,
    fun a => doesWhen_of_lane (fun _ => rfl) fun fo c ⟨hfree, hvalid, hin, hlt⟩ => ⟨hfree, ?gstep⟩,
    fun k => doesWhen_of_lane (fun _ => rfl) fun fo c ⟨hfree, hvalid, hk, hmiss⟩ => ⟨hfree, ?gmaskMiss⟩,
    fun k row b => doesWhen_of_lane (fun _ => rfl) fun fo c ⟨hfree, hvalid, hk, hhit⟩ => ⟨hfree, ?gmaskHit⟩,
    fun a => doesWhen_of_lane (fun _ => rfl) fun fo c ⟨hfree, haddr⟩ => ⟨hfree, ?gsetLd⟩,
    fun a => doesWhen_of_lane (fun _ => rfl) fun fo c ⟨hfree, haddr⟩ => ⟨hfree, ?gsetRs⟩,
    fun a => doesWhen_of_lane (fun _ => rfl) fun fo c ⟨hfree, hfo, hroom, haddr⟩ => ⟨hfree, ?gsetSt⟩,
    fun a h => doesWhen_of_lane (fun _ => rfl) fun fo c ⟨hfo, haddr⟩ => ⟨laneFree_helper hfo, ?gsetStHelper⟩,
    fun r g a p => doesWhen_of_lane (fun _ => rfl) fun fo c ⟨hfree, hfo, hroom, haddr, hktrap⟩ => ⟨hfree, ?ksamp⟩,
    fun r g a p h => doesWhen_of_lane (fun _ => rfl) fun fo c ⟨hfo, haddr, hktrap⟩ =>
      ⟨laneFree_helper hfo, ?ksampHelper⟩,
    fun r a s c hready hfo hidle htakes hlt hfits => ?ksend,
    fun r a s c h hready hfo htakes hlt => ?ksendHelper,
    fun r a s c hready hfree hbad => ?ksendBad,
    fun r g a p => doesWhen_of_lane (fun _ => rfl) fun fo c ⟨hfree, haddr, hktrap, hempty⟩ => ⟨hfree, ?ksampEmpty⟩,
    fun i hi => ?busy⟩
  case kmergel => rw [opKmergel_plain, rdA_laneTake, rdGrid_laneTake]
  case kmergelMasked =>
    rw [opKmergel_masked (by simpa using hvalid), rdA_laneTake, rdGrid_laneTake, maskOf_laneTake]
    rfl
  case kmergelNoMask => exact opKmergel_noMask (by simpa using hvalid)
  case kmerge =>
    rw [opKmerge_pass (by simpa using haddr) (by simpa using hvalid), rdA_laneTake, rdGrid_laneTake, maskOf_laneTake]
  case kmergeNoMask => exact opKmerge_noMask (by simpa using hvalid)
  case kmask => rw [opKmask_valid (by simpa using hvalid), maskOf_laneTake]
  case gstepReserved => exact opGstep_reserved (by simpa using hge)
  case gstep =>
    rw [opGstep_pass (by simpa using hvalid) (by simpa using hin) (by simpa using hlt), rdA_laneTake, gramOf_laneTake]
  case gmaskMiss =>
    rw [opGmask_miss (by simpa using hvalid) (by simpa using hk) (by simpa [maskKey] using hmiss), gramOf_laneTake]
    rfl
  case gmaskHit =>
    rw [opGmask_hit (by simpa using hvalid) (by simpa using hk) (by simpa [maskKey] using hhit), gramOf_laneTake]
    rfl
  case gsetLd | gsetRs => rw [opGsetRead_pass (by simpa using haddr), rdA_laneTake]
  case gsetSt =>
    rw [opGsetSt_prim hfo (by simpa using haddr) (by simpa using hroom), rdA_laneTake, gramOf_laneTake]
  case gsetStHelper => rw [opGsetSt_helper hfo (by simpa using haddr), rdA_laneTake]
  case ksamp =>
    rw [opKsamp_prim hfo (by simpa using haddr) (by simpa using hktrap) (by simpa using hroom), rdA_laneTake,
      sampOf_laneTake]
  case ksampHelper =>
    rw [opKsamp_helper hfo (by simpa using haddr) (by simpa using hktrap), rdA_laneTake, sampOf_laneTake]
  case ksampEmpty => exact opKsamp_empty (by simpa using haddr) (by simpa using hktrap) (by simpa using hempty)
  case ksend =>
    rw [exec_ksend_takes hready ((laneFree_prim hfo).2 hidle) htakes, opKsend_sends (by simpa using hlt), rdA_laneTake,
      laneTake_lists, emit_prim hfo, withhold_fits (by simpa using hfits), withholdNow, ordOf_laneTake]
  case ksendHelper =>
    have hprim : ¬ofPrim s.focus := fun hctx => by cases hctx.symm.trans hfo
    rw [exec_ksend_takes hready (laneFree_helper hfo) htakes, opKsend_sends (by simpa using hlt), rdA_laneTake,
      laneTake_lists, emit_of_not_prim hprim, sendOut]
  case ksendBad =>
    cases htakes : s.treeTakes c (rdA s.focus c a.toNat).toNat with
    | false => exact exec_ksend_refused hready hfree htakes
    | true =>
      have hge := hbad.resolve_left (ne_false_of_eq_true htakes)
      rw [exec_ksend_takes hready hfree htakes, opKsend_reserved (by simpa using hge)]
  case busy =>
    cases i with
    | ksend r a => exact ksend_busy
    | kclr | kmerge | kmergel | ksort | ktop | ksamp | kmask | gsetLd | gsetSt | gsetRs | gsetFl | gstep | gmask =>
      exact doesWhen_of_laneBusy fun _ => rfl
    | _ => exact hi.elim

end Sys2Proof.Proofs
end

section
/-! PROOFS. The ranks of a candidate list (R199, R303, R304, R308): an entry's rank as a key of a linear order, the sort of
the unit as the library's insertion sort by it, and what a list lands as (O32, O33). -/

namespace Sys2Proof.Machine

/-! ### The rank as a key (R199, R303) -/

/-- A score in the order of R303: minus infinity and a NaN at the bottom, plus infinity at the top. -/
def scoreKey : XR → WithBot (WithTop ℚ)
  | .nan => ⊥
  | .inf neg => if neg then ⊥ else ⊤
  | .fin q _ => ((q : WithTop ℚ) : WithBot (WithTop ℚ))

/-- What ranks an entry: its score, the greatest first, then its index. -/
def rankKey (e : Lane × Lane) : (WithBot (WithTop ℚ))ᵒᵈ ×ₗ ℕ :=
  toLex (OrderDual.toDual (scoreKey (v32 e.1.toNat)), e.2.toNat)

theorem v32_negInf : v32 (0xFF800000 : Lane).toNat = .inf true := by decide +kernel

theorem v32_posInf : v32 (0x7F800000 : Lane).toNat = .inf false := by decide +kernel

theorem xIsNan_iff {x : XR} : xIsNan x = true ↔ x = .nan := by
  cases x <;> simp [xIsNan]

theorem xIsNan_admitScore (v : Lane) : xIsNan (v32 (admitScore v).toNat) = false := by
  unfold admitScore
  split
  · rw [v32_negInf]
    rfl
  · next h => exact eq_false_of_ne_true h

theorem scoreKey_admitScore (v : Lane) : scoreKey (v32 (admitScore v).toNat) = scoreKey (v32 v.toNat) := by
  unfold admitScore
  split
  · next h =>
    rw [v32_negInf, xIsNan_iff.1 h]
    rfl
  · rfl

section
variable {x y : XR}

theorem xLt_iff (hx : xIsNan x = false) (hy : xIsNan y = false) : xLt x y = true ↔ scoreKey x < scoreKey y := by
  match x, y with
  | .nan, _ => cases hx
  | _, .nan => cases hy
  | .inf a, .inf b => cases a <;> cases b <;> simp [xLt, scoreKey]
  | .inf a, .fin q _ => cases a <;> simp [xLt, scoreKey, WithBot.bot_lt_coe]
  | .fin p _, .inf b => cases b <;> simp [xLt, scoreKey, WithBot.coe_lt_coe, ← WithBot.coe_top]
  | .fin p _, .fin q _ => simp [xLt, scoreKey]

theorem xEq_iff (hx : xIsNan x = false) (hy : xIsNan y = false) : xEq x y = true ↔ scoreKey x = scoreKey y := by
  match x, y with
  | .nan, _ => cases hx
  | _, .nan => cases hy
  | .inf a, .inf b => cases a <;> cases b <;> simp [xEq, scoreKey]
  | .inf a, .fin q _ => cases a <;> simp [xEq, scoreKey, ← WithBot.coe_top]
  | .fin p _, .inf b => cases b <;> simp [xEq, scoreKey, ← WithBot.coe_top]
  | .fin p _, .fin q _ => simp [xEq, scoreKey]

end

section
variable {a b : Lane × Lane}

/-- An entry ranks ahead of another where its score is greater, or equal and its index smaller. -/
theorem ranksAhead_iff : ranksAhead a b = true ↔ scoreKey (v32 b.1.toNat) < scoreKey (v32 a.1.toNat) ∨
    scoreKey (v32 a.1.toNat) = scoreKey (v32 b.1.toNat) ∧ a.2.toNat < b.2.toNat := by
  simp only [ranksAhead, Bool.or_eq_true, Bool.and_eq_true, decide_eq_true_eq,
    xLt_iff (xIsNan_admitScore _) (xIsNan_admitScore _), xEq_iff (xIsNan_admitScore _) (xIsNan_admitScore _),
    scoreKey_admitScore]

theorem ranksAhead_iff_rankKey : ranksAhead a b = true ↔ rankKey a < rankKey b := by
  rw [ranksAhead_iff, rankKey, rankKey, Prod.Lex.toLex_lt_toLex]
  rfl

theorem ranksAhead_eq_false_iff : ranksAhead a b = false ↔ rankKey b ≤ rankKey a := by
  rw [← Bool.not_eq_true, ranksAhead_iff_rankKey, not_lt]

end

/-! ### The sort (R303, R308) -/

/-- The order a sorted list stands in. -/
abbrev RankLe : Lane × Lane → Lane × Lane → Prop := rankKey ⁻¹'o (· ≤ ·)

theorem rankInsert_eq (e : Lane × Lane) (l : List (Lane × Lane)) : rankInsert e l = l.orderedInsert RankLe e := by
  induction l with
  | nil => rfl
  | cons x l ih =>
    rw [rankInsert, List.orderedInsert_cons, ih]
    by_cases h : RankLe e x
    · rw [if_neg (ne_true_of_eq_false (ranksAhead_eq_false_iff.2 h)), if_pos h]
    · rw [if_pos (ranksAhead_iff_rankKey.2 (not_le.1 h)), if_neg h]

theorem rankSort_eq (l : List (Lane × Lane)) : rankSort l = l.insertionSort RankLe := by
  induction l with
  | nil => rfl
  | cons e l ih => rw [rankSort, rankInsert_eq, ih, List.insertionSort_cons]

theorem perm_rankSort (l : List (Lane × Lane)) : (rankSort l).Perm l := by
  rw [rankSort_eq]
  exact List.perm_insertionSort ..

theorem pairwise_rankSort (l : List (Lane × Lane)) : (rankSort l).Pairwise fun a b => ranksAhead b a = false := by
  rw [rankSort_eq]
  exact (List.pairwise_insertionSort RankLe l).imp fun h => ranksAhead_eq_false_iff.2 h

/-- Neither of two entries ranks ahead of the other. -/
def rankTie (a b : Lane × Lane) : Bool := !ranksAhead a b && !ranksAhead b a

theorem rankTie_iff {a b : Lane × Lane} : rankTie a b = true ↔ rankKey a = rankKey b := by
  rw [rankTie, Bool.and_eq_true, Bool.not_eq_true', Bool.not_eq_true', ranksAhead_eq_false_iff, ranksAhead_eq_false_iff,
    and_comm, le_antisymm_iff]

/-- Entries of equal rank keep their order: they are a sorted sublist of what is sorted, so of the result as well. -/
theorem filter_rankSort (a : Lane × Lane) (l : List (Lane × Lane)) :
    (rankSort l).filter (rankTie a) = l.filter (rankTie a) := by
  have hkey (b) (hb : b ∈ l.filter (rankTie a)) : rankKey a = rankKey b := rankTie_iff.1 (List.of_mem_filter hb)
  have hsorted : (l.filter (rankTie a)).Pairwise RankLe :=
    List.pairwise_of_forall_mem_list fun b hb d hd => ((hkey b hb).symm.trans (hkey d hd)).le
  have hsub : (l.filter (rankTie a)).Sublist (rankSort l) :=
    rankSort_eq l ▸ List.sublist_insertionSort hsorted List.filter_sublist
  have hties : (l.filter (rankTie a)).filter (rankTie a) = l.filter (rankTie a) :=
    List.filter_eq_self.2 fun _ => List.of_mem_filter
  have hlen : ((rankSort l).filter (rankTie a)).length = (l.filter (rankTie a)).length :=
    ((perm_rankSort l).filter _).length_eq
  exact ((hties ▸ hsub.filter (rankTie a)).eq_of_length hlen.symm).symm

/-! ### Scores (R199, R303) -/

section
variable {a b : Lane × Lane} {p q : ℚ} {x y : Bool}

theorem ranksAhead_fin_iff (ha : v32 a.1.toNat = .fin p x) (hb : v32 b.1.toNat = .fin q y) :
    ranksAhead a b = true ↔ q < p ∨ p = q ∧ a.2.toNat < b.2.toNat := by
  rw [ranksAhead_iff, ha, hb]
  simp [scoreKey]

theorem scoreKey_negInf : scoreKey (v32 (0xFF800000 : Lane).toNat) = ⊥ := by
  rw [v32_negInf]
  rfl

theorem scoreKey_posInf : scoreKey (v32 (0x7F800000 : Lane).toNat) = ⊤ := by
  rw [v32_posInf]
  rfl

theorem scoreKey_fin_lt_top (q : ℚ) (y : Bool) : scoreKey (.fin q y) < ⊤ := WithBot.coe_lt_coe.2 (WithTop.coe_lt_top q)

/-- A greater score ranks ahead, whatever the indices. -/
theorem ranksAhead_of_scoreKey_lt (h : scoreKey (v32 b.1.toNat) < scoreKey (v32 a.1.toNat)) :
    ranksAhead a b = true ∧ ranksAhead b a = false := by
  have hab := ranksAhead_iff.2 (.inl h)
  exact ⟨hab, ranksAhead_eq_false_iff.2 (ranksAhead_iff_rankKey.1 hab).le⟩

theorem ranksAhead_same_score (v i j : Lane) : ranksAhead (v, i) (v, j) = decide (i.toNat < j.toNat) := by
  rw [Bool.eq_iff_iff, ranksAhead_iff]
  simp

theorem ranksAhead_congr_left {d : Lane × Lane} (h : rankKey a = rankKey b) : ranksAhead a d = ranksAhead b d := by
  rw [Bool.eq_iff_iff, ranksAhead_iff_rankKey, ranksAhead_iff_rankKey, h]

theorem ranksAhead_congr_right {d : Lane × Lane} (h : rankKey a = rankKey b) : ranksAhead d a = ranksAhead d b := by
  rw [Bool.eq_iff_iff, ranksAhead_iff_rankKey, ranksAhead_iff_rankKey, h]

/-- A NaN ranks as minus infinity. -/
theorem rankKey_nan (ha : v32 a.1.toNat = .nan) : rankKey a = rankKey (0xFF800000, a.2) := by
  simp only [rankKey, ha, scoreKey_negInf]
  rfl

end

/-! ### Lists as they land and as they are read (R304, R305, R308, R309) -/

theorem opKsort_lanes {r : BitVec 3} {g : BitVec 8} {fo : Focus} {c : Core} :
    opKsort r g 0 fo c = retire fo (6 + (fo.beats - 1)) 0
      [.list r.toNat (.sortNew (List.zip (rdGrid c g.toNat) ((List.range 64).map (fun i => BitVec.ofNat 32 i))))] c := rfl

theorem ktop_topVec (r : BitVec 3) (g : BitVec 8) (k : BitVec 1) : DoesWhen (.ktop r g k) laneFree fun fo c =>
    retire fo 3 0 [.vec (.grid g.toNat) (ktopVec (spGet candList0 c.lists r.toNat) (k = 1)) (BitVec.allOnes 64)]
      (laneTake (.ktop r g k) fo c) :=
  doesWhen_of_lane (fun _ => rfl) fun fo c hfree => ⟨hfree, by rw [opKtop, laneTake_lists, allLanes]⟩

theorem lists_landEff_list (e : Pend) (c : Core) (l : Nat) (op : ListOp) :
    (landEff e c (.list l op)).lists = spSet candList0 c.lists l (applyList op (spGet candList0 c.lists l)).1 := by
  show (landList _ l op c).lists = _
  unfold landList
  extract_lets
  split <;> rfl

theorem getD_ktopVec (l : CandList) (idx : Bool) {p : Nat} (hp : p < 64) : (ktopVec l idx).getD p 0 =
    if p < l.count then (if idx then (l.ents.getD p (0, 0)).2 else (l.ents.getD p (0, 0)).1)
    else if idx then 0xFFFFFFFF else 0xFF800000 := by
  simp [ktopVec, hp]

theorem count_listOf (l : List (Lane × Lane)) : (listOf l).count = min 64 l.length := List.length_take

/-- A vector's lanes under their indices, sorted, make a full list. -/
theorem count_sortNew {v is : List Lane} (hv : v.length = 64) (his : is.length = 64) (l : CandList) :
    (applyList (.sortNew (List.zip v is)) l).1.count = 64 := by
  refine (count_listOf _).trans ?_
  rw [(perm_rankSort _).length_eq, List.length_zip, hv, his]
  rfl

end Sys2Proof.Machine

namespace Sys2Proof.Proofs

open Sys2Proof Sys2Proof.Machine

/-- Settles O33: the order of the ranks is that of their keys, and the sort is the insertion sort by it. -/
theorem sortingLists : Obligations.SortingLists := by
  refine ⟨fun r g => doesWhen_of_lane (fun _ => rfl) fun fo c hfree => ⟨hfree, ?lanes⟩,
    fun r g => doesWhen_of_lane (fun _ => rfl) fun fo c hfree => ⟨hfree, rfl⟩,
    fun l => ⟨perm_rankSort l, pairwise_rankSort l, fun a => filter_rankSort a l⟩,
    fun a b p q x y => ranksAhead_fin_iff, fun a b q y hb => ⟨fun ha => ?posInf, fun ha => ?negInf⟩,
    fun i j => ?infs, fun a b ha => ⟨ranksAhead_congr_left (rankKey_nan ha), ranksAhead_congr_right (rankKey_nan ha)⟩,
    fun v l hv => count_sortNew hv (by simp) l⟩
  case lanes => rw [opKsort_lanes, rdGrid_laneTake]
  case posInf =>
    refine ranksAhead_of_scoreKey_lt ?_
    rw [ha, hb, scoreKey_posInf]
    exact scoreKey_fin_lt_top q y
  case negInf =>
    refine (ranksAhead_of_scoreKey_lt ?_).symm
    rw [ha, hb, scoreKey_negInf]
    exact WithBot.bot_lt_coe _
  case infs =>
    have hlt : scoreKey (v32 (0xFF800000 : Lane).toNat) < scoreKey (v32 (0x7F800000 : Lane).toNat) := by
      rw [scoreKey_negInf, scoreKey_posInf]
      exact bot_lt_top
    obtain ⟨hahead, -⟩ := ranksAhead_of_scoreKey_lt (a := (0x7F800000, i)) (b := (0xFF800000, j)) hlt
    obtain ⟨-, hbehind⟩ := ranksAhead_of_scoreKey_lt (a := (0x7F800000, j)) (b := (0xFF800000, i)) hlt
    exact ⟨hahead, hbehind, fun v _ => ranksAhead_same_score v i j⟩

/-- Settles O32: a clear by what a list's landing writes, KTOP by its lanes. -/
theorem clearList : Obligations.ClearList := by
  refine ⟨⟨fun r => doesWhen_of_lane (fun _ => rfl) fun fo c hfree => ⟨hfree, rfl⟩, fun e c r => ?clear⟩,
    fun r g k s c hready hfree => ⟨ktopVec (spGet candList0 c.lists r.toNat) (k = 1),
      ktop_topVec r g k s c hready hfree, by simp [ktopVec],
      fun p hp => (getD_ktopVec _ _ hp).trans (by simp only [decide_eq_true_eq])⟩⟩
  have hlist : spGet candList0 (landEff e c (.list r .clear)).lists r = candList0 := by
    rw [lists_landEff_list, Laws.spGet_spSet, if_pos rfl]
    rfl
  refine ⟨congrArg CandList.count hlist, congrArg CandList.ents hlist, fun k hk => ?_⟩
  rw [lists_landEff_list, Laws.spGet_spSet, if_neg hk]

end Sys2Proof.Proofs
end

end

section
/- As above, the proofs are elaborated one after the other, for the sake of the check's memory. -/
set_option deprecated.oldSectionVars true

section
/-! PROOFS. The tag mask of a distribution register (R334, O30). -/

namespace Sys2Proof.Machine

theorem gridEffs_qtag (t : BitVec 3) (p : BitVec 2) (d : BitVec 4) (m : BitVec 16) (fo : Focus) (c : Core) :
    gridEffs (.qtag t p d m) fo c = (0, [.qtag d.toNat m (decide (t = 1))]) := rfl

theorem q_landEff_qtag (e : Pend) (c : Core) (d : Nat) (m : BitVec 16) (o : Bool) :
    (landEff e c (.qtag d m o)).p.q =
      let x := spGet qReg0 c.p.q d
      spSet qReg0 c.p.q d { x with tag := if o then x.tag ||| m else m } := rfl

/-- The register keeps its points and takes the mask; every other register is as before. -/
theorem spGet_landEff_qtag (e : Pend) (c : Core) (d : Nat) (m : BitVec 16) (o : Bool) (k : Nat) :
    spGet qReg0 (landEff e c (.qtag d m o)).p.q k =
      if k = d then
        { spGet qReg0 c.p.q d with tag := if o then (spGet qReg0 c.p.q d).tag ||| m else m }
      else spGet qReg0 c.p.q k := by
  rw [q_landEff_qtag, Laws.spGet_spSet]

end Sys2Proof.Machine

namespace Sys2Proof.Proofs

open Sys2Proof Sys2Proof.Machine

/-- Settles O30: QTAG retires its one effect, and that effect's landing writes the tag mask of one register alone. -/
theorem tagMaskSet : Obligations.TagMaskSet := by
  refine ⟨fun t p d m fo c => ⟨rfl, congrArg Prod.snd (gridEffs_qtag t p d m fo c)⟩,
    fun e c d m o => ⟨?mask, fun k => ?points, fun k hk => ?others⟩⟩
  case mask => rw [spGet_landEff_qtag, if_pos rfl]
  case others => rw [spGet_landEff_qtag, if_neg hk]
  case points =>
    rw [spGet_landEff_qtag]
    split
    next hk => rw [hk]
    next => rfl

end Sys2Proof.Proofs
end

end

section
/- As above, the proofs are elaborated one after the other, for the sake of the check's memory. -/
set_option deprecated.oldSectionVars true

section
/-! PROOFS. Traps of the primary and the end of their restore (R379, R386, R389, R390, R391, R458; O45, O47). -/

namespace Sys2Proof.Machine

/-! ### Taking a trap (R379, R386, R389, R391) -/

section
variable {k slot bundle jobt : Nat} {v : Word} {c : Core}

/-- A trap that is no soft failure: the restore, and the record of its cause. -/
theorem primTrap_hard (hsoft : softCause k = false) : primTrap k slot bundle v jobt c =
    { rollback c with
      run := .restore 16 false k,
      trapRec0 := trapRecord k slot 0 bundle c.region, trapRec1 := v, trapRec2 := wN jobt,
      cyc := { c.cyc with trapped := true } } := by
  simp only [primTrap, hsoft, Bool.false_and, Bool.or_false, Bool.false_eq_true, if_false]
  rfl

/-- The first soft failure of a region is counted, and marks the region retried. -/
theorem primTrap_firstSoft (hsoft : softCause k = true) (hretry : c.retry = false) : primTrap k slot bundle v jobt c =
    { rollback c with
      run := .restore 16 true k, retry := true, softcnt := min (c.softcnt + 1) 0xFFFFFFFF, softFirst := k,
      trapRec0 := trapRecord k slot 0 bundle c.region, trapRec1 := v, trapRec2 := wN jobt,
      cyc := { c.cyc with trapped := true } } := by
  simp only [primTrap, hsoft, hretry, Bool.and_false, Bool.or_true, Bool.not_false, Bool.and_true, Bool.false_eq_true,
    if_false, if_true]
  rfl

/-- A soft failure of a region already retried is SOFT_REPEAT, the first one's cause in its record. -/
theorem primTrap_softRepeat (hsoft : softCause k = true) (hretry : c.retry = true) : primTrap k slot bundle v jobt c =
    { rollback c with
      run := .restore 16 false cSOFTREPEAT, retry := true,
      trapRec0 := trapRecord cSOFTREPEAT slot c.softFirst bundle c.region, trapRec1 := v, trapRec2 := wN jobt,
      cyc := { c.cyc with trapped := true } } := by
  simp only [primTrap, hsoft, hretry, Bool.and_true, Bool.or_true, Bool.not_true, Bool.and_false, Bool.false_eq_true,
    if_false, if_true]
  rfl

end

/-! ### The end of a restore, and traps due in their trap cycle (R386, R458) -/

section
variable {s : State} {n : Nat} {c : Core}

theorem State.restoreEnds_noCore (hc : s.core n = none) : s.restoreEnds n = s := by
  rw [State.restoreEnds, hc]

theorem State.restoreEnds_soft {m k : Nat} (hc : s.core n = some c) (hrun : c.run = .restore m true k) :
    s.restoreEnds n = s.setCore n { c with run := .run } := by
  simp only [State.restoreEnds, endRestore, hc, hrun]

theorem State.restoreEnds_running (hc : s.core n = some c) (hrun : c.run = .run) : s.restoreEnds n = s := by
  simp only [State.restoreEnds, hc, hrun]

end

theorem deferTrap_none {c : Core} (hpend : c.p.pend = []) (jobt : Nat) : deferTrap jobt c = c := by
  rw [deferTrap, hpend]
  rfl

/-- The one result on its way is a trap, due in this cycle. -/
theorem deferTrap_due {c : Core} {e : Pend} {k : Nat} {v : Word} (hpend : c.p.pend = [e]) (hdue : e.rem ≤ 1)
    (heffs : e.effs = [.trap k v]) (jobt : Nat) : deferTrap jobt c = primTrap k e.slot e.bundle v jobt c := by
  have hfirst : firstDue c.p.pend = some (e, k, v) := by
    simp [firstDue, hpend, hdue, heffs]
  rw [deferTrap, hfirst]

end Sys2Proof.Machine

namespace Sys2Proof.Proofs

open Sys2Proof Sys2Proof.Machine

/-- Settles O45: the trap of each of the three kinds by what it writes, all three by what they keep. -/
theorem primaryTrapEntry : Obligations.PrimaryTrapEntry := by
  intro fo c k v hfo
  simp only [takeTrap_prim hfo]
  refine ⟨rfl, rfl, rfl, rfl, rfl, rfl, fun hsoft => ?hard, fun hsoft hretry => ?soft, fun hsoft hretry => ?repeated,
    rfl, rfl, rfl, rfl, rfl, rfl, rfl, rfl, rfl, rfl⟩
  case hard =>
    rw [primTrap_hard hsoft]
    exact ⟨rfl, rfl, rfl, rfl, rfl⟩
  case soft =>
    rw [primTrap_firstSoft hsoft hretry]
    exact ⟨rfl, rfl, rfl, rfl, rfl⟩
  case repeated =>
    rw [primTrap_softRepeat hsoft hretry]
    exact ⟨rfl, rfl, rfl⟩

/-- Settles O47: the end of a restore by the core's state, a deferred trap by the first result that is due. -/
theorem returnFromTrap : Obligations.ReturnFromTrap :=
  ⟨fun _ _ _ _ hc hrun => next_congr (State.restoreEnds_soft hc hrun),
    fun _ _ hc hrun => next_congr (State.restoreEnds_running hc hrun),
    fun _ hc => ⟨next_congr (State.restoreEnds_noCore hc), next_congr (Laws.modCore_none _ hc)⟩,
    fun _ _ hc hpend => next_congr (State.modCore_self hc (deferTrap_none hpend _)),
    fun _ _ _ _ _ hc hpend hdue heffs => next_congr (State.modCore_of hc (deferTrap_due hpend hdue heffs _))⟩

end Sys2Proof.Proofs
end

section
/-! PROOFS. Halt waves, stops, resumes, steps and breakpoints (R417 to R425; O57). -/

namespace Sys2Proof.Machine

section
variable {s : State} {n : Nat}

theorem State.jobOf_setJob_same (hn : n < s.jobs.length) (j : Job) : (s.setJob n j).jobOf n = j :=
  (Laws.jobOf_setJob s n n j).trans (if_pos ⟨rfl, hn⟩)

/-! ### Halts and waves (R417, R419, R420, R425) -/

theorem State.hostHalt_running (h : (s.jobOf n).state = 0) : s.hostHalt n = s.trigger n 0x3D none 15 0 0 := by
  simp only [State.hostHalt, h]

theorem State.hostHalt_stopped (h : (s.jobOf n).state = 2) : s.hostHalt n = s := by
  simp only [State.hostHalt, h]

theorem State.hostHalt_resuming (h : (s.jobOf n).state = 3) :
    s.hostHalt n = s.setJob n { s.jobOf n with hostHeld := true } := by
  simp only [State.hostHalt, h]

theorem State.haltFlit_notHalting (h : (s.jobOf n).state ≠ 1) : s.haltFlit n = s := if_neg h

/-- The agents that a wave can still reach. -/
def State.agentsAhead (s : State) (n : Nat) : List Nat :=
  (s.cores.filter (fun e => ofJob n e.2 && !e.2.frozen)).map (·.1)

theorem State.haltFlit_halting (h : (s.jobOf n).state = 1) : s.haltFlit n =
    ((s.agentsAhead n).foldl (fun t k => if t.drawBit.1 then t.drawBit.2.freezeCore k else t.drawBit.2) s).later
      (s.tick + 1) n .haltFlit := if_pos h

theorem State.agentsAhead_none (h : ∀ e ∈ s.cores, ofJob n e.2 = true → e.2.frozen = true) : s.agentsAhead n = [] := by
  refine List.map_eq_nil_iff.2 (List.filter_eq_nil_iff.2 fun e he hahead => ?_)
  obtain ⟨hjob, hlive⟩ := Bool.and_eq_true_iff.1 hahead
  simp [h e he hjob] at hlive

theorem State.agentsAhead_one {k : Nat} {c : Core} (hcores : s.cores = [(k, c)]) (hjob : ofJob n c = true)
    (hlive : c.frozen = false) : s.agentsAhead n = [k] := by
  simp [State.agentsAhead, hcores, hjob, hlive]

/-! ### Stops (R420 to R422) -/

theorem State.stopTick_other (h : s.stopsNow.contains n = false) : s.stopTick n = s := if_neg (ne_true_of_eq_false h)

theorem State.jobs_stopTick (h : s.stopsNow.contains n = true) :
    (s.stopTick n).jobs = setAt s.jobs n { s.jobOf n with state := 2, step := none, wave := false } := by
  refine (congrArg State.jobs (if_pos h)).trans ?_
  exact (apply_ite State.jobs _ _ _).trans (ite_self _)

/-! ### Requests of the host (R424, R425) -/

section
variable {k : Option Nat} {core : Nat} {c : Core}

theorem State.askResume_notStopped (h : (s.jobOf n).state ≠ 2) (k : Option Nat) : s.askResume n k = s := if_pos h

theorem State.askResume_early (h : (s.jobOf n).state = 2) (hearly : s.tickOk n = false) (k : Option Nat) :
    s.askResume n k = s.refused n true := by
  rw [State.askResume, if_neg (not_not_intro h), if_pos (by rw [hearly]; rfl)]

/-- A resume or a job step that is accepted waits for its tick. -/
theorem State.jobOf_askResume (h : (s.jobOf n).state = 2) (hok : s.tickOk n = true) (hn : n < s.jobs.length)
    (k : Option Nat) : (s.askResume n k).jobOf n =
      { s.jobOf n with state := 3, resume := some (s.reg (dbg n 0x20)), step := k } := by
  rw [State.askResume, if_neg (not_not_intro h), if_neg (by simp [hok])]
  exact State.jobOf_setJob_same (s := s.refused n false) hn _

theorem State.askCoreStep_notStopped (h : (s.jobOf n).state ≠ 2) (core : Nat) : s.askCoreStep n core = s := if_pos h

/-- A core step is refused that comes too early, or whose core is absent, of another job, or at its end. -/
theorem State.askCoreStep_refused (h : (s.jobOf n).state = 2)
    (hbad : s.tickOk n = false ∨ s.core core = none ∨ ∃ c, s.core core = some c ∧ (c.lctx ≠ n ∨ c.run = .ended)) :
    s.askCoreStep n core = s.refused n true := by
  rw [State.askCoreStep, if_neg (not_not_intro h)]
  refine if_pos ?_
  obtain hearly | hc | ⟨c, hc, hother | hended⟩ := hbad
  · simp [hearly]
  · simp [hc]
  · simp [hc, hother]
  · simp [hc, hended]

/-- A core step that is accepted waits for its tick beside the others. -/
theorem State.jobOf_askCoreStep (h : (s.jobOf n).state = 2) (hok : s.tickOk n = true) (hn : n < s.jobs.length)
    (hc : s.core core = some c) (hcore : core < 512) (hjob : c.lctx = n) (hrun : c.run ≠ .ended) :
    (s.askCoreStep n core).jobOf n =
      { s.jobOf n with core := (s.jobOf n).core ++ [(core, s.reg (dbg n 0x20), none)] } := by
  rw [State.askCoreStep, if_neg (not_not_intro h), if_neg (by simp [hok, hc, hcore, hjob, hrun])]
  exact State.jobOf_setJob_same (s := s.refused n false) hn _

theorem State.jobOf_clearCause (h : (s.jobOf n).state = 0 ∨ (s.jobOf n).state = 2) (hn : n < s.jobs.length) :
    (s.clearCause n).jobOf n = { s.jobOf n with causes := [] } := by
  rw [State.clearCause, if_pos (by simpa using h)]
  exact State.jobOf_setJob_same hn _

end

/-! ### Resuming (R421, R424) -/

/-- The state without what the flits of peers that go on, and events set for later ticks, change. -/
def State.beyondFlits (s : State) : State := { s.beyondHomes with cores := [], reqs := [], timers := [], portHeld := [] }

theorem State.beyondFlits_of_beyondHomes {t : State} (h : t.beyondHomes = s.beyondHomes) :
    t.beyondFlits = s.beyondFlits := (congrArg State.beyondFlits h :)

theorem State.beyondFlits_inject (num c : Nat) : (s.inject num c).2.beyondFlits = s.beyondFlits := by
  unfold State.inject
  split
  · split <;> rfl
  · rfl

theorem State.beyondFlits_reqTimes (num coh pa lat : Nat) : (s.reqTimes num coh pa lat).2.beyondFlits = s.beyondFlits :=
  (State.beyondFlits_of_beyondHomes ((State.beyondHomes_performTime _ num pa _).trans
    (State.beyondHomes_timeFrom _ num coh pa _ _))).trans (State.beyondFlits_inject num (s.tick + lat))

theorem State.beyondFlits_peerAccess (p ctx coh pa len : Nat) (op : ReqOp) (data : List (Option Byte)) :
    (s.peerAccess p ctx coh pa len op data).beyondFlits = s.beyondFlits := by
  unfold State.peerAccess
  split
  · rfl
  · exact State.beyondFlits_reqTimes (1024 + p) coh pa 0

theorem State.beyondFlits_portGoes (e : Nat × Flit) : (s.portGoes e).beyondFlits = s.beyondFlits := by
  unfold State.portGoes
  split
  · exact State.beyondFlits_peerAccess ..
  · rfl

theorem State.beyondFlits_timePlan (n : Nat) : (s.timePlan n).beyondFlits = s.beyondFlits := by
  unfold State.timePlan
  split <;> rfl

theorem State.resumeAt_notResuming (h : (s.jobOf n).state ≠ 3) : s.resumeAt n = s := by
  unfold State.resumeAt
  extract_lets j
  split
  next hstate _ => exact absurd hstate h
  next => rfl

/-- At its tick a resumed job runs again; none of its messages stays parked. -/
theorem State.resumeAt_resumes {r : Nat} (h : (s.jobOf n).state = 3) (hresume : (s.jobOf n).resume = some r)
    (hdue : r ≤ s.tick + 1) : (∃ stop step, (s.resumeAt n).jobs = setAt s.jobs n { s.jobOf n with
      state := 0, stop := stop, resume := none, step := step, hostHeld := false, wave := false }) ∧
    (s.resumeAt n).parked = s.parked.filter (fun m => m.lctx ≠ n) := by
  generalize ht : s.resumeAt n = t
  unfold State.resumeAt at ht
  extract_lets j at ht
  split at ht
  case h_2 hother => exact absurd hresume (hother r h)
  case h_1 r' _ hr' =>
    obtain rfl : r' = r := Option.some.inj (hr'.symm.trans hresume)
    rw [if_neg (Nat.not_lt_of_le hdue)] at ht
    extract_lets st stop s1 s2 back s3 s4 s5 at ht
    have h4 : s4.beyondFlits = s3.beyondFlits :=
      (State.beyondFlits_timePlan n).trans (foldl_keeps (f := State.portGoes) (fun _ _ => State.beyondFlits_portGoes _) _ _)
    have h5 : s5.beyondFlits = s4.beyondFlits := by
      dsimp only [s5]
      clear_value stop
      cases stop <;> rfl
    have htail : t.beyondFlits = s5.beyondFlits := by
      rw [← ht]
      split <;> rfl
    have hall := htail.trans (h5.trans h4)
    exact ⟨⟨_, _, (congrArg State.jobs hall :)⟩, (congrArg State.parked hall :)⟩

/-! ### Steps (R424) -/

theorem State.jobstepEnd_ends {k : Nat} (h : (s.jobOf n).state = 0) (hstep : (s.jobOf n).step = some k)
    (hdue : k ≤ s.tick + 1) : s.jobstepEnd n = s.freezeAll n := by
  simp only [State.jobstepEnd, h, hstep, hdue, if_true]

theorem State.corestepAt_none (h : (s.jobOf n).core = []) : s.corestepAt n = s := if_pos h

theorem State.corestepAt_goes {k r : Nat} (hstep : (s.jobOf n).core = [(k, r, none)]) (h : (s.jobOf n).state = 2)
    (hdue : r ≤ s.tick + 1) : s.corestepAt n =
      ((s.modCore k thaw).setJob n { s.jobOf n with core := [(k, r, some s.tick)] }).later (s.tick + 1) n .corestepAtTick := by
  simp [State.corestepAt, hstep, h, hdue]

theorem State.corestepAt_ends {k r t : Nat} (hstep : (s.jobOf n).core = [(k, r, some t)]) (h : (s.jobOf n).state = 2)
    (hover : t < s.tick) : s.corestepAt n = (s.freezeCore k).setJob n { s.jobOf n with core := [] } := by
  simp [State.corestepAt, hstep, h, hover]

/-! ### Breakpoints (R418, R425) -/

theorem State.breakpointAt_matches {c : Core} {i : Nat} (hc : s.core n = some c) (hcore : isGate c = false)
    (hmatch : s.bpMatch n c = some i) : s.breakpointAt n =
      (s.trigger c.lctx 0x3C (some n) 15 (slotBundle c.p 0) i).modCore n (fun d => { d with bpSkip := true }) := by
  simp only [State.breakpointAt, hc, hcore, hmatch, Bool.false_eq_true, if_false]

theorem State.breakpointAt_noCore (hc : s.core n = none) : s.breakpointAt n = s := by
  rw [State.breakpointAt, hc]

theorem State.bpEffect_noCore (hc : s.core n = none) : s.bpEffect n = s := by
  rw [State.bpEffect, hc]

theorem State.bpEffect_bound {c : Core} (hc : s.core n = some c) : s.bpEffect n = s.syncBps n c.lctx := by
  rw [State.bpEffect, hc]

end

end Sys2Proof.Machine

namespace Sys2Proof.Proofs

open Sys2Proof Sys2Proof.Machine

/-- Settles O57, clause by clause: each event by what its operation makes of its job. -/
theorem debugEvents : Obligations.DebugEvents := by
  refine ⟨fun s n v => ⟨fun h => next_congr (State.hostHalt_running h), fun h => next_congr (State.hostHalt_stopped h),
      fun h => next_congr (State.hostHalt_resuming h)⟩,
    fun s h => next_congr (State.haltFlit_notHalting h), ?waveOver, ?waveOne, ?stops,
    fun s h => next_congr (State.stopTick_other h),
    fun s n v h => ⟨next_congr (State.askResume_notStopped h _), next_congr (State.askResume_notStopped h _),
      next_congr (State.askCoreStep_notStopped h _)⟩,
    fun s n v h hearly => ⟨next_congr (State.askResume_early h hearly _), next_congr (State.askResume_early h hearly _)⟩,
    ?accepted, fun s n v h hbad => next_congr (State.askCoreStep_refused h hbad), ?clears,
    fun s h => next_congr (State.resumeAt_notResuming h), ?resumes,
    fun s k h hstep hdue => next_congr (State.jobstepEnd_ends h hstep hdue),
    fun s h => next_congr (State.corestepAt_none h),
    fun s k r hstep h hdue => next_congr (State.corestepAt_goes hstep h hdue),
    fun s k r t hstep h hover => next_congr (State.corestepAt_ends hstep h hover),
    fun s c i hc hcore hmatch => next_congr (State.breakpointAt_matches hc hcore hmatch),
    fun s hc => ⟨next_congr (State.breakpointAt_noCore hc), next_congr (State.bpEffect_noCore hc)⟩,
    fun s c hc => next_congr (State.bpEffect_bound hc)⟩
  case waveOver =>
    intro s h hfrozen
    refine next_congr ((State.haltFlit_halting h).trans ?_)
    rw [State.agentsAhead_none hfrozen]
    rfl
  case waveOne =>
    intro s k c h hcores hjob hlive
    refine next_congr ((State.haltFlit_halting h).trans ?_)
    rw [State.agentsAhead_one hcores hjob hlive]
    rfl
  case stops =>
    intro s h hn
    have hjob := (congrArg (·.getD s.focus.core job0) (State.jobs_stopTick h)).trans (State.jobOf_setJob_same hn _)
    exact ⟨_, rfl, congrArg Job.state hjob, congrArg Job.wave hjob⟩
  case accepted =>
    intro s n v h hok hn
    have hjob := State.jobOf_askResume h hok hn
    refine ⟨⟨_, rfl, congrArg Job.state (hjob _), congrArg Job.resume (hjob _), congrArg Job.step (hjob _)⟩,
      ⟨_, rfl, congrArg Job.state (hjob _), ?_⟩, fun c hc hctx hrun => ?_⟩
    · refine (congrArg Job.step (hjob _)).trans ?_
      rw [bits, pow_zero, Nat.div_one]
    · have hstep := State.jobOf_askCoreStep h hok hn hc (Nat.mod_lt _ (by decide)) hctx hrun
      exact ⟨_, rfl, congrArg Job.core hstep, (congrArg Job.state hstep).trans h⟩
  case clears =>
    intro s n v h hn
    have hjob := State.jobOf_clearCause h hn
    exact ⟨_, rfl, congrArg Job.causes hjob, (congrArg Job.state hjob :)⟩
  case resumes =>
    intro s r h hresume hdue hn
    obtain ⟨⟨stop, step, hjobs⟩, hparked⟩ := State.resumeAt_resumes h hresume hdue
    have hjob := (congrArg (·.getD s.focus.core job0) hjobs).trans (State.jobOf_setJob_same hn _)
    refine ⟨_, rfl, congrArg Job.state hjob, congrArg Job.resume hjob, fun m hm => ?_⟩
    rw [hparked] at hm
    exact of_decide_eq_true (List.mem_filter.1 hm).2

end Sys2Proof.Proofs
end

section
/-! PROOFS. Command streams, the launch unit, sequence swap, frame barriers and encoders (R358, R361, R364, R368, R370, R371,
R375, R377, R378, R393, R399, R433; O56). -/

namespace Sys2Proof.Machine

theorem bits_bottom (v hi : Nat) : bits v hi 0 = v % 2 ^ (hi + 1) := by
  rw [bits, pow_zero, Nat.div_one, Nat.sub_zero]

section
variable {s : State}

/-! ### Packets (R358, R359, R371, R399) -/

section
variable {m : Nat}

theorem State.launchPacket_none (h : s.hasPacket m = false) : s.launchPacket m = s := if_pos (by rw [h]; rfl)

theorem State.replayPacket_none (h : s.hasPacket m = false) : s.replayPacket m = s := if_pos (by rw [h]; rfl)

theorem State.killPacket_none (h : s.hasPacket m = false) : s.killPacket m = s := if_pos (by rw [h]; rfl)

theorem State.recordPacket_none (h : s.hasPacket m = false) : s.recordPacket m = s := if_pos (by rw [h]; rfl)

variable (h : s.hasPacket m = true)
include h

theorem State.not_noPacket : ¬(!s.hasPacket m) = true := by
  rw [h]
  exact Bool.false_ne_true

theorem State.launchPacket_type0 (htype : bits ((s.takePacket m).1.getD 0 0).toNat 63 60 = 0) : s.launchPacket m =
    ((s.takePacket m).2.2.typeZero m (s.takePacket m).2.1 (s.takePacket m).1).decide :=
  (if_neg (State.not_noPacket h)).trans (if_pos htype)

theorem State.killPacket_kills (hgood : otherBad (s.takePacket m).1 0 = false) : s.killPacket m =
    let s1 := (s.takePacket m).2.2.killCtx (s.strCtx m) true none
    ({ s1 with kills := s1.kills ++ [(m, (s.takePacket m).2.1, s.strCtx m, ((s.takePacket m).1.getD 7 0).toNat)] }.killRecords
      (s.strCtx m)).decide :=
  (if_neg (State.not_noPacket h)).trans (if_neg (ne_true_of_eq_false hgood))

theorem State.replayPacket_replays {g : Nat} (hgood : otherBad (s.takePacket m).1 8 = false)
    (hg : bits ((s.takePacket m).1.getD 1 0).toNat 7 0 = g) : s.replayPacket m =
    let t := s.takePacket m
    let s1 := (((s.graphs.filter (fun e => e.1 = g)).map (·.2)).map (s.patched g)).foldl (fun st p =>
      let q := st.takeSeq m
      { q.2 with extra := spSet 0 q.2.extra m ((spGet 0 q.2.extra m + 1) % 2 ^ 32) }.typeZero m q.1 p) t.2.2
    (s1.finishPacket m t.2.1 (s.strCtx m) (t.1.getD 7 0).toNat 0 0).decide :=
  hg ▸ (if_neg (State.not_noPacket h)).trans (if_neg (ne_true_of_eq_false hgood))

/-- A recording of 1 to 512 packets that finds room for them goes on. -/
theorem State.recordPacket_records {k g : Nat} (hgood : otherBad (s.takePacket m).1 18 = false)
    (hk : bits ((s.takePacket m).1.getD 1 0).toNat 17 8 = k) (hpos : 0 < k) (hmost : k ≤ 512)
    (hg : bits ((s.takePacket m).1.getD 1 0).toNat 7 0 = g) :
    let t := s.takePacket m
    let s1 := { t.2.2 with graphs := t.2.2.graphs.filter (fun e => e.1 ≠ g) }
    s1.slotsUsed + k ≤ 512 → s.recordPacket m =
      { s1 with recording := s1.recording ++ [(m, g, k, t.2.1, (t.1.getD 7 0).toNat)] }.decide := by
  subst hk hg
  intro t s1 hroom
  have hform : ¬(otherBad t.1 18 || Decidable.decide (bits (t.1.getD 1 0).toNat 17 8 = 0) ||
      Decidable.decide (512 < bits (t.1.getD 1 0).toNat 17 8)) = true := by
    simp only [t, hgood, Bool.false_or, Bool.or_eq_true, decide_eq_true_eq]
    omega
  exact (if_neg (State.not_noPacket h)).trans ((if_neg hform).trans (if_neg (Nat.not_lt_of_le hroom)))

end

/-! ### Launches (R361, R364, R393, R399, R433) -/

section
variable {l : Launch} {id ctx : Nat}

theorem State.launch_none (h : s.launchOf id = none) : s.stageRelease id = s ∧ s.launchComplete id = s ∧
    s.preemptStep id = s ∧ s.replayPass id = s :=
  ⟨by rw [State.stageRelease, h], by rw [State.launchComplete, h], by rw [State.preemptStep, h], by rw [State.replayPass, h]⟩

section
variable (hl : s.launchOf id = some l)
include hl

theorem State.stageRelease_running {k : Launch} (hrun : l.state = .running)
    (hk : (s.releaseStage id).launchOf id = some k) : s.stageRelease id =
      if k.passes ≠ 0 then (s.releaseStage id).programPass k (l.nrel = 0 && k.nrel ≠ 0 && !l.resume)
      else s.releaseStage id := by
  have hlater : (Decidable.decide (l.passes ≠ 0) && Decidable.decide (l.pass = 0) && Decidable.decide (l.nrel = 0) &&
      Decidable.decide (l.state = .preparing) && Decidable.decide (l.left = [])) = false := by
    simp [hrun]
  simp only [State.stageRelease, hl, hlater, Bool.false_eq_true, if_false, hk]

theorem State.launchComplete_unmeasured (hpasses : l.passes = 0) : s.launchComplete id = s.complete id := by
  simp [State.launchComplete, hl, hpasses]

theorem State.complete_running (hrun : l.state = .running) (hleft : l.left = []) :
    s.complete id = (s.finish id 0 0).decide := by
  simp [State.complete, hl, hrun, hleft]

theorem State.complete_finished (hfinished : l.state = .finished) : s.complete id =
    if s.hubReadOut l.ctx then s.later (s.tick + 1) 0 (.launchComplete id) else (s.finish id l.status l.cause).decide := by
  simp [State.complete, hl, hfinished]

theorem State.preemptStep_ends (hstate : l.state = .preempting) (himages : l.images ≠ []) : s.preemptStep id =
    let s1 := s.modLaunch id (fun k => { k with state := .preempted, clusters := [] })
    ({ s1 with cores := s1.cores.filter (fun e => !(e.2.launch = id && e.1 < 512)) }.setNoc).decide := by
  rw [State.preemptStep, hl]
  exact (if_neg (not_not_intro hstate)).trans (if_pos himages)

theorem State.replayPass_over (hpasses : l.passes ≠ 0) (hover : partsOver l = true) : s.replayPass id =
    if l.pass + 1 < l.passes then
      (s.passResults l).nextPass l
        (if l.pass = 0 then l.parts.map (fun e => (e.1, (e.2.getD 1 0) ^^^ 0xFFFFFFFF)) else l.sigs)
        (if l.pass = 0 then l.relJob else l.jobBack)
    else (s.passResults l).complete l.id := by
  rw [State.replayPass, hl]
  exact if_neg (by simp [hpasses, hover])

end

/-! ### Kills (R399) -/

/-- The state once each killed launch of a context that is quiet has finished, and the records that waited for them. -/
def State.quietFinished (s : State) (ctx : Nat) : State :=
  ((s.launches.filter (fun l => l.ctx = ctx && l.state = .killing)).foldl
    (fun st l => if st.killQuiet l.id then st.finishKilled l else st) s).killRecords ctx

/-- The launch unit decides where a launch of `s` is gone. -/
def State.decideIfGone (s t : State) : State := if t.launches.length < s.launches.length then t.decide else t

theorem State.killStep_leaving (h : (s.quietFinished ctx).launches.any (fun l => l.ctx = ctx && leaving l) = true) :
    s.killStep ctx = s.decideIfGone ((s.quietFinished ctx).later (s.tick + 1) ctx (.killComplete ctx)) :=
  congrArg s.decideIfGone (if_pos h)

theorem State.killStep_left (h : (s.quietFinished ctx).launches.any (fun l => l.ctx = ctx && leaving l) = false) :
    s.killStep ctx = s.decideIfGone (s.quietFinished ctx) :=
  congrArg s.decideIfGone (if_neg (ne_true_of_eq_false h))

theorem State.quietFinished_one (honly : s.launches = [l]) (hctx : l.ctx = ctx) (hstate : l.state = .killing)
    (hquiet : s.killQuiet l.id = true) : s.quietFinished ctx = (s.finishKilled l).killRecords ctx := by
  simp [State.quietFinished, honly, hctx, hstate, hquiet]

/-- The kill of a context's only launch is over with it. -/
theorem State.killStep_one (honly : s.launches = [l]) (hctx : l.ctx = ctx) (hstate : l.state = .killing)
    (hquiet : s.killQuiet l.id = true) (hgone : ((s.finishKilled l).killRecords ctx).launches = []) :
    s.killStep ctx = ((s.finishKilled l).killRecords ctx).decide := by
  have hone := State.quietFinished_one honly hctx hstate hquiet
  have hleft : (s.quietFinished ctx).launches.any (fun l => l.ctx = ctx && leaving l) = false := by
    rw [hone, hgone]
    rfl
  rw [State.killStep_left hleft, hone, State.decideIfGone, if_pos]
  rw [hgone, honly]
  exact Nat.one_pos

end

/-! ### Sequence swap (R375) -/

section
variable {ctx k n : Nat}

theorem State.swapOutStep_off (h : s.swapOn = false) : s.swapOutStep ctx k = { s with swapAct := none } :=
  if_pos (by rw [h]; rfl)

theorem State.swapOutStep_starts (h : s.swapOn = true) (hidle : s.swapAct = none) (hshort : s.poolCount < s.lowWm) :
    s.swapOutStep ctx k =
      (({ s with swapAct := some (k, 0), swapGone := [], swapFaults := [] }.setFld 0x1530 15 8 k).swapNext ctx k) := by
  simp [State.swapOutStep, h, hidle, hshort]

theorem State.swapOutStep_goesOn {x i : Nat} (h : s.swapOn = true) (hact : s.swapAct = some (x, i)) :
    s.swapOutStep ctx k = if ((s.setFld 0x1530 15 8 x).slotList x).2 ≤ i then (s.setFld 0x1530 15 8 x).swapSlotDone x
      else (s.setFld 0x1530 15 8 x).swapEntry x i := by
  simp only [State.swapOutStep, h, hact, Bool.not_true, Bool.false_eq_true, if_false]

theorem State.swapInStep_noEntry (h : s.faults.find? (fun e => e.written && e.entry = n) = none) : s.swapInStep n = s := by
  rw [State.swapInStep, h]

section
variable {e : FaultE} {a v : Nat}
variable (he : s.faults.find? (fun e => e.written && e.entry = n) = some e)
include he

theorem State.swapInStep_noLeaf (hleaf : (s.leafOf e.ctx e.page).1 = none) :
    s.swapInStep n = (s.leafOf e.ctx e.page).2.retryEntry n := by
  simp only [State.swapInStep, he, hleaf]

variable (hleaf : (s.leafOf e.ctx e.page).1 = some (a, v))
include hleaf

theorem State.swapInStep_resident (hswap : leafSwap v = 0) :
    s.swapInStep n = (s.leafOf e.ctx e.page).2.retryEntry n := by
  simp only [State.swapInStep, he, hleaf, hswap, if_true]

theorem State.swapInStep_waits (hswap : leafSwap v ≠ 0)
    (hwait : leafSwap v = 1 ∨ (s.leafOf e.ctx e.page).2.fwBusy = true ∨ (s.leafOf e.ctx e.page).2.swapOn = false ∨
      (s.leafOf e.ctx e.page).2.poolCount = 0) : s.swapInStep n =
      (s.leafOf e.ctx e.page).2.later ((s.leafOf e.ctx e.page).2.slot63 0) 0 (.swapIn n) := by
  simp only [State.swapInStep, he, hleaf, if_neg hswap]
  refine if_pos ?_
  obtain h | h | h | h := hwait <;> simp [h]

/-- A page that has a frame of the pool to come back to is copied there, and its leaf made resident. -/
theorem State.swapInStep_copies (hswap : leafSwap v ≠ 0) (hout : leafSwap v ≠ 1)
    (hfw : (s.leafOf e.ctx e.page).2.fwBusy = false) (hon : (s.leafOf e.ctx e.page).2.swapOn = true)
    (hpool : 0 < (s.leafOf e.ctx e.page).2.poolCount) : s.swapInStep n =
      let t := (s.leafOf e.ctx e.page).2
      let k := t.poolCount - 1
      let frame := bits (t.peek (t.poolAt k) 8) 51 16 * 0x10000
      let r := t.homeRead 2 (leafFrame v) 1026 0x10000
      let s2 := ((r.2.physWrite frame r.1).setFld 0x1510 31 0 k).physWrite a
        (leBytes 8 (setBits (setBits v 59 58 0) 51 16 (frame / 0x10000)))
      ({ s2 with
        swapUsed := s2.swapUsed.erase ((leafFrame v - s2.swapBase) / 0x10000),
        swapGone := s2.swapGone.erase (leafSeq v) }.countSat 0x1530 31 16 1).retryEntry n := by
  simp only [State.swapInStep, he, hleaf, if_neg hswap]
  exact if_neg (by simp [hout, hfw, hon, hpool.ne'])

end

end

/-! ### Frame barriers (R376 to R378) -/

theorem State.regs_postTime (src dst : Nat) : (s.postTime src dst).2.regs = s.regs := by
  unfold State.postTime
  split
  · rfl
  · split <;> rfl

theorem State.regs_postWord (ctx w : Nat) : (s.postWord ctx w).regs = s.regs := by
  unfold State.postWord
  split
  · exact State.regs_postTime 512 (s.nowCtx ctx (bits w 52 44))
  · rfl

theorem State.reg_triggerDone_ctl (b : Nat) : (s.triggerDone b).reg (barReg b 0) = s.reg (barReg b 0) := by
  have hregs : (s.triggerDone b).regs = (s.countMod (barReg b 4) 63 32 1).regs := State.regs_postWord _ _
  rw [State.reg, hregs]
  exact Laws.reg_setFld_other s _ _ _ _ _ (by simp only [barReg]; omega)

/-- A trigger leaves BAR_CTL as it is. -/
theorem State.reg_barTrigger_ctl (b : Nat) : (s.barTrigger b).reg (barReg b 0) = s.reg (barReg b 0) := by
  have hctl (t : State) (hi lo v : Nat) : (t.setFld (barReg b 4) hi lo v).reg (barReg b 0) = t.reg (barReg b 0) :=
    Laws.reg_setFld_other t _ _ _ _ _ (by simp only [barReg]; omega)
  unfold State.barTrigger
  split
  · split
    · exact hctl _ _ _ _
    · exact hctl _ _ _ _
  · exact State.reg_triggerDone_ctl b

/-- The arrivals that a barrier waits for, at the least one (R377). -/
def State.barTarget (s : State) (b : Nat) : Nat := max 1 (s.fld (barReg b 0) 15 0)

theorem State.barTarget_pos (s : State) (b : Nat) : 0 < s.barTarget b := Nat.lt_of_lt_of_le Nat.one_pos (Nat.le_max_left _ _)

theorem State.barTarget_barTrigger (b : Nat) : (s.barTrigger b).barTarget b = s.barTarget b := by
  rw [State.barTarget, State.fld, State.reg_barTrigger_ctl]
  rfl

theorem State.barCount_below {b k n : Nat} (h : n < s.barTarget b) :
    s.barCount b (k + 1) n = s.setFld (barReg b 4) 31 16 n := if_neg (Nat.not_le_of_lt h)

theorem State.barCount_reached {b k n : Nat} (h : s.barTarget b ≤ n) :
    s.barCount b (k + 1) n = (s.barTrigger b).barCount b k (n - s.barTarget b) := if_pos h

/-- The barrier triggers once for each target's worth of arrivals; the rest counts on. -/
theorem State.barCount_eq (b k : Nat) {n : Nat} (hn : n ≤ k) : s.barCount b k n =
    ((List.replicate (n / s.barTarget b) b).foldl State.barTrigger s).setFld (barReg b 4) 31 16 (n % s.barTarget b) := by
  induction k generalizing s n with
  | zero =>
    obtain rfl : n = 0 := Nat.le_zero.1 hn
    rw [Nat.zero_div, Nat.zero_mod]
    rfl
  | succ k ih =>
    obtain h | h := Nat.lt_or_ge n (s.barTarget b)
    · rw [State.barCount_below h, Nat.div_eq_of_lt h, Nat.mod_eq_of_lt h]
      rfl
    · have hpos := State.barTarget_pos s b
      have htarget : (s.barTrigger b).barTarget b = s.barTarget b := State.barTarget_barTrigger b
      rw [State.barCount_reached h, ih (by omega), htarget, Nat.div_eq_sub_div hpos h, ← Nat.mod_eq_sub_mod h]
      rfl

/-- Arrivals of one cycle are counted together. -/
theorem State.barArrive_eq (b n : Nat) : s.barArrive b n =
    ((List.replicate ((s.fld (barReg b 4) 31 16 + n) / s.barTarget b) b).foldl State.barTrigger s).setFld (barReg b 4) 31 16
      ((s.fld (barReg b 4) 31 16 + n) % s.barTarget b) := State.barCount_eq b _ le_rfl

theorem State.barArrive_below {b n : Nat} (h : s.fld (barReg b 4) 31 16 + n < s.barTarget b) :
    s.barArrive b n = s.setFld (barReg b 4) 31 16 (s.fld (barReg b 4) 31 16 + n) := by
  rw [State.barArrive_eq, Nat.div_eq_of_lt h, Nat.mod_eq_of_lt h]
  rfl

/-- With the last arrival that it waits for a barrier triggers, and counts from 0. -/
theorem State.barArrive_reached {b n : Nat} (h : s.fld (barReg b 4) 31 16 + n = s.barTarget b) :
    ∃ k, s.barArrive b n = (s.barTrigger b).barCount b k 0 := by
  obtain ⟨k, hk⟩ := Nat.exists_eq_succ_of_ne_zero (State.barTarget_pos s b).ne'
  have hcount := State.barCount_reached (k := k) (le_refl (s.barTarget b))
  rw [Nat.sub_self] at hcount
  refine ⟨k, Eq.trans ?_ hcount⟩
  rw [State.barArrive, h]
  exact congrArg (s.barCount b · (s.barTarget b)) hk

/-! ### Encode jobs (R378) -/

section
variable {e : Nat} {j : EncJob}

theorem State.encStart_busy (h : s.sessIdle e = false) : s.encStart e = s := if_neg (by simp [h])

/-- A session that takes a job has it running; on a board without encoders none is taken. -/
theorem State.enc_encStart (hidle : s.sessIdle e = true) (hon : s.fld (0x3050000 + 64 * e) 63 63 = 1)
    (hj : s.enc.find? (fun j => !j.running && j.sess = e) = some j) : (s.encStart e).enc =
      if Config.encoders then modFirst (fun j => !j.running && j.sess = e) (fun k => { k with running := true }) s.enc
      else s.enc := by
  have hbit : bit (s.reg (0x3050000 + 64 * e)) 63 = true := decide_eq_true hon
  simp only [State.encStart, hidle, hbit, hj, Bool.true_and, Bool.and_true]
  split <;> rfl

theorem State.encDone_idle (h : s.enc.find? (fun j => j.running && j.sess = e) = none) : s.encDone e = s := by
  rw [State.encDone, h]

/-- Bytes of a job's ring. -/
def EncJob.size (j : EncJob) : Nat := 2 ^ (bits j.ring.toNat 3 0 + 12)

/-- Where a job's ring begins. -/
def EncJob.base (j : EncJob) : Nat := bits j.ring.toNat 51 12 * 4096

/-- Bytes of the ring that are in use once a bitstream has been added. -/
def State.encUsed (s : State) (b : Nat) : Nat :=
  (s.fld (barReg b 5) 31 0 + 2 ^ 32 - s.fld (barReg b 6) 31 0) % 2 ^ 32 + Config.streamLen s.seq

/-- The bitstream of a job written into its ring, the pages of both translated in `u`; the job completes. -/
def State.encWritten (s u : State) (e : Nat) (j : EncJob) : State :=
  let ctx := s.fld (barReg j.bar 0) 62 59
  let len := Config.streamLen s.seq
  let d := (List.range len).map (Config.streamByte s.seq)
  let o := s.fld (barReg j.bar 5) 31 0 % j.size
  let m := min len (j.size - o)
  let s1 := (u.ctxPut ctx (j.base + o) (d.take m)).ctxPut ctx j.base (d.drop m)
  (({ s1 with seq := s1.seq + 1, enc := s1.enc.erase j }.countMod (barReg j.bar 5) 31 0 len).triggerDone j.bar).soon 0
    [.encodeJobStart e]

variable (hj : s.enc.find? (fun j => j.running && j.sess = e) = some j)
include hj

theorem State.encDone_full (hfull : j.size < s.encUsed j.bar) :
    s.encDone e = s.later (s.tick + 1) 0 (.encodeJobComplete e) := by
  rw [State.encDone, hj]
  exact if_pos hfull

theorem State.encDone_room {u : State} (hroom : s.encUsed j.bar ≤ j.size)
    (hread : (s.encFault (s.fld (barReg j.bar 0) 62 59) .read (frameBytes (s.reg (0x3050000 + 64 * e)) / 0x10000 + 2)
      (bits j.frame.toNat 51 12 * 4096) (frameBytes (s.reg (0x3050000 + 64 * e)))).1 = none)
    (hwrite : (s.encFault (s.fld (barReg j.bar 0) 62 59) .read (frameBytes (s.reg (0x3050000 + 64 * e)) / 0x10000 + 2)
      (bits j.frame.toNat 51 12 * 4096) (frameBytes (s.reg (0x3050000 + 64 * e)))).2.encFault
        (s.fld (barReg j.bar 0) 62 59) .write (j.size / 0x10000 + 2) j.base j.size = (none, u)) :
    s.encDone e = s.encWritten u e j := by
  rw [State.encDone, hj]
  refine (if_neg (Nat.not_lt_of_le hroom)).trans ?_
  rw [EncJob.base, EncJob.size] at hwrite
  simp only [hread, hwrite]
  rfl

end

end

end Sys2Proof.Machine

namespace Sys2Proof.Proofs

open Sys2Proof Sys2Proof.Machine

/-- Settles O56, clause by clause: each event by what its operation of the hub makes of the state. -/
theorem schedulerEvents : Obligations.SchedulerEvents := by
  refine ⟨fun s h => ⟨next_congr (State.launchPacket_none h), next_congr (State.replayPacket_none h),
      next_congr (State.killPacket_none h), next_congr (State.recordPacket_none h)⟩, ?packets, ?noLaunch, ?release, ?ends,
    ?finished, fun s l id hl hstate himages => next_congr (State.preemptStep_ends hl hstate himages),
    fun s l ctx honly hctx hstate hquiet hgone => next_congr (State.killStep_one honly hctx hstate hquiet hgone),
    fun s ctx => ⟨fun h => next_congr (State.killStep_leaving h), fun h => next_congr (State.killStep_left h)⟩,
    ?nextPass, ?lastPass, fun _ => rfl, fun s ctx k h => next_congr (State.swapOutStep_off h),
    fun s ctx k h hidle hshort => next_congr (State.swapOutStep_starts h hidle hshort), ?swapOut,
    fun s n h => next_congr (State.swapInStep_noEntry h), ?swapIn, ?below, ?reached, ?counted, ?encStart, ?encDone,
    fun s e h => next_congr (State.encStart_busy h), fun s e h => next_congr (State.encDone_idle h)⟩
  case packets =>
    intro s h
    refine ⟨fun htype => ?launch, fun hgood => next_congr (State.killPacket_kills h hgood), 
      fun hgood => next_congr (State.replayPacket_replays h hgood (bits_bottom _ 7)), fun hgood k hk hpos hmost => ?record⟩
    case launch => exact next_congr (State.launchPacket_type0 h ((bits_top (by decide) (BitVec.isLt _)).trans htype))
    case record =>
      intro g s1 hroom
      exact next_congr (State.recordPacket_records h hgood hk.symm hpos hmost (bits_bottom _ 7) hroom)
  case noLaunch =>
    intro s id h
    obtain ⟨hrelease, hcomplete, hpreempt, hpass⟩ := State.launch_none h
    exact ⟨next_congr hrelease, next_congr hcomplete, next_congr hpreempt, next_congr hpass⟩
  case release =>
    intro s l id hl hrun u k hk
    have hrelease := State.stageRelease_running hl hrun hk
    exact ⟨fun h => next_congr (hrelease.trans (if_neg (not_not_intro h))), fun h => next_congr (hrelease.trans (if_pos h))⟩
  case ends =>
    exact fun s l id hl hrun hleft hpasses =>
      next_congr ((State.launchComplete_unmeasured hl hpasses).trans (State.complete_running hl hrun hleft))
  case finished =>
    intro s l id hl hfinished hpasses
    have hcomplete := (State.launchComplete_unmeasured hl hpasses).trans (State.complete_finished hl hfinished)
    exact ⟨fun h => next_congr (hcomplete.trans (if_pos h)),
      fun h => next_congr (hcomplete.trans (if_neg (ne_true_of_eq_false h)))⟩
  case nextPass =>
    intro s l id hl hpasses hover hmore hlater
    refine next_congr ((State.replayPass_over hl hpasses hover).trans ?_)
    rw [if_pos hmore, if_neg hlater, if_neg hlater]
  case lastPass =>
    exact fun s l id hl hpasses hover hlast =>
      next_congr ((State.replayPass_over hl hpasses hover).trans (if_neg (Nat.not_lt_of_le hlast)))
  case swapOut =>
    exact fun s ctx k x i hon hact => ⟨fun h => next_congr ((State.swapOutStep_goesOn hon hact).trans (if_pos h)),
      fun h => next_congr ((State.swapOutStep_goesOn hon hact).trans (if_neg (Nat.not_le_of_lt h)))⟩
  case swapIn =>
    exact fun s e n he => ⟨fun hleaf => next_congr (State.swapInStep_noLeaf he hleaf), fun a v hleaf =>
      ⟨fun h => next_congr (State.swapInStep_resident he hleaf h),
        fun h hwait => next_congr (State.swapInStep_waits he hleaf h hwait),
        fun h hout hfw hon hpool => next_congr (State.swapInStep_copies he hleaf h hout hfw hon hpool)⟩⟩
  case below => exact fun s b n _ h => next_congr (State.barArrive_below h)
  case reached => exact fun s b n h => (State.barArrive_reached h).imp fun k hk => next_congr hk
  case counted => exact fun s b n => next_congr (State.barArrive_eq b n)
  case encStart => exact fun s e j hidle hon hj => ⟨_, rfl, State.enc_encStart hidle hon hj⟩
  case encDone =>
    intro s u e j hj b ctx size base len n hread hwrite
    have hsize : j.size = size := congrArg (fun x => 2 ^ (x + 12)) (bits_bottom _ 3)
    rw [← hsize] at hwrite ⊢
    refine next_congr ?_
    split
    next hfull => exact State.encDone_full hj hfull
    next hroom => exact State.encDone_room hj (Nat.le_of_not_lt hroom) hread hwrite

end Sys2Proof.Proofs
end

section
/-! PROOFS. Links, the graticule discipline, phase plans, reduction trees and dispatch groups (R400 to R413, R434; O59). -/

namespace Sys2Proof.Machine

section
variable {s : State}

/-- Bit 63 of a hub register is its field 63..63. -/
theorem State.bit_reg (s : State) (off : Nat) : bit (s.reg off) 63 = Decidable.decide (s.fld off 63 63 = 1) := rfl

theorem State.bit_reg_clear {off : Nat} (h : s.fld off 63 63 = 0) : bit (s.reg off) 63 = false := by
  rw [State.bit_reg, h]
  rfl

theorem State.bit_reg_set {off : Nat} (h : s.fld off 63 63 = 1) : bit (s.reg off) 63 = true := by
  rw [State.bit_reg, h]
  rfl

/-! ### Ports (R400 to R402) -/

section
variable {p ctx n : Nat}

theorem State.flit_none (h : s.nextFlit p = none) : s.flit p true = { s with linkRetry := spSet 0 s.linkRetry p 0 } := by
  simp only [State.flit, h, if_true]

theorem State.flit_some {e : Nat × Flit} (h : s.nextFlit p = some e) : s.flit p true =
    ({ s with linkRetry := spSet 0 s.linkRetry p 0, wire := s.wire.erase e } : State).flitLands p e.2 := by
  simp only [State.flit, h, if_true]

theorem State.flitLands_held {coh pa len : Nat} {op : ReqOp} {data : List (Option Byte)}
    (h : (s.jobOf ctx).state = 2 ∨ (s.jobOf ctx).state = 3) : s.flitLands p (.access ctx coh pa len op data) =
      { s with portHeld := s.portHeld ++ [(p, .access ctx coh pa len op data)] } := if_pos (by simpa using h)

theorem State.flitLands_goes {coh pa len : Nat} {op : ReqOp} {data : List (Option Byte)} (h : (s.jobOf ctx).state < 2) :
    s.flitLands p (.access ctx coh pa len op data) = s.peerAccess p ctx coh pa len op data := by
  refine if_neg ?_
  simp only [Bool.or_eq_true, decide_eq_true_eq]
  omega

theorem State.farResume_notStopped (h : (s.jobOf n).state ≠ 2) (r : Nat) (k : Option Nat) : s.farResume n r k = s := if_neg h

/-- What a flit that is resent can change: neither the retries of ports, nor memory, nor a core. -/
theorem State.lateAnswers_leaves (p : Nat) : (s.lateAnswers p).linkRetry = s.linkRetry ∧ (s.lateAnswers p).mem = s.mem ∧
    (s.lateAnswers p).cores = s.cores := by
  have hall : (fun t : State => (t.linkRetry, t.mem, t.cores)) (s.lateAnswers p) = (s.linkRetry, s.mem, s.cores) := by
    refine foldl_keeps (g := fun t : State => (t.linkRetry, t.mem, t.cores)) (fun t r => ?_) s.reqs s
    exact (apply_ite (fun t : State => (t.linkRetry, t.mem, t.cores)) _ _ _).trans (ite_self _)
  exact ⟨congrArg (·.1) hall, congrArg (·.2.1) hall, congrArg (·.2.2) hall⟩

/-- A bad flit is one retry more of its port. -/
theorem State.flit_bad (p : Nat) : spGet 0 (s.flit p false).linkRetry p = spGet 0 s.linkRetry p + 1 ∧
    (s.flit p false).mem = s.mem ∧ (s.flit p false).cores = s.cores := by
  have hset : spGet 0 (spSet 0 s.linkRetry p (spGet 0 s.linkRetry p + 1)) p = spGet 0 s.linkRetry p + 1 :=
    (Laws.spGet_spSet ..).trans (if_pos rfl)
  generalize ht : s.flit p false = t
  simp only [State.flit, Bool.false_eq_true, if_false] at ht
  split at ht
  · obtain ⟨hretry, hmem, hcores⟩ := State.lateAnswers_leaves (s := { s.countSat (lst p) 47 32 1 with
      linkRetry := spSet 0 s.linkRetry p (spGet 0 s.linkRetry p + 1) }) p
    subst ht
    exact ⟨(congrArg (spGet 0 · p) hretry).trans hset, hmem, hcores⟩
  · subst ht
    exact ⟨hset, rfl, rfl⟩

end

/-! ### The graticule discipline (R403) -/

theorem State.discipline_master (h : s.isMaster = true) (v : Nat) : s.discipline v = s := if_pos h

theorem State.discipline_measures (h : s.isMaster = false) (v : Nat) : (s.discipline v).gratOff = (v : Int) - s.tick ∧
    (s.discipline v).tick = s.tick ∧ (s.discipline v).cores = s.cores := by
  rw [State.discipline, if_neg (ne_true_of_eq_false h)]
  exact ⟨rfl, rfl, rfl⟩

/-! ### Plans: their start and their end (R404 to R407) -/

section
variable {n v : Nat}

theorem State.planStart_busy (h : s.fld (planStat n) 63 63 = 1) : s.planStart n v = s := if_pos (State.bit_reg_set h)

/-- The head of the descriptor that a doorbell write names, the slot being busy by then. -/
def State.planOpened (s : State) (n v : Nat) : Option (List Nat) × State :=
  (s.setFld (planStat n) 63 63 1).planHead n (bits v 51 6 * 64)

/-- The plan that starts: its schedule worked out, and ready at a tick of its own. -/
def planEntry (n ready : Nat) (p : PlanDesc) : PlanE :=
  ⟨n, p, p.head.getD 1 0, planPhases p.n (p.n * p.n) p.counts 0, 0, wN (p.head.getD 3 0), false, [], ready⟩

section
variable {d : List Nat} {p : PlanDesc} {s0 : State} (h : s.fld (planStat n) 63 63 = 0)
include h

theorem State.planStart_noHead (hhead : (s.planOpened n v).1 = none) :
    s.planStart n v = (s.planOpened n v).2.planEnd n 4 0 := by
  unfold State.planOpened at hhead ⊢
  simp only [State.planStart, State.bit_reg_clear h, hhead, Bool.false_eq_true, if_false]

variable (hhead : (s.planOpened n v).1 = some d)
include hhead

theorem State.planStart_format (hbad : planFormat d = true) : s.planStart n v = (s.planOpened n v).2.planEnd n 3 0 := by
  unfold State.planOpened at hhead ⊢
  simp only [State.planStart, State.bit_reg_clear h, hhead, hbad, Bool.false_eq_true, if_true, if_false]

variable (hgood : planFormat d = false)
include hgood

theorem State.planStart_noTables (htables : (s.planOpened n v).2.planTables n (bits v 51 6 * 64) d = (none, s0)) :
    s.planStart n v = s0.planEnd n 4 0 := by
  unfold State.planOpened at hhead htables
  simp only [State.planStart, State.bit_reg_clear h, hhead, hgood, htables, Bool.false_eq_true, if_false]

variable (htables : (s.planOpened n v).2.planTables n (bits v 51 6 * 64) d = (some p, s0))
include htables

theorem State.planStart_differs (hmode : p.mode = 0) (hdiffers : s0.drawBit.1 = true) :
    s.planStart n v = s0.drawBit.2.planEnd n 2 0 := by
  unfold State.planOpened at hhead htables
  simp only [State.planStart, State.bit_reg_clear h, hhead, hgood, htables, hmode, hdiffers, Bool.false_eq_true,
    decide_true, Bool.and_self, if_true, if_false]

/-- A plan that agrees with its peers' begins, or looks again at its deadline where its schedule is not ready before. -/
theorem State.planStart_starts (hagrees : p.mode = 0 → s0.drawBit.1 = false) : s.planStart n v =
    let s1 := s0.drawBit.2
    let e := planEntry n (s.tick + (Config.draw s1.draws).toNat) p
    let s2 := { s1 with draws := s1.draws + 1, plans := s1.plans ++ [e] }
    if e.t0 < e.ready + 4096 then s2.later (max s.tick (e.t0 - 4096)) 0 (.planLate n) else s2.planGo n e := by
  have hgo : (Decidable.decide (p.mode = 0) && s0.drawBit.1) = false := by
    by_cases hmode : p.mode = 0
    · rw [hagrees hmode, Bool.and_false]
    · rw [decide_eq_false hmode, Bool.false_and]
  unfold State.planOpened at hhead htables
  simp only [State.planStart, State.bit_reg_clear h, hhead, hgood, htables, hgo, Bool.false_eq_true, if_false]
  rfl

end

theorem State.plan_none (h : s.plans.find? (fun p => p.ctx = n) = none) (x : Nat) : s.planLate n = s ∧
    s.planPhase n x = s ∧ s.planComplete n = s :=
  ⟨by rw [State.planLate, h], by rw [State.planPhase, h], by rw [State.planComplete, h]⟩

section
variable {e : PlanE} {x : Nat} (he : s.plans.find? (fun p => p.ctx = n) = some e)
include he

theorem State.planLate_frozen (h : 2 ≤ (s.jobOf n).state) : s.planLate n = s.later (s.tick + 1) 0 (.planLate n) := by
  simp only [State.planLate, he, if_pos h]

theorem State.planLate_late (h : (s.jobOf n).state < 2) (hlate : e.t0 ≤ s.tick + 4096) :
    s.planLate n = s.planEnd n 1 0 := by
  simp only [State.planLate, he, if_neg (Nat.not_le_of_lt h), if_pos hlate]

theorem State.planLate_early (h : (s.jobOf n).state < 2) (hearly : s.tick + 4096 < e.t0) : s.planLate n =
    if e.ready + 4096 ≤ e.t0 then s.planGo n e else s.later (e.t0 - 4096) 0 (.planLate n) := by
  simp only [State.planLate, he, if_neg (Nat.not_le_of_lt h), if_neg (Nat.not_le_of_lt hearly)]

theorem State.planComplete_posts : s.planComplete n =
    ((s.postWord n e.post.toNat).planEnd n 0 e.phases.length).countMod (planStat n) 31 0 1 := by
  rw [State.planComplete, he]

theorem State.planPhase_start (hx : x < 1024) : s.planPhase n x = s.phaseStart n x e := by
  rw [State.planPhase, he]
  exact if_pos hx

theorem State.planPhase_block (hx : 1024 ≤ x) : s.planPhase n x = s.phaseBlock n x e := by
  rw [State.planPhase, he]
  exact if_neg (Nat.not_lt_of_le hx)

end

/-! ### Blocks of a plan (R407) -/

theorem State.phaseStart_notDue {e : PlanE} {x : Nat}
    (h : x ≠ e.next ∨ 2 ≤ (s.jobOf n).state ∨ s.tick + 1 < e.t0 + phaseAt e x) : s.phaseStart n x e = s :=
  if_pos (by simpa [or_assoc] using h)

/-- The party that sends block `x`. -/
def blockSender (x : Nat) : Nat := (x / 1024 - 1) % 16

/-- The party that block `x` goes to: of a copy within the chip its sender. -/
def PlanE.blockDest (e : PlanE) (x : Nat) : Nat :=
  if x % 1024 = 1023 then blockSender x else match e.phases[x % 1024]? with
    | some f => (f.2.2.getD (blockSender x) none).getD (blockSender x)
    | none => blockSender x

/-- The number of block `x` among those of its pair. -/
def PlanE.blockIndex (e : PlanE) (x : Nat) : Nat :=
  let b := (x / 1024 - 1) / 32
  if x % 1024 = 1023 then b else movedBefore e.phases (x % 1024) (blockSender x) (e.blockDest x) + b

/-- Block `x` as it is injected. -/
def State.blockRead (s : State) (n x : Nat) (e : PlanE) : Option (List Byte) × State :=
  s.readBlock n (s.party e.desc.mode) e.desc (blockSender x) (e.blockDest x) (e.blockIndex x)

/-- Block `x` as it is performed. -/
def State.blockWritten (s t : State) (n x : Nat) (e : PlanE) (d : List Byte) : Option State :=
  t.writeBlock n (s.party e.desc.mode) e.desc (blockSender x) (e.blockDest x) (e.blockIndex x) d

section
variable {e : PlanE} {x : Nat}

section
variable (hinject : (x / 1024 - 1) / 16 % 2 = 0)
include hinject

theorem State.phaseBlock_injects {d : List Byte} (hread : (s.blockRead n x e).1 = some d) : s.phaseBlock n x e =
    let t := (s.blockRead n x e).2.drawIn 1 640
    let y := blockNo (x % 1024) (blockSender x) ((x / 1024 - 1) / 32) true
    (t.2.modPlan n (fun q => { q with fly := q.fly ++ [(y, d)] })).later (s.tick + t.1) 0 (.planPhase n y) := by
  refine (if_neg (by omega)).trans ?_
  split
  next s1 hnone => exact absurd (hread.symm.trans (congrArg Prod.fst hnone)) (Option.some_ne_none d)
  next d' s1 hsome =>
    obtain rfl : d = d' := Option.some.inj (hread.symm.trans (congrArg Prod.fst hsome))
    rw [show s.blockRead n x e = (some d, s1) from hsome]
    rfl

theorem State.phaseBlock_faultsAtSource (hread : (s.blockRead n x e).1 = none) :
    s.phaseBlock n x e = (s.blockRead n x e).2.planFaults n := by
  refine (if_neg (by omega)).trans ?_
  split
  next s1 hnone => rw [show s.blockRead n x e = (none, s1) from hnone]
  next d s1 hsome => exact absurd ((congrArg Prod.fst hsome).symm.trans hread) (Option.some_ne_none d)

end

/-- The plan without a block that was on its way. -/
def State.landed (s : State) (n x : Nat) : State :=
  s.modPlan n (fun q => { q with fly := q.fly.filter (fun h => h.1 ≠ x) })

section
variable {g : Nat × List Byte} (hperform : (x / 1024 - 1) / 16 % 2 = 1) (hg : e.fly.find? (fun h => h.1 = x) = some g)
include hperform hg

theorem State.phaseBlock_performs {w : State} (hwrite : s.blockWritten (s.landed n x) n x e g.2 = some w) :
    s.phaseBlock n x e = w.planCheck n := by
  refine (if_pos hperform).trans ?_
  rw [hg]
  dsimp only
  split
  next t hsome => exact congrArg (State.planCheck · n) (Option.some.inj (hsome.symm.trans hwrite))
  next hnone => exact absurd (hwrite.symm.trans hnone) (Option.some_ne_none w)

theorem State.phaseBlock_faultsAtDest (hwrite : s.blockWritten (s.landed n x) n x e g.2 = none) :
    s.phaseBlock n x e = (s.landed n x).planFaults n := by
  refine (if_pos hperform).trans ?_
  rw [hg]
  dsimp only
  split
  next t hsome => exact absurd (hsome.symm.trans hwrite) (Option.some_ne_none t)
  next hnone => rfl

end

end

section
variable {ctx m i j k : Nat} {p : PlanDesc}

/-- A block for another chip changes nothing here. -/
theorem State.writeBlock_elsewhere (h : j ≠ m) (d : List Byte) : s.writeBlock ctx (some m) p i j k d = some s :=
  if_neg (by simpa using h.symm)

/-- What a peer sends is free. -/
theorem State.readBlock_peer (h : i ≠ m) (hup : s.flowUp (some m) i j = true) : s.readBlock ctx (some m) p i j k =
    (some ((List.range 4096).map (fun x => Config.drawByte (s.draws + x))), { s with draws := s.draws + 4096 }) :=
  (if_neg (by simp [hup])).trans (if_neg (by simpa using h.symm))

theorem State.readBlock_down (hdown : s.flowUp (some m) i j = false) : s.readBlock ctx (some m) p i j k = (none, s) :=
  if_pos (by simp [hdown])

end

end

/-! ### Trees (R409 to R411) -/

section
variable {t ctx va v n : Nat}

theorem State.treeSet_busy (h : s.fld 0x1A08 63 63 = 1) : s.treeSet v = s := if_pos (State.bit_reg_set h)

theorem State.treeSet_starts (h : s.fld 0x1A08 63 63 = 0) (hv : v < 2 ^ 64) :
    (s.treeSet v).reg 0x1A00 = v ∧ (s.treeSet v).fld 0x1A08 63 63 = 1 := by
  have hset : s.treeSet v = (((s.drawIn 1 2000).2.setReg 0x1A00 v).setFld 0x1A08 63 63 1).later
      (s.tick + (s.drawIn 1 2000).1) 0 .treeCheckDone := if_neg (ne_true_of_eq_false (State.bit_reg_clear h))
  rw [hset]
  constructor
  · refine (Laws.reg_setFld_other _ _ _ _ _ _ (by decide)).trans ((Laws.reg_setReg _ _ _ _).trans ?_)
    rw [if_pos rfl, Nat.mod_eq_of_lt hv]
  · exact State.fld_setFld_top _ 0x1A08 1

theorem State.treeChecked_idle (h : s.fld 0x1A08 63 63 = 0) : s.treeChecked = s :=
  if_pos (by rw [State.bit_reg_clear h]; rfl)

/-- The state in which the check of tree `t` reads its table. -/
def State.treeOpened (s : State) (t : Nat) : State :=
  { s.setFld 0x1A08 63 63 0 with trees := s.trees.filter (fun e => e.1 ≠ t) }

section
variable {s1 s2 : State} {hd b : List Byte} {h0 h1 : Nat} (h : s.fld 0x1A08 63 63 = 1)
  (ht : bits (s.reg 0x1A00) 63 58 = t) (hctx : bits (s.reg 0x1A00) 55 52 = ctx) (hva : bits (s.reg 0x1A00) 51 0 = va)
include h ht hctx hva

theorem State.treeChecked_unread (hread : (s.treeOpened t).ctxBytes ctx va 16 = (none, s1)) :
    s.treeChecked = (s1.setFld 0x1A08 55 48 0x41).treeValid t false := by
  unfold State.treeOpened at hread
  simp only [State.treeChecked, State.bit_reg_set h, ht, hctx, hva, hread, Bool.not_true, Bool.false_eq_true, if_false]

/-- A table that is whole and in order is installed. -/
theorem State.treeChecked_installs (hread : (s.treeOpened t).ctxBytes ctx va 16 = (some hd, s1))
    (h0_eq : leNat (hd.take 8) = h0) (h1_eq : leNat (hd.drop 8) = h1)
    (hbody : s1.ctxBytes ctx (va + 16) (8 * min (bits h0 7 0) 128) = (some b, s2))
    (htopo : treeTopoBad (dwsOf b (min (bits h0 7 0) 128)) = false) (haligned : va % 64 = 0)
    (hformat : treeFormatBad h0 h1 (dwsOf b (min (bits h0 7 0) 128)) = false) : s.treeChecked =
      (({ s2 with trees := s2.trees ++ [(t, ⟨ctx, bits h0 15 8, wN h1, (dwsOf b (min (bits h0 7 0) 128)).map
        (fun w => (nodeParent w, nodeNin w, bits w 17 16, bits w 22 18)), []⟩)] } : State).setFld 0x1A08 55 48 0).treeValid
          t true := by
  unfold State.treeOpened at hread
  simp only [State.treeChecked, State.bit_reg_set h, ht, hctx, hva, hread, h0_eq, h1_eq, hbody, htopo, haligned, hformat,
    Bool.not_true, Bool.false_eq_true, ne_eq, not_true_eq_false, decide_false, Bool.or_self, if_false]
  rfl

end

theorem State.tree_none (h : s.trees.find? (fun e => e.1 = t) = none) (n : Nat) (d : List (Lane × Lane)) :
    s.treeInput t n d = s ∧ s.treeDeliver t = s :=
  ⟨by rw [State.treeInput, h], by rw [State.treeDeliver, h]⟩

section
variable {e : Nat × Tree} {d : List (Lane × Lane)}

/-- The lists of a round that wait at a node. -/
def Tree.waiting (r : Tree) (n : Nat) : List (List (Lane × Lane)) := (r.got.filter (fun g => g.1 = n)).map (·.2)

/-- The core at a node: parent and inputs come first in its entry, then stack and cluster. -/
def nodeCore (x : Nat × Nat × Nat × Nat) : Nat := coreIn (24 * x.2.2.1 + x.2.2.2) 0

section
variable (he : s.trees.find? (fun e => e.1 = t) = some e)
include he

section
variable (hn : n < e.2.nodes.length)
include hn

theorem State.treeInput_waits
    (hshort : (e.2.got.filter (fun g => g.1 = n)).length + 1 < (e.2.nodes.getD n (0xFF, 0, 0, 0)).2.1) :
    s.treeInput t n d = s.modTree t (fun r => { r with got := r.got ++ [(n, d)] }) := by
  rw [State.treeInput, he]
  exact (if_neg (Nat.not_le_of_lt hn)).trans (if_pos (by simpa using hshort))

variable (hlast : (e.2.nodes.getD n (0xFF, 0, 0, 0)).2.1 ≤ (e.2.got.filter (fun g => g.1 = n)).length + 1)
include hlast

/-- The root's list waits for its delivery. -/
theorem State.treeInput_root (hroot : n = 0) : s.treeInput t n d =
    (s.modTree t (fun r => { r with got := r.got.filter (fun g => g.1 ≠ n) ++
      [(rootOut, nodeMerge e.2.k (e.2.waiting n ++ [d]))] })).send (8 + (d.length + 7) / 8)
        (nodeCore (e.2.nodes.getD n (0xFF, 0, 0, 0))) e.2.ctx (.treeRoot t) := by
  rw [State.treeInput, he]
  exact (if_neg (Nat.not_le_of_lt hn)).trans ((if_neg (by simpa using hlast)).trans (if_pos hroot))

/-- A node's list goes on to its parent. -/
theorem State.treeInput_parent (hinner : n ≠ 0) : s.treeInput t n d =
    let x := e.2.nodes.getD n (0xFF, 0, 0, 0)
    let y := e.2.nodes.getD x.1 (0xFF, 0, 0, 0)
    let f := s.forwardTime x.2.2.1 x.2.2.2 y.2.2.1 y.2.2.2
    (f.2.modTree t (fun r => { r with got := r.got.filter (fun g => g.1 ≠ n) })).send
      (8 + (d.length + 7) / 8 + f.1) (nodeCore x) e.2.ctx (.treeIn t x.1 (nodeMerge e.2.k (e.2.waiting n ++ [d]))) := by
  rw [State.treeInput, he]
  exact (if_neg (Nat.not_le_of_lt hn)).trans ((if_neg (by simpa using hlast)).trans (if_neg hinner))

end

theorem State.treeDeliver_toDispatch {g : Nat × List (Lane × Lane)} {k x : Nat}
    (hg : e.2.got.find? (fun g => g.1 = rootOut) = some g) (htarget : e.2.target.getLsbD 63 = true)
    (hk : bits e.2.target.toNat 11 8 = k) (hx : bits e.2.target.toNat 7 0 = x) : s.treeDeliver t =
      let s1 := s.modTree t (fun r => { r with got := r.got.erase g })
      let src := nodeCore (e.2.nodes.getD 0 (0xFF, 0, 0, 0))
      let b := s1.barTime src
      b.2.send b.1 src e.2.ctx (.toDispatch k x g.2) := by
  subst hk hx
  simp only [State.treeDeliver, he, hg, bit_toNat, htarget, if_true]
  rfl

end

end

end

/-! ### Dispatch groups (R413, R434) -/

section
variable {src g x : Nat} {d : List (Lane × Lane)}

theorem State.dispatchList_notSetUp (h : s.fld (dgReg g 0) 63 63 = 0) : s.dispatchList src g x d =
    s.note 4 0x0A 6 (s.fld (dgReg g 0) 62 59) 0x1FF src := by
  refine if_pos ?_
  rw [State.bit_reg_clear h]
  rfl

/-- The first list of an expert in a step is counted; with the last the tables are built. -/
theorem State.dispatchList_counts (h : s.fld (dgReg g 0) 63 63 = 1) (hx : x < s.fld (dgReg g 0) 7 0)
    (hfirst : ∀ e ∈ s.dispatched, ¬(e.1 = g ∧ e.2.1 = x)) : s.dispatchList src g x d =
      let t := ({ s with dispatched := s.dispatched ++ [(g, x, d)] } : State).countMod (dgReg g 4) 7 0 1
      if t.fld (dgReg g 4) 7 0 = s.fld (dgReg g 0) 7 0 then t.dispatchBuild g else t := by
  have hin : ¬(!bit (s.reg (dgReg g 0)) 63 || Decidable.decide (bits (s.reg (dgReg g 0)) 7 0 ≤ x)) = true := by
    rw [State.bit_reg_set h, Bool.not_true, Bool.false_or, decide_eq_true_eq]
    exact Nat.not_le_of_lt hx
  have hother (e : Nat × Nat × List (Lane × Lane)) (he : e ∈ s.dispatched) :
      (Decidable.decide (e.1 = g) && Decidable.decide (e.2.1 = x)) = false := by
    simpa using hfirst e he
  have hagain : s.dispatched.any (fun e => e.1 = g && e.2.1 = x) = false :=
    List.any_eq_false.2 fun e he => ne_true_of_eq_false (hother e he)
  have hkept : s.dispatched.filter (fun e => !(e.1 = g && e.2.1 = x)) = s.dispatched :=
    List.filter_eq_self.2 fun e he => congrArg not (hother e he)
  refine (if_neg hin).trans ?_
  simp only [hagain, hkept, Bool.false_eq_true, if_false]
  rfl

end

end

end Sys2Proof.Machine

namespace Sys2Proof.Proofs

open Sys2Proof Sys2Proof.Machine

/-- Settles O59, clause by clause: each event by what its operation of the hub makes of the state. -/
theorem linkAndTreeEvents : Obligations.LinkAndTreeEvents := by
  refine ⟨fun s p => ⟨fun h => next_congr (State.flit_none h), fun e h => next_congr (State.flit_some h)⟩,
    fun s p ctx coh pa len n f r op data e k =>
      ⟨State.flitLands_held, State.flitLands_goes, rfl, fun h => State.farResume_notStopped h r k⟩,
    fun s p => ⟨_, rfl, State.flit_bad p⟩, fun _ _ _ => ⟨rfl, rfl⟩, fun _ => rfl,
    fun s p v h => next_congr (State.discipline_master h v), fun s p v h => ⟨_, rfl, State.discipline_measures h v⟩,
    fun s n v h => next_congr (State.planStart_busy h), ?plan, fun _ _ _ => rfl, ?noPlan, ?planned, ?blocks,
    fun s e n x h => State.phaseStart_notDue h, fun s v h => next_congr (State.treeSet_busy h),
    fun s v h => ⟨_, rfl, State.treeSet_starts h v.isLt⟩, fun s h => next_congr (State.treeChecked_idle h),
    ?unread, ?installs,
    fun s t n d h => (State.tree_none h n d).imp next_congr next_congr,
    fun s e t n d he hn hshort => next_congr (State.treeInput_waits he hn hshort),
    fun s e t d he hn hlast => next_congr (State.treeInput_root he hn hlast rfl),
    fun s e t n d he hpos hn hlast => next_congr (State.treeInput_parent he hn hlast hpos.ne'),
    fun s e g t he hg htarget => next_congr (State.treeDeliver_toDispatch he hg htarget rfl (bits_bottom _ 7)),
    fun s g x d h => next_congr (State.dispatchList_notSetUp h), ?dispatch⟩
  case plan =>
    exact fun s n v h => ⟨fun hhead => next_congr (State.planStart_noHead h hhead),
      fun d hhead hbad => next_congr (State.planStart_format h hhead hbad),
      fun d s0 hhead hgood htables => next_congr (State.planStart_noTables h hhead hgood htables),
      fun d p s0 hhead hgood htables hmode hdiffers =>
        next_congr (State.planStart_differs h hhead hgood htables hmode hdiffers),
      fun d p s0 hhead hgood htables hagrees => next_congr (State.planStart_starts h hhead hgood htables hagrees)⟩
  case noPlan =>
    intro s n x h
    obtain ⟨hlate, hphase, hcomplete⟩ := State.plan_none h x
    exact ⟨next_congr hlate, next_congr hphase, next_congr hcomplete⟩
  case planned =>
    intro s e n x he
    refine ⟨fun h hlate => next_congr (State.planLate_late he h hlate), fun h => next_congr (State.planLate_frozen he h),
      fun h hearly => next_congr (State.planLate_early he h hearly), next_congr (State.planComplete_posts he),
      fun hx => next_congr (State.planPhase_start he hx), fun hx => ?_⟩
    have hblock := State.planPhase_block he hx
    exact ⟨fun hinject => ⟨fun d hread => next_congr (hblock.trans (State.phaseBlock_injects hinject hread)),
        fun hread => next_congr (hblock.trans (State.phaseBlock_faultsAtSource hinject hread))⟩,
      fun hperform g hg => ⟨fun w hwrite => next_congr (hblock.trans (State.phaseBlock_performs hperform hg hwrite)),
        fun hwrite => next_congr (hblock.trans (State.phaseBlock_faultsAtDest hperform hg hwrite))⟩⟩
  case blocks =>
    exact fun s ctx p m i j k d => ⟨fun h => State.writeBlock_elsewhere h d,
      fun h hup => ⟨_, by rw [List.length_map, List.length_range], State.readBlock_peer h hup⟩, State.readBlock_down⟩
  case unread =>
    intro s h v s0 s1 hread
    exact next_congr (State.treeChecked_unread h rfl rfl (bits_bottom _ 51) hread)
  case installs =>
    intro s h v s0 s1 s2 hd b hread h0 h1 hbody nodes htopo haligned hformat
    have hcount : bits h0 7 0 = h0 % 256 := bits_bottom h0 7
    have hinstalls := State.treeChecked_installs (h0 := h0) (h1 := h1) (s2 := s2) (b := b) h rfl rfl (bits_bottom _ 51) hread
      rfl rfl
    rw [hcount] at hinstalls
    exact next_congr (hinstalls hbody htopo haligned hformat)
  case dispatch =>
    intro s g x d h hx hfirst t
    have hcounts := State.dispatchList_counts (src := s.focus.core) (d := d) h hx hfirst
    exact ⟨fun hmore => next_congr (hcounts.trans (if_neg hmore)), fun hall => next_congr (hcounts.trans (if_pos hall))⟩

end Sys2Proof.Proofs
end

end
